-- ==== Sys2Proof/Word.lean ====
section
/-!
DEFINITION. The word types of the machine (R5, R6) and their plainest arithmetic.
-/

namespace Sys2Proof

/-- A byte of memory (R6). -/
abbrev Byte := BitVec 8

/-- A 32-bit lane value, or a 32-bit instruction word. -/
abbrev Word := BitVec 32

/-- A mask of the 32 lanes of a strand; bit i stands for lane i. -/
abbrev Mask := BitVec 32

/-- A 64-bit value: a b register, an address, a counter. -/
abbrev DWord := BitVec 64

/-- The 32 lane values of a register, lane 0 first (R6). -/
abbrev Lanes := Vector Word 32

/-- The lanes that `f` gives for lanes 0 to 31. -/
def Lanes.tab (f : Nat → Word) : Lanes :=
  ⟨⟨(List.range 32).map f⟩, by simp⟩

/-- Lane `i`; lanes above 31 do not exist and read 0. -/
def Lanes.get (l : Lanes) (i : Nat) : Word := l.toArray.toList.getD i 0

/-- Every lane holds `x`. -/
def Lanes.const (x : Word) : Lanes := Lanes.tab fun _ => x

/-- Lane `i` is in the mask. -/
abbrev Mask.has (m : Mask) (i : Nat) : Bool := m.getLsbD i

/-- The lanes of a mask, lowest first. -/
def Mask.lanes (m : Mask) : List Nat := (List.range 32).filter fun i => m.has i

/-- The mask whose lanes are those `f` accepts. -/
def Mask.of (f : Nat → Bool) : Mask :=
  (List.range 32).foldl (fun (acc : Mask) i => if f i then acc ||| BitVec.ofNat 32 (2 ^ i) else acc) 0

/-- The lowest lane of a mask, 0 for the empty mask. -/
def Mask.lowest (m : Mask) : Nat := (m.lanes).headD 0

/-- Number of lanes of a mask. -/
def Mask.count (m : Mask) : Nat := m.lanes.length

/-- Bits [31:0] of a 64-bit value. -/
abbrev DWord.lo (x : DWord) : Word := x.setWidth 32

/-- Bits [63:32] of a 64-bit value. -/
abbrev DWord.hi (x : DWord) : Word := x.extractLsb' 32 32

/-- The 64-bit value with low half `lo` and high half `hi`. -/
abbrev DWord.pair (lo hi : Word) : DWord := hi ++ lo

/-- The bytes of `x`, `n` of them, least significant first (R6). -/
def bytesLE : Nat → Nat → List Byte
  | 0, _ => []
  | n + 1, x => BitVec.ofNat 8 x :: bytesLE n (x / 256)

/-- The value of a little-endian byte sequence (R6). -/
def natLE : List Byte → Nat
  | [] => 0
  | b :: bs => b.toNat + 256 * natLE bs

end Sys2Proof
end

