-- ==== Sys2Proof/Syntax.lean ====
section
/-!
DEFINITION. The syntax of the machine: the field codes of an instruction word (R18, R36-R43), the arguments of the events
of the operation table, and Instr, one constructor for each row of spec/opcode_table.json.
-/

namespace Sys2Proof

/-- Element types, TYPE codes 0 to 14 (R18, R49); code 15 is reserved. -/
inductive Ty where
  | b32 | s32 | u32 | f32 | f16x2 | bf16x2 | f16 | bf16 | e4m3x4 | e5m2x4 | e2m1x8 | q4x8 | s8x4 | s4x8 | b64
  deriving DecidableEq, Repr

/-- Rounding modes, RND codes 0 to 5 (R70). -/
inductive Rnd where
  | rne | rz | ru | rd | rna | sr
  deriving DecidableEq, Repr

/-- Scopes, SCOPE codes 0 to 4 (R18, R243). -/
inductive Scope where
  | group | cluster | die | device | system
  deriving DecidableEq, Repr

/-- Orderings, ORD codes 0 to 3 (R18). -/
inductive Ord where
  | relaxed | acquire | release | acqRel
  deriving DecidableEq, Repr

/-- The fields of word 0 apart from OP and LEN (R36). -/
structure W0 where
  /-- K, the predicate register, or what the entry makes of it (R159). -/
  k : BitVec 3 := 0
  wa : Bool := false
  wb : Bool := false
  a : BitVec 6 := 0
  b : BitVec 6 := 0
  d : BitVec 6 := 0
  deriving DecidableEq, Repr

/-- The fields of words 0, 1 and 2 of the X96 form (R36, R38, R39). -/
structure X96 where
  w0 : W0 := {}
  /-- XMOD[0], IMMB (R41). -/
  immb : Bool := false
  /-- XMOD[1] (R42). -/
  x1 : Bool := false
  /-- XMOD[2] (R42). -/
  x2 : Bool := false
  func : BitVec 8 := 0
  ord : Ord := .relaxed
  scope : Scope := .group
  sat : Bool := false
  rnd : Rnd := .rne
  ty : Ty := .b32
  wc : Bool := false
  c : BitVec 6 := 0
  /-- Word 2 (R39). -/
  imm : Word := 0
  deriving DecidableEq, Repr

/-- The fields of the BL form (R34, R43). -/
structure BL where
  w0 : W0 := {}
  lit : DWord := 0
  deriving DecidableEq, Repr

/-- The fields of the XL form (R34, R43). -/
structure XL where
  x : X96 := {}
  lit : DWord := 0
  deriving DecidableEq, Repr

/-- The field of the B32-J form (R37). -/
structure J where
  off : BitVec 23 := 0
  deriving DecidableEq, Repr

/-- Where the device places a team: every choice R319, R321 and R335 leave to it. -/
structure Placement where
  cluster : Nat
  /-- One core of the cluster for each group of the team, as global core numbers. -/
  cores : List Nat
  /-- Stack area of each strand, by group and then strand (R319). -/
  stackAreas : List Nat
  /-- Save area of each group (R335). -/
  saves : List Nat
  /-- SSA of each strand, by group and then strand (R105). -/
  ssas : List Nat
  /-- Two fork save areas of each strand, when the kernel has FORK (R282). -/
  forkSaves : List Nat
  /-- Tile save area, when the team has a tile strand (R421). -/
  tileSave : Nat
  deriving DecidableEq, Repr

/-- A unit that an error can be charged to or that can be retired (R456, R462, R465). -/
inductive UnitId where
  | core (n : Nat)
  | mcc (cluster : Nat)
  | band (cluster b : Nat)
  | slice (die s : Nat)
  | pchannel (die q : Nat)
  | island (n : Nat)
  deriving DecidableEq, Repr

/-- What an uncorrectable error was found in (R456, R457, R458). -/
inductive ErrorSource where
  /-- An error of the FP32 unit at the next check point of a strand, in a lane: the bits of the result that come out wrong (R152, R458). -/
  | shadow (strand lane : Nat) (bits : Word)
  /-- Scratchpad, L1 or register storage of a core: the register of a strand that it spoils, if any, the sectors of scratchpads, each a group and
  a sector number, and the sectors of its L1 at these IAs (R457). -/
  | coreStorage (core : Nat) (reg : Option (Nat × Nat)) (scratch : List (Nat × Nat)) (sectors : List Nat)
  /-- The storage of an MCC: a register of a tile strand, if any, and the sectors of its L1. -/
  | mccStorage (cluster : Nat) (reg : Option (Nat × Nat)) (sectors : List Nat)
  | band (cluster b : Nat)
  /-- L2 data or tags of a slice, poisoning the 32-byte sectors at these IAs (R457). -/
  | l2 (die s : Nat) (sectors : List Nat)
  /-- HBM of a pseudo-channel, poisoning the sectors at these IAs. -/
  | hbm (die q : Nat) (sectors : List Nat)
  /-- An island of the hub (R465). -/
  | hubIsland (n : Nat)
  deriving DecidableEq, Repr

/-- The fields of a queue control block whose writes have no behaviour of their own (R312). -/
inductive QField where
  | qbase | cdone | qsize
  deriving DecidableEq, Repr

/-- A relocation record (R308): the image or data block that holds its site, and its 24 bytes. -/
structure Reloc where
  /-- The site lies in a kernel image, else in a data block. -/
  inKernel : Bool
  object : Nat
  bytes : List Byte
  deriving DecidableEq, Repr

/-- A symbol of a code object (R24, R25, R308): a kernel or data block of its own and an offset in it, or a name that another object exports. -/
inductive Symbol where
  | own (inKernel : Bool) (object offset : Nat)
  | foreign (name : List Byte)
  deriving DecidableEq, Repr

/-- A code object with what the loader's caller asks of it (R296, R299, R302). -/
structure CodeObject where
  kernels : List (List Byte)
  datas : List (List Byte)
  symbols : List Symbol
  /-- The symbols it exports: a name, and the symbol's index (R24). -/
  exports : List (List Byte × Nat) := []
  relocs : List Reloc
  /-- Virtual range for kernel images: base and length (R296). -/
  codeRange : Nat × Nat
  /-- Virtual range for data blocks. -/
  dataRange : Nat × Nat
  spillTrap : Bool
  debug : Bool
  /-- STACK written by the loader in place of the assembler's value (R302). -/
  stack : Option Nat
  deriving DecidableEq, Repr

/-- A cell of a bring-up or self-test outcome: a unit that failed (R463, R464). -/
structure TestOutcome where
  failed : List UnitId
  /-- Feature bits that a core's vector pipes lack, by core (R447). -/
  coreLacks : List (Nat × DWord)
  /-- Feature bits that an MCC lacks, by cluster. -/
  mccLacks : List (Nat × DWord)
  deriving DecidableEq, Repr

/-- One constructor for each row of spec/opcode_table.json: the encodings of the instructions, then the events. An
instruction's fields are those of its words; a B32 encoding stands for the X96 encoding with implied values (R40). The
constructors the decoder builds stand first: Lean's code generator builds no constructor with fields past the 244th, so the
events, which come from the agenda and never from the model's own code, stand last. -/
inductive Instr where
  /-- IADD (R126): B32 integer add per lane; the result is affine-closed over U and A sources. -/
  | iadd (o : W0)
  /-- IADD_X96 (R126): X96 integer add, with saturation, type and IMMB options. -/
  | iaddX96 (o : X96)
  /-- ISUB (R126): B32 integer subtract per lane. -/
  | isub (o : W0)
  /-- ISUB_X96 (R126): X96 integer subtract. -/
  | isubX96 (o : X96)
  /-- IMUL (R126): B32 low 32 bits of an integer product. -/
  | imul (o : W0)
  /-- IMUL_X96 (R126): X96 integer multiply. -/
  | imulX96 (o : X96)
  /-- IMULH (R126): B32 high 32 bits of an integer product. -/
  | imulh (o : W0)
  /-- IMULH_X96 (R126): X96 high integer multiply. -/
  | imulhX96 (o : X96)
  /-- IMAD (R126): Integer multiply-add x*y+z, X96 only. -/
  | imad (o : X96)
  /-- IMIN (R126): B32 integer minimum. -/
  | imin (o : W0)
  /-- IMIN_X96 (R126): X96 integer minimum. -/
  | iminX96 (o : X96)
  /-- IMAX (R126): B32 integer maximum. -/
  | imax (o : W0)
  /-- IMAX_X96 (R126): X96 integer maximum. -/
  | imaxX96 (o : X96)
  /-- AND (R126): B32 bitwise and. -/
  | and (o : W0)
  /-- AND_X96 (R126): X96 bitwise and. -/
  | andX96 (o : X96)
  /-- OR (R126): B32 bitwise or. -/
  | or (o : W0)
  /-- OR_X96 (R126): X96 bitwise or. -/
  | orX96 (o : X96)
  /-- XOR (R126): B32 bitwise exclusive or. -/
  | xor (o : W0)
  /-- XOR_X96 (R126): X96 bitwise exclusive or. -/
  | xorX96 (o : X96)
  /-- ANDN (R126): B32 x AND NOT y. -/
  | andn (o : W0)
  /-- ANDN_X96 (R126): X96 x AND NOT y. -/
  | andnX96 (o : X96)
  /-- SHL (R127): B32 shift left; counts of 32 or more give 0. -/
  | shl (o : W0)
  /-- SHL_X96 (R127): X96 shift left. -/
  | shlX96 (o : X96)
  /-- SHR (R127): B32 logical shift right. -/
  | shr (o : W0)
  /-- SHR_X96 (R127): X96 logical shift right. -/
  | shrX96 (o : X96)
  /-- SAR (R127): B32 arithmetic shift right. -/
  | sar (o : W0)
  /-- SAR_X96 (R127): X96 arithmetic shift right. -/
  | sarX96 (o : X96)
  /-- INEG (R128): B32 integer negate. -/
  | ineg (o : W0)
  /-- INEG_X96 (R128): X96 integer negate. -/
  | inegX96 (o : X96)
  /-- IABS (R128): B32 integer absolute value. -/
  | iabs (o : W0)
  /-- IABS_X96 (R128): X96 integer absolute value. -/
  | iabsX96 (o : X96)
  /-- NOT (R128): B32 bitwise complement. -/
  | not (o : W0)
  /-- NOT_X96 (R128): X96 bitwise complement. -/
  | notX96 (o : X96)
  /-- POPC (R128): B32 population count. -/
  | popc (o : W0)
  /-- POPC_X96 (R128): X96 population count. -/
  | popcX96 (o : X96)
  /-- CLZ (R128): B32 count of leading zeros. -/
  | clz (o : W0)
  /-- CLZ_X96 (R128): X96 count of leading zeros. -/
  | clzX96 (o : X96)
  /-- BREV (R128): B32 bit reversal. -/
  | brev (o : W0)
  /-- BREV_X96 (R128): X96 bit reversal. -/
  | brevX96 (o : X96)
  /-- BFE (R129): B32 bit-field extract. -/
  | bfe (o : W0)
  /-- BFE_X96 (R129): X96 bit-field extract. -/
  | bfeX96 (o : X96)
  /-- BFI (R129): Bit-field insert into z, X96 only. -/
  | bfi (o : X96)
  /-- ICMP (R130): B32 integer compare (eq, s32) writing a k register under the mask. -/
  | icmp (o : W0)
  /-- ICMP_X96 (R130): X96 integer compare with any condition and type. -/
  | icmpX96 (o : X96)
  /-- ISEL (R131): B32 lane select by k[K]; no predicate. -/
  | isel (o : W0)
  /-- ISEL_X96 (R131): X96 lane select. -/
  | iselX96 (o : X96)
  /-- BADD (R122): B32 add of a uniform v value to a b register. -/
  | badd (o : W0)
  /-- BADD_X96 (R122): X96 b-register add, with IMMB. -/
  | baddX96 (o : X96)
  /-- BMOV (R122): B32 move of a uniform v pair into a b register. -/
  | bmov (o : W0)
  /-- BMOV_X96 (R122): X96 v-pair to b move. -/
  | bmovX96 (o : X96)
  /-- BGET (R122): B32 copy of a b register into a uniform v pair. -/
  | bget (o : W0)
  /-- BGET_X96 (R122): X96 b to v-pair move. -/
  | bgetX96 (o : X96)
  /-- BLIT (R122): BL load of a 64-bit literal into a b register. -/
  | blit (o : BL)
  /-- MOV (R115): B32 register copy keeping the source shape. -/
  | mov (o : W0)
  /-- MOV_X96 (R115): X96 register copy. -/
  | movX96 (o : X96)
  /-- MOVI (R115): BL write of a 32-bit constant as U. -/
  | movi (o : BL)
  /-- LANE (R116): B32 build of an affine sequence base + i*stride. -/
  | lane (o : W0)
  /-- LANE_X96 (R116): X96 affine build, with IMMB. -/
  | laneX96 (o : X96)
  /-- SHAPE (R117): B32 read of a register's shape code without waiting. -/
  | shape (o : W0)
  /-- SHAPE_X96 (R117): X96 shape read. -/
  | shapeX96 (o : X96)
  /-- SHAPEA (R118): B32 assertion of an allowed shape set; raises SHAPE-ASSERT. -/
  | shapea (o : W0)
  /-- SHAPEA_X96 (R118): X96 shape assertion. -/
  | shapeaX96 (o : X96)
  /-- SHAPEF (R119): B32 copy forcing vector storage, resident or spilled. -/
  | shapef (o : W0)
  /-- SHAPEF_X96 (R119): X96 forced vector copy. -/
  | shapefX96 (o : X96)
  /-- SQZ (R120): B32 narrowing of a register to its most compact shape. -/
  | sqz (o : W0)
  /-- SQZ_X96 (R120): X96 squeeze. -/
  | sqzX96 (o : X96)
  /-- BCAST (R121): B32 broadcast of one lane as U. -/
  | bcast (o : W0)
  /-- BCAST_X96 (R121): X96 broadcast. -/
  | bcastX96 (o : X96)
  /-- SHFL (R136): B32 lane shuffle (pick). -/
  | shfl (o : W0)
  /-- SHFL_X96 (R136): X96 lane shuffle: pick, rot, seg or flip. -/
  | shflX96 (o : X96)
  /-- VOTE (R137): B32 vote (all) into a k register. -/
  | vote (o : W0)
  /-- VOTE_X96 (R137): X96 vote: all, any, ballot or eq. -/
  | voteX96 (o : X96)
  /-- LRED (R138): B32 lane reduction (add, s32) over the fixed tree. -/
  | lred (o : W0)
  /-- LRED_X96 (R138): X96 lane reduction with any function and type. -/
  | lredX96 (o : X96)
  /-- GID (R139): B32 read of the lane index. -/
  | gid (o : W0)
  /-- GID_X96 (R139): X96 read of identity or trap state by FUNC. -/
  | gidX96 (o : X96)
  /-- KAND (R132): B32 and of two k registers. -/
  | kand (o : W0)
  /-- KAND_X96 (R132): X96 k and. -/
  | kandX96 (o : X96)
  /-- KOR (R132): B32 or of two k registers. -/
  | kor (o : W0)
  /-- KOR_X96 (R132): X96 k or. -/
  | korX96 (o : X96)
  /-- KXOR (R132): B32 exclusive or of two k registers. -/
  | kxor (o : W0)
  /-- KXOR_X96 (R132): X96 k xor. -/
  | kxorX96 (o : X96)
  /-- KANDN (R132): B32 k[A] AND NOT k[E]. -/
  | kandn (o : W0)
  /-- KANDN_X96 (R132): X96 k and-not. -/
  | kandnX96 (o : X96)
  /-- KNOT (R132): B32 complement of a k register. -/
  | knot (o : W0)
  /-- KNOT_X96 (R132): X96 k complement. -/
  | knotX96 (o : X96)
  /-- KMOV (R132): B32 copy of a k register. -/
  | kmov (o : W0)
  /-- KMOV_X96 (R132): X96 k copy. -/
  | kmovX96 (o : X96)
  /-- KSET (R133): B32 build of a mask from a uniform v value. -/
  | kset (o : W0)
  /-- KSET_X96 (R133): X96 mask build, with the .lanes option. -/
  | ksetX96 (o : X96)
  /-- KPOP (R134): B32 count of the 1 bits of a k register. -/
  | kpop (o : W0)
  /-- KPOP_X96 (R134): X96 k population count. -/
  | kpopX96 (o : X96)
  /-- KGET (R134): B32 copy of a k register into a U v register. -/
  | kget (o : W0)
  /-- KGET_X96 (R134): X96 k read. -/
  | kgetX96 (o : X96)
  /-- FADD (R140): B32 floating-point add, rounded once. -/
  | fadd (o : W0)
  /-- FADD_X96 (R140): X96 floating-point add. -/
  | faddX96 (o : X96)
  /-- FSUB (R140): B32 floating-point subtract. -/
  | fsub (o : W0)
  /-- FSUB_X96 (R140): X96 floating-point subtract. -/
  | fsubX96 (o : X96)
  /-- FMUL (R140): B32 floating-point multiply. -/
  | fmul (o : W0)
  /-- FMUL_X96 (R140): X96 floating-point multiply. -/
  | fmulX96 (o : X96)
  /-- FFMA (R140): B32 fused multiply-add accumulating into v[D]. -/
  | ffma (o : W0)
  /-- FFMA_X96 (R140): X96 fused multiply-add with an explicit C. -/
  | ffmaX96 (o : X96)
  /-- FMIN (R141): B32 floating-point minimum. -/
  | fmin (o : W0)
  /-- FMIN_X96 (R141): X96 floating-point minimum. -/
  | fminX96 (o : X96)
  /-- FMAX (R141): B32 floating-point maximum. -/
  | fmax (o : W0)
  /-- FMAX_X96 (R141): X96 floating-point maximum. -/
  | fmaxX96 (o : X96)
  /-- FCMP (R142): B32 f32 compare (eq) into a k register. -/
  | fcmp (o : W0)
  /-- FCMP_X96 (R142): X96 f32 compare with any condition. -/
  | fcmpX96 (o : X96)
  /-- FNEG (R143): B32 sign flip, with canonical NaN. -/
  | fneg (o : W0)
  /-- FNEG_X96 (R143): X96 sign flip. -/
  | fnegX96 (o : X96)
  /-- FABS (R143): B32 sign clear. -/
  | fabs (o : W0)
  /-- FABS_X96 (R143): X96 sign clear. -/
  | fabsX96 (o : X96)
  /-- FRCP (R144): B32 reciprocal within 1 ulp. -/
  | frcp (o : W0)
  /-- FRCP_X96 (R144): X96 reciprocal. -/
  | frcpX96 (o : X96)
  /-- FRSQ (R144): B32 reciprocal square root. -/
  | frsq (o : W0)
  /-- FRSQ_X96 (R144): X96 reciprocal square root. -/
  | frsqX96 (o : X96)
  /-- FSQRT (R144): B32 correctly rounded square root. -/
  | fsqrt (o : W0)
  /-- FSQRT_X96 (R144): X96 square root. -/
  | fsqrtX96 (o : X96)
  /-- FEXP2 (R144): B32 base-2 exponential. -/
  | fexp2 (o : W0)
  /-- FEXP2_X96 (R144): X96 base-2 exponential. -/
  | fexp2X96 (o : X96)
  /-- FLOG2 (R144): B32 base-2 logarithm. -/
  | flog2 (o : W0)
  /-- FLOG2_X96 (R144): X96 base-2 logarithm. -/
  | flog2X96 (o : X96)
  /-- FSIN (R144): B32 sine. -/
  | fsin (o : W0)
  /-- FSIN_X96 (R144): X96 sine. -/
  | fsinX96 (o : X96)
  /-- FCOS (R144): B32 cosine. -/
  | fcos (o : W0)
  /-- FCOS_X96 (R144): X96 cosine. -/
  | fcosX96 (o : X96)
  /-- FTANH (R144): B32 hyperbolic tangent. -/
  | ftanh (o : W0)
  /-- FTANH_X96 (R144): X96 hyperbolic tangent. -/
  | ftanhX96 (o : X96)
  /-- FCLASS (R145): B32 one-hot class mask of an f32 value. -/
  | fclass (o : W0)
  /-- FCLASS_X96 (R145): X96 classification. -/
  | fclassX96 (o : X96)
  /-- CVT (R147): B32 conversion from f32 to s32. -/
  | cvt (o : W0)
  /-- CVT_X96 (R147): X96 conversion between scalar and packed formats. -/
  | cvtX96 (o : X96)
  /-- CVTQ (R149): Quantise an f32 lane under a multiplier into a packed element, with an optional amax update; X96 only. -/
  | cvtq (o : X96)
  /-- CVTD (R148): B32 conversion of an element multiplied by a scale. -/
  | cvtd (o : W0)
  /-- CVTD_X96 (R148): X96 scaled conversion. -/
  | cvtdX96 (o : X96)
  /-- AMAX (R150): B32 update of an amax register from decoded elements. -/
  | amax (o : W0)
  /-- AMAX_X96 (R150): X96 amax update with a source format. -/
  | amaxX96 (o : X96)
  /-- AMGET (R151): B32 read, clear or atomic get-and-clear of an amax register. -/
  | amget (o : W0)
  /-- AMGET_X96 (R151): X96 amax read or clear. -/
  | amgetX96 (o : X96)
  /-- JMP (R170): Unpredicated B32-J jump by a block offset. -/
  | jmp (o : J)
  /-- CALL (R170): Unpredicated B32-J call that pushes a return entry. -/
  | call (o : J)
  /-- BR (R171): Divergent branch that arms a j register and may split the path; X96 only. -/
  | br (o : X96)
  /-- BRU (R172): Branch that must not split; raises DIVERGE; X96 only. -/
  | bru (o : X96)
  /-- JOIN (R173): B32 rejoin point: arrive, merge or park. -/
  | join (o : W0)
  /-- JOIN_X96 (R173): X96 rejoin point. -/
  | joinX96 (o : X96)
  /-- RET (R175): B32 return, the implicit join of its call. -/
  | ret (o : W0)
  /-- RET_X96 (R175): X96 return. -/
  | retX96 (o : X96)
  /-- JMPI (R176): B32 indirect jump through a b register. -/
  | jmpi (o : W0)
  /-- JMPI_X96 (R176): X96 indirect jump. -/
  | jmpiX96 (o : X96)
  /-- CALLI (R176): B32 indirect call through a b register. -/
  | calli (o : W0)
  /-- CALLI_X96 (R176): X96 indirect call. -/
  | calliX96 (o : X96)
  /-- FCALL (R273): XL forkable call that may start a speculative continuation. -/
  | fcall (o : XL)
  /-- EXIT (R177): B32 end of the lanes of the effective mask. -/
  | exit (o : W0)
  /-- EXIT_X96 (R177): X96 lane exit. -/
  | exitX96 (o : X96)
  /-- JGET (R178): B32 copy of a j register into four U v registers. -/
  | jget (o : W0)
  /-- JGET_X96 (R178): X96 j read. -/
  | jgetX96 (o : X96)
  /-- JPUT (R178): Write of a j register from four U v registers; X96 only. -/
  | jput (o : X96)
  /-- TRAP (R179): B32 software trap SW. -/
  | trap (o : W0)
  /-- TRAP_X96 (R179): X96 software trap. -/
  | trapX96 (o : X96)
  /-- THRET (R179): B32 end of handler mode with retry or skip. -/
  | thret (o : W0)
  /-- THRET_X96 (R179): X96 handler return. -/
  | thretX96 (o : X96)
  /-- LD (R224): B32 global load of a run per lane. -/
  | ld (o : W0)
  /-- LD_X96 (R224): X96 global load with scale, count, scope, order and offset. -/
  | ldX96 (o : X96)
  /-- ST (R225): B32 global store. -/
  | st (o : W0)
  /-- ST_X96 (R225): X96 global store. -/
  | stX96 (o : X96)
  /-- LDS (R226): B32 own-scratchpad load. -/
  | lds (o : W0)
  /-- LDS_X96 (R226): X96 scratchpad load. -/
  | ldsX96 (o : X96)
  /-- STS (R226): B32 own-scratchpad store. -/
  | sts (o : W0)
  /-- STS_X96 (R226): X96 scratchpad store. -/
  | stsX96 (o : X96)
  /-- LDP (R227): B32 load from a peer group's scratchpad. -/
  | ldp (o : W0)
  /-- LDP_X96 (R227): X96 peer load. -/
  | ldpX96 (o : X96)
  /-- STP (R228): B32 store into a peer group's scratchpad. -/
  | stp (o : W0)
  /-- STP_X96 (R228): X96 peer store, with multicast. -/
  | stpX96 (o : X96)
  /-- LDF (R230): B32 load that waits for full words and empties them. -/
  | ldf (o : W0)
  /-- LDF_X96 (R230): X96 full/empty consuming load. -/
  | ldfX96 (o : X96)
  /-- LDFK (R230): B32 load that waits for full words and keeps them full. -/
  | ldfk (o : W0)
  /-- LDFK_X96 (R230): X96 full/empty keeping load. -/
  | ldfkX96 (o : X96)
  /-- STF (R231): B32 store that waits for empty words and fills them. -/
  | stf (o : W0)
  /-- STF_X96 (R231): X96 full/empty store. -/
  | stfX96 (o : X96)
  /-- FESET (R232): B32 marking of scratchpad words empty. -/
  | feset (o : W0)
  /-- FESET_X96 (R232): X96 marking of scratchpad words full or empty. -/
  | fesetX96 (o : X96)
  /-- LDT (R423): B32 transposing fragment load of 16-bit elements from scratchpad. -/
  | ldt (o : W0)
  /-- LDT_X96 (R423): X96 transposing load. -/
  | ldtX96 (o : X96)
  /-- STCT (R385): Convert, transpose and store a register tile as rows; X96 only. -/
  | stct (o : X96)
  /-- STZ (R388): B32 append of a bitmask-plus-values record to a packed area. -/
  | stz (o : W0)
  /-- STZ_X96 (R388): X96 packed append. -/
  | stzX96 (o : X96)
  /-- LDZ (R389): B32 expansion of one packed record into a register run. -/
  | ldz (o : W0)
  /-- LDZ_X96 (R389): X96 packed expansion. -/
  | ldzX96 (o : X96)
  /-- PREF (R234): B32 prefetch of lines to L2. -/
  | pref (o : W0)
  /-- PREF_X96 (R234): X96 prefetch to L2 or L1, or zero-line creation. -/
  | prefX96 (o : X96)
  /-- CWB (R235): B32 cache write-back of lines. -/
  | cwb (o : W0)
  /-- CWB_X96 (R235): X96 cache write-back, invalidate or both at a scope. -/
  | cwbX96 (o : X96)
  /-- ATOM (R261): Atomic read-modify-write returning the old value; X96 only. -/
  | atom (o : X96)
  /-- RED (R263): B32 atomic reduction returning nothing. -/
  | red (o : W0)
  /-- RED_X96 (R263): X96 atomic reduction. -/
  | redX96 (o : X96)
  /-- ACAS (R264): Atomic compare and swap; X96 only. -/
  | acas (o : X96)
  /-- FENCE (R265): B32 full fence at group scope. -/
  | fence (o : W0)
  /-- FENCE_X96 (R265): X96 full, acquire or release fence at a scope. -/
  | fenceX96 (o : X96)
  /-- XFENCE (R375): Cross-class fence between access classes; X96 only. -/
  | xfence (o : X96)
  /-- PUBLISH (R270): B32 advance of the context's publication counter. -/
  | publish (o : W0)
  /-- PUBLISH_X96 (R270): X96 publication with an offset. -/
  | publishX96 (o : X96)
  /-- CHUNK (R327): B32 take of one guided chunk from a chunk record. -/
  | chunk (o : W0)
  /-- CHUNK_X96 (R327): X96 chunk take with an offset. -/
  | chunkX96 (o : X96)
  /-- LAUNCH (R325): B32 submission of a launch entry to a device-submitted queue. -/
  | launch (o : W0)
  /-- LAUNCH_X96 (R325): X96 launch with an offset. -/
  | launchX96 (o : X96)
  /-- BAR (R349): B32 group barrier post (arrive). -/
  | bar (o : W0)
  /-- BAR_X96 (R349): X96 group barrier post, hold or meet. -/
  | barX96 (o : X96)
  /-- PHREG (R356): Registration of a phaser member in a mode. -/
  | phreg (o : X96)
  /-- PHDROP (R356): Drop of a phaser member. -/
  | phdrop (o : X96)
  /-- PHSIG (R356): Phaser signal for the current phase. -/
  | phsig (o : X96)
  /-- PHWAIT (R356): Wait until the phaser passes phase p. -/
  | phwait (o : X96)
  /-- PHSW (R356): Phaser signal, then wait. -/
  | phsw (o : X96)
  /-- PHQ (R356): Read of a phaser's current phase. -/
  | phq (o : X96)
  /-- RDEF (R365): Definition of a ring from a declared area and class sets. -/
  | rdef (o : X96)
  /-- RACQ (R365): Producer acquire of a free ring slot. -/
  | racq (o : X96)
  /-- RPUB (R365): Publication of the oldest acquired ring slot. -/
  | rpub (o : X96)
  /-- RGET (R365): Consumer get of a filled ring slot. -/
  | rget (o : X96)
  /-- RREL (R365): Release of the oldest got ring slot. -/
  | rrel (o : X96)
  /-- CPY (R380): Start of an asynchronous copy on a copy engine. -/
  | cpy (o : X96)
  /-- CPYW (R383): Wait until at most n copies of the strand are outstanding. -/
  | cpyw (o : X96)
  /-- WLD (R408): B32 entry of a weight-load task into the dependency table. -/
  | wld (o : W0)
  /-- WLD_X96 (R408): X96 weight-load task with a control word. -/
  | wldX96 (o : X96)
  /-- WSWAP (R409): Exchange of the active and shadow weight planes. -/
  | wswap (o : X96)
  /-- MMA (R412): XL entry of a matrix multiply-accumulate task. -/
  | mma (o : XL)
  /-- MDRAIN (R414): Entry of an accumulator drain task into a ring slot. -/
  | mdrain (o : X96)
  /-- ASHAPE (R415): Request for a set of logical array bands. -/
  | ashape (o : X96)
  /-- TWAIT (R416): Wait until a ticket is satisfied. -/
  | twait (o : X96)
  /-- TQRY (R417): Query of a ticket state or of the dependency table. -/
  | tqry (o : X96)
  /-- YIELD (R343): B32 offer of the team for pre-emption. -/
  | yield (o : W0)
  /-- YIELD_X96 (R343): X96 yield. -/
  | yieldX96 (o : X96)
  /-- SLEEP (R344): Block for n cluster cycles. -/
  | sleep (o : X96)
  /-- CROPEN (R460): Open a containment region frame. -/
  | cropen (o : X96)
  /-- CRCLOSE (R460): Close a containment region or end an unwind handler. -/
  | crclose (o : X96)
  /-- MAPV (R454): Read of the current or acknowledged map version. -/
  | mapv (o : X96)
  /-- MAPACK (R455): Acknowledgement of map versions up to n. -/
  | mapack (o : X96)
  /-- FEAT (R454): Read of the core's or the kernel's feature mask. -/
  | feat (o : X96)
  /-- CLK (R476): Read of the cluster cycle counter. -/
  | clk (o : X96)
  /-- PMRD (R476): Read of a context counter. -/
  | pmrd (o : X96)
  /-- PMCFG (R476): Selection of the event of a context counter 11-15. -/
  | pmcfg (o : X96)
  /-- PROG (R476): Count of a progress point and post of a trace record. -/
  | prog (o : X96)
  /-- UDF (R56): major 0x7F with any field contents; its word 0. -/
  | udf (w : Word)
  /-- NON_INSTRUCTION (R56): Fetch of an encoding that is no instruction; raises a precise ILLEGAL trap. -/
  | nonInstruction (w : Word)
  /-- NOP (R53): B32 no-operation; the all-zero word, which also fills alignment padding, and the same word with a predicate. -/
  | nop (o : W0)
  /-- NOP_X96 (R53): X96 encoding of the no-operation. -/
  | nopX96 (o : X96)
  /-- YIELDP (R174): B32 exchange of the current path with the top pending path. -/
  | yieldp
  /-- YIELDP_X96 (R174): X96 path yield. -/
  | yieldpX96
  /-- PRODUCER_COMPLETE (R110): A long-latency producer's value merges into its destination, which becomes full. -/
  | producerComplete (producer : Nat)
  /-- TRAP_DELIVERY (R180): Delivery of a raised trap to the handler once earlier producers complete. -/
  | trapDelivery (strand : Nat)
  /-- MAP_TRAP_DELIVERY (R450): A MAP trap is delivered to the map handler before the next instruction issues. -/
  | mapTrapDelivery (strand : Nat)
  /-- CONTAINMENT_UNWIND (R461): POISON or SHADOW inside a region unwinds to the region's handler. -/
  | containmentUnwind (strand : Nat)
  /-- STRAND_EXITED (R177): A strand with no live lanes and no producers in flight enters exited. -/
  | strandExited (strand : Nat)
  /-- FORK_RESOLUTION (R288): When the return entry completes and the return registers are full, the fork is checked. -/
  | forkResolution (strand : Nat)
  /-- TEAM_PLACE (R321): A pending team is placed whole on cores of one cluster once resources allow. -/
  | teamPlace (launch team : Nat) (p : Placement)
  /-- LEVEL_RISE (R320): A pending group's level rises by 1 after each full 10 ms of waiting. -/
  | levelRise (launch team : Nat)
  /-- PRIORITY_PREEMPT (R322): After 50 us at a higher level, a pending team pre-empts a running group. -/
  | priorityPreempt (launch team victim : Nat)
  /-- PREEMPT_TIMEOUT (R334): A strand passing 2^20 instructions without a listed point faults its group. -/
  | preemptTimeout (strand : Nat)
  /-- GROUP_SAVE (R334): After the drain, strand and group state are written to the SSAs and the save record. -/
  | groupSave (group : Nat)
  /-- SLEEP_WAKE (R344): A sleeping strand wakes when the cluster counter has advanced by n. -/
  | sleepWake (strand : Nat)
  /-- OPERATING_POINT_CHANGE (R341): An island's voltage and frequency change once no group is placed on the core. -/
  | operatingPointChange (island : Nat)
  /-- PHASER_POLL (R359): An unsubscribed phaser wait re-reads its record every 1,024 L2 cycles. -/
  | phaserPoll (strand : Nat)
  /-- ACCESS_PERFORMED (R249): A memory access takes its place in coherence order and becomes visible. -/
  | accessPerformed (access : Nat)
  /-- RELEASE_WRITE_PERFORMED (R256): A held release write is performed at its home slice once its counted writes are. -/
  | releaseWritePerformed (access : Nat)
  /-- PUBLISH_INCREMENT (R269): The hub increments the publication counter after the PUBLISH's writes are performed. -/
  | publishIncrement (access : Nat)
  /-- FIRST_TOUCH (R202): An unplaced page is placed in a zero-filled frame, after waiting for a usable frame. -/
  | firstTouch (ia frame : Nat)
  /-- HOST_APERTURE_WRITE (R268): A host write through the aperture is performed at the home slice. -/
  | hostApertureWrite (func link ia : Nat) (bytes : List Byte)
  /-- HOST_APERTURE_READ (R267): A host read through the aperture is served at the home slice. -/
  | hostApertureRead (func link ia n : Nat)
  /-- PEER_DMA_TRANSFER (R491): A peer-port transfer of class H arrives for the host aperture. -/
  | peerDmaTransfer (port : Nat) (write : Bool) (ia n : Nat) (bytes : List Byte)
  /-- QUEUE_DOORBELL (R312): A host write of TAIL submits queue entries. -/
  | queueDoorbell (func ctx q : Nat) (tail : BitVec 32)
  /-- QUEUE_CTRL_ENABLE (R318): CTRL enable starts a queue with HEAD set to TAIL. -/
  | queueCtrlEnable (func ctx q : Nat)
  /-- QUEUE_CTRL_DISABLE (R318): Clearing CTRL enable stops fetching and abandons waiting entries. -/
  | queueCtrlDisable (func ctx q : Nat)
  /-- QUEUE_CTRL_RESUME (R318): CTRL resume restarts a halted queue past the failed entry. -/
  | queueCtrlResume (func ctx q : Nat)
  /-- QUEUE_CTRL_RESET (R318): CTRL reset drops unstarted entries and returns the queue to idle. -/
  | queueCtrlReset (func ctx q : Nat)
  /-- QUEUE_CTRL_DEVSUB (R312): CTRL DEVSUB, written while disabled, chooses host or LAUNCH submission. -/
  | queueCtrlDevsub (func ctx q : Nat) (devsub : Bool)
  /-- REGISTER_WRITE (R312): A host write of a control-block field with no behaviour of its own, such as QBASE, QSIZE or CDONE. -/
  | registerWrite (func ctx q : Nat) (field : QField) (value : DWord)
  /-- EQHEAD_WRITE (R438): A host write of EQHEAD consumes event-queue slots. -/
  | eqheadWrite (func ctx : Nat) (value : BitVec 32)
  /-- QUEUE_FETCH (R313): The front end fetches the entry at HEAD and starts it. -/
  | queueFetch (ctx q : Nat)
  /-- LAUNCH_ENTRY (R316): Admission of a launch entry: checks, team creation and lease translation. -/
  | launchEntry (ctx q : Nat)
  /-- WAIT_ENTRY (R313): A wait entry starts and holds the queue. -/
  | waitEntry (ctx q : Nat)
  /-- WAIT_SATISFIED (R313): The waited-on value reaches the threshold and the wait entry completes. -/
  | waitSatisfied (ctx q : Nat)
  /-- SIGNAL_ENTRY (R313): A signal entry starts and waits for earlier entries to complete. -/
  | signalEntry (ctx q : Nat)
  /-- SIGNAL_WRITE (R313): Once earlier entries have completed, the signal value is written as a release. -/
  | signalWrite (ctx q : Nat)
  /-- WINDOW_UPDATE_ENTRY (R206): A window-update entry is checked, holds translations and squashes forks. -/
  | windowUpdateEntry (ctx q : Nat)
  /-- REMAP_ENTRY (R203): A remap entry starts moving a placed page to a target frame. -/
  | remapEntry (ctx q : Nat)
  /-- UNPLACE_ENTRY (R203): An unplace entry starts returning a page's frame. -/
  | unplaceEntry (ctx q : Nat)
  /-- FRAME_ENTRY (R202): A frame entry adds frames to a die's free lists. -/
  | frameEntry (ctx q : Nat)
  /-- MAPPING_DRAIN_COMPLETE (R206): After the old mapping drains and pins clear, lines are written back and the new mapping is installed. -/
  | mappingDrainComplete (change : Nat)
  /-- COPY_COMPLETE (R377): A copy finishes its accesses and takes its ring step. -/
  | copyComplete (copy : Nat)
  /-- TASK_ISSUE (R401): A waiting tile task issues, taking its slots and charge. -/
  | taskIssue (cluster entry : Nat)
  /-- TASK_RETIRE (R402): An issued tile task completes and passes its slots on. -/
  | taskRetire (cluster entry : Nat)
  /-- BAND_POWER_UP (R398): A gated band completes its 2 us power-up. -/
  | bandPowerUp (cluster band : Nat)
  /-- CHARGE_GRANT (R469): The cluster arbiter grants the oldest highest-level charge request. -/
  | chargeGrant (cluster : Nat)
  /-- CHARGE_REFILL (R467): The charge bucket refills and RATE moves towards RT each microsecond. -/
  | chargeRefill (cluster : Nat)
  /-- THERMAL_THROTTLE (R471): An island over its threshold after the dwell halves its cluster's RT. -/
  | thermalThrottle (island : Nat) (reading : Int)
  /-- THERMAL_RELEASE (R471): An island back below TH-3 after the dwell returns to normal. -/
  | thermalRelease (island : Nat) (reading : Int)
  /-- THERMAL_CRITICAL (R471): An island at TH+5 after the dwell requests a lower operating point. -/
  | thermalCritical (island : Nat) (reading : Int)
  /-- CONTEXT_CREATE (R428): Create command for a context descriptor and control-block slot. -/
  | contextCreate (func : Nat) (desc : List Byte) (wrappedKey : List Byte)
  /-- CONTEXT_ENABLE (R430): Enable command that makes a context runnable and unwraps its key. -/
  | contextEnable (func ctx : Nat)
  /-- CONTEXT_SUSPEND (R431): Suspend command that saves all teams and stops fetching. -/
  | contextSuspend (func ctx : Nat)
  /-- CONTEXT_RESUME (R430): Resume command that makes a suspended context runnable. -/
  | contextResume (func ctx : Nat)
  /-- CONTEXT_DESTROY (R433): Destroy command that releases a context's resources and key. -/
  | contextDestroy (func ctx : Nat)
  /-- MAP_ACKNOWLEDGE (R449): Host acknowledge command that raises a context's ACK. -/
  | mapAcknowledge (func ctx : Nat) (version : DWord)
  /-- SLICE_EXPIRY (R432): The current sliced context's time slice expires. -/
  | sliceExpiry
  /-- GRACE_EXPIRY (R451): An unacknowledged running context reaches 10 ms and is suspended. -/
  | graceExpiry (ctx : Nat)
  /-- COUNTER_CLAIM (R473): A host command claims a context counter 11-15. -/
  | counterClaim (func ctx n : Nat)
  /-- COUNTER_RELEASE (R473): A host command releases a claimed counter. -/
  | counterRelease (func ctx n : Nat)
  /-- TRACE_ENABLE (R478): A host command enables trace for a context with a trace ring. -/
  | traceEnable (func ctx ring slots : Nat)
  /-- KERNEL_LOAD (R307): The loader checks, places and relocates a code object's kernels. -/
  | kernelLoad (ctx : Nat) (obj : CodeObject)
  /-- KERNEL_UNLOAD (R306): An unload request retires a kernel once no launch uses it. -/
  | kernelUnload (ctx base : Nat)
  /-- ERROR_DETECTED (R462): An uncorrectable error is charged to a unit, which is quiesced for test. -/
  | errorDetected (e : ErrorSource)
  /-- SELF_TEST_COMPLETE (R462): A unit's targeted self-test ends, counting a transient or retiring the unit. -/
  | selfTestComplete (u : UnitId) (pass : Bool)
  /-- REPLAY_CHECK (R459): A quadrant re-executes a queued instruction in an empty issue slot and compares. -/
  | replayCheck (core quadrant index : Nat) (mismatch : Bool)
  /-- SHADOW_SET (R464): Host request to clear or set SERVICE.SHADOW, which publishes a version. -/
  | shadowSet (func : Nat) (on : Bool)
  /-- ATTESTATION_REPORT (R466): Host request for a signed attestation report over a nonce. -/
  | attestationReport (func : Nat) (nonce : List Byte)
  /-- DEVICE_RESET (R463): Reset starts the boot ROM and signature-checked bring-up. -/
  | deviceReset
  /-- BRINGUP_STAGE_COMPLETE (R463): A bring-up stage finishes and the next begins; the last publishes version 1. -/
  | bringupStageComplete (pass sigFail : Bool) (t : TestOutcome)
  /-- BRINGUP_SELF_TEST_COMPLETE (R464): The bring-up self-test ends and full service is published as one version. -/
  | bringupSelfTestComplete (t : TestOutcome)
  /-- HOST_LINK_INIT (R482): Host link initialisation or hot reset starts host-link training. -/
  | hostLinkInit (link : Nat) (hot : Bool)
  /-- PEER_ENABLE (R491): Physical-function command enabling a peer port. -/
  | peerEnable (func port : Nat)
  /-- PEER_DISABLE (R491): Physical-function command disabling a peer port. -/
  | peerDisable (func port : Nat)
  /-- LINK_TRAINED (R485): A link finishes training up, degraded or failed, and the result is published. -/
  | linkTrained (link width speed : Nat)
  /-- LINK_TRAIN_TIMEOUT (R482): A link in training for 1 s without result fails. -/
  | linkTrainTimeout (link : Nat)
  /-- LINK_RETRAIN (R483): An uncorrectable flit or a dead lane retrains a link and holds its traffic. -/
  | linkRetrain (link : Nat)
  /-- CHARGE_TARGET_SET (R467): Physical-function command setting a cluster's target refill rate RT. -/
  | chargeTargetSet (func cluster rt : Nat)
  /-- CLASS_WEIGHT_SET (R468): Physical-function command writing the charge class table. -/
  | classWeightSet (func cluster cls weight : Nat)
  /-- THERMAL_THRESHOLD_SET (R471): Physical-function command setting an island's threshold TH. -/
  | thermalThresholdSet (func island : Nat) (th : Int)
  /-- FABRIC_COUNTER_OWNER_SET (R472): Physical-function command setting a fabric counter's owner. -/
  | fabricCounterOwnerSet (func counter owner : Nat)
  /-- FABRIC_COUNTER_READ (R472): Host command reading a fabric counter, 0 for non-owners. -/
  | fabricCounterRead (func counter : Nat)
  /-- PAGE_TABLE_READ (R200): Host-interface read of page-table entries. -/
  | pageTableRead (func ia : Nat)
  /-- LULL_TRIAL (R481): Physical-function command starting a Lull trial over clusters and fractions. -/
  | lullTrial (func : Nat) (clusters : List Nat) (fractions : List Nat) (ms : Nat)
  /-- LULL_STEP_EXPIRY (R481): A Lull trial step ends, records its counts and moves to the next fraction. -/
  | lullStepExpiry
  /-- TRACE_STOP (R480): A host command stops trace for a context, sealing its partial block while the block sequence number continues. -/
  | traceStop (func ctx : Nat)
  deriving DecidableEq, Repr

end Sys2Proof
end

