-- ==== Sys2Proof/WellFormed.lean ====
section
/-!
DEFINITION. Which field values each instruction accepts (R39, R41-R49, R54, R56 and the encoding tables of the chapters):
one Enc for each instruction, read by one legality check, and WellFormed of an Instr.
-/

namespace Sys2Proof

/-- TYPE code (R18). -/
def Ty.code : Ty → Nat
  | .b32 => 0 | .s32 => 1 | .u32 => 2 | .f32 => 3 | .f16x2 => 4 | .bf16x2 => 5 | .f16 => 6 | .bf16 => 7 | .e4m3x4 => 8
  | .e5m2x4 => 9 | .e2m1x8 => 10 | .q4x8 => 11 | .s8x4 => 12 | .s4x8 => 13 | .b64 => 14

/-- Elements of a lane of the type (R68). -/
def Ty.count : Ty → Nat
  | .f16x2 | .bf16x2 => 2
  | .e4m3x4 | .e5m2x4 | .s8x4 => 4
  | .e2m1x8 | .q4x8 | .s4x8 => 8
  | _ => 1

/-- Every TYPE with a code. -/
def allTypes : List Ty :=
  [.b32, .s32, .u32, .f32, .f16x2, .bf16x2, .f16, .bf16, .e4m3x4, .e5m2x4, .e2m1x8, .q4x8, .s8x4, .s4x8, .b64]

/-- SCOPE code (R18). -/
def Scope.code : Scope → Nat
  | .group => 0 | .cluster => 1 | .die => 2 | .device => 3 | .system => 4

/-- What an operand field names (R45), with the wait bit R47 asks of it. -/
inductive Use where
  /-- Unused: field and wait bit 0. -/
  | zero
  /-- A v destination, or the data register of a store: no wait bit. -/
  | v
  /-- A run of `n` v destinations. -/
  | vRun (n : Nat)
  /-- A v source: its wait bit is the policy. -/
  | vs
  /-- A run of `n` v sources. -/
  | vsRun (n : Nat)
  /-- b, k, j, m destinations; a k destination is never k0. -/
  | bd | kd | jd | md
  /-- b, k, j, m, q sources: the wait bit is 1. -/
  | bs | ks | js | ms | qs
  /-- A run of `n` b registers. -/
  | bsRun (n : Nat)
  /-- A barrier index. -/
  | bar
  /-- An immediate from `lo` to `hi`. -/
  | imm (lo hi : Nat)
  /-- A function code. -/
  | code (n : Nat)
  /-- KOP: function in the upper three bits, second k below; 0 for KNOT and KMOV (R132). -/
  | kop (n : Nat)
  /-- VOTE: v for ballot, else k (R45). -/
  | voteD
  /-- AMGET: v pair, or 0 for clear (R151). -/
  | amgetD
  /-- The m register of CVTQ and STCT when XMOD[1] is 1, else unused (R149, R374). -/
  | amIf
  /-- TQRY: v ticket, unused with XMOD[1] (R417). -/
  | tqryA
  /-- The run of a memory access (R219). -/
  | memRun
  /-- The run of STCT (R374). -/
  | stctRun
  /-- One v register, or a pair for b64 (R260). -/
  | atomRun
  /-- `n` v sources, or twice as many for b64. -/
  | atomCRun (n : Nat)
  deriving DecidableEq, Repr

/-- Registers of a run by the count code FUNC[4:3] (R215). -/
def X96.count (x : X96) : Nat := 2 ^ (x.func.toNat / 8 % 4)

/-- Registers of the run of a memory access (R219). -/
def X96.runLen (x : X96) : Nat := if x.ty = .b64 then 2 * x.count else x.count

/-- FUNC of a global access: scale 0-4, count 0-2, the rest 0 (R54, R215). -/
def gFuncOk (f : BitVec 8) : Bool := f.toNat % 8 ≤ 4 && f.toNat / 8 ≤ 2

/-- FUNC of an access without a scale: count 0-2, the rest 0 (R215, R374). -/
def cFuncOk (f : BitVec 8) : Bool := f.toNat % 8 = 0 && f.toNat / 8 ≤ 2

/-- The source format of CVT and CVTD, FUNC[7:4] (R146). -/
def srcTy? (f : BitVec 8) : Option Ty :=
  match f.toNat / 16 with
  | 0 => some .f32 | 1 => some .s32 | 2 => some .u32 | 3 => some .f16 | 4 => some .bf16 | 5 => some .f16x2
  | 6 => some .bf16x2 | 7 => some .e4m3x4 | 8 => some .e5m2x4 | 9 => some .e2m1x8 | 10 => some .q4x8
  | 11 => some .s8x4 | 12 => some .s4x8 | _ => none

/-- The element index sel of CVT and CVTD, FUNC[2:0] (R146). -/
def X96.sel (x : X96) : Nat := x.func.toNat % 8

/-- The combinations of CVT that R147 allows. -/
def cvtOk (x : X96) : Bool :=
  match srcTy? x.func with
  | none => false
  | some s =>
    x.func.toNat / 8 % 2 = 0 && !(x.ty == .b32 || x.ty == .q4x8 || x.ty == .b64) &&
    (if s.count = 1 then (if x.ty.count = 1 then x.sel = 0 else x.sel < x.ty.count)
     else if x.ty.count = 1 then x.sel < s.count else s.count = x.ty.count && x.sel = 0)

/-- The sources of CVTD (R146, R148). -/
def cvtdOk (x : X96) : Bool :=
  match srcTy? x.func with
  | none => false
  | some s => x.func.toNat / 8 % 2 = 0 && (if s.count = 1 then x.sel = 0 else x.sel < s.count)

/-- The functions and types of ATOM (R49, R262). -/
def atomOk (x : X96) : Bool :=
  match x.ty with
  | .f32 => x.func == 7
  | .b64 => x.func == 6
  | _ => x.func != 7

/-- The functions and types of RED (R260). -/
def redOk (x : X96) : Bool :=
  match x.ty with
  | .f32 => x.func == 7
  | .b64 => x.func == 0 || x.func == 3 || x.func == 4 || x.func == 5
  | _ => x.func != 7

/-- A field [h:l] of a number. -/
def bitsOf (x h l : Nat) : Nat := x / 2 ^ l % 2 ^ (h + 1 - l)

/-- The control word of CPY (R379). -/
def cpyOk (x : X96) : Bool :=
  let w := x.imm.toNat
  let ssp := bitsOf w 1 0
  let dsp := bitsOf w 3 2
  let rmode := bitsOf w 15 14
  w / 2 ^ 19 = 0 && bitsOf w 18 16 ≤ 4 && rmode ≤ 2 && dsp ≤ 2 && ssp ≤ 2 &&
  (rmode != 1 || dsp = 1) && (rmode != 2 || ssp = 1)

/-- The control word of WLD (R406). -/
def wldOk (x : X96) : Bool :=
  let w := x.imm.toNat
  let scl := bitsOf w 7 7 = 1
  let kw := bitsOf w 19 12 + 1
  w / 2 ^ 20 = 0 && (scl || !(x.ty == .e2m1x8 || x.ty == .q4x8)) && !(scl && (x.ty == .f16 || x.ty == .bf16)) &&
  !(x.x2 && (x.ty == .q4x8 || kw % 4 != 0))

/-- The control word of MDRAIN (R413). -/
def mdrainOk (x : X96) : Bool :=
  let w := x.imm.toNat
  w / 2 ^ 25 = 0 && bitsOf w 13 7 + (bitsOf w 20 14 + 1) ≤ 128 && (x.x2 || bitsOf w 24 21 = 0)

/-- The descriptor of MMA (R410). -/
def mmaOk (lit : DWord) : Bool :=
  let w := lit.toNat
  let afmt := bitsOf w 26 23
  let ascale := bitsOf w 28 28 = 1
  w / 2 ^ 36 = 0 && bitsOf w 21 15 + (bitsOf w 6 0 + 1) ≤ 128 && 6 ≤ afmt && afmt ≤ 13 &&
  (ascale || !(afmt = 10 || afmt = 11)) && !(ascale && (afmt = 6 || afmt = 7))

/-- What an instruction's encoding accepts. -/
structure Enc where
  op : Nat
  d : Use := .zero
  a : Use := .zero
  b : Use := .zero
  c : Use := .zero
  /-- Largest K: 0 where the entry says K must be 0 (R159). -/
  kMax : Nat := 7
  types : List Ty := [.b32]
  /-- Default TYPE, which the B32 form implies (R40). -/
  dflt : Ty := .b32
  funcOk : BitVec 8 → Bool := fun f => f == 0
  rnd : Bool := false
  sat : Bool := false
  scopeMax : Nat := 0
  ords : List Ord := [.relaxed]
  immb : Bool := false
  x1 : Bool := false
  x2 : Bool := false
  word2 : Bool := false
  /-- Limits the entry adds. -/
  extra : X96 → Bool := fun _ => true

/-- A field of use `u` with value `n` is in range (R46). -/
def Use.rangeOk (u : Use) (x : X96) (n : Nat) : Bool :=
  match u with
  | .zero => n = 0
  | .v | .vs => true
  | .vRun m | .vsRun m => n + m ≤ 64
  | .bd | .md | .bs | .ms | .qs | .bar => n < 16
  | .kd => 1 ≤ n && n < 8
  | .jd | .ks | .js => n < 8
  | .bsRun m => n + m ≤ 16
  | .imm lo hi => lo ≤ n && n ≤ hi
  | .code m => n = m
  | .kop m => n / 8 = m && (m < 4 || n % 8 = 0)
  | .voteD => if x.func = 2 then true else 1 ≤ n && n < 8
  | .amgetD => if x.w0.b = 1 then n = 0 else n + 2 ≤ 64
  | .amIf => if x.x1 then n < 16 else n = 0
  | .tqryA => if x.x1 then n = 0 else true
  | .memRun => !(x.ty == .b64 && x.count == 4) && n + x.runLen ≤ 64
  | .stctRun => n + (x.func.toNat % 16 + 1) ≤ 64
  | .atomRun => n + (if x.ty = .b64 then 2 else 1) ≤ 64
  | .atomCRun m => n + (if x.ty = .b64 then 2 * m else m) ≤ 64

/-- The wait bit R47 asks of a field of use `u`. -/
def Use.waitOk (u : Use) (x : X96) (w : Bool) : Bool :=
  match u with
  | .vs | .vsRun _ | .atomCRun _ => true
  | .bs | .ks | .js | .ms | .qs | .bsRun _ => w
  | .amIf => w == x.x1
  | .tqryA => !x.x1 || !w
  | _ => !w

/-- The legality of an X96 encoding (R56), literal aside. -/
def Enc.legal (e : Enc) (x : X96) : Bool :=
  e.d.rangeOk x x.w0.d.toNat &&
  e.a.rangeOk x x.w0.a.toNat && e.a.waitOk x x.w0.wa &&
  (if x.immb then x.w0.b == 0 && !x.w0.wb else e.b.rangeOk x x.w0.b.toNat && e.b.waitOk x x.w0.wb) &&
  e.c.rangeOk x x.c.toNat && e.c.waitOk x x.wc &&
  x.w0.k.toNat ≤ e.kMax && e.types.contains x.ty && e.funcOk x.func &&
  (e.rnd || x.rnd == .rne) && (e.sat || !x.sat) && x.scope.code ≤ e.scopeMax && e.ords.contains x.ord &&
  (e.immb || !x.immb) && (e.x1 || !x.x1) && (e.x2 || !x.x2) && (e.word2 || x.immb || x.imm == 0) && e.extra x

/-- The X96 fields that a B32 encoding implies (R40). -/
def Enc.expand (e : Enc) (o : W0) : X96 := { w0 := o, ty := e.dflt }

namespace Enc

/-- NOP. -/
def nop' : Enc := { op := 0x00 }
/-- IADD. -/
def iadd' : Enc :=
  { op := 0x01, d := .v, a := .vs, b := .vs, types := [.s32, .u32], dflt := .s32, sat := true, immb := true }
/-- ISUB. -/
def isub' : Enc :=
  { op := 0x02, d := .v, a := .vs, b := .vs, types := [.s32, .u32], dflt := .s32, sat := true, immb := true }
/-- IMUL. -/
def imul' : Enc :=
  { op := 0x03, d := .v, a := .vs, b := .vs, types := [.s32, .u32], dflt := .s32, immb := true }
/-- IMULH. -/
def imulh' : Enc :=
  { op := 0x04, d := .v, a := .vs, b := .vs, types := [.s32, .u32], dflt := .s32, immb := true }
/-- IMAD. -/
def imad' : Enc :=
  { op := 0x05, d := .v, a := .vs, b := .vs, c := .vs, types := [.s32, .u32], dflt := .s32, sat := true, immb := true }
/-- IMIN. -/
def imin' : Enc :=
  { op := 0x06, d := .v, a := .vs, b := .vs, types := [.s32, .u32], dflt := .s32, immb := true }
/-- IMAX. -/
def imax' : Enc :=
  { op := 0x07, d := .v, a := .vs, b := .vs, types := [.s32, .u32], dflt := .s32, immb := true }
/-- AND. -/
def and' : Enc :=
  { op := 0x08, d := .v, a := .vs, b := .vs, immb := true }
/-- OR. -/
def or' : Enc :=
  { op := 0x09, d := .v, a := .vs, b := .vs, immb := true }
/-- XOR. -/
def xor' : Enc :=
  { op := 0x0A, d := .v, a := .vs, b := .vs, immb := true }
/-- ANDN. -/
def andn' : Enc :=
  { op := 0x0B, d := .v, a := .vs, b := .vs, immb := true }
/-- SHL. -/
def shl' : Enc :=
  { op := 0x0C, d := .v, a := .vs, b := .vs, immb := true }
/-- SHR. -/
def shr' : Enc :=
  { op := 0x0D, d := .v, a := .vs, b := .vs, immb := true }
/-- SAR. -/
def sar' : Enc :=
  { op := 0x0E, d := .v, a := .vs, b := .vs, immb := true }
/-- INEG. -/
def ineg' : Enc :=
  { op := 0x0F, d := .v, a := .vs, b := .code 0, types := [.s32, .u32], dflt := .s32 }
/-- IABS. -/
def iabs' : Enc :=
  { op := 0x0F, d := .v, a := .vs, b := .code 1, types := [.s32, .u32], dflt := .s32 }
/-- NOT. -/
def not' : Enc :=
  { op := 0x0F, d := .v, a := .vs, b := .code 2 }
/-- POPC. -/
def popc' : Enc :=
  { op := 0x0F, d := .v, a := .vs, b := .code 3 }
/-- CLZ. -/
def clz' : Enc :=
  { op := 0x0F, d := .v, a := .vs, b := .code 4 }
/-- BREV. -/
def brev' : Enc :=
  { op := 0x0F, d := .v, a := .vs, b := .code 5 }
/-- BFE. -/
def bfe' : Enc :=
  { op := 0x10, d := .v, a := .vs, b := .vs, types := [.u32, .s32], dflt := .u32, immb := true }
/-- BFI. -/
def bfi' : Enc :=
  { op := 0x11, d := .v, a := .vs, b := .vs, c := .vs, immb := true }
/-- ICMP. -/
def icmp' : Enc :=
  { op := 0x12, d := .kd, a := .vs, b := .vs, types := [.s32, .u32], dflt := .s32, funcOk := fun f => f.toNat ≤ 5, immb := true }
/-- ISEL. -/
def isel' : Enc :=
  { op := 0x13, d := .v, a := .vs, b := .vs, immb := true }
/-- BADD. -/
def badd' : Enc :=
  { op := 0x18, d := .bd, a := .bs, b := .vs, immb := true }
/-- BMOV. -/
def bmov' : Enc :=
  { op := 0x19, d := .bd, a := .vsRun 2 }
/-- BGET. -/
def bget' : Enc :=
  { op := 0x1A, d := .vRun 2, a := .bs }
/-- BLIT. -/
def blit' : Enc :=
  { op := 0x1B, d := .bd }
/-- MOV. -/
def mov' : Enc :=
  { op := 0x20, d := .v, a := .vs }
/-- MOVI. -/
def movi' : Enc :=
  { op := 0x21, d := .v }
/-- LANE. -/
def lane' : Enc :=
  { op := 0x22, d := .v, a := .vs, b := .vs, immb := true }
/-- SHAPE. -/
def shape' : Enc :=
  { op := 0x23, d := .v, a := .vs }
/-- SHAPEA. -/
def shapea' : Enc :=
  { op := 0x24, a := .vs, b := .imm 1 7 }
/-- SHAPEF. -/
def shapef' : Enc :=
  { op := 0x25, d := .v, a := .vs, b := .imm 2 3 }
/-- SQZ. -/
def sqz' : Enc :=
  { op := 0x26, d := .v, a := .vs }
/-- BCAST. -/
def bcast' : Enc :=
  { op := 0x27, d := .v, a := .vs, b := .imm 0 31 }
/-- SHFL. -/
def shfl' : Enc :=
  { op := 0x28, d := .v, a := .vs, b := .vs, funcOk := fun f => f.toNat ≤ 3, immb := true }
/-- VOTE. -/
def vote' : Enc :=
  { op := 0x29, d := .voteD, a := .vs, funcOk := fun f => f.toNat ≤ 3 }
/-- LRED. -/
def lred' : Enc :=
  { op := 0x2A, d := .v, a := .vs, types := [.s32, .u32, .f32], dflt := .s32, funcOk := fun f => f.toNat ≤ 5,
    extra := fun x => !(x.ty == .f32 && 3 ≤ x.func.toNat) }
/-- GID. -/
def gid' : Enc :=
  { op := 0x2B, d := .v, funcOk := fun f => f.toNat ≤ 15 }
/-- KAND. -/
def kand' : Enc :=
  { op := 0x30, d := .kd, a := .ks, b := .kop 0 }
/-- KOR. -/
def kor' : Enc :=
  { op := 0x30, d := .kd, a := .ks, b := .kop 1 }
/-- KXOR. -/
def kxor' : Enc :=
  { op := 0x30, d := .kd, a := .ks, b := .kop 2 }
/-- KANDN. -/
def kandn' : Enc :=
  { op := 0x30, d := .kd, a := .ks, b := .kop 3 }
/-- KNOT. -/
def knot' : Enc :=
  { op := 0x30, d := .kd, a := .ks, b := .kop 4 }
/-- KMOV. -/
def kmov' : Enc :=
  { op := 0x30, d := .kd, a := .ks, b := .kop 5 }
/-- KSET. -/
def kset' : Enc :=
  { op := 0x31, d := .kd, a := .vs, x1 := true }
/-- KPOP. -/
def kpop' : Enc :=
  { op := 0x32, d := .v, a := .ks }
/-- KGET. -/
def kget' : Enc :=
  { op := 0x33, d := .v, a := .ks }
/-- FADD. -/
def fadd' : Enc :=
  { op := 0x38, d := .v, a := .vs, b := .vs, types := [.f32, .f16x2, .bf16x2], dflt := .f32, rnd := true, sat := true, immb := true }
/-- FSUB. -/
def fsub' : Enc :=
  { op := 0x39, d := .v, a := .vs, b := .vs, types := [.f32, .f16x2, .bf16x2], dflt := .f32, rnd := true, sat := true, immb := true }
/-- FMUL. -/
def fmul' : Enc :=
  { op := 0x3A, d := .v, a := .vs, b := .vs, types := [.f32, .f16x2, .bf16x2], dflt := .f32, rnd := true, sat := true, immb := true }
/-- FFMA. -/
def ffma' : Enc :=
  { op := 0x3B, d := .v, a := .vs, b := .vs, c := .vs, types := [.f32, .f16x2, .bf16x2], dflt := .f32, rnd := true, sat := true, immb := true }
/-- FMIN. -/
def fmin' : Enc :=
  { op := 0x3C, d := .v, a := .vs, b := .vs, types := [.f32, .f16x2, .bf16x2], dflt := .f32, immb := true }
/-- FMAX. -/
def fmax' : Enc :=
  { op := 0x3D, d := .v, a := .vs, b := .vs, types := [.f32, .f16x2, .bf16x2], dflt := .f32, immb := true }
/-- FCMP. -/
def fcmp' : Enc :=
  { op := 0x3E, d := .kd, a := .vs, b := .vs, types := [.f32], dflt := .f32, funcOk := fun f => f.toNat ≤ 7, immb := true }
/-- FNEG. -/
def fneg' : Enc :=
  { op := 0x3F, d := .v, a := .vs, b := .code 0, types := [.f32, .f16x2, .bf16x2], dflt := .f32 }
/-- FABS. -/
def fabs' : Enc :=
  { op := 0x3F, d := .v, a := .vs, b := .code 1, types := [.f32, .f16x2, .bf16x2], dflt := .f32 }
/-- FRCP. -/
def frcp' : Enc :=
  { op := 0x3F, d := .v, a := .vs, b := .code 2, types := [.f32], dflt := .f32 }
/-- FRSQ. -/
def frsq' : Enc :=
  { op := 0x3F, d := .v, a := .vs, b := .code 3, types := [.f32], dflt := .f32 }
/-- FSQRT. -/
def fsqrt' : Enc :=
  { op := 0x3F, d := .v, a := .vs, b := .code 4, types := [.f32], dflt := .f32 }
/-- FEXP2. -/
def fexp2' : Enc :=
  { op := 0x3F, d := .v, a := .vs, b := .code 5, types := [.f32], dflt := .f32 }
/-- FLOG2. -/
def flog2' : Enc :=
  { op := 0x3F, d := .v, a := .vs, b := .code 6, types := [.f32], dflt := .f32 }
/-- FSIN. -/
def fsin' : Enc :=
  { op := 0x3F, d := .v, a := .vs, b := .code 7, types := [.f32], dflt := .f32 }
/-- FCOS. -/
def fcos' : Enc :=
  { op := 0x3F, d := .v, a := .vs, b := .code 8, types := [.f32], dflt := .f32 }
/-- FTANH. -/
def ftanh' : Enc :=
  { op := 0x3F, d := .v, a := .vs, b := .code 9, types := [.f32], dflt := .f32 }
/-- FCLASS. -/
def fclass' : Enc :=
  { op := 0x3F, d := .v, a := .vs, b := .code 10, types := [.f32], dflt := .f32 }
/-- CVT. -/
def cvt' : Enc :=
  { op := 0x40, d := .v, a := .vs, types := allTypes, dflt := .s32, funcOk := fun _ => true, rnd := true, sat := true, extra := cvtOk }
/-- CVTQ. -/
def cvtq' : Enc :=
  { op := 0x41, d := .v, a := .vs, b := .vs, c := .amIf, types := [.f16x2, .bf16x2, .e4m3x4, .e5m2x4, .e2m1x8, .s8x4, .s4x8],
    dflt := .e4m3x4, funcOk := fun _ => true, rnd := true, sat := true, immb := true, x1 := true,
    extra := fun x => x.func.toNat < x.ty.count }
/-- CVTD. -/
def cvtd' : Enc :=
  { op := 0x42, d := .v, a := .vs, b := .vs, types := [.f32, .f16, .bf16], dflt := .f32, funcOk := fun _ => true, rnd := true, sat := true,
    immb := true, extra := cvtdOk }
/-- AMAX. -/
def amax' : Enc :=
  { op := 0x43, d := .md, a := .vs, types := [.f32, .f16x2, .bf16x2, .f16, .bf16, .e4m3x4, .e5m2x4, .e2m1x8, .q4x8], dflt := .f32 }
/-- AMGET. -/
def amget' : Enc :=
  { op := 0x44, d := .amgetD, a := .ms, b := .imm 0 2 }
/-- JMP. -/
def jmp' : Enc :=
  { op := 0x50 }
/-- CALL. -/
def call' : Enc :=
  { op := 0x51 }
/-- BR. -/
def br' : Enc :=
  { op := 0x52, d := .jd, word2 := true }
/-- BRU. -/
def bru' : Enc :=
  { op := 0x53, word2 := true }
/-- JOIN. -/
def join' : Enc :=
  { op := 0x54, d := .jd, kMax := 0 }
/-- YIELDP. -/
def yieldp' : Enc :=
  { op := 0x55, kMax := 0 }
/-- RET. -/
def ret' : Enc :=
  { op := 0x56, kMax := 0 }
/-- JMPI. -/
def jmpi' : Enc :=
  { op := 0x57, a := .bs, kMax := 0 }
/-- CALLI. -/
def calli' : Enc :=
  { op := 0x58, a := .bs, kMax := 0 }
/-- FCALL. -/
def fcall' : Enc :=
  { op := 0x59, b := .imm 0 31, word2 := true, kMax := 0 }
/-- EXIT. -/
def exit' : Enc :=
  { op := 0x5A }
/-- JGET. -/
def jget' : Enc :=
  { op := 0x5B, d := .vRun 4, a := .js }
/-- JPUT. -/
def jput' : Enc :=
  { op := 0x5B, d := .jd, a := .vsRun 4, funcOk := fun f => f == 1 }
/-- TRAP. -/
def trap' : Enc :=
  { op := 0x5C, b := .imm 0 63 }
/-- THRET. -/
def thret' : Enc :=
  { op := 0x5D, b := .imm 0 1, kMax := 0 }
/-- LD. -/
def ld' : Enc :=
  { op := 0x60, d := .memRun, a := .bs, b := .vs, types := [.b32, .b64, .f16, .bf16], funcOk := gFuncOk, scopeMax := 4, ords := [.relaxed, .acquire], x1 := true, word2 := true }
/-- ST. -/
def st' : Enc :=
  { op := 0x61, d := .memRun, a := .bs, b := .vs, types := [.b32, .b64, .f16, .bf16], funcOk := gFuncOk, scopeMax := 4, ords := [.relaxed, .release], x1 := true, word2 := true }
/-- LDS. -/
def lds' : Enc :=
  { op := 0x62, d := .memRun, a := .vs, types := [.b32, .b64, .f16, .bf16], funcOk := cFuncOk, ords := [.relaxed, .acquire], word2 := true }
/-- STS. -/
def sts' : Enc :=
  { op := 0x63, d := .memRun, a := .vs, types := [.b32, .b64, .f16, .bf16], funcOk := cFuncOk, ords := [.relaxed, .release], word2 := true }
/-- LDP. -/
def ldp' : Enc :=
  { op := 0x64, d := .memRun, a := .vs, b := .vs, types := [.b32, .b64, .f16, .bf16], funcOk := cFuncOk, scopeMax := 1, ords := [.relaxed, .acquire], word2 := true }
/-- STP. -/
def stp' : Enc :=
  { op := 0x65, d := .memRun, a := .vs, b := .vs, types := [.b32, .b64, .f16, .bf16], funcOk := cFuncOk, scopeMax := 1, ords := [.relaxed, .release], x1 := true, word2 := true }
/-- LDF. -/
def ldf' : Enc :=
  { op := 0x66, d := .memRun, a := .vs, types := [.b32, .b64], ords := [.relaxed, .acquire], word2 := true }
/-- LDFK. -/
def ldfk' : Enc :=
  { op := 0x67, d := .memRun, a := .vs, types := [.b32, .b64], ords := [.relaxed, .acquire], word2 := true }
/-- STF. -/
def stf' : Enc :=
  { op := 0x68, d := .memRun, a := .vs, types := [.b32, .b64], ords := [.relaxed, .release], word2 := true }
/-- FESET. -/
def feset' : Enc :=
  { op := 0x69, a := .vs, types := [.b32, .b64], funcOk := cFuncOk, ords := [.relaxed, .release], x1 := true, word2 := true,
    extra := fun x => !(x.ty == .b64 && x.count == 4) }
/-- LDT. -/
def ldt' : Enc :=
  { op := 0x6A, d := .memRun, a := .vs, types := [.f16, .bf16], dflt := .f16, funcOk := cFuncOk, ords := [.relaxed, .acquire], word2 := true }
/-- STCT. -/
def stct' : Enc :=
  { op := 0x6B, d := .stctRun, a := .bs, b := .vs, c := .amIf, types := [.f32, .f16x2, .bf16x2, .e4m3x4, .e5m2x4, .e2m1x8, .s8x4, .s4x8],
    dflt := .bf16x2, funcOk := fun f => f.toNat < 16, rnd := true, sat := true, scopeMax := 4, ords := [.relaxed, .release], x1 := true }
/-- STZ. -/
def stz' : Enc :=
  { op := 0x6C, d := .memRun, a := .bs, b := .vs, types := [.b32, .f16, .bf16], funcOk := cFuncOk, scopeMax := 4, ords := [.relaxed, .release], x1 := true, word2 := true }
/-- LDZ. -/
def ldz' : Enc :=
  { op := 0x6D, d := .memRun, a := .bs, b := .vs, types := [.b32, .f16, .bf16], funcOk := cFuncOk, scopeMax := 4, ords := [.relaxed, .acquire], x1 := true, word2 := true }
/-- PREF. -/
def pref' : Enc :=
  { op := 0x6E, a := .bs, b := .vs, funcOk := fun f => f.toNat ≤ 2, scopeMax := 4, x1 := true, word2 := true }
/-- CWB. -/
def cwb' : Enc :=
  { op := 0x6F, a := .bs, b := .vs, funcOk := fun f => f.toNat ≤ 2, scopeMax := 4, x1 := true, word2 := true }
/-- ATOM. -/
def atom' : Enc :=
  { op := 0x70, d := .atomRun, a := .bs, b := .vs, c := .atomCRun 1, types := [.s32, .u32, .f32, .b64], dflt := .s32,
    funcOk := fun f => f.toNat ≤ 7, scopeMax := 4, ords := [.relaxed, .acquire, .release, .acqRel], x1 := true, extra := atomOk }
/-- RED. -/
def red' : Enc :=
  { op := 0x71, d := .atomRun, a := .bs, b := .vs, types := [.s32, .u32, .f32, .b64], dflt := .s32, funcOk := fun f => f.toNat ≤ 5 || f == 7,
    scopeMax := 4, ords := [.relaxed, .release], x1 := true, word2 := true, extra := redOk }
/-- ACAS. -/
def acas' : Enc :=
  { op := 0x72, d := .atomRun, a := .bs, b := .vs, c := .atomCRun 2, types := [.b32, .b64], scopeMax := 4, ords := [.relaxed, .acquire, .release, .acqRel], x1 := true }
/-- FENCE. -/
def fence' : Enc :=
  { op := 0x73, funcOk := fun f => f.toNat ≤ 2, scopeMax := 4 }
/-- XFENCE. -/
def xfence' : Enc :=
  { op := 0x74, funcOk := fun f => f.toNat % 16 != 0 && f.toNat / 16 != 0, scopeMax := 4 }
/-- PUBLISH. -/
def publish' : Enc :=
  { op := 0x75, a := .bs, word2 := true }
/-- CHUNK. -/
def chunk' : Enc :=
  { op := 0x76, d := .vRun 2, a := .bs, word2 := true }
/-- LAUNCH. -/
def launch' : Enc :=
  { op := 0x77, d := .v, a := .bs, b := .imm 0 63, word2 := true }
/-- BAR. -/
def bar' : Enc :=
  { op := 0x78, d := .bar, funcOk := fun f => f.toNat ≤ 2 }
/-- PHREG. -/
def phreg' : Enc :=
  { op := 0x79, d := .v, a := .bs, b := .zero, funcOk := fun f => f == 0, x1 := true, x2 := true, extra := fun x => x.x1 || x.x2 }
/-- PHDROP. -/
def phdrop' : Enc :=
  { op := 0x79, d := .zero, a := .bs, b := .vs, funcOk := fun f => f == 1, immb := true, x1 := true, x2 := true, extra := fun x => x.x1 || x.x2 }
/-- PHSIG. -/
def phsig' : Enc :=
  { op := 0x79, d := .zero, a := .bs, b := .vs, funcOk := fun f => f == 2, immb := true }
/-- PHWAIT. -/
def phwait' : Enc :=
  { op := 0x79, d := .zero, a := .bs, b := .vs, funcOk := fun f => f == 3, immb := true }
/-- PHSW. -/
def phsw' : Enc :=
  { op := 0x79, d := .zero, a := .bs, b := .vs, funcOk := fun f => f == 4, immb := true }
/-- PHQ. -/
def phq' : Enc :=
  { op := 0x79, d := .v, a := .bs, b := .zero, funcOk := fun f => f == 5 }
/-- RDEF. -/
def rdef' : Enc :=
  { op := 0x7A, d := .zero, a := .qs, funcOk := fun f => f == 0, word2 := true, extra := fun x => x.imm.toNat < 256 }
/-- RACQ. -/
def racq' : Enc :=
  { op := 0x7A, d := .v, a := .qs, funcOk := fun f => f == 1 }
/-- RPUB. -/
def rpub' : Enc :=
  { op := 0x7A, d := .zero, a := .qs, funcOk := fun f => f == 2 }
/-- RGET. -/
def rget' : Enc :=
  { op := 0x7A, d := .v, a := .qs, funcOk := fun f => f == 3 }
/-- RREL. -/
def rrel' : Enc :=
  { op := 0x7A, d := .zero, a := .qs, funcOk := fun f => f == 4 }
/-- CPY. -/
def cpy' : Enc :=
  { op := 0x7B, d := .v, a := .bsRun 4, funcOk := fun f => f == 0, word2 := true, extra := cpyOk }
/-- CPYW. -/
def cpyw' : Enc :=
  { op := 0x7B, b := .imm 0 15, funcOk := fun f => f == 1 }
/-- WLD. -/
def wld' : Enc :=
  { op := 0x7C, d := .v, a := .vs, b := .vs, types := [.f16, .bf16, .e4m3x4, .e5m2x4, .e2m1x8, .q4x8, .s8x4, .s4x8], dflt := .bf16,
    funcOk := fun f => f == 0, x1 := true, x2 := true, word2 := true, extra := wldOk }
/-- WSWAP. -/
def wswap' : Enc :=
  { op := 0x7C, funcOk := fun f => f == 1 }
/-- MMA. -/
def mma' : Enc :=
  { op := 0x7C, d := .v, a := .vs, b := .vs, funcOk := fun f => f == 2 }
/-- MDRAIN. -/
def mdrain' : Enc :=
  { op := 0x7C, d := .v, a := .vs, b := .vs, types := [.s32, .f32, .f16x2, .bf16x2, .e4m3x4, .e5m2x4, .e2m1x8, .s8x4, .s4x8], dflt := .f32,
    funcOk := fun f => f == 3, rnd := true, sat := true, x1 := true, x2 := true, word2 := true, extra := mdrainOk }
/-- ASHAPE. -/
def ashape' : Enc :=
  { op := 0x7C, d := .v, b := .vs, funcOk := fun f => f == 4, immb := true }
/-- TWAIT. -/
def twait' : Enc :=
  { op := 0x7C, a := .vs, funcOk := fun f => f == 5 }
/-- TQRY. -/
def tqry' : Enc :=
  { op := 0x7C, d := .v, a := .tqryA, funcOk := fun f => f == 6, x1 := true }
/-- YIELD. -/
def yield' : Enc :=
  { op := 0x7D }
/-- SLEEP. -/
def sleep' : Enc :=
  { op := 0x7D, b := .vs, funcOk := fun f => f == 1, immb := true }
/-- CROPEN. -/
def cropen' : Enc :=
  { op := 0x7D, a := .bs, funcOk := fun f => f == 2 }
/-- CRCLOSE. -/
def crclose' : Enc :=
  { op := 0x7D, funcOk := fun f => f == 3 }
/-- MAPV. -/
def mapv' : Enc :=
  { op := 0x7D, d := .vRun 2, funcOk := fun f => f == 4, x1 := true }
/-- MAPACK. -/
def mapack' : Enc :=
  { op := 0x7D, d := .v, a := .vsRun 2, funcOk := fun f => f == 5 }
/-- FEAT. -/
def feat' : Enc :=
  { op := 0x7D, d := .vRun 2, funcOk := fun f => f == 6, x1 := true }
/-- CLK. -/
def clk' : Enc :=
  { op := 0x7D, d := .vRun 2, funcOk := fun f => f == 7 }
/-- PMRD. -/
def pmrd' : Enc :=
  { op := 0x7D, d := .vRun 2, b := .imm 0 15, funcOk := fun f => f == 8 }
/-- PMCFG. -/
def pmcfg' : Enc :=
  { op := 0x7D, d := .v, a := .vs, b := .imm 11 15, funcOk := fun f => f == 9 }
/-- PROG. -/
def prog' : Enc :=
  { op := 0x7D, b := .imm 0 63, funcOk := fun f => f == 10 }

end Enc

/-- The X96 fields of B32 FFMA: C = D with its wait bit set (R40). -/
def W0.ffma (o : W0) : X96 := { Enc.ffma'.expand o with c := o.d, wc := true }

/-- The instruction is one that the spec gives: each field holds a value its entry accepts (R56). Events are always
well formed: what they name is checked when they happen. -/
def Instr.wf : Instr → Bool
  | .nop o => Enc.nop'.legal (Enc.nop'.expand o)
  | .nopX96 o => Enc.nop'.legal o
  | .iadd o => Enc.iadd'.legal (Enc.iadd'.expand o)
  | .iaddX96 o => Enc.iadd'.legal o
  | .isub o => Enc.isub'.legal (Enc.isub'.expand o)
  | .isubX96 o => Enc.isub'.legal o
  | .imul o => Enc.imul'.legal (Enc.imul'.expand o)
  | .imulX96 o => Enc.imul'.legal o
  | .imulh o => Enc.imulh'.legal (Enc.imulh'.expand o)
  | .imulhX96 o => Enc.imulh'.legal o
  | .imad o => Enc.imad'.legal o
  | .imin o => Enc.imin'.legal (Enc.imin'.expand o)
  | .iminX96 o => Enc.imin'.legal o
  | .imax o => Enc.imax'.legal (Enc.imax'.expand o)
  | .imaxX96 o => Enc.imax'.legal o
  | .and o => Enc.and'.legal (Enc.and'.expand o)
  | .andX96 o => Enc.and'.legal o
  | .or o => Enc.or'.legal (Enc.or'.expand o)
  | .orX96 o => Enc.or'.legal o
  | .xor o => Enc.xor'.legal (Enc.xor'.expand o)
  | .xorX96 o => Enc.xor'.legal o
  | .andn o => Enc.andn'.legal (Enc.andn'.expand o)
  | .andnX96 o => Enc.andn'.legal o
  | .shl o => Enc.shl'.legal (Enc.shl'.expand o)
  | .shlX96 o => Enc.shl'.legal o
  | .shr o => Enc.shr'.legal (Enc.shr'.expand o)
  | .shrX96 o => Enc.shr'.legal o
  | .sar o => Enc.sar'.legal (Enc.sar'.expand o)
  | .sarX96 o => Enc.sar'.legal o
  | .ineg o => Enc.ineg'.legal (Enc.ineg'.expand o)
  | .inegX96 o => Enc.ineg'.legal o
  | .iabs o => Enc.iabs'.legal (Enc.iabs'.expand o)
  | .iabsX96 o => Enc.iabs'.legal o
  | .not o => Enc.not'.legal (Enc.not'.expand o)
  | .notX96 o => Enc.not'.legal o
  | .popc o => Enc.popc'.legal (Enc.popc'.expand o)
  | .popcX96 o => Enc.popc'.legal o
  | .clz o => Enc.clz'.legal (Enc.clz'.expand o)
  | .clzX96 o => Enc.clz'.legal o
  | .brev o => Enc.brev'.legal (Enc.brev'.expand o)
  | .brevX96 o => Enc.brev'.legal o
  | .bfe o => Enc.bfe'.legal (Enc.bfe'.expand o)
  | .bfeX96 o => Enc.bfe'.legal o
  | .bfi o => Enc.bfi'.legal o
  | .icmp o => Enc.icmp'.legal (Enc.icmp'.expand o)
  | .icmpX96 o => Enc.icmp'.legal o
  | .isel o => Enc.isel'.legal (Enc.isel'.expand o)
  | .iselX96 o => Enc.isel'.legal o
  | .badd o => Enc.badd'.legal (Enc.badd'.expand o)
  | .baddX96 o => Enc.badd'.legal o
  | .bmov o => Enc.bmov'.legal (Enc.bmov'.expand o)
  | .bmovX96 o => Enc.bmov'.legal o
  | .bget o => Enc.bget'.legal (Enc.bget'.expand o)
  | .bgetX96 o => Enc.bget'.legal o
  | .blit o => Enc.blit'.legal (Enc.blit'.expand o.w0)
  | .mov o => Enc.mov'.legal (Enc.mov'.expand o)
  | .movX96 o => Enc.mov'.legal o
  | .movi o => Enc.movi'.legal (Enc.movi'.expand o.w0) && o.lit.hi == 0
  | .lane o => Enc.lane'.legal (Enc.lane'.expand o)
  | .laneX96 o => Enc.lane'.legal o
  | .shape o => Enc.shape'.legal (Enc.shape'.expand o)
  | .shapeX96 o => Enc.shape'.legal o
  | .shapea o => Enc.shapea'.legal (Enc.shapea'.expand o)
  | .shapeaX96 o => Enc.shapea'.legal o
  | .shapef o => Enc.shapef'.legal (Enc.shapef'.expand o)
  | .shapefX96 o => Enc.shapef'.legal o
  | .sqz o => Enc.sqz'.legal (Enc.sqz'.expand o)
  | .sqzX96 o => Enc.sqz'.legal o
  | .bcast o => Enc.bcast'.legal (Enc.bcast'.expand o)
  | .bcastX96 o => Enc.bcast'.legal o
  | .shfl o => Enc.shfl'.legal (Enc.shfl'.expand o)
  | .shflX96 o => Enc.shfl'.legal o
  | .vote o => Enc.vote'.legal (Enc.vote'.expand o)
  | .voteX96 o => Enc.vote'.legal o
  | .lred o => Enc.lred'.legal (Enc.lred'.expand o)
  | .lredX96 o => Enc.lred'.legal o
  | .gid o => Enc.gid'.legal (Enc.gid'.expand o)
  | .gidX96 o => Enc.gid'.legal o
  | .kand o => Enc.kand'.legal (Enc.kand'.expand o)
  | .kandX96 o => Enc.kand'.legal o
  | .kor o => Enc.kor'.legal (Enc.kor'.expand o)
  | .korX96 o => Enc.kor'.legal o
  | .kxor o => Enc.kxor'.legal (Enc.kxor'.expand o)
  | .kxorX96 o => Enc.kxor'.legal o
  | .kandn o => Enc.kandn'.legal (Enc.kandn'.expand o)
  | .kandnX96 o => Enc.kandn'.legal o
  | .knot o => Enc.knot'.legal (Enc.knot'.expand o)
  | .knotX96 o => Enc.knot'.legal o
  | .kmov o => Enc.kmov'.legal (Enc.kmov'.expand o)
  | .kmovX96 o => Enc.kmov'.legal o
  | .kset o => Enc.kset'.legal (Enc.kset'.expand o)
  | .ksetX96 o => Enc.kset'.legal o
  | .kpop o => Enc.kpop'.legal (Enc.kpop'.expand o)
  | .kpopX96 o => Enc.kpop'.legal o
  | .kget o => Enc.kget'.legal (Enc.kget'.expand o)
  | .kgetX96 o => Enc.kget'.legal o
  | .fadd o => Enc.fadd'.legal (Enc.fadd'.expand o)
  | .faddX96 o => Enc.fadd'.legal o
  | .fsub o => Enc.fsub'.legal (Enc.fsub'.expand o)
  | .fsubX96 o => Enc.fsub'.legal o
  | .fmul o => Enc.fmul'.legal (Enc.fmul'.expand o)
  | .fmulX96 o => Enc.fmul'.legal o
  | .ffma o => Enc.ffma'.legal o.ffma
  | .ffmaX96 o => Enc.ffma'.legal o
  | .fmin o => Enc.fmin'.legal (Enc.fmin'.expand o)
  | .fminX96 o => Enc.fmin'.legal o
  | .fmax o => Enc.fmax'.legal (Enc.fmax'.expand o)
  | .fmaxX96 o => Enc.fmax'.legal o
  | .fcmp o => Enc.fcmp'.legal (Enc.fcmp'.expand o)
  | .fcmpX96 o => Enc.fcmp'.legal o
  | .fneg o => Enc.fneg'.legal (Enc.fneg'.expand o)
  | .fnegX96 o => Enc.fneg'.legal o
  | .fabs o => Enc.fabs'.legal (Enc.fabs'.expand o)
  | .fabsX96 o => Enc.fabs'.legal o
  | .frcp o => Enc.frcp'.legal (Enc.frcp'.expand o)
  | .frcpX96 o => Enc.frcp'.legal o
  | .frsq o => Enc.frsq'.legal (Enc.frsq'.expand o)
  | .frsqX96 o => Enc.frsq'.legal o
  | .fsqrt o => Enc.fsqrt'.legal (Enc.fsqrt'.expand o)
  | .fsqrtX96 o => Enc.fsqrt'.legal o
  | .fexp2 o => Enc.fexp2'.legal (Enc.fexp2'.expand o)
  | .fexp2X96 o => Enc.fexp2'.legal o
  | .flog2 o => Enc.flog2'.legal (Enc.flog2'.expand o)
  | .flog2X96 o => Enc.flog2'.legal o
  | .fsin o => Enc.fsin'.legal (Enc.fsin'.expand o)
  | .fsinX96 o => Enc.fsin'.legal o
  | .fcos o => Enc.fcos'.legal (Enc.fcos'.expand o)
  | .fcosX96 o => Enc.fcos'.legal o
  | .ftanh o => Enc.ftanh'.legal (Enc.ftanh'.expand o)
  | .ftanhX96 o => Enc.ftanh'.legal o
  | .fclass o => Enc.fclass'.legal (Enc.fclass'.expand o)
  | .fclassX96 o => Enc.fclass'.legal o
  | .cvt o => Enc.cvt'.legal (Enc.cvt'.expand o)
  | .cvtX96 o => Enc.cvt'.legal o
  | .cvtq o => Enc.cvtq'.legal o
  | .cvtd o => Enc.cvtd'.legal (Enc.cvtd'.expand o)
  | .cvtdX96 o => Enc.cvtd'.legal o
  | .amax o => Enc.amax'.legal (Enc.amax'.expand o)
  | .amaxX96 o => Enc.amax'.legal o
  | .amget o => Enc.amget'.legal (Enc.amget'.expand o)
  | .amgetX96 o => Enc.amget'.legal o
  | .jmp _ => true
  | .call _ => true
  | .br o => Enc.br'.legal o
  | .bru o => Enc.bru'.legal o
  | .join o => Enc.join'.legal (Enc.join'.expand o)
  | .joinX96 o => Enc.join'.legal o
  | .ret o => Enc.ret'.legal (Enc.ret'.expand o)
  | .retX96 o => Enc.ret'.legal o
  | .jmpi o => Enc.jmpi'.legal (Enc.jmpi'.expand o)
  | .jmpiX96 o => Enc.jmpi'.legal o
  | .calli o => Enc.calli'.legal (Enc.calli'.expand o)
  | .calliX96 o => Enc.calli'.legal o
  | .fcall o => Enc.fcall'.legal o.x
  | .exit o => Enc.exit'.legal (Enc.exit'.expand o)
  | .exitX96 o => Enc.exit'.legal o
  | .jget o => Enc.jget'.legal (Enc.jget'.expand o)
  | .jgetX96 o => Enc.jget'.legal o
  | .jput o => Enc.jput'.legal o
  | .trap o => Enc.trap'.legal (Enc.trap'.expand o)
  | .trapX96 o => Enc.trap'.legal o
  | .thret o => Enc.thret'.legal (Enc.thret'.expand o)
  | .thretX96 o => Enc.thret'.legal o
  | .ld o => Enc.ld'.legal (Enc.ld'.expand o)
  | .ldX96 o => Enc.ld'.legal o
  | .st o => Enc.st'.legal (Enc.st'.expand o)
  | .stX96 o => Enc.st'.legal o
  | .lds o => Enc.lds'.legal (Enc.lds'.expand o)
  | .ldsX96 o => Enc.lds'.legal o
  | .sts o => Enc.sts'.legal (Enc.sts'.expand o)
  | .stsX96 o => Enc.sts'.legal o
  | .ldp o => Enc.ldp'.legal (Enc.ldp'.expand o)
  | .ldpX96 o => Enc.ldp'.legal o
  | .stp o => Enc.stp'.legal (Enc.stp'.expand o)
  | .stpX96 o => Enc.stp'.legal o
  | .ldf o => Enc.ldf'.legal (Enc.ldf'.expand o)
  | .ldfX96 o => Enc.ldf'.legal o
  | .ldfk o => Enc.ldfk'.legal (Enc.ldfk'.expand o)
  | .ldfkX96 o => Enc.ldfk'.legal o
  | .stf o => Enc.stf'.legal (Enc.stf'.expand o)
  | .stfX96 o => Enc.stf'.legal o
  | .feset o => Enc.feset'.legal (Enc.feset'.expand o)
  | .fesetX96 o => Enc.feset'.legal o
  | .ldt o => Enc.ldt'.legal (Enc.ldt'.expand o)
  | .ldtX96 o => Enc.ldt'.legal o
  | .stct o => Enc.stct'.legal o
  | .stz o => Enc.stz'.legal (Enc.stz'.expand o)
  | .stzX96 o => Enc.stz'.legal o
  | .ldz o => Enc.ldz'.legal (Enc.ldz'.expand o)
  | .ldzX96 o => Enc.ldz'.legal o
  | .pref o => Enc.pref'.legal (Enc.pref'.expand o)
  | .prefX96 o => Enc.pref'.legal o
  | .cwb o => Enc.cwb'.legal (Enc.cwb'.expand o)
  | .cwbX96 o => Enc.cwb'.legal o
  | .atom o => Enc.atom'.legal o
  | .red o => Enc.red'.legal (Enc.red'.expand o)
  | .redX96 o => Enc.red'.legal o
  | .acas o => Enc.acas'.legal o
  | .fence o => Enc.fence'.legal (Enc.fence'.expand o)
  | .fenceX96 o => Enc.fence'.legal o
  | .xfence o => Enc.xfence'.legal o
  | .publish o => Enc.publish'.legal (Enc.publish'.expand o)
  | .publishX96 o => Enc.publish'.legal o
  | .chunk o => Enc.chunk'.legal (Enc.chunk'.expand o)
  | .chunkX96 o => Enc.chunk'.legal o
  | .launch o => Enc.launch'.legal (Enc.launch'.expand o)
  | .launchX96 o => Enc.launch'.legal o
  | .bar o => Enc.bar'.legal (Enc.bar'.expand o)
  | .barX96 o => Enc.bar'.legal o
  | .phreg o => Enc.phreg'.legal o
  | .phdrop o => Enc.phdrop'.legal o
  | .phsig o => Enc.phsig'.legal o
  | .phwait o => Enc.phwait'.legal o
  | .phsw o => Enc.phsw'.legal o
  | .phq o => Enc.phq'.legal o
  | .rdef o => Enc.rdef'.legal o
  | .racq o => Enc.racq'.legal o
  | .rpub o => Enc.rpub'.legal o
  | .rget o => Enc.rget'.legal o
  | .rrel o => Enc.rrel'.legal o
  | .cpy o => Enc.cpy'.legal o
  | .cpyw o => Enc.cpyw'.legal o
  | .wld o => Enc.wld'.legal (Enc.wld'.expand o)
  | .wldX96 o => Enc.wld'.legal o
  | .wswap o => Enc.wswap'.legal o
  | .mma o => Enc.mma'.legal o.x && mmaOk o.lit
  | .mdrain o => Enc.mdrain'.legal o
  | .ashape o => Enc.ashape'.legal o
  | .twait o => Enc.twait'.legal o
  | .tqry o => Enc.tqry'.legal o
  | .yield o => Enc.yield'.legal (Enc.yield'.expand o)
  | .yieldX96 o => Enc.yield'.legal o
  | .sleep o => Enc.sleep'.legal o
  | .cropen o => Enc.cropen'.legal o
  | .crclose o => Enc.crclose'.legal o
  | .mapv o => Enc.mapv'.legal o
  | .mapack o => Enc.mapack'.legal o
  | .feat o => Enc.feat'.legal o
  | .clk o => Enc.clk'.legal o
  | .pmrd o => Enc.pmrd'.legal o
  | .pmcfg o => Enc.pmcfg'.legal o
  | .prog o => Enc.prog'.legal o
  | .udf w => w.toNat / 4 % 128 = 0x7F
  | .nonInstruction _ => false
  | _ => true

end Sys2Proof
end

