-- ==== Sys2Proof/Decode.lean ====
section
/-!
DEFINITION. The decoder: from the words of one instruction (R34-R44) to an Instr, or none for a non-instruction (R56); then the
encoder, written from the same tables.
-/

namespace Sys2Proof

/-! ### Field codes -/

/-- TYPE of a code; 15 is reserved (R49). -/
def Ty.ofCode? (n : Nat) : Option Ty := allTypes[n]?

/-- RND code (R70). -/
def Rnd.code : Rnd → Nat
  | .rne => 0 | .rz => 1 | .ru => 2 | .rd => 3 | .rna => 4 | .sr => 5

/-- RND of a code; 6 and 7 are reserved (R49). -/
def Rnd.ofCode? : Nat → Option Rnd
  | 0 => some .rne | 1 => some .rz | 2 => some .ru | 3 => some .rd | 4 => some .rna | 5 => some .sr | _ => none

/-- SCOPE of a code; 5 to 7 are reserved (R49). -/
def Scope.ofCode? : Nat → Option Scope
  | 0 => some .group | 1 => some .cluster | 2 => some .die | 3 => some .device | 4 => some .system | _ => none

/-- ORD code (R18). -/
def Ord.code : Ord → Nat
  | .relaxed => 0 | .acquire => 1 | .release => 2 | .acqRel => 3

/-- ORD of a code (R18). -/
def Ord.ofCode : Nat → Ord
  | 0 => .relaxed | 1 => .acquire | 2 => .release | _ => .acqRel

/-! ### Words -/

/-- LEN of word 0 (R34). -/
def lenOf (w : Word) : Nat := (w.extractLsb' 0 2).toNat

/-- The number of words of a form (R34). -/
def wordsOfLen : Nat → Nat
  | 0 => 1 | 1 => 3 | 2 => 3 | _ => 5

/-- Byte count of the form whose word 0 is `w` (R34, R35). -/
def formBytes (w : Word) : Nat := 4 * wordsOfLen (lenOf w)

/-- OP of word 0 (R36). -/
def opOf (w : Word) : Nat := (w.extractLsb' 2 7).toNat

/-- The fields of word 0 (R36). -/
def W0.ofWord (w : Word) : W0 :=
  { k := w.extractLsb' 27 3, wa := w.getLsbD 30, wb := w.getLsbD 31
    a := w.extractLsb' 15 6, b := w.extractLsb' 21 6, d := w.extractLsb' 9 6 }

/-- Word 0 with its fields laid out by R36. -/
def W0.toWord (o : W0) (op len : Nat) : Word :=
  BitVec.ofBool o.wb ++ BitVec.ofBool o.wa ++ o.k ++ o.b ++ o.a ++ o.d ++ BitVec.ofNat 7 op ++ BitVec.ofNat 2 len

/-- The fields of words 0 to 2 (R36, R38, R39); none when a code or bit 31 of word 1 is reserved. -/
def X96.ofWords? (w0 w1 w2 : Word) : Option X96 :=
  if w1.getLsbD 31 then none else do
    let ty ← Ty.ofCode? (w1.extractLsb' 7 4).toNat
    let rnd ← Rnd.ofCode? (w1.extractLsb' 11 3).toNat
    let scope ← Scope.ofCode? (w1.extractLsb' 15 3).toNat
    some { w0 := W0.ofWord w0, immb := w1.getLsbD 28, x1 := w1.getLsbD 29, x2 := w1.getLsbD 30
           func := w1.extractLsb' 20 8, ord := Ord.ofCode (w1.extractLsb' 18 2).toNat, scope := scope
           sat := w1.getLsbD 14, rnd := rnd, ty := ty, wc := w1.getLsbD 6, c := w1.extractLsb' 0 6, imm := w2 }

/-- Word 1 with its fields laid out by R38. -/
def X96.word1 (x : X96) : Word :=
  BitVec.ofBool false ++ BitVec.ofBool x.x2 ++ BitVec.ofBool x.x1 ++ BitVec.ofBool x.immb ++ x.func ++
    BitVec.ofNat 2 x.ord.code ++ BitVec.ofNat 3 x.scope.code ++ BitVec.ofBool x.sat ++ BitVec.ofNat 3 x.rnd.code ++
    BitVec.ofNat 4 x.ty.code ++ BitVec.ofBool x.wc ++ x.c

/-! ### Dispatch on OP and the selectors of R53 and R54 -/

/-- The B32 instruction of an opcode, before its fields are checked. -/
def dispB32 (op : Nat) (o : W0) : Option Instr :=
  match op with
  | 0x00 => some (.nop o)
  | 0x01 => some (.iadd o)
  | 0x02 => some (.isub o)
  | 0x03 => some (.imul o)
  | 0x04 => some (.imulh o)
  | 0x06 => some (.imin o)
  | 0x07 => some (.imax o)
  | 0x08 => some (.and o)
  | 0x09 => some (.or o)
  | 0x0A => some (.xor o)
  | 0x0B => some (.andn o)
  | 0x0C => some (.shl o)
  | 0x0D => some (.shr o)
  | 0x0E => some (.sar o)
  | 0x0F =>
    match o.b.toNat with
    | 0 => some (.ineg o)
    | 1 => some (.iabs o)
    | 2 => some (.not o)
    | 3 => some (.popc o)
    | 4 => some (.clz o)
    | 5 => some (.brev o)
    | _ => none
  | 0x10 => some (.bfe o)
  | 0x12 => some (.icmp o)
  | 0x13 => some (.isel o)
  | 0x18 => some (.badd o)
  | 0x19 => some (.bmov o)
  | 0x1A => some (.bget o)
  | 0x20 => some (.mov o)
  | 0x22 => some (.lane o)
  | 0x23 => some (.shape o)
  | 0x24 => some (.shapea o)
  | 0x25 => some (.shapef o)
  | 0x26 => some (.sqz o)
  | 0x27 => some (.bcast o)
  | 0x28 => some (.shfl o)
  | 0x29 => some (.vote o)
  | 0x2A => some (.lred o)
  | 0x2B => some (.gid o)
  | 0x30 =>
    match o.b.toNat / 8 with
    | 0 => some (.kand o)
    | 1 => some (.kor o)
    | 2 => some (.kxor o)
    | 3 => some (.kandn o)
    | 4 => some (.knot o)
    | 5 => some (.kmov o)
    | _ => none
  | 0x31 => some (.kset o)
  | 0x32 => some (.kpop o)
  | 0x33 => some (.kget o)
  | 0x38 => some (.fadd o)
  | 0x39 => some (.fsub o)
  | 0x3A => some (.fmul o)
  | 0x3B => some (.ffma o)
  | 0x3C => some (.fmin o)
  | 0x3D => some (.fmax o)
  | 0x3E => some (.fcmp o)
  | 0x3F =>
    match o.b.toNat with
    | 0 => some (.fneg o)
    | 1 => some (.fabs o)
    | 2 => some (.frcp o)
    | 3 => some (.frsq o)
    | 4 => some (.fsqrt o)
    | 5 => some (.fexp2 o)
    | 6 => some (.flog2 o)
    | 7 => some (.fsin o)
    | 8 => some (.fcos o)
    | 9 => some (.ftanh o)
    | 10 => some (.fclass o)
    | _ => none
  | 0x40 => some (.cvt o)
  | 0x42 => some (.cvtd o)
  | 0x43 => some (.amax o)
  | 0x44 => some (.amget o)
  | 0x54 => some (.join o)
  | 0x55 => if o = {} then some .yieldp else none
  | 0x56 => some (.ret o)
  | 0x57 => some (.jmpi o)
  | 0x58 => some (.calli o)
  | 0x5A => some (.exit o)
  | 0x5B => some (.jget o)
  | 0x5C => some (.trap o)
  | 0x5D => some (.thret o)
  | 0x60 => some (.ld o)
  | 0x61 => some (.st o)
  | 0x62 => some (.lds o)
  | 0x63 => some (.sts o)
  | 0x64 => some (.ldp o)
  | 0x65 => some (.stp o)
  | 0x66 => some (.ldf o)
  | 0x67 => some (.ldfk o)
  | 0x68 => some (.stf o)
  | 0x69 => some (.feset o)
  | 0x6A => some (.ldt o)
  | 0x6C => some (.stz o)
  | 0x6D => some (.ldz o)
  | 0x6E => some (.pref o)
  | 0x6F => some (.cwb o)
  | 0x71 => some (.red o)
  | 0x73 => some (.fence o)
  | 0x75 => some (.publish o)
  | 0x76 => some (.chunk o)
  | 0x77 => some (.launch o)
  | 0x78 => some (.bar o)
  | 0x7C => some (.wld o)
  | 0x7D => some (.yield o)
  | _ => none

/-- The X96 instruction of an opcode, before its fields are checked. -/
def dispX96 (op : Nat) (o : X96) : Option Instr :=
  match op with
  | 0x00 => some (.nopX96 o)
  | 0x01 => some (.iaddX96 o)
  | 0x02 => some (.isubX96 o)
  | 0x03 => some (.imulX96 o)
  | 0x04 => some (.imulhX96 o)
  | 0x05 => some (.imad o)
  | 0x06 => some (.iminX96 o)
  | 0x07 => some (.imaxX96 o)
  | 0x08 => some (.andX96 o)
  | 0x09 => some (.orX96 o)
  | 0x0A => some (.xorX96 o)
  | 0x0B => some (.andnX96 o)
  | 0x0C => some (.shlX96 o)
  | 0x0D => some (.shrX96 o)
  | 0x0E => some (.sarX96 o)
  | 0x0F =>
    match o.w0.b.toNat with
    | 0 => some (.inegX96 o)
    | 1 => some (.iabsX96 o)
    | 2 => some (.notX96 o)
    | 3 => some (.popcX96 o)
    | 4 => some (.clzX96 o)
    | 5 => some (.brevX96 o)
    | _ => none
  | 0x10 => some (.bfeX96 o)
  | 0x11 => some (.bfi o)
  | 0x12 => some (.icmpX96 o)
  | 0x13 => some (.iselX96 o)
  | 0x18 => some (.baddX96 o)
  | 0x19 => some (.bmovX96 o)
  | 0x1A => some (.bgetX96 o)
  | 0x20 => some (.movX96 o)
  | 0x22 => some (.laneX96 o)
  | 0x23 => some (.shapeX96 o)
  | 0x24 => some (.shapeaX96 o)
  | 0x25 => some (.shapefX96 o)
  | 0x26 => some (.sqzX96 o)
  | 0x27 => some (.bcastX96 o)
  | 0x28 => some (.shflX96 o)
  | 0x29 => some (.voteX96 o)
  | 0x2A => some (.lredX96 o)
  | 0x2B => some (.gidX96 o)
  | 0x30 =>
    match o.w0.b.toNat / 8 with
    | 0 => some (.kandX96 o)
    | 1 => some (.korX96 o)
    | 2 => some (.kxorX96 o)
    | 3 => some (.kandnX96 o)
    | 4 => some (.knotX96 o)
    | 5 => some (.kmovX96 o)
    | _ => none
  | 0x31 => some (.ksetX96 o)
  | 0x32 => some (.kpopX96 o)
  | 0x33 => some (.kgetX96 o)
  | 0x38 => some (.faddX96 o)
  | 0x39 => some (.fsubX96 o)
  | 0x3A => some (.fmulX96 o)
  | 0x3B => some (.ffmaX96 o)
  | 0x3C => some (.fminX96 o)
  | 0x3D => some (.fmaxX96 o)
  | 0x3E => some (.fcmpX96 o)
  | 0x3F =>
    match o.w0.b.toNat with
    | 0 => some (.fnegX96 o)
    | 1 => some (.fabsX96 o)
    | 2 => some (.frcpX96 o)
    | 3 => some (.frsqX96 o)
    | 4 => some (.fsqrtX96 o)
    | 5 => some (.fexp2X96 o)
    | 6 => some (.flog2X96 o)
    | 7 => some (.fsinX96 o)
    | 8 => some (.fcosX96 o)
    | 9 => some (.ftanhX96 o)
    | 10 => some (.fclassX96 o)
    | _ => none
  | 0x40 => some (.cvtX96 o)
  | 0x41 => some (.cvtq o)
  | 0x42 => some (.cvtdX96 o)
  | 0x43 => some (.amaxX96 o)
  | 0x44 => some (.amgetX96 o)
  | 0x52 => some (.br o)
  | 0x53 => some (.bru o)
  | 0x54 => some (.joinX96 o)
  | 0x55 => if o = {} then some .yieldpX96 else none
  | 0x56 => some (.retX96 o)
  | 0x57 => some (.jmpiX96 o)
  | 0x58 => some (.calliX96 o)
  | 0x5A => some (.exitX96 o)
  | 0x5B =>
    match o.func.toNat with
    | 0 => some (.jgetX96 o)
    | 1 => some (.jput o)
    | _ => none
  | 0x5C => some (.trapX96 o)
  | 0x5D => some (.thretX96 o)
  | 0x60 => some (.ldX96 o)
  | 0x61 => some (.stX96 o)
  | 0x62 => some (.ldsX96 o)
  | 0x63 => some (.stsX96 o)
  | 0x64 => some (.ldpX96 o)
  | 0x65 => some (.stpX96 o)
  | 0x66 => some (.ldfX96 o)
  | 0x67 => some (.ldfkX96 o)
  | 0x68 => some (.stfX96 o)
  | 0x69 => some (.fesetX96 o)
  | 0x6A => some (.ldtX96 o)
  | 0x6B => some (.stct o)
  | 0x6C => some (.stzX96 o)
  | 0x6D => some (.ldzX96 o)
  | 0x6E => some (.prefX96 o)
  | 0x6F => some (.cwbX96 o)
  | 0x70 => some (.atom o)
  | 0x71 => some (.redX96 o)
  | 0x72 => some (.acas o)
  | 0x73 => some (.fenceX96 o)
  | 0x74 => some (.xfence o)
  | 0x75 => some (.publishX96 o)
  | 0x76 => some (.chunkX96 o)
  | 0x77 => some (.launchX96 o)
  | 0x78 => some (.barX96 o)
  | 0x79 =>
    match o.func.toNat with
    | 0 => some (.phreg o)
    | 1 => some (.phdrop o)
    | 2 => some (.phsig o)
    | 3 => some (.phwait o)
    | 4 => some (.phsw o)
    | 5 => some (.phq o)
    | _ => none
  | 0x7A =>
    match o.func.toNat with
    | 0 => some (.rdef o)
    | 1 => some (.racq o)
    | 2 => some (.rpub o)
    | 3 => some (.rget o)
    | 4 => some (.rrel o)
    | _ => none
  | 0x7B =>
    match o.func.toNat with
    | 0 => some (.cpy o)
    | 1 => some (.cpyw o)
    | _ => none
  | 0x7C =>
    match o.func.toNat with
    | 0 => some (.wldX96 o)
    | 1 => some (.wswap o)
    | 3 => some (.mdrain o)
    | 4 => some (.ashape o)
    | 5 => some (.twait o)
    | 6 => some (.tqry o)
    | _ => none
  | 0x7D =>
    match o.func.toNat with
    | 0 => some (.yieldX96 o)
    | 1 => some (.sleep o)
    | 2 => some (.cropen o)
    | 3 => some (.crclose o)
    | 4 => some (.mapv o)
    | 5 => some (.mapack o)
    | 6 => some (.feat o)
    | 7 => some (.clk o)
    | 8 => some (.pmrd o)
    | 9 => some (.pmcfg o)
    | 10 => some (.prog o)
    | _ => none
  | _ => none

/-- The BL instruction of an opcode (R43). -/
def dispBL (op : Nat) (o : BL) : Option Instr :=
  match op with
  | 0x1B => some (.blit o)
  | 0x21 => some (.movi o)
  | _ => none

/-- The XL instruction of an opcode (R43). -/
def dispXL (op : Nat) (o : XL) : Option Instr :=
  match op with
  | 0x59 => some (.fcall o)
  | 0x7C => if o.x.func = 2 then some (.mma o) else none
  | _ => none

/-- Keep an instruction whose fields are legal (R56). -/
def keepWf (i : Option Instr) : Option Instr := i.filter fun i => i.wf

/-! ### The decoder -/

/-- The instruction of the words of one form, or none for a non-instruction (R56). Major 0x7F is UDF with any field
contents and any LEN; the words past word 0 may be short for it. -/
def decode (ws : List Word) : Option Instr :=
  match ws with
  | [] => none
  | w0 :: rest =>
    let op := opOf w0
    if op = 0x7F then some (.udf w0)
    else
      match lenOf w0, rest with
      | 0, _ =>
        if op = 0x50 then some (.jmp { off := w0.extractLsb' 9 23 })
        else if op = 0x51 then some (.call { off := w0.extractLsb' 9 23 })
        else keepWf (dispB32 op (W0.ofWord w0))
      | 1, w1 :: w2 :: _ => keepWf (dispBL op { w0 := W0.ofWord w0, lit := DWord.pair w1 w2 })
      | 2, w1 :: w2 :: _ => keepWf ((X96.ofWords? w0 w1 w2).bind (dispX96 op))
      | 3, w1 :: w2 :: w3 :: w4 :: _ =>
        keepWf ((X96.ofWords? w0 w1 w2).bind fun x => dispXL op { x := x, lit := DWord.pair w3 w4 })
      | _, _ => none

/-- The words of a byte sequence, each little-endian (R34). -/
def wordsOfBytes : List Byte → List Word
  | a :: b :: c :: d :: rest => (d ++ c ++ b ++ a : BitVec 32) :: wordsOfBytes rest
  | _ => []

/-- The bytes of a word (R34). -/
def bytesOfWord (w : Word) : List Byte :=
  [w.extractLsb' 0 8, w.extractLsb' 8 8, w.extractLsb' 16 8, w.extractLsb' 24 8]

/-- The five words, zero above `nbits`, of an instruction whose bits are `w` with bit 0 the least significant of word 0. -/
def tableWords (nbits w : Nat) : List Word :=
  let v := w % 2 ^ nbits
  (List.range 5).map fun i => BitVec.ofNat 32 (v / 2 ^ (32 * i))

/-- The bytes of such an instruction as they lie in memory (R34). -/
def tableBytes (nbits w : Nat) : List Byte := (tableWords nbits w).flatMap bytesOfWord

/-- The instruction the decoder reads from such bytes. -/
def decodeTableWord (nbits w : Nat) : Option Instr := decode (wordsOfBytes (tableBytes nbits w))

/-! ### The encoder -/

/-- The words of a B32 instruction. -/
def encB32 (op : Nat) (o : W0) : List Word := [o.toWord op 0]

/-- The words of a BL instruction. -/
def encBL (op : Nat) (o : BL) : List Word := [o.w0.toWord op 1, o.lit.lo, o.lit.hi]

/-- The words of an X96 instruction. -/
def encX96 (op : Nat) (o : X96) : List Word := [o.w0.toWord op 2, o.word1, o.imm]

/-- The words of an XL instruction. -/
def encXL (op : Nat) (o : XL) : List Word := [o.x.w0.toWord op 3, o.x.word1, o.x.imm, o.lit.lo, o.lit.hi]

/-- The word of a B32-J instruction (R37). -/
def encJ (op : Nat) (o : J) : List Word := [o.off ++ BitVec.ofNat 7 op ++ (0 : BitVec 2)]

/-- The words of an instruction; an event has none. -/
def encode : Instr → List Word
  | .nop o => encB32 0x00 o
  | .nopX96 o => encX96 0x00 o
  | .iadd o => encB32 0x01 o
  | .iaddX96 o => encX96 0x01 o
  | .isub o => encB32 0x02 o
  | .isubX96 o => encX96 0x02 o
  | .imul o => encB32 0x03 o
  | .imulX96 o => encX96 0x03 o
  | .imulh o => encB32 0x04 o
  | .imulhX96 o => encX96 0x04 o
  | .imad o => encX96 0x05 o
  | .imin o => encB32 0x06 o
  | .iminX96 o => encX96 0x06 o
  | .imax o => encB32 0x07 o
  | .imaxX96 o => encX96 0x07 o
  | .and o => encB32 0x08 o
  | .andX96 o => encX96 0x08 o
  | .or o => encB32 0x09 o
  | .orX96 o => encX96 0x09 o
  | .xor o => encB32 0x0A o
  | .xorX96 o => encX96 0x0A o
  | .andn o => encB32 0x0B o
  | .andnX96 o => encX96 0x0B o
  | .shl o => encB32 0x0C o
  | .shlX96 o => encX96 0x0C o
  | .shr o => encB32 0x0D o
  | .shrX96 o => encX96 0x0D o
  | .sar o => encB32 0x0E o
  | .sarX96 o => encX96 0x0E o
  | .ineg o => encB32 0x0F o
  | .inegX96 o => encX96 0x0F o
  | .iabs o => encB32 0x0F o
  | .iabsX96 o => encX96 0x0F o
  | .not o => encB32 0x0F o
  | .notX96 o => encX96 0x0F o
  | .popc o => encB32 0x0F o
  | .popcX96 o => encX96 0x0F o
  | .clz o => encB32 0x0F o
  | .clzX96 o => encX96 0x0F o
  | .brev o => encB32 0x0F o
  | .brevX96 o => encX96 0x0F o
  | .bfe o => encB32 0x10 o
  | .bfeX96 o => encX96 0x10 o
  | .bfi o => encX96 0x11 o
  | .icmp o => encB32 0x12 o
  | .icmpX96 o => encX96 0x12 o
  | .isel o => encB32 0x13 o
  | .iselX96 o => encX96 0x13 o
  | .badd o => encB32 0x18 o
  | .baddX96 o => encX96 0x18 o
  | .bmov o => encB32 0x19 o
  | .bmovX96 o => encX96 0x19 o
  | .bget o => encB32 0x1A o
  | .bgetX96 o => encX96 0x1A o
  | .blit o => encBL 0x1B o
  | .mov o => encB32 0x20 o
  | .movX96 o => encX96 0x20 o
  | .movi o => encBL 0x21 o
  | .lane o => encB32 0x22 o
  | .laneX96 o => encX96 0x22 o
  | .shape o => encB32 0x23 o
  | .shapeX96 o => encX96 0x23 o
  | .shapea o => encB32 0x24 o
  | .shapeaX96 o => encX96 0x24 o
  | .shapef o => encB32 0x25 o
  | .shapefX96 o => encX96 0x25 o
  | .sqz o => encB32 0x26 o
  | .sqzX96 o => encX96 0x26 o
  | .bcast o => encB32 0x27 o
  | .bcastX96 o => encX96 0x27 o
  | .shfl o => encB32 0x28 o
  | .shflX96 o => encX96 0x28 o
  | .vote o => encB32 0x29 o
  | .voteX96 o => encX96 0x29 o
  | .lred o => encB32 0x2A o
  | .lredX96 o => encX96 0x2A o
  | .gid o => encB32 0x2B o
  | .gidX96 o => encX96 0x2B o
  | .kand o => encB32 0x30 o
  | .kandX96 o => encX96 0x30 o
  | .kor o => encB32 0x30 o
  | .korX96 o => encX96 0x30 o
  | .kxor o => encB32 0x30 o
  | .kxorX96 o => encX96 0x30 o
  | .kandn o => encB32 0x30 o
  | .kandnX96 o => encX96 0x30 o
  | .knot o => encB32 0x30 o
  | .knotX96 o => encX96 0x30 o
  | .kmov o => encB32 0x30 o
  | .kmovX96 o => encX96 0x30 o
  | .kset o => encB32 0x31 o
  | .ksetX96 o => encX96 0x31 o
  | .kpop o => encB32 0x32 o
  | .kpopX96 o => encX96 0x32 o
  | .kget o => encB32 0x33 o
  | .kgetX96 o => encX96 0x33 o
  | .fadd o => encB32 0x38 o
  | .faddX96 o => encX96 0x38 o
  | .fsub o => encB32 0x39 o
  | .fsubX96 o => encX96 0x39 o
  | .fmul o => encB32 0x3A o
  | .fmulX96 o => encX96 0x3A o
  | .ffma o => encB32 0x3B o
  | .ffmaX96 o => encX96 0x3B o
  | .fmin o => encB32 0x3C o
  | .fminX96 o => encX96 0x3C o
  | .fmax o => encB32 0x3D o
  | .fmaxX96 o => encX96 0x3D o
  | .fcmp o => encB32 0x3E o
  | .fcmpX96 o => encX96 0x3E o
  | .fneg o => encB32 0x3F o
  | .fnegX96 o => encX96 0x3F o
  | .fabs o => encB32 0x3F o
  | .fabsX96 o => encX96 0x3F o
  | .frcp o => encB32 0x3F o
  | .frcpX96 o => encX96 0x3F o
  | .frsq o => encB32 0x3F o
  | .frsqX96 o => encX96 0x3F o
  | .fsqrt o => encB32 0x3F o
  | .fsqrtX96 o => encX96 0x3F o
  | .fexp2 o => encB32 0x3F o
  | .fexp2X96 o => encX96 0x3F o
  | .flog2 o => encB32 0x3F o
  | .flog2X96 o => encX96 0x3F o
  | .fsin o => encB32 0x3F o
  | .fsinX96 o => encX96 0x3F o
  | .fcos o => encB32 0x3F o
  | .fcosX96 o => encX96 0x3F o
  | .ftanh o => encB32 0x3F o
  | .ftanhX96 o => encX96 0x3F o
  | .fclass o => encB32 0x3F o
  | .fclassX96 o => encX96 0x3F o
  | .cvt o => encB32 0x40 o
  | .cvtX96 o => encX96 0x40 o
  | .cvtq o => encX96 0x41 o
  | .cvtd o => encB32 0x42 o
  | .cvtdX96 o => encX96 0x42 o
  | .amax o => encB32 0x43 o
  | .amaxX96 o => encX96 0x43 o
  | .amget o => encB32 0x44 o
  | .amgetX96 o => encX96 0x44 o
  | .jmp o => encJ 0x50 o
  | .call o => encJ 0x51 o
  | .br o => encX96 0x52 o
  | .bru o => encX96 0x53 o
  | .join o => encB32 0x54 o
  | .joinX96 o => encX96 0x54 o
  | .yieldp => encB32 0x55 {}
  | .yieldpX96 => encX96 0x55 {}
  | .ret o => encB32 0x56 o
  | .retX96 o => encX96 0x56 o
  | .jmpi o => encB32 0x57 o
  | .jmpiX96 o => encX96 0x57 o
  | .calli o => encB32 0x58 o
  | .calliX96 o => encX96 0x58 o
  | .fcall o => encXL 0x59 o
  | .exit o => encB32 0x5A o
  | .exitX96 o => encX96 0x5A o
  | .jget o => encB32 0x5B o
  | .jgetX96 o => encX96 0x5B o
  | .jput o => encX96 0x5B o
  | .trap o => encB32 0x5C o
  | .trapX96 o => encX96 0x5C o
  | .thret o => encB32 0x5D o
  | .thretX96 o => encX96 0x5D o
  | .ld o => encB32 0x60 o
  | .ldX96 o => encX96 0x60 o
  | .st o => encB32 0x61 o
  | .stX96 o => encX96 0x61 o
  | .lds o => encB32 0x62 o
  | .ldsX96 o => encX96 0x62 o
  | .sts o => encB32 0x63 o
  | .stsX96 o => encX96 0x63 o
  | .ldp o => encB32 0x64 o
  | .ldpX96 o => encX96 0x64 o
  | .stp o => encB32 0x65 o
  | .stpX96 o => encX96 0x65 o
  | .ldf o => encB32 0x66 o
  | .ldfX96 o => encX96 0x66 o
  | .ldfk o => encB32 0x67 o
  | .ldfkX96 o => encX96 0x67 o
  | .stf o => encB32 0x68 o
  | .stfX96 o => encX96 0x68 o
  | .feset o => encB32 0x69 o
  | .fesetX96 o => encX96 0x69 o
  | .ldt o => encB32 0x6A o
  | .ldtX96 o => encX96 0x6A o
  | .stct o => encX96 0x6B o
  | .stz o => encB32 0x6C o
  | .stzX96 o => encX96 0x6C o
  | .ldz o => encB32 0x6D o
  | .ldzX96 o => encX96 0x6D o
  | .pref o => encB32 0x6E o
  | .prefX96 o => encX96 0x6E o
  | .cwb o => encB32 0x6F o
  | .cwbX96 o => encX96 0x6F o
  | .atom o => encX96 0x70 o
  | .red o => encB32 0x71 o
  | .redX96 o => encX96 0x71 o
  | .acas o => encX96 0x72 o
  | .fence o => encB32 0x73 o
  | .fenceX96 o => encX96 0x73 o
  | .xfence o => encX96 0x74 o
  | .publish o => encB32 0x75 o
  | .publishX96 o => encX96 0x75 o
  | .chunk o => encB32 0x76 o
  | .chunkX96 o => encX96 0x76 o
  | .launch o => encB32 0x77 o
  | .launchX96 o => encX96 0x77 o
  | .bar o => encB32 0x78 o
  | .barX96 o => encX96 0x78 o
  | .phreg o => encX96 0x79 o
  | .phdrop o => encX96 0x79 o
  | .phsig o => encX96 0x79 o
  | .phwait o => encX96 0x79 o
  | .phsw o => encX96 0x79 o
  | .phq o => encX96 0x79 o
  | .rdef o => encX96 0x7A o
  | .racq o => encX96 0x7A o
  | .rpub o => encX96 0x7A o
  | .rget o => encX96 0x7A o
  | .rrel o => encX96 0x7A o
  | .cpy o => encX96 0x7B o
  | .cpyw o => encX96 0x7B o
  | .wld o => encB32 0x7C o
  | .wldX96 o => encX96 0x7C o
  | .wswap o => encX96 0x7C o
  | .mma o => encXL 0x7C o
  | .mdrain o => encX96 0x7C o
  | .ashape o => encX96 0x7C o
  | .twait o => encX96 0x7C o
  | .tqry o => encX96 0x7C o
  | .yield o => encB32 0x7D o
  | .yieldX96 o => encX96 0x7D o
  | .sleep o => encX96 0x7D o
  | .cropen o => encX96 0x7D o
  | .crclose o => encX96 0x7D o
  | .mapv o => encX96 0x7D o
  | .mapack o => encX96 0x7D o
  | .feat o => encX96 0x7D o
  | .clk o => encX96 0x7D o
  | .pmrd o => encX96 0x7D o
  | .pmcfg o => encX96 0x7D o
  | .prog o => encX96 0x7D o
  | .udf w => [w]
  | .nonInstruction w => [w]
  | .producerComplete .. | .trapDelivery .. | .mapTrapDelivery .. | .containmentUnwind .. | .strandExited .. | .forkResolution ..
  | .teamPlace .. | .levelRise .. | .priorityPreempt .. | .preemptTimeout .. | .groupSave .. | .sleepWake .. | .operatingPointChange ..
  | .phaserPoll .. | .accessPerformed .. | .releaseWritePerformed .. | .publishIncrement .. | .firstTouch .. | .hostApertureWrite ..
  | .hostApertureRead .. | .peerDmaTransfer .. | .queueDoorbell .. | .queueCtrlEnable .. | .queueCtrlDisable .. | .queueCtrlResume ..
  | .queueCtrlReset .. | .queueCtrlDevsub .. | .registerWrite .. | .eqheadWrite .. | .queueFetch .. | .launchEntry .. | .waitEntry ..
  | .waitSatisfied .. | .signalEntry .. | .signalWrite .. | .windowUpdateEntry .. | .remapEntry .. | .unplaceEntry .. | .frameEntry ..
  | .mappingDrainComplete .. | .copyComplete .. | .taskIssue .. | .taskRetire .. | .bandPowerUp .. | .chargeGrant .. | .chargeRefill ..
  | .thermalThrottle .. | .thermalRelease .. | .thermalCritical .. | .contextCreate .. | .contextEnable .. | .contextSuspend ..
  | .contextResume .. | .contextDestroy .. | .mapAcknowledge .. | .sliceExpiry | .graceExpiry .. | .counterClaim .. | .counterRelease ..
  | .traceEnable .. | .kernelLoad .. | .kernelUnload .. | .errorDetected .. | .selfTestComplete .. | .replayCheck .. | .shadowSet ..
  | .attestationReport .. | .deviceReset | .bringupStageComplete .. | .bringupSelfTestComplete .. | .hostLinkInit .. | .peerEnable ..
  | .peerDisable .. | .linkTrained .. | .linkTrainTimeout .. | .linkRetrain .. | .chargeTargetSet .. | .classWeightSet ..
  | .thermalThresholdSet .. | .fabricCounterOwnerSet .. | .fabricCounterRead .. | .pageTableRead .. | .lullTrial .. | .lullStepExpiry
  | .traceStop .. => []

end Sys2Proof
end

