-- ==== Sys2Proof/Machine/Crypto.lean ====
section
/-!
DEFINITION. The two algorithms that the spec names and whose inputs it fixes: SHA-512 (R463, R466) and AES-256-GCM (R480). The spec gives the
names alone; the algorithms are those of the standards of these names (PRESUMED, log 12).
-/

namespace Sys2Proof.Machine

/-! ### Bytes and numbers, highest byte first -/

/-- A number from bytes. -/
def natBE (bs : List Byte) : Nat := bs.foldl (fun (acc : Nat) b => 256 * acc + b.toNat) 0

/-- n bytes of a number. -/
def bytesBE (n v : Nat) : List Byte := (List.range n).map fun i => BitVec.ofNat 8 (v / 256 ^ (n - 1 - i))

/-- A list cut into pieces of n, at most `fuel` of them. -/
def chunksOf {α : Type} (n : Nat) : Nat → List α → List (List α)
  | 0, _ => []
  | fuel + 1, xs => if xs.isEmpty then [] else xs.take n :: chunksOf n fuel (xs.drop n)

/-- Bytes followed by zeros up to a multiple of 16. -/
def pad16 (bs : List Byte) : List Byte := bs ++ List.replicate ((16 - bs.length % 16) % 16) 0

/-! ### SHA-512 -/

/-- The largest number whose k-th power is at most n, below 2^72. -/
def natRoot (k n : Nat) : Nat :=
  (List.range 72).foldl (fun (acc : Nat) i => let t := acc + 2 ^ (71 - i); if t ^ k ≤ n then t else acc) 0

/-- The primes below 410: the first 80. -/
def smallPrimes : List Nat := (List.range 410).filter fun p => 2 ≤ p && (List.range p).all fun d => d < 2 || p % d != 0

/-- The round constants: the first 64 bits of the fractions of the cube roots of the first 80 primes. -/
def shaK : List DWord := smallPrimes.map fun p => BitVec.ofNat 64 (natRoot 3 (p * 2 ^ 192))

/-- The initial value: the same of the square roots of the first 8. -/
def shaInit : List DWord := (smallPrimes.take 8).map fun p => BitVec.ofNat 64 (natRoot 2 (p * 2 ^ 128))

/-- The 80 words of a block's schedule. -/
def shaSchedule (block : List DWord) : List DWord :=
  (List.range 64).foldl (fun (w : List DWord) i =>
    let x := w.getD (i + 14) 0
    let y := w.getD (i + 1) 0
    let s0 := y.rotateRight 1 ^^^ y.rotateRight 8 ^^^ y >>> 7
    let s1 := x.rotateRight 19 ^^^ x.rotateRight 61 ^^^ x >>> 6
    w ++ [w.getD i 0 + s0 + w.getD (i + 9) 0 + s1]) block

/-- One round. -/
def shaRound (v : List DWord) (kw : DWord × DWord) : List DWord :=
  match v with
  | [a, b, c, d, e, f, g, h] =>
    let t1 := h + (e.rotateRight 14 ^^^ e.rotateRight 18 ^^^ e.rotateRight 41) + ((e &&& f) ^^^ (~~~e &&& g)) + kw.1 + kw.2
    let t2 := (a.rotateRight 28 ^^^ a.rotateRight 34 ^^^ a.rotateRight 39) + ((a &&& b) ^^^ (a &&& c) ^^^ (b &&& c))
    [t1 + t2, a, b, c, d + t1, e, f, g]
  | v => v

/-- SHA-512 of a byte sequence. -/
def sha512 (bs : List Byte) : BitVec 512 :=
  let padded := bs ++ [0x80] ++ List.replicate ((239 - bs.length % 128) % 128) 0 ++ bytesBE 16 (8 * bs.length)
  let h := (chunksOf 128 (padded.length / 128) padded).foldl (fun (h : List DWord) block =>
    let w := shaSchedule ((chunksOf 8 16 block).map fun x => BitVec.ofNat 64 (natBE x))
    List.zipWith (· + ·) h ((shaK.zip w).foldl shaRound h)) shaInit
  BitVec.ofNat 512 (h.foldl (fun (acc : Nat) x => 2 ^ 64 * acc + x.toNat) 0)

/-! ### AES-256 -/

/-- x times 2 in GF(2^8). -/
def gfDouble (x : Byte) : Byte := (x <<< 1) ^^^ (if x.getLsbD 7 then 0x1B else 0)

/-- A product in GF(2^8). -/
def gfMul (x y : Byte) : Byte :=
  ((List.range 8).foldl (fun (p : Byte × Byte) i => (if y.getLsbD i then p.1 ^^^ p.2 else p.1, gfDouble p.2)) ((0 : Byte), x)).1

/-- The S-box: the inverse, then the affine map. -/
def aesSub (x : Byte) : Byte :=
  let inv := (List.range 7).foldl (fun (p : Byte × Byte) _ => let q := gfMul p.2 p.2; (gfMul p.1 q, q)) ((1 : Byte), x)
  let y := inv.1
  y ^^^ y.rotateLeft 1 ^^^ y.rotateLeft 2 ^^^ y.rotateLeft 3 ^^^ y.rotateLeft 4 ^^^ 0x63

/-- Bytes added in GF(2). -/
def xorBytes (a b : List Byte) : List Byte := List.zipWith (· ^^^ ·) a b

/-- The 60 words of the key schedule. -/
def aesKeys (key : List Byte) : List (List Byte) :=
  (List.range 52).foldl (fun (w : List (List Byte)) i =>
    let n := i + 8
    let prev := w.getD (n - 1) []
    let rcon : Byte := (List.range (n / 8 - 1)).foldl (fun x _ => gfDouble x) 1
    let t := if n % 8 = 0 then xorBytes ((prev.drop 1 ++ prev.take 1).map aesSub) [rcon, 0, 0, 0]
      else if n % 8 = 4 then prev.map aesSub else prev
    w ++ [xorBytes (w.getD i []) t]) (chunksOf 4 8 key)

/-- Rows shifted; a state is 16 bytes, column by column. -/
def aesShift (s : List Byte) : List Byte := (List.range 16).map fun i => s.getD ((i + 4 * (i % 4)) % 16) 0

/-- Columns mixed. -/
def aesMix (s : List Byte) : List Byte :=
  (List.range 16).map fun i =>
    let at' := fun (k : Nat) => s.getD (i / 4 * 4 + (i + k) % 4) 0
    gfDouble (at' 0) ^^^ (gfDouble (at' 1) ^^^ at' 1) ^^^ at' 2 ^^^ at' 3

/-- A block enciphered under a key schedule. -/
def aesBlock (keys : List (List Byte)) (block : List Byte) : List Byte :=
  let rk := fun (r : Nat) => ((keys.drop (4 * r)).take 4).flatten
  let s := (List.range 13).foldl (fun (s : List Byte) r => xorBytes (aesMix (aesShift (s.map aesSub))) (rk (r + 1))) (xorBytes block (rk 0))
  xorBytes (aesShift (s.map aesSub)) (rk 14)

/-! ### GCM -/

/-- A product in GF(2^128), bit 0 of a polynomial at the top. -/
def gcmMul (x y : BitVec 128) : BitVec 128 :=
  ((List.range 128).foldl (fun (p : BitVec 128 × BitVec 128) i =>
    (if x.getLsbD (127 - i) then p.1 ^^^ p.2 else p.1,
     (p.2 >>> 1) ^^^ (if p.2.getLsbD 0 then BitVec.ofNat 128 (0xE1 * 2 ^ 120) else 0))) ((0 : BitVec 128), y)).1

/-- GHASH of whole blocks under H. -/
def ghash (h : BitVec 128) (bs : List Byte) : BitVec 128 :=
  (chunksOf 16 (bs.length / 16) bs).foldl (fun y b => gcmMul (y ^^^ BitVec.ofNat 128 (natBE b)) h) 0

/-- AES-256-GCM with a nonce of 12 bytes: ciphertext, then the 16-byte tag. -/
def gcmSeal (key : BitVec 256) (nonce aad plain : List Byte) : List Byte :=
  let keys := aesKeys (bytesBE 32 key.toNat)
  let enc := aesBlock keys
  let h := BitVec.ofNat 128 (natBE (enc (List.replicate 16 0)))
  let ctr := fun (n : Nat) => enc (nonce ++ bytesBE 4 n)
  let cipher := (((chunksOf 16 (plain.length / 16 + 1) plain).zipIdx).map fun p => xorBytes p.1 (ctr (p.2 + 2))).flatten
  let hash := ghash h (pad16 aad ++ pad16 cipher ++ bytesBE 8 (8 * aad.length) ++ bytesBE 8 (8 * cipher.length))
  cipher ++ xorBytes (bytesBE 16 hash.toNat) (ctr 1)

end Sys2Proof.Machine
end

