-- ==== Sys2Proof/Config.lean ====
section
/-!
DEFINITION. What an implementation fixes, and the free values: constants with no body, of which nothing can be proved but
their type. See the log entries named at each.
-/

namespace Sys2Proof.Config

/-- Choice among the FP32 values that FRCP may return for an operand (R144, DESIGN CHOICE, log 10). -/
opaque frcpChoice : BitVec 32 → Nat
/-- Choice among the FP32 values that FRSQ may return for an operand (R144, DESIGN CHOICE, log 10). -/
opaque frsqChoice : BitVec 32 → Nat
/-- Choice among the FP32 values that FEXP2 may return for an operand (R144, DESIGN CHOICE, log 10). -/
opaque fexp2Choice : BitVec 32 → Nat
/-- Choice among the FP32 values that FLOG2 may return for an operand (R144, DESIGN CHOICE, log 10). -/
opaque flog2Choice : BitVec 32 → Nat
/-- Choice among the FP32 values that FSIN may return for an operand (R144, DESIGN CHOICE, log 10). -/
opaque fsinChoice : BitVec 32 → Nat
/-- Choice among the FP32 values that FCOS may return for an operand (R144, DESIGN CHOICE, log 10). -/
opaque fcosChoice : BitVec 32 → Nat
/-- Choice among the FP32 values that FTANH may return for an operand (R144, DESIGN CHOICE, log 10). -/
opaque ftanhChoice : BitVec 32 → Nat

/-- VMAX of an island in mV (R444: the part's own limit, DESIGN CHOICE, log 11); at least 1. -/
opaque vmax : Nat → Nat
/-- VMIN of an island in mV (R444, DESIGN CHOICE, log 11). -/
opaque vmin : Nat → Nat
/-- The lower frequency of an island that is characterised below ACLK, in MHz; 0 when it is not (R444, DESIGN CHOICE, log 11). -/
opaque fmaxCut : Nat → Nat

/-- The SHA-512 measurement n of the firmware, 64 bytes as a number (R466, DESIGN CHOICE, log 12). -/
opaque measurement : Nat → BitVec 512
/-- The modulus of the device key-transport public key (R437, R466, DESIGN CHOICE, log 12). -/
opaque keyModulus : BitVec 4096
/-- The attestation signature over a report with a 64-byte salt (R466, DESIGN CHOICE, log 12). -/
opaque attestSign : BitVec 512 → List (BitVec 8) → BitVec 4096
/-- The salt of the n-th signature (R466, DESIGN CHOICE, log 12). -/
opaque attestSalt : Nat → BitVec 512
/-- The certificate chain of the attestation key (R466, DESIGN CHOICE, log 12). -/
opaque certChain : List (BitVec 8)
/-- Unwrapping a context key: none when it fails (R437, DESIGN CHOICE, log 12). -/
opaque unwrapKey : List (BitVec 8) → Option (BitVec 256)

/-- The detail word of a POISON trap that a task's fault raises, by its ticket: R404 gives none (DESIGN CHOICE, log 14). -/
opaque taskPoisonDetail : Nat → BitVec 32

/-- The value of a fabric counter: the spec does not say what one counts (R472, DESIGN CHOICE, log 15). -/
opaque fabricCount : Nat → BitVec 64
/-- How often an event that is a matter of timing alone has happened since it was last counted (R473, DESIGN CHOICE, log 16). -/
opaque timedCount : Nat → BitVec 64
/-- The lower operating point that a critical island requests, in MHz (R471, DESIGN CHOICE, log 17). -/
opaque lowPoint : Nat → Nat

/-- The line that a core's L1, or a home slice, gives up when it is full, among its lines (R244, R205, DESIGN CHOICE, log 35). -/
opaque victim : Nat → Nat

/-- The IA that an offset of a function's BAR 2 stands for: R487 gives the sizes, and no mapping (DESIGN CHOICE, log 132). -/
opaque apertureIa : Nat → Nat → Nat
/-- The MSI-X vector that the events of a context are signalled with, by its function and slot (R439, R486; free, DESIGN CHOICE, log 132). -/
opaque msixVector : Nat → Nat → Nat

/-- The page of a die that the hub takes for the map page (R440, R441; free, DESIGN CHOICE, log 13). -/
opaque mapPageNumber : Nat → Nat
/-- The HBM frame of a die that holds the map page (R200, R440; free, DESIGN CHOICE, log 13). -/
opaque mapFrame : Nat → Nat
/-- The IA of the map page on a die: a 64 KiB page of its home. -/
def mapPageOn (die : Nat) : Nat := die * 2 ^ 49 + 65536 * (mapPageNumber die % 2 ^ 33)

end Sys2Proof.Config
end

