-- ==== Sys2Proof/Machine/Numbers.lean ====
section
/-!
DEFINITION. Number formats, exact values, rounding, packing and the stochastic-rounding state (R61-R75, R140-R148).
-/

namespace Sys2Proof.Machine

/-! ### Exact values -/

/-- An exact value: NaN, an infinity, or (-1)^neg × m × 2^e; m = 0 is a zero of that sign. -/
inductive FVal where
  | nan
  | inf (neg : Bool)
  | fin (neg : Bool) (m : Nat) (e : Int)
  deriving DecidableEq, Repr

/-- A floating-point element format (R62, R63). -/
structure Fmt where
  width : Nat
  ebits : Nat
  mbits : Nat
  bias : Nat
  /-- Infinity and NaN at e all ones (FP32, FP16, BF16, E5M2). -/
  ieee : Bool
  /-- NaN at the all-ones code only (E4M3). -/
  nanTop : Bool
  /-- Encoding of the largest finite value, sign aside. -/
  maxEnc : Nat
  /-- Encoding of the canonical NaN (R72); 0 where the format has none (R71). -/
  nanEnc : Nat
  deriving DecidableEq, Repr

/-- FP32. -/
def fp32 : Fmt := ⟨32, 8, 23, 127, true, false, 0x7F7FFFFF, 0x7FC00000⟩
/-- FP16. -/
def fp16 : Fmt := ⟨16, 5, 10, 15, true, false, 0x7BFF, 0x7E00⟩
/-- BF16. -/
def bf16 : Fmt := ⟨16, 8, 7, 127, true, false, 0x7F7F, 0x7FC0⟩
/-- FP8 E4M3. -/
def e4m3 : Fmt := ⟨8, 4, 3, 7, false, true, 0x7E, 0x7F⟩
/-- FP8 E5M2. -/
def e5m2 : Fmt := ⟨8, 5, 2, 15, true, false, 0x7B, 0x7E⟩
/-- FP4 E2M1. -/
def e2m1 : Fmt := ⟨4, 2, 1, 1, false, false, 0x7, 0⟩

/-- The value of a sign, exponent field and mantissa field (R62). -/
def Fmt.value (f : Fmt) (neg : Bool) (ex ma : Nat) : FVal :=
  if ex = 0 then .fin neg ma (1 - (f.bias : Int) - f.mbits)
  else .fin neg (2 ^ f.mbits + ma) ((ex : Int) - f.bias - f.mbits)

/-- The value of an encoding (R62, R63). -/
def Fmt.decode (f : Fmt) (x : Nat) : FVal :=
  let neg := x / 2 ^ (f.width - 1) % 2 = 1
  let ex := x / 2 ^ f.mbits % 2 ^ f.ebits
  let ma := x % 2 ^ f.mbits
  if f.ieee && ex = 2 ^ f.ebits - 1 then (if ma = 0 then .inf neg else .nan)
  else if f.nanTop && x % 2 ^ (f.width - 1) = 2 ^ (f.width - 1) - 1 then .nan
  else f.value neg ex ma

/-- The value is NaN. -/
def FVal.isNan : FVal → Bool
  | .nan => true
  | _ => false

/-- The value is an infinity. -/
def FVal.isInf : FVal → Bool
  | .inf _ => true
  | _ => false

/-- The value is a zero. -/
def FVal.isZero : FVal → Bool
  | .fin _ m _ => m = 0
  | _ => false

/-- Sign of the value. -/
def FVal.neg : FVal → Bool
  | .nan => false
  | .inf n => n
  | .fin n _ _ => n

/-- The opposite value. -/
def FVal.negate : FVal → FVal
  | .nan => .nan
  | .inf n => .inf !n
  | .fin n m e => .fin (!n) m e

/-- Sum; `rd` is the sign an exact zero of operands of opposite sign takes (R70, R140). -/
def FVal.add (rd : Bool) : FVal → FVal → FVal
  | .nan, _ => .nan
  | _, .nan => .nan
  | .inf a, .inf b => if a = b then .inf a else .nan
  | .inf a, _ => .inf a
  | _, .inf b => .inf b
  | .fin na ma ea, .fin nb mb eb =>
    let e := min ea eb
    let a : Int := (ma * 2 ^ (ea - e).toNat : Nat)
    let b : Int := (mb * 2 ^ (eb - e).toNat : Nat)
    let s := (if na then -a else a) + (if nb then -b else b)
    if s = 0 then .fin (if na = nb then na else rd) 0 e else .fin (s < 0) s.natAbs e

/-- Product (R76, R140). -/
def FVal.mul : FVal → FVal → FVal
  | .nan, _ => .nan
  | _, .nan => .nan
  | .inf a, .inf b => .inf (a != b)
  | .inf a, .fin nb mb _ => if mb = 0 then .nan else .inf (a != nb)
  | .fin na ma _, .inf b => if ma = 0 then .nan else .inf (na != b)
  | .fin na ma ea, .fin nb mb eb => .fin (na != nb) (ma * mb) (ea + eb)

/-- Order of two values that are not NaN: `a < b`, with -0 equal to +0 (R142). -/
def FVal.lt : FVal → FVal → Bool
  | .nan, _ => false
  | _, .nan => false
  | .inf a, .inf b => a && !b
  | .inf a, _ => a
  | _, .inf b => !b
  | .fin na ma ea, .fin nb mb eb =>
    let e := min ea eb
    let a : Int := (ma * 2 ^ (ea - e).toNat : Nat)
    let b : Int := (mb * 2 ^ (eb - e).toNat : Nat)
    (if na then -a else a) < (if nb then -b else b)

/-- Equality of two values that are not NaN, with -0 equal to +0 (R142). -/
def FVal.eqv (a b : FVal) : Bool := !a.isNan && !b.isNan && !(FVal.lt a b) && !(FVal.lt b a)

/-! ### Rounding -/

/-- Whether a non-zero remainder rounds away from zero: `k` is the integer part, `r` of `2^sh` the remainder (R70, R73). -/
def roundUp (rnd : Rnd) (neg : Bool) (draw k r sh : Nat) : Bool :=
  if r = 0 then false else
  match rnd with
  | .rne => 2 * r > 2 ^ sh || (2 * r = 2 ^ sh && k % 2 = 1)
  | .rz => false
  | .ru => !neg
  | .rd => neg
  | .rna => 2 * r ≥ 2 ^ sh
  | .sr => r * 65536 / 2 ^ sh + draw ≥ 65536

/-- `m × 2^e` rounded to a multiple of `2^q`, as that multiple. -/
def roundAt (rnd : Rnd) (neg : Bool) (draw m : Nat) (e q : Int) : Nat :=
  if q ≤ e then m * 2 ^ (e - q).toNat
  else
    let sh := (q - e).toNat
    let k := m / 2 ^ sh
    if roundUp rnd neg draw k (m % 2 ^ sh) sh then k + 1 else k

/-- The sign bit of an encoding. -/
def Fmt.sign (f : Fmt) (neg : Bool) : Nat := if neg then 2 ^ (f.width - 1) else 0

/-- The canonical NaN of a format; E2M1, which has none, takes +0 (R71, R72). -/
def Fmt.canonNan (f : Fmt) : Nat := f.nanEnc

/-- What a result beyond the largest finite value becomes (R71). -/
def Fmt.overflow (f : Fmt) (rnd : Rnd) (sat neg : Bool) : Nat :=
  if f.nanTop then (if sat then f.sign neg + f.maxEnc else f.nanEnc)
  else if !f.ieee || sat then f.sign neg + f.maxEnc
  else
    let big := f.sign neg + f.maxEnc
    let inf := f.sign neg + (2 ^ f.ebits - 1) * 2 ^ f.mbits
    match rnd with
    | .rz => big
    | .ru => if neg then big else inf
    | .rd => if neg then inf else big
    | _ => inf

/-- The exponent of the quantum in which a value of magnitude `m × 2^e` is rounded: the place of its last mantissa bit,
not below that of the subnormals, nor above that of the largest finite value. -/
def Fmt.quantum (f : Fmt) (m : Nat) (e : Int) : Int :=
  let top : Int := e + Nat.log2 m - f.mbits
  let low : Int := 1 - (f.bias : Int) - f.mbits
  let high : Int := (f.maxEnc / 2 ^ f.mbits : Nat) - (f.bias : Int) - f.mbits
  min (max top low) high

/-- The largest finite value as a multiple of its quantum. -/
def Fmt.maxUnits (f : Fmt) : Nat := 2 ^ f.mbits + f.maxEnc % 2 ^ f.mbits

/-- The encoding, sign aside, of `k` quanta of exponent `q`, when it is finite; `k` may be one binade up. -/
def Fmt.encUnits (f : Fmt) (k : Nat) (q : Int) : Nat :=
  let low : Int := 1 - (f.bias : Int) - f.mbits
  -- adding the units to the exponent part carries a mantissa that rounded up into the next binade
  (q - low).toNat * 2 ^ f.mbits + k

/-- A value rounded to a format (R70-R73). -/
def Fmt.round (f : Fmt) (rnd : Rnd) (sat : Bool) (draw : Nat) : FVal → Nat
  | .nan => f.canonNan
  | .inf neg => f.overflow rnd sat neg
  | .fin neg m e =>
    if m = 0 then f.sign neg
    else
      let q := f.quantum m e
      let high : Int := (f.maxEnc / 2 ^ f.mbits : Nat) - (f.bias : Int) - f.mbits
      if q = high && decide (roundAt .rz neg draw m e q > f.maxUnits) then f.overflow rnd sat neg
      else
        let k := roundAt rnd neg draw m e q
        if q = high && decide (k > f.maxUnits) then f.overflow rnd sat neg
        else f.sign neg + f.encUnits k q

/-- A value rounded to an integer type of range `lo` to `hi`, clamped; NaN gives 0 (R70, R71, R147). -/
def roundInt (rnd : Rnd) (draw : Nat) (lo hi : Int) : FVal → Int
  | .nan => 0
  | .inf neg => if neg then lo else hi
  | .fin neg m e =>
    let k : Int := (roundAt rnd neg draw m e 0 : Nat)
    max lo (min hi (if neg then -k else k))

/-! ### Element formats -/

/-- The floating-point format of the elements of a type (R63). -/
def Ty.fmt? : Ty → Option Fmt
  | .f32 => some fp32
  | .f16x2 | .f16 => some fp16
  | .bf16x2 | .bf16 => some bf16
  | .e4m3x4 => some e4m3
  | .e5m2x4 => some e5m2
  | .e2m1x8 => some e2m1
  | _ => none

/-- Bits of one element of a type (R68). -/
def Ty.elemBits : Ty → Nat
  | .f16x2 | .bf16x2 | .f16 | .bf16 => 16
  | .e4m3x4 | .e5m2x4 | .s8x4 => 8
  | .e2m1x8 | .q4x8 | .s4x8 => 4
  | .b64 => 64
  | _ => 32

/-- An integer as an exact value. -/
def FVal.ofInt (x : Int) : FVal := .fin (x < 0) x.natAbs 0

/-- The low `n` bits of `x` as a two's complement number. -/
def signed (n x : Nat) : Int :=
  let y := x % 2 ^ n
  if 2 ^ n ≤ 2 * y then (y : Int) - 2 ^ n else y

/-- Element `i` of a Q4X quad of 16 bits (R67). -/
def q4xQuad (quad i : Nat) : FVal :=
  let slot := fun n => quad / 2 ^ (4 * n) % 16
  let code := fun n => if slot n = 8 then FVal.ofInt 0 else FVal.ofInt (signed 4 (slot n))
  if slot 0 = 8 then
    match i with
    | 0 => e4m3.decode (slot 3 * 16 + slot 2)
    | 1 => code 1
    | _ => FVal.ofInt 0
  else code i

/-- A Q4X quad holds a reserved slot (R67). -/
def q4xReserved (quad : Nat) : Bool :=
  let slot := fun n => quad / 2 ^ (4 * n) % 16
  slot 1 = 8 || (slot 0 != 8 && (slot 2 = 8 || slot 3 = 8))

/-- Element `i` of a sequence of elements of type `ty` held in the bits of `x`, decoded; unscaled (R67, R68). -/
def elemValue (ty : Ty) (x i : Nat) : FVal :=
  match ty with
  | .q4x8 => q4xQuad (x / 2 ^ (16 * (i / 4)) % 65536) (i % 4)
  | .s32 | .b32 | .b64 => FVal.ofInt (signed 32 x)
  | .u32 => FVal.ofInt (x % 2 ^ 32)
  | .s8x4 => FVal.ofInt (signed 8 (x / 2 ^ (8 * i)))
  | .s4x8 => FVal.ofInt (signed 4 (x / 2 ^ (4 * i)))
  | ty =>
    match Ty.fmt? ty with
    | some f => f.decode (x / 2 ^ (f.width * i) % 2 ^ f.width)
    | none => .nan

/-- A value converted to one element of a type: its bits (R70-R72, R147). -/
def toElem (ty : Ty) (rnd : Rnd) (sat : Bool) (draw : Nat) (v : FVal) : Nat :=
  match ty with
  | .s32 => (roundInt rnd draw (-2147483648) 2147483647 v % 4294967296).toNat
  | .u32 => (roundInt rnd draw 0 4294967295 v).toNat
  | .s8x4 => (roundInt rnd draw (-128) 127 v % 256).toNat
  | .s4x8 => (roundInt rnd draw (-8) 7 v % 16).toNat
  | ty =>
    match Ty.fmt? ty with
    | some f => f.round rnd sat draw v
    | none => 0

/-- `x` with its `w`-bit element `i` replaced by `y`. -/
def putElem (w x i y : Nat) : Nat :=
  x - (x / 2 ^ (w * i) % 2 ^ w) * 2 ^ (w * i) + (y % 2 ^ w) * 2 ^ (w * i)

/-- An f32 lane as a value. -/
def f32 (x : Word) : FVal := fp32.decode x.toNat

/-- The FP32 encoding of a value, rounded RNE. -/
def toF32 (v : FVal) : Word := BitVec.ofNat 32 (fp32.round .rne false 0 v)

/-! ### Stochastic rounding -/

/-- The state of a strand at its start (R73): `g` the linear group index, `i` the strand index. -/
def srStart (seed : DWord) (g i : Nat) : DWord :=
  let s := seed ^^^ BitVec.ofNat 64 ((g * 32 + i) * 0x9E3779B97F4A7C15)
  if s = 0 then 1 else s

/-- The state of a tile strand at its start (R73): `t` the linear team index. -/
def srStartTile (seed : DWord) (t : Nat) : DWord :=
  let s := seed ^^^ BitVec.ofNat 64 (t * 0xD1B54A32D192ED03) ^^^ 0x5851F42D4C957F2D
  if s = 0 then 1 else s

/-- One advance of the state (R73). -/
def srAdvance (s : DWord) : DWord :=
  let s := s ^^^ (s <<< 13)
  let s := s ^^^ (s >>> 7)
  s ^^^ (s <<< 17)

/-- The draw for lane `i`, element `e` (R73). -/
def srDraw (s : DWord) (i e : Nat) : Nat :=
  let h := (s.lo ^^^ s.hi ^^^ BitVec.ofNat 32 ((32 * e + i) * 0x9E3779B1)).toNat
  h * 0x85EBCA6B % 2 ^ 32 / 65536

/-! ### Arithmetic on values (R140-R145) -/

/-- `a × 2^(scale - 127)`, exactly; a scale of 0xFF makes it NaN (R65, R76). -/
def FVal.scaled (a : FVal) (scale : Nat) : FVal :=
  if scale = 255 then .nan
  else match a with
    | .fin n m e => .fin n m (e + (scale : Int) - 127)
    | v => v

/-- Integer square root by bits: the largest `r` with `r^2 ≤ n`, for `r < 2^fuel`. -/
def isqrt (n : Nat) : Nat → Nat → Nat
  | 0, r => r
  | fuel + 1, r => if (r + 2 ^ fuel) ^ 2 ≤ n then isqrt n fuel (r + 2 ^ fuel) else isqrt n fuel r

/-- FSQRT: correctly rounded, RNE (R144). The root of the mantissa, widened, keeps a sticky bit below. -/
def fsqrt (x : Word) : Word :=
  match f32 x with
  | .nan => BitVec.ofNat 32 fp32.nanEnc
  | .inf neg => if neg then BitVec.ofNat 32 fp32.nanEnc else BitVec.ofNat 32 0x7F800000
  | .fin neg m e =>
    if m = 0 then x
    else if neg then BitVec.ofNat 32 fp32.nanEnc
    else
      let sh : Nat := if e % 2 = 0 then 60 else 61
      let n := m * 2 ^ sh
      let r := isqrt n 44 0
      let sticky := if r * r = n then 0 else 1
      toF32 (.fin false (2 * r + sticky) ((e - (sh : Int)) / 2 - 1))

/-- FCLASS mask (R145). -/
def fclass (x : Word) : Word :=
  let neg := x.getLsbD 31
  let ex := (x.extractLsb' 23 8).toNat
  let ma := (x.extractLsb' 0 23).toNat
  let bit : Nat :=
    if ex = 255 then (if ma = 0 then (if neg then 0 else 7) else if x.getLsbD 22 then 9 else 8)
    else if ex = 0 then (if ma = 0 then (if neg then 3 else 4) else if neg then 2 else 5)
    else if neg then 1 else 6
  BitVec.ofNat 32 (2 ^ bit)

/-- FMIN and FMAX of two elements of a format, as encodings, with -0 below +0 (R141). -/
def fminmax (f : Fmt) (isMax : Bool) (x y : Nat) : Nat :=
  let a := f.decode x
  let b := f.decode y
  match a.isNan, b.isNan with
  | true, true => f.nanEnc
  | true, false => y
  | false, true => x
  | false, false =>
    let less := FVal.lt a b || (a.eqv b && a.neg && !b.neg)
    if less != isMax then x else y

/-- FNEG or FABS of one element: the sign bit flipped or cleared, NaN canonical (R143). -/
def fsignOp (f : Fmt) (isAbs : Bool) (x : Nat) : Nat :=
  if (f.decode x).isNan then f.nanEnc
  else if isAbs then x % 2 ^ (f.width - 1)
  else if x / 2 ^ (f.width - 1) % 2 = 1 then x - 2 ^ (f.width - 1) else x + 2 ^ (f.width - 1)

/-- The eight-bit-mantissa form of a value that the shadow computes: sign, exponent field and mantissa bits [22:15] of
its FP32 encoding, truncated; an infinity has exponent field 255 (R458). -/
def shadowForm (v : FVal) : Nat := fp32.round (match v with | .inf _ => .rne | _ => .rz) false 0 v / 2 ^ 15

end Sys2Proof.Machine
end

