-- ==== Sys2Proof/Machine/State.lean ====
section
/-!
DEFINITION. The state of the machine, as plain data: everything the spec gives the module, and the few fields of the model's
own (cur, agenda, now, freshId, freeCtr). What reset leaves stands at the end.
-/

namespace Sys2Proof.Machine

/-! ### Registers of a strand -/

/-- The shape of a v register (R90). A slab of the core's pool is known by a number; two tables that name one number share the
slab (R103). The lanes of a V-spilled register lie in the strand's vector area. -/
inductive Shape where
  | u (x : Word)
  | a (base stride : Word)
  | v (lanes : Lanes) (slab : Nat)
  | spilled
  deriving DecidableEq, Repr

/-- A v register: shape, full/empty bit, hidden poison bit (R86, R90, R457), and the slab a pending-empty register holds
for its merge (R492). -/
structure VReg where
  shape : Shape := .u 0
  full : Bool := true
  poison : Bool := false
  held : Option Nat := none
  deriving DecidableEq, Repr

/-- A j register (R163). -/
structure JReg where
  exp : Mask := 0
  arr : Mask := 0
  depth : BitVec 8 := 0
  armed : Bool := false
  jpc : Word := 0
  deriving DecidableEq, Repr

/-- The training record that FCALL attaches to its return entry (R273, R280). -/
structure TrainRec where
  index : Nat
  tag : Nat
  ret : BitVec 5
  deriving DecidableEq, Repr

/-- A return entry (R162), with the training record and the fork that hang on it. A region entry has bit 0 of RA set (R460). -/
structure RetEntry where
  ra : DWord
  cm : Mask
  arr : Mask := 0
  train : Option TrainRec := none
  /-- The continuation that started at this call. -/
  fork : Option Nat := none
  /-- The write set an FCALL declared, for the detector (R283, R311). -/
  wset : Option DWord := none
  /-- The number of a region entry, given when it was opened, by which a replayed instruction knows its region (R459). -/
  opened : Nat := 0
  deriving DecidableEq, Repr

/-- A pending entry (R162). -/
structure PendEntry where
  pc : DWord
  mask : Mask
  depth : Nat
  deriving DecidableEq, Repr

/-- A trap to be delivered: cause (R59), address, lane mask and detail word (R181), and the address a fault record names (R208). -/
structure TrapInfo where
  cause : Nat
  addr : DWord
  lanes : Mask
  detail : Word
  va : Nat := 0
  deriving DecidableEq, Repr

/-- A group fault: code, detail (R332), and the addresses its record names (R208). -/
structure GFault where
  code : Nat
  detail : Word := 0
  lanes : Mask := 0
  va : Nat := 0
  ia : Nat := 0
  deriving DecidableEq, Repr

/-- Handler mode: the handler floor F, the call depth at delivery, the trap state (R180-R182), and whether an unwind began it (R461). -/
structure Handler where
  floor : Nat
  depth : Nat
  trap : TrapInfo
  unwind : Bool := false
  /-- The phaser wait that the trap took the strand out of, kept for a retry (R356). -/
  held : Option (DWord × Word) := none
  /-- The SLEEP that the trap found under way, and whether the strand had been restored at it, kept for a retry (R344). -/
  sleep : Option (Nat × Nat) := none
  slept : Bool := false
  deriving DecidableEq, Repr

/-- What a strand is blocked on (R155). -/
inductive Block where
  | reg (n : Nat)          -- a v register that is empty
  | slab                   -- no slab and no victim
  | bar (n : Nat)          -- a group barrier
  | phaser | ring | fullEmpty | cpyw | twait | table | sleep | charge
  | fork                   -- FCALL waiting for its registers
  | resolve                -- the path has ended, and the pop of a return entry waits for its return registers
  | ordering               -- an access that must wait for earlier ones
  | touch                  -- a page that moves, or a held mapping
  | page (n : Nat) (pref : Bool)   -- a page that waits for a frame, with the PREFHOST of its window
  deriving DecidableEq, Repr

/-- Strand states (R154); stalled is a continuation's (R275). -/
inductive SState where
  | ready
  | blocked (b : Block)
  | trapped (t : TrapInfo)
  | stalled
  | exited
  deriving DecidableEq, Repr

/-- A set of registers: the read and write sets of R283. -/
structure RegSet where
  v : BitVec 64 := 0
  b : BitVec 16 := 0
  k : BitVec 8 := 0
  j : BitVec 8 := 0
  sr : Bool := false
  deriving DecidableEq, Repr

/-- A 32-byte sector of global memory, or of a group's scratchpad (R284). -/
inductive Sector where
  | global (n : Nat)
  | scratch (group n : Nat)
  deriving DecidableEq, Repr

/-- The copy from which a continuation read a sector (R284). -/
inductive ReadCopy where
  | l1 (core : Nat)
  | home
  | scratch
  deriving DecidableEq, Repr

/-- A tracked sector of a continuation. -/
structure Tracked where
  sector : Sector
  copy : ReadCopy
  lost : Bool := false
  deriving DecidableEq, Repr

/-- Window kinds (R195). -/
inductive WKind where
  | so | rc | uo
  deriving DecidableEq, Repr

/-- Classes of memory accesses (R372). -/
inductive Cls where
  | v | c | m | h
  deriving DecidableEq, Repr

/-- One element of an access: address (an IA, or a scratchpad offset), bytes, lane, destination index, and the data of a
store or atomic; `data2` is the swap value of ACAS. A load of a continuation has the bytes it took from its own store buffer in
`data`, and the mask of those bytes in `data2` (R238, R285). -/
structure Elem where
  addr : Nat
  width : Nat
  lane : Nat
  slot : Nat
  data : Nat := 0
  data2 : Nat := 0
  /-- PREFHOST of the window that translated it (R202). -/
  pref : Bool := false
  deriving DecidableEq, Repr

/-- What an access does when it is performed. -/
inductive AccKind where
  | load
  | store
  /-- ATOM and RED: function and type (R262). -/
  | atom (fn : Nat) (ty : Ty)
  | cas
  /-- An LDS, LDP or LDT step of a group's scratchpad (R242). -/
  | scrLoad (group : Nat)
  /-- An STS or STP step of a group's scratchpad. -/
  | scrStore (group : Nat)
  /-- A FESET step of a group's scratchpad: words marked full, or empty. -/
  | scrMark (group : Nat) (full : Bool)
  | prefL2
  | prefL1
  | prefZero
  | cwb (fn : Nat)
  /-- FENCE: 0 full, 1 acquire, 2 release (R265). -/
  | fence (fn : Nat)
  /-- XFENCE or an implied fence: source and destination classes (R375, R376). -/
  | xfence (src dst : Nat)
  /-- PUBLISH of a context (R270). -/
  | publish (ctx : Nat)
  /-- The place of a commit in the strand's order: between its own accesses and what the continuation leaves (R290). -/
  | order
  deriving DecidableEq, Repr

/-- An access that has issued and is not yet performed (R249). The list of them is in issue order. -/
structure Access where
  id : Nat
  strand : Nat
  core : Nat
  ctx : Nat
  kind : AccKind
  elems : List Elem
  scope : Scope
  ord : Ord
  wk : WKind
  prod : Option Nat := none
  /-- Issued by a continuation that has not committed. -/
  spec : Bool := false
  /-- The instruction that made it: accesses of one instruction have one number. -/
  ins : Nat := 0
  /-- A peer access (R229). -/
  peer : Bool := false
  /-- The team of the strand that made it. -/
  team : Nat := 0
  /-- The write that this element is a part of, by number, and the sectors that all its parts together write whole (R457). -/
  part : Nat := 0
  whole : List Nat := []
  deriving DecidableEq, Repr

/-- A long-latency producer (R109): its destinations with the values so far, and the accesses it waits for. -/
structure Producer where
  id : Nat
  strand : Nat
  mask : Mask
  /-- The result is known to be U (R221, R259). -/
  uniform : Bool
  dests : List (Nat × Lanes)
  waiting : List Nat
  poison : Bool := false
  /-- The transposition of LDT's fragment is still to be done at the merge; its count c (R423). -/
  ldt : Option Nat := none
  /-- Two-word elements: data of 8 bytes spread over register pairs (R220). -/
  wide : Bool := false
  deriving DecidableEq, Repr

/-- A store of a continuation that waits in its store buffer, in program order (R285). A sector takes one entry, however many
of these stores it merges. -/
inductive BufEntry where
  /-- One element of a global store. -/
  | store (e : Elem) (scope : Scope) (ord : Ord) (wk : WKind)
  /-- An STS or STP step of one group's scratchpad. -/
  | scratch (group : Nat) (peer : Bool) (es : List Elem) (scope : Scope) (ord : Ord)
  /-- PREF zero-line of a line; it covers four sectors. -/
  | zero (line : Nat) (scope : Scope) (wk : WKind) (pref : Bool)
  /-- An amax update: register, format code, magnitude seen and whether a NaN was met (R83, R85). -/
  | amax (m : Nat) (fmt : Nat) (max : Word) (nan : Bool)
  deriving DecidableEq, Repr

/-- A fault that a continuation has recorded (R287). -/
inductive ContFault where
  | trap (t : TrapInfo)
  | group (f : GFault)
  deriving DecidableEq, Repr

/-- The state of a fork continuation (R281-R287). -/
structure Cont where
  owner : Nat
  depth0 : Nat
  live0 : Mask
  /-- The literal W of the FCALL (R283). -/
  wset : DWord
  ret : BitVec 5
  read : RegSet := {}
  wrote : RegSet := {}
  tracked : List Tracked := []
  buffer : List BufEntry := []
  fault : Option ContFault := none
  deriving DecidableEq, Repr

/-- An unresolved fork of a strand that runs the callee (R275). -/
structure Fork where
  cont : Nat
  ret : BitVec 5
  /-- The prediction of each slot of the return set: v0 to v3 as shapes, b0 as a value (R279). -/
  predV : List (Nat × Shape)
  predB : Option DWord
  wrote : RegSet := {}
  /-- Sectors the callee has written since the fork (R289 code 4). -/
  stores : List Sector := []
  deriving DecidableEq, Repr

/-- An array plane of a logical band (R398). -/
structure Plane where
  valid : Bool := false
  fmt : Ty := .bf16
  scl : Bool := false
  sparse : Bool := false
  /-- Weight rows loaded, KW; rows from KW on are zero (R408). -/
  rows : Nat := 0
  /-- The slot was in `.tr` order, along which Q4X quads run (R407). -/
  trans : Bool := false
  /-- Bits of the elements that are not 0, by 64k + n in rising order; for Q4X the slots by their place in the values region. -/
  vals : List (Nat × Nat) := []
  /-- Scale of K-block t, column n, at index 64t + n. -/
  scales : List Byte := []
  /-- 2:4 metadata nibble of group g, column n, at index 64g + n. -/
  smeta : List Nat := []
  deriving DecidableEq, Repr

/-- What a tile strand holds for a logical band it owns (R398). Accumulators not listed are 0. -/
structure Band where
  logical : Nat
  physical : Nat
  active : Plane := {}
  shadow : Plane := {}
  /-- Accumulator element of row r, column n at key 64r + n, non-zero ones in rising order. -/
  acc : List (Nat × Word) := []
  /-- Rows of kind s32 (R412). -/
  intRows : List Nat := []
  deriving DecidableEq, Repr

/-- A strand, a tile strand or a fork continuation. -/
structure Strand where
  id : Nat
  group : Nat
  /-- Strand index in the group; the tile strand's slot on its MCC. -/
  idx : Nat
  core : Nat
  slot : Nat
  /-- A tile strand, on the MCC of the cluster in `core`. -/
  tile : Bool := false
  v : Vector VReg 64
  vecArea : Vector Lanes 64
  /-- Registers in order of their last write, least recent first (R98). -/
  order : List Nat := []
  b : Vector DWord 16
  k : Vector Mask 8
  j : Vector JReg 8
  pc : DWord
  path : Mask
  live : Mask
  /-- Return stack, top first; its height is the call depth (R158). -/
  rets : List RetEntry := []
  /-- Pending-path stack, top first. -/
  pends : List PendEntry := []
  handler : Option Handler := none
  sr : DWord
  state : SState := .ready
  /-- A held PHWAIT or PHSW: record address and phase (R338, R359). -/
  held : Option (DWord × Word) := none
  /-- Cluster counter value at the first evaluation of a SLEEP, and its duration (R344). -/
  sleepFrom : Option (Nat × Nat) := none
  /-- The strand stands at a SLEEP it was saved at (R344). -/
  restored : Bool := false
  /-- Instructions issued since the pre-emption request (R334). -/
  runOn : Nat := 0
  /-- When it issued last, for the order of R323. -/
  lastIssue : Nat := 0
  forks : List Fork := []
  cont : Option Cont := none
  /-- SSA, and the free fork save areas (R105, R282). -/
  ssa : Nat := 0
  forkSaves : List Nat := []
  /-- Errors that strike the FP32 unit at the strand's next check point: a lane, and the bits of its result that come out wrong (R458). -/
  shadowHit : List (Nat × Word) := []
  /-- Registers outside the live mask of the last listed point and not yet written whole, for the detector (R311). -/
  dead : RegSet := {}
  /-- The widest scope of a copy of the strand that has completed and that no CPYW has observed: 0 for none (R376). -/
  copied : Nat := 0
  /-- Bands of a tile strand (R398). -/
  bands : List Band := []
  deriving DecidableEq, Repr

/-! ### Groups, teams, launches, kernels -/

/-- A sector accessed by or for a group, by class, with the classes that a fence or a ring handoff has named beside it since (R311). -/
structure Touched where
  sector : Sector
  cls : Cls
  fenced : List Cls := []
  deriving DecidableEq, Repr

/-- A group barrier (R336, R345). -/
structure Bar where
  phase : Word := 0
  arr : Mask := 0
  deriving DecidableEq, Repr

/-- A ring descriptor (R337, R362). -/
structure Ring where
  defd : Bool := false
  ccls : BitVec 4 := 0
  pcls : BitVec 4 := 0
  cidx : Nat := 0
  pidx : Nat := 0
  filled : Nat := 0
  free : Nat := 0
  off : Nat := 0
  lsz : Nat := 0
  cnt : Nat := 0
  owner : Nat := 0
  /-- Slots published, or released, and not acquired since, for the detector: slot, published (R311 kind 3). -/
  handed : List (Nat × Bool) := []
  deriving DecidableEq, Repr

/-- An amax register (R81). -/
structure Amax where
  mixed : Bool := false
  nanSeen : Bool := false
  fmt : BitVec 4 := 0
  max : Word := 0
  deriving DecidableEq, Repr

/-- Group states (R331). -/
inductive GState where
  | placed | running | preempting | saved | resumed | retiring | retired | faulted
  deriving DecidableEq, Repr

/-- A placed, saved or ended group (R328-R335). Scratchpad bytes not listed are 0. -/
structure Group where
  id : Nat
  team : Nat
  /-- Index in the team. -/
  gi : Nat
  /-- Linear group index in the grid (R319). -/
  linear : Nat
  core : Nat
  state : GState
  level : Nat
  scratchLen : Nat
  scratch : List Host.Cell := []
  /-- Scratchpad words that are full, in rising order (R209). -/
  fullWords : List Nat := []
  /-- Poisoned 32-byte scratchpad sectors (R381, R457). -/
  poison : List Nat := []
  bars : Vector Bar 16
  rings : Vector Ring 16
  amax : Vector Amax 16
  saveAt : Nat
  /-- The group lies in its save record: its team is saved, or about to be (R334). -/
  away : Bool := false
  /-- The group had faulted when it ended. -/
  faulted : Bool := false
  /-- Latest map version whose MAP trap the group has received (R450). -/
  mapSeen : DWord
  hazards : Nat := 0
  /-- Sectors accessed, for the detector (R311 kind 2). -/
  touched : List Touched := []
  deriving DecidableEq, Repr

/-- Task kinds (R399). -/
inductive TaskKind where
  | wld | mma | mdrain
  deriving DecidableEq, Repr

/-- Task states (R402). -/
inductive TaskState where
  | waiting | issued | faulted (t : TrapInfo)
  deriving DecidableEq, Repr

/-- An entry of an MCC's dependency table (R399). -/
structure Task where
  entry : Nat
  /-- Order of entry. -/
  seq : Nat
  ticket : Nat
  strand : Nat
  kind : TaskKind
  x : X96
  lit : DWord
  predA : Nat
  predB : Nat
  bands : List Nat
  state : TaskState := .waiting
  /-- Slot taken: its number in the ring (R401). -/
  slot : Nat := 0
  sr : DWord := 0
  /-- Charge is still to be granted (R401). -/
  charged : Bool := false
  /-- Address of the instruction that entered it, for the detector (R310). -/
  addr : DWord := 0
  deriving DecidableEq, Repr

/-- Team states: a team is pending, running, pre-empting or saved as a whole (R329). -/
inductive TState where
  | running | preempting | saved | ended
  deriving DecidableEq, Repr

/-- A team that has been placed at least once (R319-R322). -/
structure Team where
  id : Nat
  launch : Nat
  /-- Linear team index. -/
  index : Nat
  state : TState
  cluster : Nat
  /-- Level held when placed; a saved team is pending again at it (R320). -/
  level : Nat
  /-- When it last became pending, and the levels it has risen since (R320). -/
  since : Nat
  risen : Nat := 0
  /-- Since when it has stood at a higher level than a running group it could replace (R322). -/
  aboveSince : Option Nat := none
  /-- Order of its placement among all placements (R322). -/
  placed : Nat := 0
  /-- The pending team that pre-empts it by R322: launch and linear index. -/
  preemptor : Option (Nat × Nat) := none
  groups : List Nat
  tile : Option Nat := none
  tileSlot : Nat := 0
  tileSave : Nat := 0
  /-- The tile strand lies in its save area. -/
  tileAway : Bool := false
  /-- Pages the team's groups hold leases on, by group: its stack area's, and the launch's (R201). -/
  leases : List (Nat × List Nat) := []
  /-- Leases of pages named by IA that wait for a frame or a move: group and page (R201). -/
  owed : List (Nat × Nat) := []
  /-- Stack areas, SSAs and fork save areas by group and then strand (R105, R282, R319). -/
  stackAreas : List Nat := []
  ssas : List Nat := []
  forkSaves : List Nat := []
  /-- Strands whose group lies in its save record, with what their images do not hold, and the saved tasks of the tile strand (R420). -/
  kept : List Strand := []
  keptTasks : List Task := []
  deriving DecidableEq, Repr

/-- A launch that has been admitted and has not completed (R314, R319). -/
structure Launch where
  id : Nat
  ctx : Nat
  q : Nat
  /-- Index of its entry (R312). -/
  index : Nat
  kernel : Nat
  prio : Nat
  dynScr : Nat
  gx : Nat
  gy : Nat
  gz : Nat
  args : DWord
  argLen : Nat
  seed : DWord
  done : DWord
  /-- The pages of the lease set (R201), by IA. -/
  pages : List Nat
  /-- Those on which the launch holds a lease itself, for its groups that are not placed yet. -/
  owns : List Nat := []
  /-- Those of them that wait for a frame or a move and are not leased yet, with the PREFHOST of their window. -/
  waiting : List (Nat × Bool) := []
  /-- Linear indices of the teams that have been placed at least once. -/
  started : List Nat := []
  /-- When its teams became pending, and the levels they have risen since. -/
  since : Nat
  risen : Nat := 0
  /-- Since when its pending teams have stood at a higher level than a running group they could replace, by virtual cluster: teams of one virtual
  cluster, all pending since the admission, could replace the same groups (R309, R322). -/
  above : List (Nat × Nat) := []
  endedTeams : Nat := 0
  faulted : Nat := 0
  /-- Resource code of a failed recheck (R317). -/
  failed : Option Nat := none
  /-- Launch sequence number within the context (R478). -/
  seq : Nat
  deriving DecidableEq, Repr

/-- A ring entry of a kernel header (R300). -/
structure RingDecl where
  off : Nat := 0
  lsz : Nat := 0
  cnt : Nat := 0
  deriving DecidableEq, Repr

/-- A kernel header (R298). -/
structure Header where
  flags : Nat
  strands : Nat
  feed : Nat
  team : Nat
  floorF : Nat
  ceilF : Nat
  floorW : Nat
  ceilW : Nat
  scratch : Nat
  stack : Nat
  entry : Nat
  tileEntry : Nat
  trapEntry : Nat
  mapEntry : Nat
  codeSize : Nat
  sideOff : Nat
  sideCount : Nat
  vcl : Nat
  vspan : Nat
  features : DWord
  rings : List RingDecl
  leases : List (Nat × Nat)
  deriving DecidableEq, Repr

/-- An entry of the pre-emption side table (R303). -/
structure SideEntry where
  off : Nat
  blive : BitVec 16
  klive : BitVec 8
  jlive : BitVec 8
  vlive : BitVec 64
  deriving DecidableEq, Repr

/-- A kernel that is relocated, or admitted when `uses` is not 0 (R306). -/
structure Kernel where
  ctx : Nat
  base : Nat
  hdr : Header
  side : List SideEntry
  /-- Placement table of R309; none when there is no valid one. -/
  table : Option (List Nat)
  uses : Nat := 0
  unloading : Bool := false
  /-- The data blocks of its code object, each a base and a length (R296), and the symbols that it exports, with their addresses (R24). -/
  datas : List (Nat × Nat) := []
  exports : List (List Byte × Nat) := []
  deriving DecidableEq, Repr

/-! ### Contexts and queues -/

/-- A window descriptor (R191). -/
structure Window where
  vbase : Nat := 0
  vlast : Nat := 0
  iabase : Nat := 0
  rd : Bool := false
  w : Bool := false
  at' : Bool := false
  x : Bool := false
  kind : BitVec 2 := 0
  hostvis : Bool := false
  valid : Bool := false
  prefhost : Bool := false
  deriving DecidableEq, Repr

/-- Queue states (R318). -/
inductive QState where
  | disabled | idle | active | waiting | halted
  deriving DecidableEq, Repr

/-- An entry that has been fetched and whose effect has yet to be started, or a wait or signal under way (R313, R318). -/
structure Fetched where
  index : Nat
  bytes : List Byte
  /-- A wait or a signal whose fields have been checked. -/
  started : Bool := false
  deriving DecidableEq, Repr

/-- A queue control block (R312) with the front end's state. -/
structure Queue where
  q : Nat
  qbase : DWord := 0
  qsize : Nat := 0
  cdone : DWord := 0
  head : BitVec 32 := 0
  tail : BitVec 32 := 0
  enable : Bool := false
  devsub : Bool := false
  state : QState := .disabled
  fetched : Option Fetched := none
  /-- Entries started and not yet complete, by index (R313 signal). -/
  running : List Nat := []
  deriving DecidableEq, Repr

/-- Context states (R430), in the order of their codes (R438). -/
inductive CState where
  | built | runnable | running | saved | suspended | faulted | destroyed
  deriving DecidableEq, Repr

/-- Trace of a context (R478-R480). -/
structure Trace where
  on : Bool := false
  ring : Nat := 0
  slots : Nat := 0
  head : Nat := 0
  tail : Nat := 0
  /-- Records of the sealed block being filled (R480). -/
  block : List (List Byte) := []
  blockSeq : Nat := 0
  deriving DecidableEq, Repr

/-- A context: descriptor (R427), control block (R429), state (R430) and counters (R435). -/
structure Ctx where
  id : Nat
  func : Nat
  slot : Nat
  conf : Bool := false
  sliced : Bool := false
  slice : Nat := 0
  prioCap : Nat := 0
  eqSize : Nat := 4
  eqBase : DWord := 0
  pubCtr : Nat := 0
  savePool : Nat × Nat := (0, 0)
  stackPool : Nat × Nat := (0, 0)
  ctxSave : Nat := 0
  windows : Vector Window 16
  queues : List Queue := []
  state : CState := .built
  ack : DWord := 0
  /-- When the context last became running, and when its grace clock started (R451). -/
  runFrom : Nat := 0
  grace : Option Nat := none
  wrappedKey : List Byte := []
  key : Option (BitVec 256) := none
  counters : Vector DWord 16
  /-- PMCFG selection words of counters 11 to 15 (R473). -/
  select : Vector Word 16
  /-- Counters that the host has claimed. -/
  claimed : List Nat := []
  eqHead : BitVec 32 := 0
  eqTail : BitVec 32 := 0
  eqSeq : BitVec 32 := 0
  /-- Cause of the context fault (R493). -/
  fault : Option Nat := none
  trace : Trace := {}
  /-- Number of launches admitted (R478). -/
  launches : Nat := 0
  /-- A suspension of a cause waits for the end of a world switch (R431); a destruction for the last team to be saved (R430). -/
  suspendWaits : Option Nat := none
  destroyWaits : Bool := false
  /-- A resume waits for the page of CTXSAVE, or for a write to it (R202, R435). -/
  resumeWaits : Bool := false
  /-- Die and lists of out-of-frames events not yet cleared (R202). -/
  oof : List (Nat × Nat) := []
  /-- The counters go to CTXSAVE once more when the run-on of its teams has ended (R431, R435). -/
  saveDue : Bool := false
  /-- Data blocks of code objects that hold no kernel (R296), and the symbols that these export (R24). -/
  blocks : List (Nat × Nat) := []
  exports : List (List Byte × Nat) := []
  deriving DecidableEq, Repr

/-! ### Memory side -/

/-- A page-table entry that is not all 0 (R200): key = IA / 64 KiB. -/
structure Pte where
  page : Nat
  frame : Nat
  leases : Nat := 0
  host : Bool := false
  /-- 1 placed, 2 leased, 3 evicting. -/
  state : Nat := 1
  deriving DecidableEq, Repr

/-- A free frame of a die's lists (R202). -/
structure Frame where
  die : Nat
  host : Bool
  frame : Nat
  deriving DecidableEq, Repr

/-- An L1 line that is present (R211, R244). -/
structure L1Line where
  core : Nat
  line : Nat
  valid : BitVec 4
  dirty : BitVec 128
  rs : Nat
  reg : Bool
  /-- Sectors that carry poisoned data (R457). -/
  poison : BitVec 4 := 0
  data : BitVec 1024
  deriving DecidableEq, Repr

/-- A line that a core's instruction cache holds (R211). It has no contents of its own: no rule lets a fetch find other bytes than memory holds
(DEDUCED, log 103). -/
structure ICLine where
  core : Nat
  line : Nat
  deriving DecidableEq, Repr

/-- A copy of a home-4 line in its home slice (R267). -/
structure H4Line where
  line : Nat
  dirty : BitVec 128
  data : BitVec 1024
  deriving DecidableEq, Repr

/-- A mapping change under way (R206): what it changes, and the queue entry that asked for it. -/
inductive Change where
  | window (n : Nat) (w : Window)
  | remap (page frame : Nat) (host : Bool)
  | unplace (page : Nat)
  deriving DecidableEq, Repr

/-- A mapping change with its identity and its queue entry. -/
structure MapChange where
  id : Nat
  ctx : Nat
  q : Nat
  index : Nat
  change : Change
  deriving DecidableEq, Repr

/-- A copy that has started (R377-R382). -/
structure Copy where
  id : Nat
  strand : Nat
  ctx : Nat
  group : Nat
  src : Nat
  dst : Nat
  rows : Nat
  rowLen : Nat
  sstr : Int
  dstr : Int
  ctl : Word
  windows : Vector Window 16
  srcGroup : Nat
  dstGroup : Nat
  /-- Bursts that have yet to reserve charge (R468). -/
  bursts : Nat := 0
  /-- Words moved: the copy's accesses have been performed. -/
  moved : Bool := false
  deriving DecidableEq, Repr

/-! ### Cores, clusters, MCCs -/

/-- A predictor slot (R278). -/
structure PSlot where
  conf : Nat := 0
  kind : Nat := 0
  str : Word := 0
  delta : DWord := 0
  val : DWord := 0
  deriving DecidableEq, Repr

/-- A valid predictor entry (R277). -/
structure PEntry where
  index : Nat
  tag : Nat
  slots : Vector PSlot 5
  deriving DecidableEq, Repr

/-- An instruction in a replay queue (R459): who issued it, what it is, and its source values. -/
structure Replay where
  strand : Nat
  group : Nat
  addr : DWord
  /-- The topmost region entry that was open at the issue. -/
  region : Option Nat
  op : Nat
  x : X96
  mask : Mask
  srcs : List (Nat × Lanes)
  preds : Vector Mask 8
  sr : DWord
  deriving DecidableEq, Repr

/-- A core that has run something; a core not listed is as at reset. -/
structure Core where
  n : Nat
  predictor : List PEntry := []
  /-- Context of the core's last group (R277). -/
  lastCtx : Option Nat := none
  /-- Replay queue of each quadrant, oldest first (R459). -/
  replay : Vector (List Replay) 4
  /-- Arithmetic cycles left of the burst each quadrant holds, and when it was granted (R468). -/
  burst : Vector Nat 4
  burstFrom : Vector Nat 4
  deriving DecidableEq, Repr

/-- A physical band that a tile strand owns (R397, R398). -/
structure PBand where
  n : Nat
  owner : Nat
  powered : Bool := false
  since : Nat := 0
  deriving DecidableEq, Repr

/-- A request to a cluster's arbiter (R469). -/
structure ChargeReq where
  level : Nat
  cls : Nat
  cost : Nat
  /-- A quadrant of a core, a copy or a task entry, by number. -/
  who : Nat × Nat × Nat
  deriving DecidableEq, Repr

/-- A cluster (R467, R477) with its MCC; a cluster not listed is as at reset. -/
structure Cluster where
  n : Nat
  cycles : Nat := 0
  /-- Thousandths of a cycle left over when time passes. -/
  cycleFrac : Nat := 0
  level : Nat := 1048576
  rate : Nat := 65536
  /-- Target set by the physical function (R467). -/
  target : Nat := 65536
  weights : List Nat := [64, 32, 16, 96, 80, 72, 32, 16, 0, 0, 0, 0, 0, 0, 0, 0]
  requests : List ChargeReq := []
  /-- When the bucket last refilled. -/
  refilled : Nat := 0
  taskCtr : Nat := 1
  taskSeq : Nat := 0
  tasks : List Task := []
  pbands : List PBand := []
  /-- PROG points counted, by function of the context (R476, R481). -/
  progs : List (Nat × Nat) := []
  deriving DecidableEq, Repr

/-! ### Hub and device -/

/-- An island record (R444). -/
structure Island where
  fmax : Nat := 0
  vmax : Nat := 0
  vmin : Nat := 0
  live : Bool := false
  deriving DecidableEq, Repr

/-- Thermal state of an island (R471). -/
inductive ThState where
  | normal | throttled | critical
  deriving DecidableEq, Repr

/-- Heat and operating point of an island that is not as at reset. -/
structure Heat where
  island : Nat
  state : ThState := .normal
  since : Nat := 0
  /-- Threshold in tenths of a degree (R471); none until the physical function sets it. -/
  th : Option Int := none
  /-- Operating point, and the one requested, as frequencies in MHz; 0 stands for the island's limit in the map. -/
  point : Nat := 0
  want : Nat := 0
  /-- It has left critical, and its operating point and RT are to be restored (R471). -/
  restoring : Bool := false
  deriving DecidableEq, Repr

/-- Link states (R482). -/
inductive LState where
  | down | training | up | degraded | failed
  deriving DecidableEq, Repr

/-- A link: the record's published fields, and the link itself (R444, R482-R485). -/
structure Link where
  n : Nat
  pubState : Nat := 0
  pubWidth : Nat := 0
  pubSpeed : Nat := 0
  state : LState := .down
  since : Nat := 0
  width : Nat := 0
  speed : Nat := 0
  /-- It was up or degraded before this training (R484). -/
  retraining : Bool := false
  retrains : List Nat := []
  /-- Flits and beats that a replay has corrected (R483). -/
  corrected : Nat := 0
  deriving DecidableEq, Repr

/-- The fields of the map image (R442) that are not records of links and islands. -/
structure SMap where
  version : DWord := 0
  full : Bool := false
  shadow : Bool := false
  aclk : Nat := 0
  fclk : Nat := 0
  liveCl : BitVec 48 := 0
  liveMcc : BitVec 48 := 0
  liveDie : BitVec 5 := 0
  changed : BitVec 64 := 0
  liveCore : BitVec 384 := 0
  liveSlice : BitVec 64 := 0
  liveStack : BitVec 32 := 0
  /-- BANDLIVE of the clusters, four bits each. -/
  bandLive : BitVec 192 := 0
  /-- MCCFEAT and COREFEAT where they are not 0. -/
  mccFeat : List (Nat × DWord) := []
  coreFeat : List (Nat × DWord) := []
  pcRet : List Nat := []
  islands : List Island := []
  deriving DecidableEq, Repr

/-- Device state (R493). -/
inductive DState where
  | bringup (stage : Nat)
  | running
  | halted
  | failed (stage : Nat) (sig : Bool)
  deriving DecidableEq, Repr

/-- A unit under targeted self-test (R462). -/
structure UnderTest where
  unit : UnitId
  since : Nat
  deriving DecidableEq, Repr

/-- A fabric counter's owner tag (R472). -/
structure FabCtr where
  n : Nat
  owner : Nat := 65535
  deriving DecidableEq, Repr

/-- A Lull trial under way (R481). -/
structure Lull where
  func : Nat
  clusters : List Nat
  fractions : List Nat
  ms : Nat
  step : Nat
  since : Nat
  /-- Each cluster's number, and its cycle counter and PROG counts at the start of the step. -/
  base : List (Nat × Nat × List (Nat × Nat))
  /-- The steps that have ended: fraction, then delivered cycles and PROG count of each cluster. -/
  steps : List (Nat × List (Nat × Nat × Nat)) := []
  deriving DecidableEq, Repr

/-- A write of the hub that waits for its page, with what follows it (R202, R203). -/
inductive HubWrite where
  /-- Bytes at an IA: counters, or a trace item. -/
  | bytes (ia : Nat) (conf pref : Bool) (data : List Byte)
  /-- An event of a type, with its body (R438). -/
  | event (type : Nat) (body : List Byte)
  /-- The completion record of a queue's entry, with its DONE where it has one (R315). -/
  | record (q index : Nat) (done : Option Nat) (data : List Byte)
  deriving DecidableEq, Repr

/-- A waiting write of the hub for a context. -/
structure HubWait where
  ctx : Nat
  write : HubWrite
  deriving DecidableEq, Repr

/-- The check that a code object fails at load (R307), or the range it does not fit (R296). -/
inductive LoadCheck where
  | ident | hver
  /-- The header field at an offset (R298). -/
  | field (off : Nat)
  | ring (q : Nat)
  | lease (n : Nat)
  | stack | sideOffset | sideBounds | sideOrder | ringOverlap | slabSum | scratch | mapCores | mapMcc | mapTable
  | codeRange | dataRange
  | relocation (n : Nat)
  deriving DecidableEq, Repr

/-- What the device has answered to the host, in order. -/
inductive Reply where
  | created (func ctx slot : Nat)
  | refused
  | data (bytes : List Byte)
  /-- A read that found poisoned sectors (R457). -/
  | poisoned
  /-- An attestation report, with the certificate chain that comes with it (R466). -/
  | report (bytes chain : List Byte)
  /-- One record of a Lull trial (R481): fraction, then delivered cycles and PROG count of each cluster. -/
  | lull (fraction : Nat) (rows : List (Nat × Nat × Nat))
  /-- An MSI-X message of a function, with its vector (R439, R486). -/
  | msix (func vector : Nat)
  | dmaError (port : Nat)
  /-- A code object loaded: the code bases of its kernels (R306). -/
  | loaded (bases : List Nat)
  /-- A code object refused: the kernel and the first check that fails (R307). -/
  | loadRefused (kernel : Nat) (check : LoadCheck)
  deriving DecidableEq, Repr

/-- What a transfer that comes in over a link asks for. -/
inductive TransferOp where
  /-- Through the host aperture, or by a peer: at an IA. -/
  | write (ia : Nat) (bytes : List Byte)
  | read (ia n : Nat)
  /-- At an offset of the function's BAR 0. -/
  | barWrite (off : Nat) (bytes : List Byte)
  | barRead (off n : Nat)
  /-- A command of the host. -/
  | command (i : Instr)
  deriving DecidableEq, Repr

/-- A transfer that is held: its link, where 2 stands for whichever host link serves, its function (0 for a peer), and what it asks for (R484,
R488). -/
structure Transfer where
  link : Nat
  func : Nat
  op : TransferOp
  deriving DecidableEq, Repr

/-- An image of the map that is being written (R440): the fields and links that it had before, and whether the new fields are there yet. -/
structure MapWrite where
  map : SMap
  links : List Link
  fields : Bool := false
  deriving DecidableEq, Repr

/-- The hub and the device as a whole. -/
structure Device where
  state : DState
  map : SMap := {}
  mapPage : Nat
  links : List Link
  tests : List UnderTest := []
  /-- Transient errors of a unit, each with its time (R462). -/
  transients : List (UnitId × Nat) := []
  fabric : List FabCtr := []
  lull : Option Lull := none
  replies : List Reply := []
  /-- Current sliced context, when its slice started, and whether a switch is under way (R432). -/
  current : Option Nat := none
  sliceFrom : Nat := 0
  switching : Bool := false
  heats : List Heat := []
  /-- Feature bits that the vector pipes of cores, and the MCCs, were found to lack (R447). -/
  coreLacks : List (Nat × DWord) := []
  mccLacks : List (Nat × DWord) := []
  /-- The bring-up self-test has been published (R464). -/
  tested : Bool := false
  /-- When each version was published, version 1 first (R451). -/
  published : List Nat := []
  /-- Link errors counted (R489). -/
  linkErrors : Nat := 0
  /-- Virtual functions that the host has enabled: those numbered from 1 to it (R486, R487); all at reset (DESIGN CHOICE, log 132). -/
  vfs : Nat := 63
  /-- Writes of the hub that wait for their page, oldest first (R202, R203). -/
  waits : List HubWait := []
  /-- Transfers that are held, in the order of their delivery (R484, R488). -/
  held : List Transfer := []
  /-- The image of the map whose writes are under way (R440). -/
  writing : Option MapWrite := none
  deriving DecidableEq, Repr

/-- The steps of a ring that an agent makes (R363, R366). -/
inductive RingStep where
  | acquire | publish | get | release
  deriving DecidableEq, Repr

/-- One move of the machine: an event, the issue of a strand's next instruction, the passing of time, or a cache line given up. -/
inductive Move where
  | event (i : Instr)
  | issue (strand : Nat)
  | elapse (ns : Nat)
  /-- A core's L1 gives up a line as a victim (R244). -/
  | evict (core line : Nat)
  /-- A home slice gives up a zero line or its copy of a home-4 line (R205, R267). -/
  | giveUp (line : Nat)
  /-- The host or a peer makes a step of a group's ring as class H (R363). -/
  | hostRing (group q : Nat) (step : RingStep)
  /-- A host function reads, or writes, bytes at an offset of its BAR 0 (R429, R487). -/
  | barRead (func off n : Nat)
  | barWrite (func off : Nat) (bytes : List Byte)
  /-- A host function reads, or writes, bytes at an offset of its BAR 2, over a host link (R487). -/
  | bar2Read (func link off n : Nat)
  | bar2Write (func link off : Nat) (bytes : List Byte)
  /-- The host enables so many virtual functions, under SR-IOV (R486). -/
  | sriov (n : Nat)
  /-- The host writes bytes of its own memory, home 4 (R267). -/
  | hostStore (ia : Nat) (bytes : List Byte)
  /-- The hub makes the next of its ordered writes of the map image (R440). -/
  | mapWrite
  /-- A link corrects a flit or beat by a replay (R483). -/
  | corrected (link : Nat)
  deriving DecidableEq, Repr

/-- Memory by IA, as address and byte pairs in rising order without the value an unlisted byte reads as. -/
abbrev Memory := List Host.Cell

/-- The state of the machine. -/
structure State where
  /-- The strand that is issuing. -/
  cur : Nat
  /-- The moves to come; when it is empty the model's default order decides. -/
  agenda : List Move
  /-- Time since reset in ns. -/
  now : Nat
  freshId : Nat
  freeCtr : Nat
  dev : Device
  mem : Memory
  h4 : List H4Line
  zeroLines : List Nat
  poison : List Nat
  pages : List Pte
  frames : List Frame
  changes : List MapChange
  l1 : List L1Line
  icache : List ICLine
  flight : List Access
  prods : List Producer
  copies : List Copy
  strands : List Strand
  groups : List Group
  teams : List Team
  launches : List Launch
  kernels : List Kernel
  ctxs : List Ctx
  cores : List Core
  clusters : List Cluster
  deriving DecidableEq, Repr

/-- Reasons for a fault of the model. -/
inductive Fault where
  /-- Raised by exec of an instruction when no strand is issuing: the spec gives an instruction a meaning only in a strand.
  No step of the machine raises it. Safe. -/
  | noStrand
  deriving DecidableEq, Repr

/-- Reasons for a refusal. -/
inductive Refusal where
  /-- Raised by an arm of exec that has no meaning yet. Safe. -/
  | notModelled (mnemonic : String)
  deriving DecidableEq, Repr

/-- The links after a device reset: every one down (R482). -/
def Device.resetLinks : List Link := (List.range 26).map fun n => { n := n }

/-- The hub after reset: bring-up stage 1, no version published (R463). -/
def Device.reset : Device :=
  { state := .bringup 1, mapPage := 0, links := Device.resetLinks }

/-- The machine right after reset. -/
def State.reset : State :=
  { cur := 0, agenda := [], now := 0, freshId := 1, freeCtr := 0, dev := Device.reset, mem := [], h4 := [], zeroLines := []
    poison := [], pages := [], frames := [], changes := [], l1 := [], icache := [], flight := [], prods := [], copies := [], strands := []
    groups := [], teams := [], launches := [], kernels := [], ctxs := [], cores := [], clusters := [] }

end Sys2Proof.Machine
end

