-- ==== Sys2Proof/Machine/Lookup.lean ====
section
/-!
DEFINITION. Finding and replacing the objects of State, and what follows from where an object stands: its context, kernel,
cluster, and the resources its core has left.
-/

namespace Sys2Proof.Machine

/-! ### Vectors by number -/

/-- Element `i` of a vector; `d` beyond its end. -/
def vget {α : Type} {n : Nat} (v : Vector α n) (i : Nat) (d : α) : α := v.toArray.toList.getD i d

/-- The vector with element `i` replaced; unchanged beyond its end. -/
def vset {α : Type} {n : Nat} (v : Vector α n) (i : Nat) (x : α) : Vector α n :=
  ⟨⟨v.toArray.toList.set i x⟩, by simp⟩

/-- The vector of `f 0` to `f (n-1)`. -/
def vtab {α : Type} (n : Nat) (f : Nat → α) : Vector α n :=
  ⟨⟨(List.range n).map f⟩, by simp⟩

/-! ### Objects by identity -/

/-- The strand of an identity. -/
def State.strand? (s : State) (id : Nat) : Option Strand := s.strands.find? fun x => x.id == id

/-- The state with a strand put back. -/
def State.setStrand (s : State) (x : Strand) : State :=
  { s with strands := s.strands.map fun y => if y.id == x.id then x else y }

/-- The group of an identity. -/
def State.group? (s : State) (id : Nat) : Option Group := s.groups.find? fun x => x.id == id

/-- The state with a group put back. -/
def State.setGroup (s : State) (x : Group) : State :=
  { s with groups := s.groups.map fun y => if y.id == x.id then x else y }

/-- The team of an identity. -/
def State.team? (s : State) (id : Nat) : Option Team := s.teams.find? fun x => x.id == id

/-- The state with a team put back. -/
def State.setTeam (s : State) (x : Team) : State :=
  { s with teams := s.teams.map fun y => if y.id == x.id then x else y }

/-- The launch of an identity. -/
def State.launch? (s : State) (id : Nat) : Option Launch := s.launches.find? fun x => x.id == id

/-- The state with a launch put back. -/
def State.setLaunch (s : State) (x : Launch) : State :=
  { s with launches := s.launches.map fun y => if y.id == x.id then x else y }

/-- The context of a CTXID. -/
def State.ctx? (s : State) (id : Nat) : Option Ctx := s.ctxs.find? fun x => x.id == id

/-- The state with a context put back. -/
def State.setCtx (s : State) (x : Ctx) : State :=
  { s with ctxs := s.ctxs.map fun y => if y.id == x.id then x else y }

/-- The kernel of a context at a code base (R306). -/
def State.kernel? (s : State) (ctx base : Nat) : Option Kernel :=
  s.kernels.find? fun x => x.ctx == ctx && x.base == base

/-- The state with a kernel put back. -/
def State.setKernel (s : State) (x : Kernel) : State :=
  { s with kernels := s.kernels.map fun y => if y.ctx == x.ctx && y.base == x.base then x else y }

/-- A core as at reset (R277, R459, R468). -/
def Core.fresh (n : Nat) : Core := { n := n, replay := vtab 4 fun _ => [], burst := vtab 4 fun _ => 0, burstFrom := vtab 4 fun _ => 0 }

/-- A core by global number. -/
def State.core (s : State) (n : Nat) : Core := (s.cores.find? fun x => x.n == n).getD (Core.fresh n)

/-- The state with a core put back. -/
def State.setCore (s : State) (x : Core) : State :=
  if s.cores.any fun y => y.n == x.n then
    { s with cores := s.cores.map fun y => if y.n == x.n then x else y }
  else { s with cores := s.cores ++ [x] }

/-- A cluster by global number. -/
def State.cluster (s : State) (n : Nat) : Cluster := (s.clusters.find? fun x => x.n == n).getD { n := n }

/-- The state with a cluster put back. -/
def State.setCluster (s : State) (x : Cluster) : State :=
  if s.clusters.any fun y => y.n == x.n then
    { s with clusters := s.clusters.map fun y => if y.n == x.n then x else y }
  else { s with clusters := s.clusters ++ [x] }

/-- The queue of a context; a queue never written is as after create (R312). -/
def Ctx.queue (c : Ctx) (q : Nat) : Queue := (c.queues.find? fun x => x.q == q).getD { q := q }

/-- The context with a queue put back. -/
def Ctx.setQueue (c : Ctx) (x : Queue) : Ctx :=
  if c.queues.any fun y => y.q == x.q then
    { c with queues := c.queues.map fun y => if y.q == x.q then x else y }
  else { c with queues := c.queues ++ [x] }

/-- A window of a context. -/
def Ctx.window (c : Ctx) (n : Nat) : Window := vget c.windows n {}

/-! ### The environment of a strand -/

/-- What an instruction needs to know of where its strand stands, and none of it changes while the instruction runs. -/
structure Env where
  group : Nat
  team : Nat
  launch : Nat
  ctx : Nat
  hdr : Header
  /-- Code base of the kernel (R296). -/
  base : Nat
  /-- Level of the group (R320). -/
  level : Nat
  conf : Bool
  /-- The strand is one of the feed role (R328). -/
  feed : Bool
  deriving DecidableEq, Repr

/-- The environment of a strand; none when an object it belongs to does not exist. -/
def State.env? (s : State) (st : Strand) : Option Env := do
  let g ← s.group? st.group
  let t ← s.team? g.team
  let l ← s.launch? t.launch
  let k ← s.kernel? l.ctx l.kernel
  let c ← s.ctx? l.ctx
  some { group := g.id, team := t.id, launch := l.id, ctx := c.id, hdr := k.hdr, base := k.base, level := g.level
         conf := c.conf, feed := !st.tile && st.idx < k.hdr.feed }

/-- Global cluster of a global core (R2): eight cores each. -/
def clusterOfCore (core : Nat) : Nat := core / 8

/-- Die of a cluster: twelve clusters each (R2). -/
def dieOfCluster (c : Nat) : Nat := c / 12

/-- Cluster on which a strand runs. -/
def Strand.clusterNo (st : Strand) : Nat := if st.tile then st.core else clusterOfCore st.core

/-- The agent number of a cluster's MCC, beyond those of the cores: its L1, which serves the accesses of its tile strands (R395), is of the form and
size of a core's (DESIGN CHOICE, log 121). -/
def mccAgent (cl : Nat) : Nat := 384 + cl

/-- The agent number of a strand's memory path: its core's, or its MCC's. -/
def Strand.agentCore (st : Strand) : Nat := if st.tile then mccAgent st.core else st.core

/-- More than 2^20 instructions have issued since the pre-emption of the strand's team was requested (R334). -/
def Strand.overran (st : Strand) : Bool := 2 ^ 20 < st.runOn

/-- Slab floor of a strand's role (R96); a continuation has none of its own (R104). -/
def Env.floor (e : Env) (st : Strand) : Nat :=
  if st.cont.isSome then 0 else if e.feed then e.hdr.floorF else e.hdr.floorW

/-- Slab ceiling of a strand's role (R96, R282). -/
def Env.ceil (e : Env) (_ : Strand) : Nat := if e.feed then e.hdr.ceilF else e.hdr.ceilW

/-! ### Slabs (R96-R104) -/

/-- The slabs a register names: its own, and one held for a write or a merge, which may be its own (R492). -/
def VReg.slabIds (r : VReg) : List Nat :=
  match r.shape with
  | .v _ n => n :: r.held.toList.filter fun m => m != n
  | _ => r.held.toList

/-- The slabs a strand's table names. -/
def Strand.slabIds (st : Strand) : List Nat := st.v.toArray.toList.flatMap VReg.slabIds

/-- The strands whose tables may share slabs with this one: its owner and its owner's continuations, or its own (R103). -/
def State.family (s : State) (st : Strand) : List Strand :=
  match st.cont with
  | some c => s.strands.filter fun x => x.id != st.id && (x.id == c.owner || (x.cont.map (·.owner)) == some c.owner)
  | none => if st.forks.isEmpty then [] else s.strands.filter fun x => (x.cont.map (·.owner)) == some st.id

/-- A slab that another table names too (R103). -/
def State.shared (s : State) (st : Strand) (n : Nat) : Bool := (s.family st).any fun x => x.slabIds.contains n

/-- Slabs that count against a strand (R97). A shared slab counts once: against the owner where it names it, else against the
oldest continuation that does (R103). -/
def State.slabsOf (s : State) (st : Strand) : Nat :=
  match st.cont with
  | none => st.slabIds.length
  | some _ =>
    let before := (s.family st).filter fun x => x.cont.isNone || x.id < st.id
    (st.slabIds.filter fun n => !(before.any fun x => x.slabIds.contains n)).length

/-- Slabs of a core that are neither reserved nor lent (R96, R97), with the strand `me` in its present state. -/
def State.unreserved (s : State) (me : Strand) : Nat :=
  let on := s.strands.filter fun x => !x.tile && x.core == me.core && x.id != me.id
  2048 - ((me :: on).foldl (fun acc x =>
    match s.env? x with
    | some e => acc + max (e.floor x) (s.slabsOf x)
    | none => acc) 0)

/-- The core's slots that no strand and no continuation occupies (R154, R272). -/
def State.freeSlots (s : State) (core : Nat) : List Nat :=
  (List.range 64).filter fun n => !(s.strands.any fun x => !x.tile && x.core == core && x.slot == n)

/-! ### Operating points and bursts (R468, R471) -/

/-- Heat and operating point of an island (R471). -/
def State.heat (s : State) (n : Nat) : Heat := (s.dev.heats.find? fun h => h.island == n).getD { island := n }

/-- The frequency in MHz at which an island runs: its operating point, or its limit in the map. -/
def State.pointOf (s : State) (island : Nat) : Nat :=
  let p := (s.heat island).point
  if p = 0 then (s.dev.map.islands.getD island {}).fmax else p

/-- Arithmetic cycles left of the burst that a quadrant of a core holds: 64 from its grant, of which an instruction takes one, and of which the
arithmetic clock of the core counts those that have passed (R468, DEDUCED, log 37). -/
def State.burstLeft (s : State) (core q : Nat) : Nat :=
  let k := s.core core
  if 64 ≤ (s.now - vget k.burstFrom q 0) * s.pointOf (13 * clusterOfCore core + core % 8) / 1000 then 0 else vget k.burst q 0

/-! ### Versions -/

/-- The current map version (R445). -/
def State.version (s : State) : DWord := s.dev.map.version

/-- The feature mask of the unit a strand runs on (R446). -/
def State.unitFeatures (s : State) (st : Strand) : DWord :=
  if st.tile then ((s.dev.map.mccFeat.find? fun p => p.1 == st.core).map (·.2)).getD 0
  else ((s.dev.map.coreFeat.find? fun p => p.1 == st.core).map (·.2)).getD 0

end Sys2Proof.Machine
end

