-- ==== Sys2Proof/Machine/Mem.lean ====
section
/-!
DEFINITION. Memory: bytes by IA in canonical form, home slices, L1 lines (R244), poison (R457), the map page (R440-R444),
translation (R193), and the tracking of continuation reads by every write (R284).
-/

namespace Sys2Proof.Machine

/-! ### Bytes by address -/

/-- A byte of memory; a byte that is not listed reads 0 (R202; host memory: DESIGN CHOICE, log 7). -/
def Memory.get : Memory → Nat → Byte
  | [], _ => 0
  | c :: cs, a => if a < c.1 then 0 else if c.1 = a then c.2 else Memory.get cs a

/-- Memory with one byte written, in canonical form. -/
def Memory.put : Memory → Nat → Byte → Memory
  | [], a, b => if b = 0 then [] else [(a, b)]
  | c :: cs, a, b =>
    if a < c.1 then (if b = 0 then c :: cs else (a, b) :: c :: cs)
    else if c.1 = a then (if b = 0 then cs else (a, b) :: cs)
    else c :: Memory.put cs a b

/-- The canonical form: addresses strictly rising from `lo`, and no byte listed that an unlisted address reads as. -/
def Memory.wfFrom : Nat → Memory → Bool
  | _, [] => true
  | lo, c :: cs => lo ≤ c.1 && c.2 != 0 && Memory.wfFrom (c.1 + 1) cs

/-- Memory is in canonical form. -/
def Memory.wf (m : Memory) : Bool := Memory.wfFrom 0 m

/-- Memory with bytes written at consecutive addresses. -/
def Memory.putList : Memory → Nat → List Byte → Memory
  | m, _, [] => m
  | m, a, b :: bs => Memory.putList (m.put a b) (a + 1) bs

/-- Memory with a whole range written at once. -/
def Memory.fill (m : Memory) (lo : Nat) (bs : List Byte) : Memory :=
  m.filter (fun c => c.1 < lo) ++
    (bs.zipIdx.filterMap fun p => if p.1 = 0 then none else some (lo + p.2, p.1)) ++
    m.filter fun c => lo + bs.length ≤ c.1

/-- `n` bytes of memory from an address. -/
def Memory.getList (m : Memory) (a n : Nat) : List Byte := (List.range n).map fun i => m.get (a + i)

/-- Byte `i` of a wide value. -/
def byteAt {w : Nat} (x : BitVec w) (i : Nat) : Byte := x.extractLsb' (8 * i) 8

/-- A wide value with byte `i` replaced. -/
def putByte {w : Nat} (x : BitVec w) (i : Nat) (b : Byte) : BitVec w :=
  (x &&& ~~~(BitVec.ofNat w (255 * 2 ^ (8 * i)))) ||| BitVec.ofNat w (b.toNat * 2 ^ (8 * i))

/-- A bit set in a mask of any width. -/
def setBit {w : Nat} (x : BitVec w) (i : Nat) : BitVec w := x ||| BitVec.ofNat w (2 ^ i)

/-! ### Homes and poison -/

/-- Home of an IA (R190). -/
def homeOf (ia : Nat) : Nat := ia / 2 ^ 49

/-- Line number of an IA (R211). -/
def lineOf (ia : Nat) : Nat := ia / 128

/-- Sector number of an IA (R284). -/
def sectorOf (ia : Nat) : Nat := ia / 32

/-- Page number of an IA (R200). -/
def pageOf (ia : Nat) : Nat := ia / 65536

/-- A compute die is live in the current map (R442); before version 1 none is said to be retired. -/
def State.dieLive (s : State) (d : Nat) : Bool := s.dev.map.version == 0 || s.dev.map.liveDie.getLsbD d

/-- A link carries traffic: it is up or degraded, or retrains, which holds its traffic and loses none (R484). -/
def Link.carries (l : Link) : Bool := l.state == .up || l.state == .degraded || (l.state == .training && l.retraining)

/-- Some host link carries traffic (R489). -/
def State.hostLinkUp (s : State) : Bool := s.dev.links.any fun l => l.n < 2 && l.carries

/-- The die whose slice a line is homed on (R212): its own, or one of four for a line of home 4. -/
def sliceDie (ia : Nat) : Nat := if 4 ≤ homeOf ia then ia / 2 ^ 11 % 4 else homeOf ia

/-- The place of an IA can be reached: the die of its home slice is live, and for home 4 a host link is there (R212, R489, R490). -/
def State.reachable (s : State) (ia : Nat) : Bool :=
  s.dieLive (sliceDie ia) && (homeOf ia < 4 || s.hostLinkUp)

/-! ### Transfers over links (R484, R490) -/

/-- A link moves traffic now: it is up or degraded. -/
def Link.serves (l : Link) : Bool := l.state == .up || l.state == .degraded

/-- The dies that a die-to-die link joins: 4 stands for the hub. -/
def linkEnds (n : Nat) : Nat × Nat := if n < 6 then (n - 2, 4) else (n - 6, (n - 5) % 4)

/-- The dies that one of them reaches over some die-to-die links (R490). -/
def reachedFrom (links : List Link) (die : Nat) : List Nat :=
  (List.range 4).foldl (fun (ds : List Nat) _ =>
    links.foldl (fun (ds : List Nat) l =>
      let e := linkEnds l.n
      if ds.contains e.1 && !ds.contains e.2 then e.2 :: ds
      else if ds.contains e.2 && !ds.contains e.1 then e.1 :: ds else ds) ds) [die]

/-- The die-to-die links that satisfy a condition. -/
def dieLinks (links : List Link) (p : Link → Bool) : List Link := links.filter fun l => 2 ≤ l.n && l.n < 10 && p l

/-- A transfer between two dies is held: no path of links that are up or degraded joins them, and one that a retraining link is part of does
(R484, R490). -/
def State.pathHeld (s : State) (a b : Nat) : Bool :=
  a != b && !(reachedFrom (dieLinks s.dev.links Link.serves) a).contains b && (reachedFrom (dieLinks s.dev.links Link.carries) a).contains b

/-- A transfer over the host links is held: one of them retrains, and none is up or degraded (R484). -/
def State.hostHeld (s : State) : Bool := s.hostLinkUp && !(s.dev.links.any fun l => l.n < 2 && l.serves)

/-- The die on which an agent makes its accesses: that of a core or of an MCC, and the hub for the others. -/
def agentDie (core : Nat) : Nat := if core < 384 then core / 96 else if core < 432 then (core - 384) / 12 else 4

/-- An access by an agent on a die is held by a link that retrains: on its way to the home slice, or from there to host memory, which an access at
system scope needs, and any other where the slice holds no copy of the line (R267, R484). -/
def State.transferHeld (s : State) (die : Nat) (sys : Bool) (ia : Nat) : Bool :=
  s.pathHeld die (sliceDie ia) ||
    (homeOf ia = 4 && (sys || !(s.h4.any fun l => l.line == lineOf ia)) && (s.hostHeld || s.pathHeld (sliceDie ia) 4))

/-- Some line of a page is held for an agent on a die: a page of home 4 has lines on every die (R212). -/
def State.pageTransferHeld (s : State) (die page : Nat) : Bool :=
  (List.range 4).any fun d => s.transferHeld die false (65536 * page + 2048 * d)

/-! ### The map page -/

/-- Byte `off` of an image given by its fields: offset, size and value. A byte no field names is 0. -/
def fieldByte (fields : List (Nat × Nat × Nat)) (off : Nat) : Byte :=
  match fields.find? fun f => f.1 ≤ off && off < f.1 + f.2.1 with
  | some f => BitVec.ofNat 8 (f.2.2 / 256 ^ (off - f.1))
  | none => 0

/-- SERVICE word (R442). -/
def SMap.service (m : SMap) : Nat := (if m.full then 1 else 0) + (if m.shadow then 2 else 0)

/-- The value of a key in a list of pairs; 0 where it has none. -/
def pairVal (l : List (Nat × DWord)) (k : Nat) : DWord :=
  match l.find? fun p => p.1 == k with
  | some p => p.2
  | none => 0

/-- A cluster record (R443) as a number of 16 bytes. -/
def SMap.clusterRec (m : SMap) (c : Nat) : Nat :=
  (m.bandLive.extractLsb' (4 * c) 4).toNat + 256 * (m.liveCore.extractLsb' (8 * c) 8).toNat +
    2 ^ 64 * (pairVal m.mccFeat c).toNat

/-- A link record (R444) as a number of 8 bytes. -/
def Link.record (l : Link) : Nat := l.pubState + 2 ^ 8 * l.pubWidth + 2 ^ 32 * l.pubSpeed

/-- An island record (R444) as a number of 8 bytes. -/
def Island.record (i : Island) : Nat :=
  if i.live then 1 + 2 ^ 16 * i.vmin + 2 ^ 32 * i.vmax + 2 ^ 48 * i.fmax else 0

/-- A byte of a whole map image, given its fields and its links (R442). -/
def SMap.byte (m : SMap) (links : List Link) (off : Nat) : Byte :=
  if off < 0x80 then
    fieldByte
      [(0x00, 8, m.version.toNat), (0x08, 4, m.service), (0x0C, 2, m.aclk), (0x0E, 2, m.fclk), (0x10, 8, m.liveCl.toNat),
       (0x18, 8, m.liveMcc.toNat), (0x20, 4, m.liveDie.toNat), (0x28, 8, m.changed.toNat), (0x40, 48, m.liveCore.toNat),
       (0x70, 8, m.liveSlice.toNat), (0x78, 4, m.liveStack.toNat)] off
  else if off < 0x380 then
    let c := (off - 0x80) / 16
    BitVec.ofNat 8 (m.clusterRec c / 256 ^ ((off - 0x80) % 16))
  else if off < 0x400 then 0
  else if off < 0x1000 then
    let g := (off - 0x400) / 8
    let f := pairVal m.coreFeat g
    if g < 384 then BitVec.ofNat 8 (f.toNat / 256 ^ (off % 8)) else 0
  else if off < 0x1800 then
    let p := 8 * (off - 0x1000)
    (List.range 8).foldl (fun acc i => if m.pcRet.contains (p + i) then setBit acc i else acc) 0
  else if off < 0x18D0 then
    match links.find? fun l => l.n == (off - 0x1800) / 8 with
    | some l => BitVec.ofNat 8 (l.record / 256 ^ (off % 8))
    | none => 0
  else if off < 0x1900 then 0
  else if off < 0x2F00 then
    BitVec.ofNat 8 ((m.islands.getD ((off - 0x1900) / 8) {}).record / 256 ^ (off % 8))
  else if 0x2FF8 ≤ off && off < 0x3000 then BitVec.ofNat 8 (m.version.toNat / 256 ^ (off - 0x2FF8))
  else 0

/-- A byte of the map image as the hub holds it. -/
def Device.imageByte (d : Device) (off : Nat) : Byte := d.map.byte d.links off

/-- A byte of the map image as the page shows it: while a version is being written VERSION is new first, then the fields, and VERTAIL last
(R440). -/
def Device.mapByte (d : Device) (off : Nat) : Byte :=
  match d.writing with
  | none => d.imageByte off
  | some w =>
    if off < 8 then d.imageByte off
    else if 0x2FF8 ≤ off || !w.fields then w.map.byte w.links off
    else d.imageByte off

/-- An IA lies in the map page (R440). -/
def State.inMapPage (s : State) (ia : Nat) : Bool := s.dev.map.version != 0 && pageOf ia == pageOf s.dev.mapPage

/-! ### Home slices -/

/-- A byte as the home slice gives it; `sys` for an access at system scope, which home 4 serves from host memory (R267). The map page reads as the
image wherever it is placed, or unplaced (DESIGN CHOICE, log 112). -/
def State.homeByte (s : State) (sys : Bool) (ia : Nat) : Byte :=
  if s.inMapPage ia then s.dev.mapByte (ia % 65536)
  else if homeOf ia = 4 then
    match s.h4.find? fun l => l.line == lineOf ia with
    | some l => if !sys || l.dirty.getLsbD (ia % 128) then byteAt l.data (ia % 128) else s.mem.get ia
    | none => s.mem.get ia
  else s.mem.get ia

/-- The poison tag of the sector of an IA at its home (R457, R489, R490). -/
def State.homePoison (s : State) (ia : Nat) : Bool := s.poison.contains (sectorOf ia) || !s.reachable ia

/-- A tracked sector marked lost when it was read from that copy and is one of those written (R284). -/
def Tracked.loseIf (t : Tracked) (src : ReadCopy) (hits : Sector → Bool) : Tracked :=
  if t.copy == src && hits t.sector then { t with lost := true } else t

/-- A tracked sector is lost for every continuation that read that copy, but for writes of itself and its owner (R284). -/
def Strand.lose (st : Strand) (src : ReadCopy) (hits : Sector → Bool) (who : Nat) : Strand :=
  match st.cont with
  | some c =>
    if st.id == who || c.owner == who then st
    else { st with cont := some { c with tracked := c.tracked.map fun t => t.loseIf src hits } }
  | none => st

/-- Every continuation loses what a write into a copy takes from it (R284). -/
def State.lose (s : State) (src : ReadCopy) (hits : Sector → Bool) (who : Nat) : State :=
  if s.strands.any fun st => st.cont.isSome then
    { s with strands := s.strands.map fun st => st.lose src hits who }
  else s

/-- The sector is one of global memory that n bytes at an IA meet. -/
def Sector.meets (ia n : Nat) : Sector → Bool
  | .global k => k * 32 < ia + n && ia < k * 32 + 32
  | .scratch _ _ => false

/-- The sector is one of a line of global memory. -/
def Sector.inLine (line : Nat) : Sector → Bool
  | .global n => n / 4 = line
  | .scratch _ _ => false

/-- The line of a core's L1 (R211). -/
def State.l1? (s : State) (core line : Nat) : Option L1Line := s.l1.find? fun l => l.core == core && l.line == line

/-- The L1 without a line. -/
def State.l1Remove (s : State) (core line : Nat) : State :=
  { s with l1 := s.l1.filter fun l => !(l.core == core && l.line == line) }

/-- The L1 with a line put in. -/
def State.l1Put (s : State) (x : L1Line) : State :=
  let t := s.l1Remove x.core x.line
  { t with l1 := x :: t.l1 }

/-- A line dropped from an L1: continuations that read that copy lose its sectors (R284). -/
def State.l1Drop (s : State) (core line : Nat) : State :=
  match s.l1? core line with
  | none => s
  | some _ => (s.l1Remove core line).lose (.l1 core) (Sector.inLine line) 0

/-- Every registered copy of a line on other cores is dropped before a write of it counts as performed (R244). -/
def State.dropOthers (s : State) (core line : Nat) : State :=
  let cs := (s.l1.filter fun l => l.line == line && l.reg && l.core != core).map (·.core)
  cs.foldl (fun t c => t.l1Drop c line) s

/-- The home-4 copy of a line with bytes changed, taken from host memory when the slice holds none (R267). -/
def State.h4Write (s : State) (ia : Nat) (b : Byte) : State :=
  let old := (s.h4.find? fun l => l.line == lineOf ia).getD
    { line := lineOf ia, dirty := 0
      data := BitVec.ofNat 1024 (natLE (s.mem.getList (128 * lineOf ia) 128)) }
  let new := { old with dirty := setBit old.dirty (ia % 128), data := putByte old.data (ia % 128) b }
  { s with h4 := new :: s.h4.filter fun l => l.line != lineOf ia }

/-- A device write to home 4 that no host link can carry is counted as a link error (R489). -/
def State.countLost (s : State) (ia : Nat) : State :=
  if homeOf ia < 4 || s.hostLinkUp then s else { s with dev := { s.dev with linkErrors := s.dev.linkErrors + 1 } }

/-- A home-4 copy's dirty bytes go to host memory, or are discarded where they cannot be carried there (R489, R490); the copy stays, clean (R235). -/
def State.h4Clean (s : State) (line : Nat) : State :=
  match s.h4.find? fun l => l.line == line with
  | none => s
  | some l =>
    let m := if l.dirty == 0 || !s.reachable (128 * line) then s.mem
      else (List.range 128).foldl (fun m i => if l.dirty.getLsbD i then m.put (128 * line + i) (byteAt l.data i) else m) s.mem
    let s := if l.dirty == 0 then s else s.countLost (128 * line)
    { s with mem := m, h4 := s.h4.map fun x => if x.line == line then { x with dirty := 0 } else x }

/-- A home-4 copy is dropped. -/
def State.h4Drop (s : State) (line : Nat) : State := { s with h4 := s.h4.filter fun l => l.line != line }

/-- What a system-scope access of a home-4 line does first to the slice's copy: written back where it is dirty, and given up, so that no
narrower access finds a value older than the one the access reads or writes (R238, R267, DEDUCED, log 87). -/
def State.h4Sys (s : State) (line : Nat) : State := (s.h4Clean line).h4Drop line

/-! ### Slices (R3, R205, R212, R213) -/

/-- The slice that a line's IA folds to (R212). -/
def foldSlice (ia : Nat) : Nat :=
  (List.range 10).foldl (fun (acc : Nat) g => acc ^^^ (ia / 2 ^ (7 + 4 * g) % 16)) (ia / 2 ^ 47 % 4)

/-- The home slice of a line, with retired slices passed over (R213). -/
def State.sliceOf (s : State) (ia : Nat) : Nat :=
  let live := fun (n : Nat) => s.dev.map.liveSlice.getLsbD (16 * sliceDie ia + n)
  let n := foldSlice ia
  if live n then n
  else if live (n ^^^ 8) then n ^^^ 8
  else ((List.range 16).find? live).getD n

/-- A line chosen as a victim by its home slice: a zero line leaves zeros in memory, and the copy of a home-4 line is written back and
given up (R205, R267). A copy moves its words in one event, so that no line is seen pinned between two moves (R204). -/
def State.sliceEvict (s : State) (line : Nat) : State :=
  (({ s with zeroLines := s.zeroLines.filter fun l => l != line } : State).h4Clean line).h4Drop line

/-- Lines of a home slice (R3): 6 MiB of 128 bytes. -/
def sliceLines : Nat := 49152

/-- Room for a line in its home slice: where zero lines and copies of home-4 lines fill it, one is given up (R3, R205). -/
def State.sliceRoom (s : State) (line : Nat) : State :=
  let here := fun (l : Nat) => l != line && sliceDie (128 * l) == sliceDie (128 * line) && s.sliceOf (128 * l) == s.sliceOf (128 * line)
  if s.zeroLines.length + s.h4.length < sliceLines then s
  else
    let ls := (s.zeroLines ++ s.h4.map (·.line)).filter here
    if ls.length < sliceLines then s
    else match ls[Config.victim line % ls.length]? with
      | some v => s.sliceEvict v
      | none => s

/-! ### Writes at home -/

/-- One byte stored at its home; writes that reach no place are discarded (R489, R490), and the map page has one writer (R440). -/
def State.homePut (s : State) (sys : Bool) (ia : Nat) (b : Byte) : State :=
  if !s.reachable ia || s.inMapPage ia then s
  else if homeOf ia = 4 && !sys then s.h4Write ia b
  else { s with mem := s.mem.put ia b }

/-- Sector tags cleared by a write of all 32 bytes of a sector (R457). -/
def State.clearTags (s : State) (ia n : Nat) : State :=
  if s.poison.isEmpty then s
  else { s with poison := s.poison.filter fun sec => !(ia ≤ 32 * sec && 32 * sec + 32 ≤ ia + n) }

/-- All 32 bytes of a sector lie in some ranges, each an address and a length. -/
def coversSector (rs : List (Nat × Nat)) (sec : Nat) : Bool :=
  (List.range 32).all fun i => rs.any fun r => r.1 ≤ 32 * sec + i && 32 * sec + i < r.1 + r.2

/-- A core's L1 line without the poison of the sectors that some ranges cover. -/
def L1Line.cleared (l : L1Line) (rs : List (Nat × Nat)) : L1Line :=
  { l with poison := l.poison &&& ~~~((List.range 4).foldl (fun (m : BitVec 4) k => if coversSector rs (4 * l.line + k) then setBit m k else m) 0) }

/-- The bytes that the elements of one store wrote together, as one write: the tags of the sectors they cover are cleared, at home and in
the L1 of the core that wrote through it (R457, DEDUCED, log 94). -/
def State.clearCovered (s : State) (core : Nat) (rs : List (Nat × Nat)) : State :=
  if s.poison.isEmpty && s.l1.all fun l => l.poison == 0 then s
  else
    { s with
      poison := s.poison.filter fun sec => !coversSector rs sec
      l1 := s.l1.map fun l => if l.core == core && l.poison != 0 then l.cleared rs else l }

/-- Bytes put at the home slice by a core (or agent): other registered copies go first, zero lines become data lines, and continuations that
read the home copy lose the sectors. `who` is the strand that writes, or 0. -/
def State.homeStore (s : State) (core who : Nat) (sys : Bool) (ia : Nat) (bytes : List Byte) : State :=
  let n := bytes.length
  let lines := (List.range ((ia % 128 + n + 127) / 128)).map fun i => lineOf ia + i
  let s := lines.foldl (fun t l => t.dropOthers core l) s
  let s := if homeOf ia = 4 then lines.foldl (if sys then State.h4Sys else State.sliceRoom) s else s
  let s := (List.range n).foldl (fun t i => t.homePut sys (ia + i) (bytes.getD i 0)) s
  let s := if s.zeroLines.isEmpty then s else { s with zeroLines := s.zeroLines.filter fun l => !lines.contains l }
  let s := s.clearTags ia n
  s.lose .home (Sector.meets ia n) who

/-- Bytes written at the home slice as one write, which is counted where no link carries it (R489). -/
def State.homeWrite (s : State) (core who : Nat) (sys : Bool) (ia : Nat) (bytes : List Byte) : State :=
  (s.countLost ia).homeStore core who sys ia bytes

/-- Bytes of a save area written by the device itself: no window maps it, and no program orders against it (R105). -/
def State.saveBytes (s : State) (ia : Nat) (bytes : List Byte) : State :=
  if s.reachable ia then ({ s with mem := s.mem.fill ia bytes }).clearTags ia bytes.length else s

/-! ### Pseudo-channels (R214, R462) -/

/-- The pseudo-channel of a physical address on its die (R214). -/
def channelOf (p : Nat) : Nat := (p / 2 ^ 7 % 4096) ^^^ (p / 2 ^ 19 % 4096) ^^^ (p / 2 ^ 31 % 4096) ^^^ (p / 2 ^ 43 % 512)

/-- A slice or pseudo-channel under test holds new accesses (R462 step 1). -/
def State.unitHeld (s : State) (ia : Nat) : Bool :=
  s.dev.tests.any fun t => match t.unit with
    | .slice d n => d == sliceDie ia && n == s.sliceOf ia
    | .pchannel d q => d == homeOf ia && s.pages.any fun p =>
        p.page == pageOf ia && !p.host && q == channelOf (65536 * p.frame + ia % 65536)
    | _ => false

/-! ### L1 (R244) -/

/-- Write back the dirty bytes of a line; the line stays, clean. -/
def State.l1Clean (s : State) (core line : Nat) : State :=
  match s.l1? core line with
  | none => s
  | some l =>
    if l.dirty == 0 then s
    else
      let s := (s.l1Put { l with dirty := 0 }).countLost (128 * line)
      let s := (List.range 128).foldl (fun t i =>
        if l.dirty.getLsbD i then t.homeStore core 0 false (128 * line + i) [byteAt l.data i] else t) s
      s.clearCovered core (((List.range 128).filter fun i => l.dirty.getLsbD i && !l.poison.getLsbD (i / 32)).map fun i => (128 * line + i, 1))

/-- Write back the dirty bytes of a line and drop it. -/
def State.l1Flush (s : State) (core line : Nat) : State := (s.l1Clean core line).l1Drop core line

/-- Lines of a core's L1 (R211): 128 KiB of 128 bytes. -/
def l1Lines : Nat := 1024

/-- Room for a line in a core's L1: where it is full, a victim is given up (R211, R244). -/
def State.l1Room (s : State) (core line : Nat) : State :=
  let mine := s.l1.filter fun l => l.core == core && l.line != line
  if mine.length < l1Lines then s
  else match mine[Config.victim line % mine.length]? with
    | some v => s.l1Flush core v.line
    | none => s

/-- Lines of a core's instruction cache (R211): 64 KiB of 128 bytes. -/
def icLines : Nat := 512

/-- A core's instruction cache takes a line of code; where it is full another goes (R211). -/
def State.icFill (s : State) (core line : Nat) : State :=
  let new : ICLine := { core := core, line := line }
  if s.icache.contains new then s
  else
    let mine := s.icache.filter fun l => l.core == core
    let kept := if mine.length < icLines then s.icache
      else match mine[Config.victim line % mine.length]? with
        | some v => s.icache.erase v
        | none => s.icache
    { s with icache := new :: kept }

/-- The sectors of a line that a range of bytes meets. -/
def sectorsOf (ia n : Nat) : List Nat :=
  (List.range 4).filter fun k => 128 * lineOf ia + 32 * k < ia + n && ia < 128 * lineOf ia + 32 * k + 32

/-- A line with sectors filled from its home, under its dirty bytes. -/
def State.l1Fill (s : State) (l : L1Line) (sys : Bool) (secs : List Nat) : L1Line :=
  secs.foldl (fun l k =>
    if l.valid.getLsbD k then l
    else
      let data := (List.range 32).foldl (fun d i =>
        let j := 32 * k + i
        if l.dirty.getLsbD j then d else putByte d j (s.homeByte sys (128 * l.line + j))) l.data
      { l with valid := setBit l.valid k, data := data
               poison := if s.homePoison (128 * l.line + 32 * k) then setBit l.poison k else l.poison }) l

/-- A line's bytes as a number, and whether a sector read is poisoned. -/
def L1Line.read (l : L1Line) (ia n : Nat) : Nat × Bool :=
  (natLE ((List.range n).map fun i => byteAt l.data (ia % 128 + i)),
   (sectorsOf ia n).any fun k => l.poison.getLsbD k)

/-- The slice takes a copy of a home-4 line that a device load at a narrower scope reads (R267). -/
def State.h4Take (s : State) (line : Nat) : State :=
  if homeOf (128 * line) = 4 && !(s.h4.any fun l => l.line == line) then
    let s := s.sliceRoom line
    { s with h4 := { line := line, dirty := 0, data := BitVec.ofNat 1024 (natLE (s.mem.getList (128 * line) 128)) } :: s.h4 }
  else s

/-- What a load found. -/
structure Loaded where
  value : Nat
  poison : Bool
  copy : ReadCopy

/-- The L1 line from which a load is served: one that is there, but never for SO (R252), at a wider scope, or at system scope from home 4 (R267). -/
def State.l1Serves (s : State) (core : Nat) (wk : WKind) (scope : Scope) (ia : Nat) : Option L1Line :=
  if wk == .so || (scope == .system && homeOf ia = 4) then none
  else (s.l1? core (lineOf ia)).filter fun l => scope.code ≤ l.rs

/-- The sectors that a load is to fetch into the L1: those that no line it is served from holds; SO takes no line (R244, R253). -/
def State.l1Misses (s : State) (core : Nat) (wk : WKind) (scope : Scope) (ia n : Nat) : Nat :=
  if wk == .so then 0
  else ((sectorsOf ia n).filter fun k => match s.l1Serves core wk scope ia with | some l => !l.valid.getLsbD k | none => true).length

/-- A load of one element, performed (R244, R249, R253, R267). -/
def State.loadElem (s : State) (core : Nat) (wk : WKind) (scope : Scope) (ia n : Nat) : State × Loaded :=
  let line := lineOf ia
  let sys := scope == .system
  let S := scope.code
  let s := if (s.l1Serves core wk scope ia).isSome then s else s.l1Flush core line
  let s := if homeOf ia = 4 then (if sys then s.h4Sys line else s.h4Take line) else s
  if wk == .so then
    (s, { value := natLE ((List.range n).map fun i => s.homeByte sys (ia + i)), poison := s.homePoison ia, copy := .home })
  else
    let s := s.l1Room core line
    let new : L1Line := { core := core, line := line, valid := 0, dirty := 0, rs := S, reg := 1 ≤ S, data := 0 }
    let l := s.l1Fill ((s.l1? core line).getD new) sys (sectorsOf ia n)
    let (v, p) := l.read ia n
    (s.l1Put l, { value := v, poison := p, copy := .l1 core })

/-- A line with bytes written. -/
def L1Line.write (l : L1Line) (ia : Nat) (bytes : List Byte) (dirty : Bool) : L1Line :=
  let full := fun (l : L1Line) (k : Nat) => (List.range 32).all fun i => l.dirty.getLsbD (32 * k + i)
  let before := l
  let l := (List.range bytes.length).foldl (fun l i =>
    let j := ia % 128 + i
    { l with data := putByte l.data j (bytes.getD i 0), dirty := if dirty then setBit l.dirty j else l.dirty }) l
  -- a sector that is now written whole carries no poison and needs no fill (R457)
  (List.range 4).foldl (fun l k =>
    if full l k && !full before k then
      { l with valid := setBit l.valid k, poison := l.poison &&& ~~~(BitVec.ofNat 4 (2 ^ k)) }
    else l) l

/-- A line that the L1 holds at a scope as wide as the store's, with the bytes that go through it: its recorded scope becomes the store's, and
continuations that read this copy lose its sectors (R244, R284). -/
def State.l1Through (s : State) (core who scope : Nat) (l : L1Line) (ia : Nat) (bytes : List Byte) : State :=
  (s.l1Put { (l.write ia bytes false) with rs := scope }).lose (.l1 core) (Sector.meets ia bytes.length) who

/-- A store of one element, performed (R244, R249, R253). -/
def State.storeElem (s : State) (core who : Nat) (wk : WKind) (scope : Scope) (ia : Nat) (bytes : List Byte) : State :=
  let line := lineOf ia
  let sys := scope == .system
  if wk == .so then
    (s.l1Flush core line).homeWrite core who sys ia bytes
  else if scope == .group then
    let s := s.l1Room core line
    let l := (s.l1? core line).getD { core := core, line := line, valid := 0, dirty := 0, rs := 0, reg := false, data := 0 }
    let s := s.l1Put { (l.write ia bytes true) with rs := 0, reg := false }
    s.lose (.l1 core) (Sector.meets ia bytes.length) who
  else
    match s.l1? core line with
    | none => s.homeWrite core who sys ia bytes
    | some l =>
      if l.rs < scope.code then (s.l1Flush core line).homeWrite core who sys ia bytes
      else (s.l1Through core who scope.code l ia bytes).homeWrite core who sys ia bytes

/-- An atomic's action on the issuing core's L1 before its step: as a store at scope max(SCOPE, 1) (R257). -/
def State.atomPrepare (s : State) (core : Nat) (wk : WKind) (scope : Scope) (ia : Nat) : State :=
  let line := lineOf ia
  let s := if homeOf ia = 4 && scope == .system then s.h4Sys line else s
  match s.l1? core line with
  | none => s
  | some l => if wk == .so || l.rs < max scope.code 1 || l.dirty != 0 then s.l1Flush core line else s

/-- The write of an atomic's step. -/
def State.atomWrite (s : State) (core who : Nat) (scope : Scope) (ia : Nat) (bytes : List Byte) : State :=
  let s := match s.l1? core (lineOf ia) with
    | none => s
    | some l => s.l1Through core who (max scope.code 1) l ia bytes
  s.homeWrite core who (scope == .system) ia bytes

/-- The L1 action of a release at a scope (R244). -/
def State.l1Release (s : State) (core : Nat) (scope : Scope) : State :=
  let ls := (s.l1.filter fun l => l.core == core && l.dirty != 0 && l.rs < scope.code).map (·.line)
  ls.foldl (fun t l => t.l1Clean core l) s

/-- The L1 action of an acquire at a scope (R244). -/
def State.l1Acquire (s : State) (core : Nat) (scope : Scope) : State :=
  let ls := (s.l1.filter fun l => l.core == core && l.rs < scope.code).map (·.line)
  ls.foldl (fun t l => t.l1Flush core l) s

/-- Every dirty line of a core written back (R248). -/
def State.l1CleanAll (s : State) (core : Nat) : State :=
  let ls := (s.l1.filter fun l => l.core == core && l.dirty != 0).map (·.line)
  ls.foldl (fun t l => t.l1Clean core l) s

/-- The lines of an IA range written back and dropped in every L1 (R206). -/
def State.l1FlushRange (s : State) (lo hi : Nat) : State :=
  let ls := (s.l1.filter fun l => lineOf lo ≤ l.line && l.line ≤ lineOf hi).map fun l => (l.core, l.line)
  ls.foldl (fun t l => t.l1Flush l.1 l.2) s

/-! ### Pages (R200-R203) -/

/-- The page-table entry of a page; none for an unplaced one. -/
def State.pte? (s : State) (page : Nat) : Option Pte := s.pages.find? fun p => p.page == page

/-- The state with a page-table entry put in. -/
def State.setPte (s : State) (x : Pte) : State := { s with pages := x :: s.pages.filter fun p => p.page != x.page }

/-- Free frames of a die that a touch can use (R202). -/
def State.usable (s : State) (die : Nat) (conf pref : Bool) : List Frame :=
  s.frames.filter fun f => f.die == die && (if conf then !f.host else if pref then f.host else true)

/-- The frame a touch takes when nothing else chooses: an HBM frame when one is free and PREFHOST is 0 (R202). -/
def State.pick (s : State) (die : Nat) (conf pref : Bool) : Option Frame :=
  let fs := s.usable die conf pref
  match fs.find? fun f => !f.host with
  | some f => some f
  | none => fs.head?

/-- An unplaced page placed in a frame, which is filled with zeros (R202). -/
def State.place (s : State) (page : Nat) (f : Frame) : State :=
  let lo := 65536 * page
  let s := { s with
             frames := s.frames.erase f
             mem := s.mem.filter fun c => !(lo ≤ c.1 && c.1 < lo + 65536)
             poison := s.poison.filter fun x => !(2048 * page ≤ x && x < 2048 * page + 2048) }
  s.setPte { page := page, frame := f.frame, host := f.host }

/-- A page is ready for an access: home 4, or placed and not being moved (R203). -/
def State.pageReady (s : State) (page : Nat) : Bool :=
  if 4 ≤ homeOf (65536 * page) then true
  else match s.pte? page with
    | some p => p.state != 3
    | none => !s.reachable (65536 * page)

/-- A first touch by any agent: the page is placed, when it is unplaced and a usable frame is free (R202). -/
def State.touch (s : State) (page : Nat) (conf pref : Bool) : State :=
  if s.pageReady page || (s.pte? page).isSome then s
  else match s.pick (homeOf (65536 * page)) conf pref with
    | some f => s.place page f
    | none => s

/-- The pages of a range after a first touch of each by an agent outside the cores; whether all of them are ready, and the pages that no
usable frame is free for (R202, R203, R462). A link that retrains holds the access (R484); `die` is where the agent is. -/
def State.touchRange (s : State) (conf pref : Bool) (ia n : Nat) (die : Nat := 4) : State × Bool × List Nat :=
  (List.range ((ia + n - 1) / 65536 - ia / 65536 + 1)).foldl (fun (acc : State × Bool × List Nat) i =>
    let page := ia / 65536 + i
    let s := acc.1.touch page conf pref
    let at' := if i = 0 then ia else 65536 * page
    if s.unitHeld at' || s.transferHeld die true at' then (s, false, acc.2.2)
    else if s.pageReady page then (s, acc.2)
    else (s, false, if (s.pte? page).isSome then acc.2.2 else acc.2.2 ++ [page])) (s, true, [])

/-! ### Translation -/

/-- A window update of a context is under way: new translations of its strands wait (R206 step 1). -/
def State.windowMoves (s : State) (ctx : Nat) : Bool :=
  s.changes.any fun ch => ch.ctx == ctx && (match ch.change with | .window _ _ => true | _ => false)

/-- The window that translates a virtual address, and its IA (R193). -/
def Ctx.translate (c : Ctx) (va : Nat) : Option (Nat × Window × Nat) :=
  ((List.range 16).find? fun n =>
    let w := c.window n
    w.valid && w.vbase ≤ va / 65536 && va / 65536 ≤ w.vlast).map fun n =>
      let w := c.window n
      (n, w, w.iabase * 65536 + (va - w.vbase * 65536))

/-- The ordering class of a KIND (R195). -/
def Window.wkind (w : Window) : WKind :=
  match w.kind.toNat with
  | 0 => .so
  | 1 => .rc
  | _ => .uo

/-- The permission letters an access needs (R194). -/
inductive Need where
  | fetch | read | write | atomic
  /-- RD and W: the header step of STZ (R388). -/
  | update
  deriving DecidableEq, Repr

/-- The window grants an access (R194). -/
def Window.grants (w : Window) : Need → Bool
  | .fetch => w.x
  | .read => w.rd
  | .write => w.w
  | .atomic => w.rd && w.w && w.at'
  | .update => w.rd && w.w

/-- First and last IA of a window. -/
def Window.iaRange (w : Window) : Nat × Nat :=
  (w.iabase * 65536, w.iabase * 65536 + (w.vlast + 1 - w.vbase) * 65536 - 1)

/-- Some valid window of the context reaches an IA page. -/
def Ctx.mapsPage (c : Ctx) (page : Nat) : Bool :=
  (List.range 16).any fun n =>
    let w := c.window n
    w.valid && pageOf w.iaRange.1 ≤ page && page ≤ pageOf w.iaRange.2

/-- Bytes of a context's memory by virtual address, read by a device agent at system scope; none where it does not translate. -/
def State.vread (s : State) (c : Ctx) (va n : Nat) : Option (List Byte) :=
  match c.translate va with
  | none => none
  | some (_, w, ia) =>
    if w.rd && (va + n - 1) / 65536 ≤ w.vlast && s.reachable ia then
      some ((List.range n).map fun i => s.homeByte true (ia + i))
    else none

/-- Bytes written by a device agent at system scope through the context's windows, its pages ready; none where they do not translate with W. What
reaches no place is discarded (R489, R490). -/
def State.vput (s : State) (c : Ctx) (va : Nat) (bytes : List Byte) : Option State :=
  match c.translate va with
  | none => none
  | some (_, w, ia) => if w.w && (va + bytes.length - 1) / 65536 ≤ w.vlast then some (s.homeWrite 1000 0 true ia bytes) else none

/-- The same, for a write that must be performed: none where it is not. -/
def State.vwrite (s : State) (c : Ctx) (va : Nat) (bytes : List Byte) : Option State :=
  match c.translate va with
  | none => none
  | some (_, _, ia) => if s.reachable ia then s.vput c va bytes else none

/-- The pages that n bytes at a virtual address reach, touched (R202): the state, whether they are ready, and the pages without a frame, with the
PREFHOST of the window. Where nothing translates there is nothing to wait for. -/
def State.vtouch (s : State) (c : Ctx) (va n : Nat) : State × Bool × List Nat × Bool :=
  match c.translate va with
  | none => (s, true, [], false)
  | some (_, w, ia) =>
    let (s, ok, lack) := s.touchRange c.conf w.prefhost ia n
    -- the access is at system scope: what a slice holds of a home-4 line goes first (R267)
    let s := if homeOf ia = 4 then (List.range ((ia % 128 + n + 127) / 128)).foldl (fun t i => t.h4Sys (lineOf ia + i)) s else s
    (s, ok, lack, w.prefhost)

end Sys2Proof.Machine
end

