-- ==== Sys2Proof/Machine/Life.lean ====
section
/-!
DEFINITION. What happens to groups, teams, launches and contexts when something ends: counters, trace records, events, squashes of
forks, pre-emption requests, frames and leases, queue completions, group faults and the retirement of teams.
-/

namespace Sys2Proof.Machine

/-! ### Counters (R435, R473) -/

/-- Counters of a context with `k` added to counter `n`, mod 2^64 (R435, R474). -/
def Ctx.bump (c : Ctx) (n k : Nat) : Ctx := { c with counters := vset c.counters n (vget c.counters n 0 + BitVec.ofNat 64 k) }

/-- A context counter 0-10 advanced. -/
def State.bump (s : State) (ctx n k : Nat) : State :=
  match s.ctx? ctx with
  | none => s
  | some c => s.setCtx (c.bump n k)

/-! ### Trace (R478-R480) -/

/-- Bytes of fields, each a size and a value. -/
def packFields (fs : List (Nat × Nat)) : List Byte := fs.flatMap fun f => bytesLE f.1 f.2

/-- A sealed block of a confidential context's trace (R480): its header, which is authenticated, then 127 records under the context key and the
tag. The nonce is the block's sequence number, then 32 zero bits. -/
def sealedBlock (c : Ctx) (records : List (List Byte)) : List Byte :=
  let head := packFields [(8, c.trace.blockSeq), (2, c.id), (6, 0)]
  let body := (List.range 127).flatMap fun i => records.getD i (List.replicate 32 0)
  head ++ gcmSeal (c.key.getD 0) (bytesLE 8 c.trace.blockSeq ++ List.replicate 4 0) head body

/-- One item written to the trace ring: a record, or a sealed block; a full ring drops it and counts the loss (R479). -/
def State.traceWrite (s : State) (c : Ctx) (item : List Byte) (count : Nat) : State :=
  if c.trace.slots ≤ c.trace.tail - c.trace.head then s.setCtx (c.bump 10 count)
  else
    let a := c.trace.ring + item.length * (c.trace.tail % c.trace.slots)
    (s.homeWrite 1000 0 true a item).setCtx { c with trace := { c.trace with tail := c.trace.tail + 1 } }

/-- The partial block of a confidential context sealed and written (R480). -/
def State.traceSeal (s : State) (ctx : Nat) : State :=
  match s.ctx? ctx with
  | none => s
  | some c =>
    if c.trace.block.isEmpty then s
    else
      let block := sealedBlock c c.trace.block
      let n := c.trace.block.length
      let seq := c.trace.blockSeq + 1
      let c := { c with trace := { c.trace with block := [], blockSeq := seq, on := c.trace.on && seq < 2 ^ 64 } }
      s.traceWrite c block n

/-- A trace record (R478) of a strand of a group. -/
structure TraceItem where
  kind : Nat
  spec : Bool
  launchSeq : Nat
  linear : Nat
  strand : Nat
  tag : Nat
  cluster : Nat
  addr : Nat

/-- A trace record posted, when trace is on for the context (R478-R480). -/
def State.tracePost (s : State) (ctx : Nat) (t : TraceItem) : State :=
  match s.ctx? ctx with
  | none => s
  | some c =>
    if !c.trace.on then s
    else
      let item := packFields
        [(1, t.kind), (1, if t.spec then 1 else 0), (2, c.id), (4, t.launchSeq), (4, t.linear), (1, t.strand), (1, t.tag)
         , (2, t.cluster), (8, (s.cluster t.cluster).cycles), (8, t.addr)]
      if c.conf then
        let s := s.setCtx { c with trace := { c.trace with block := c.trace.block ++ [item] } }
        if c.trace.block.length + 1 = 127 then s.traceSeal ctx else s
      else s.traceWrite c item 1

/-! ### Forks (R291, R293) -/

/-- A continuation removed, with its accesses, producers, buffer and slot; its owner keeps its own state, and its return entry no
longer trains (R291, R293). -/
def State.dropCont (s : State) (cid : Nat) : State :=
  { s with
    flight := s.flight.filter fun a => a.strand != cid
    prods := s.prods.filter fun p => p.strand != cid
    strands := (s.strands.filter fun x => x.id != cid).map fun x =>
      if x.forks.any fun f => f.cont == cid then
        { x with forks := x.forks.filter fun f => f.cont != cid
                 forkSaves := x.forkSaves ++ (match s.strand? cid with | some c => [c.ssa] | none => [])
                 rets := x.rets.map fun r => if r.fork == some cid then { r with fork := none, train := none } else r }
      else x }

/-- The identity of a strand in trace records, and the context (R478). -/
def State.traceOf (s : State) (st : Strand) (kind tag addr : Nat) : State :=
  match s.env? st with
  | none => s
  | some e =>
    match s.launch? e.launch, s.group? e.group with
    | some l, some g =>
      s.tracePost e.ctx { kind := kind, spec := st.cont.isSome, launchSeq := l.seq, linear := g.linear, strand := st.idx, tag := tag
                          cluster := st.clusterNo, addr := addr }
    | _, _ => s

/-- A fork squashed with a code of R289, up to the removal of its continuation (R291, R294). -/
def State.squash (s : State) (cid code : Nat) : State :=
  match s.strand? cid with
  | none => s
  | some c =>
    let s := s.traceOf c 6 code c.pc.toNat
    let s := match s.env? c with | some e => s.bump e.ctx 7 1 | none => s
    s.dropCont cid

/-- Every unresolved fork whose continuation satisfies `p` is squashed with code 6 (R293). -/
def State.squashWhere (s : State) (p : Strand → Bool) : State :=
  let ids := (s.strands.filter fun x => x.cont.isSome && p x).map (·.id)
  ids.foldl (fun t id => t.squash id 6) s

/-! ### Pre-emption requests (R333) -/

/-- The groups of a team. -/
def State.groupsOf (s : State) (team : Nat) : List Group := s.groups.filter fun g => g.team == team

/-- A group has ended: it is retiring, retired or faulted (R331). -/
def Group.ended (g : Group) : Bool := g.state == .retiring || g.state == .retired || g.state == .faulted

/-- A strand that waits to have a MAP trap delivered (R450). -/
def Strand.mapDue (x : Strand) : Bool := match x.state with | .trapped t => t.cause == 0x22 | _ => false

/-- Pre-emption of a running team requested: forks squashed, every group that has not ended pre-empting (R333, R334). A MAP trap that is still to be
delivered is taken back, and comes when the group runs again (R334). -/
def State.preempt (s : State) (team : Nat) : State :=
  match s.team? team with
  | none => s
  | some t =>
    if t.state != .running then s
    else
      let gs := (s.groupsOf team).map (·.id)
      let s := s.squashWhere fun x => gs.contains x.group
      let back := (s.strands.filter fun x => x.mapDue).map (·.group)
      { s with
        teams := s.teams.map fun x => if x.id == team then { x with state := .preempting } else x
        groups := s.groups.map fun g => if g.team == team && !g.ended then
          { g with state := .preempting, mapSeen := if back.contains g.id then g.mapSeen - 1 else g.mapSeen } else g
        strands := s.strands.map fun x => if gs.contains x.group || t.tile == some x.id then
          { x with runOn := 0, state := if x.mapDue then .ready else x.state } else x }

/-- The teams of a context. -/
def State.teamsOf (s : State) (ctx : Nat) : List Team :=
  s.teams.filter fun t => (s.launch? t.launch).map (·.ctx) == some ctx

/-! ### Writes of the hub that wait for a page (R202, R203) -/

/-- The write is an event. -/
def HubWrite.isEvent : HubWrite → Bool
  | .event _ _ => true
  | _ => false

/-- A write of the hub waits for its page. -/
def State.hubWait (s : State) (ctx : Nat) (w : HubWrite) : State :=
  { s with dev := { s.dev with waits := s.dev.waits ++ [{ ctx := ctx, write := w }] } }

/-- An out-of-frames event for a wait of a context, when none is outstanding for that die and those lists (R202). It is posted as the move
settles. -/
def State.postNoFrames (s : State) (ctx die : Nat) (pref : Bool) : State :=
  match s.ctx? ctx with
  | none => s
  | some c =>
    let lists := if c.conf then 0 else if pref then 1 else 2
    if c.oof.contains (die, lists) then s
    else (s.setCtx { c with oof := (die, lists) :: c.oof }).hubWait ctx (.event 4 (packFields [(4, die), (4, lists)]))

/-- The out-of-frames events of the pages that a wait found without a usable frame (R202). -/
def State.noteLack (s : State) (ctx : Nat) (pref : Bool) (pages : List Nat) : State :=
  pages.foldl (fun s p => s.postNoFrames ctx (homeOf (65536 * p)) pref) s

/-- A first touch of a page for a context through a window with that PREFHOST, with its out-of-frames event where no usable frame is free (R202). -/
def State.touchBy (s : State) (c : Ctx) (page : Nat) (pref : Bool) : State :=
  let s := s.touch page c.conf pref
  if s.pageReady page || (s.pte? page).isSome then s else s.postNoFrames c.id (homeOf (65536 * page)) pref

/-- Pages of a context, each with its PREFHOST, touched for an agent outside the cores; whether all of them may be accessed (R202, R203, R462,
R484). -/
def State.touchAll (s : State) (c : Ctx) (die : Nat) (pages : List (Nat × Bool)) : State × Bool :=
  let s := pages.foldl (fun s p => s.touchBy c p.1 p.2) s
  (s, pages.all fun p => s.pageReady p.1 && !s.unitHeld (65536 * p.1) && !s.pageTransferHeld die p.1)

/-- The pages of a range that no window names, touched with PREFHOST 0 (DESIGN CHOICE, log 117), and whether they may be accessed (R202, R203). -/
def State.readyRange (s : State) (c : Ctx) (lo len : Nat) : State × Bool :=
  match s.touchRange c.conf false lo len with
  | (s, true, _) => (s, true)
  | (s, false, lack) => (s.noteLack c.id false lack, false)

/-- Bytes that the hub writes for a context at an IA at system scope, at once where the pages are ready after a first touch; the second result
says that they were. -/
def State.hubBytes (s : State) (ctx ia : Nat) (conf pref : Bool) (data : List Byte) : State × Bool :=
  let (s, ok, lack) := s.touchRange conf pref ia data.length
  if ok then (s.homeWrite 1000 0 true ia data, true) else (s.noteLack ctx pref lack, false)

/-! ### Context faults and events (R431, R434, R438, R439) -/

/-- The counters of a context written to its save area (R435), or waiting for its page; none when that does not perform. -/
def State.saveCounters (s : State) (c : Ctx) : Option State :=
  if s.reachable c.ctxSave then
    let data := c.counters.toArray.toList.flatMap fun x => bytesLE 8 x.toNat
    match s.hubBytes c.id c.ctxSave c.conf false data with
    | (s, true) => some s
    | (s, false) => some (s.hubWait c.id (.bytes c.ctxSave c.conf false data))
  else none

/-- A team of the context has a member placed. -/
def State.anyPlaced (s : State) (ctx : Nat) : Bool :=
  (s.teamsOf ctx).any fun t => t.state == .running || t.state == .preempting

/-- A world switch away from the current context starts, and is counted (R432, R435); one that is under way goes on. -/
def State.startSwitch (s : State) (ctx : Nat) : State :=
  if s.dev.current == some ctx && !s.dev.switching then ({ s with dev := { s.dev with switching := true } }).bump ctx 9 1 else s

/-- What entry to suspended or faulted does to a context's work (R431): forks squashed, teams pre-empted. -/
def State.quiesce (s : State) (ctx : Nat) : State :=
  let ts := (s.teamsOf ctx).map (·.id)
  let gs := (s.groups.filter fun g => ts.contains g.team).map (·.id)
  ts.foldl State.preempt (s.squashWhere fun x => gs.contains x.group)

/-- A wait or a signal (R313). -/
def Fetched.waits (f : Fetched) : Bool := f.bytes.headD 0 == 2 || f.bytes.headD 0 == 3

/-- A wait or signal that still waits is abandoned: it writes nothing and posts no completion (R318). -/
def Queue.abandon (q : Queue) : Queue :=
  match q.fetched with
  | some f => if f.waits then { q with fetched := none, running := q.running.erase f.index } else q
  | none => q

/-- Queues of a context disabled; waits and signals that still wait are abandoned, and unstarted entries stay unread (R318). -/
def Ctx.disableQueues (c : Ctx) : Ctx :=
  { c with queues := c.queues.map fun q => { q.abandon with enable := false, state := .disabled } }

/-- A context faults, without an event (R434, R431): cause code of its fault word. -/
def State.contextFault (s : State) (ctx cause : Nat) : State :=
  match s.ctx? ctx with
  | none => s
  | some c =>
    if c.state == .faulted || c.state == .destroyed then s
    else
      let s := s.setCtx { c.disableQueues with state := .faulted, fault := some cause, grace := none, suspendWaits := none
                                               saveDue := s.anyPlaced ctx }
      let s := ((s.startSwitch ctx).quiesce ctx).traceSeal ctx
      match s.ctx? ctx with
      | none => s
      | some c => (s.saveCounters c).getD s

/-- The slot of an event (R438). -/
def eventSlot (type seq version : Nat) (body : List Byte) : List Byte :=
  packFields [(1, type), (3, 0), (4, seq), (8, version)] ++ List.replicate 48 0 ++ (List.range 64).map fun i => body.getD i 0

/-- An event written to a context's event queue, TAIL advanced and the function signalled, or dropped where the ring is full (R438, R439). A
write that does not translate or perform faults the context (R434). The second result is false where the write waits for its page. The event carries
the map version of the moment it is posted (R438). -/
def State.postNow (s : State) (ctx type : Nat) (body : List Byte) : State × Bool :=
  match s.ctx? ctx with
  | none => (s, true)
  | some c =>
    if c.fault == some 1 then (s, true)
    else if (c.eqTail - c.eqHead).toNat = 2 ^ c.eqSize then
      (s.setCtx { (c.bump 10 1) with eqSeq := c.eqSeq + 1 }, true)
    else
      let va := c.eqBase.toNat + 128 * (c.eqTail.toNat % 2 ^ c.eqSize)
      match s.vtouch c va 128 with
      | (s, false, lack, pref) => (s.noteLack ctx pref lack, false)
      | (s, true, _, _) => match s.vwrite c va (eventSlot type c.eqSeq.toNat s.version.toNat body) with
        | none => (s.contextFault ctx 1, true)
        | some s =>
          let s := s.setCtx { c with eqTail := c.eqTail + 1, eqSeq := c.eqSeq + 1 }
          ({ s with dev := { s.dev with replies := s.dev.replies ++ [.msix c.func (Config.msixVector c.func c.slot % 64)] } }, true)

/-- An event of a context waits, and those that arise later wait behind it (R439). -/
def State.eventsWait (s : State) (ctx : Nat) : Bool := s.dev.waits.any fun w => w.ctx == ctx && w.write.isEvent

/-- An event posted to a context's event queue (R438, R439): its type and body. -/
def State.post (s : State) (ctx type : Nat) (body : List Byte) : State :=
  if s.eventsWait ctx then s.hubWait ctx (.event type body)
  else match s.postNow ctx type body with
    | (t, true) => t
    | (t, false) => { t with dev := { t.dev with
                      waits := s.dev.waits ++ { ctx := ctx, write := .event type body } :: t.dev.waits.drop s.dev.waits.length } }

/-- Code of a context state (R438). -/
def CState.code : CState → Nat
  | .built => 0 | .runnable => 1 | .running => 2 | .saved => 3 | .suspended => 4 | .faulted => 5 | .destroyed => 6

/-- A context takes a new state and posts the change with its cause (R438). -/
def State.ctxTo (s : State) (ctx : Nat) (st : CState) (cause : Nat) : State :=
  match s.ctx? ctx with
  | none => s
  | some c =>
    let s := s.setCtx { c with state := st }
    s.post ctx 5 (packFields [(4, c.state.code), (4, st.code), (4, cause)])

/-- A context faults and, where its event queue has not failed, posts the change (R434, R438). -/
def State.faultCtx (s : State) (ctx cause : Nat) : State :=
  match s.ctx? ctx with
  | none => s
  | some c =>
    if c.state == .faulted || c.state == .destroyed then s
    else
      let s := s.contextFault ctx cause
      if cause = 1 then s else s.post ctx 5 (packFields [(4, c.state.code), (4, 5), (4, 3)])

/-- An event of PMCFG's list counted `k` times for a context (R473), with the overflow event of R474. -/
def State.count (s : State) (ctx ev k : Nat) : State :=
  match s.ctx? ctx with
  | none => s
  | some c =>
    (List.range 5).foldl (fun t i =>
      let n := 11 + i
      let w := vget c.select n 0
      let ob := (w.extractLsb' 16 6).toNat
      if (w.extractLsb' 0 16).toNat = ev && !c.claimed.contains n then
        let old := (vget c.counters n 0).toNat
        let t := t.bump ctx n k
        if 16 ≤ ob then
          (List.range ((old + k) / 2 ^ ob - old / 2 ^ ob)).foldl (fun (t : State) i =>
            t.post ctx 6 (packFields [(4, n), (4, ev), (8, (old / 2 ^ ob + 1 + i) * 2 ^ ob % 2 ^ 64)])) t
        else t
      else t) s

/-! ### Frames, first touch and leases (R200-R203) -/

/-- A lease of a page taken; none while the page waits for a frame or is being moved (R201-R203). -/
def State.lease (s : State) (page : Nat) (conf pref : Bool) : Option State :=
  if 4 ≤ homeOf (65536 * page) then some s
  else
    let s := s.touch page conf pref
    match s.pte? page with
    | some p => if p.state = 3 then none else some (s.setPte { p with leases := p.leases + 1, state := 2 })
    | none => none

/-- A lease of a page released (R203). -/
def State.unlease (s : State) (page : Nat) : State :=
  match s.pte? page with
  | some p => if p.leases ≤ 1 then s.setPte { p with leases := 0, state := if p.state = 2 then 1 else p.state }
              else s.setPte { p with leases := p.leases - 1 }
  | none => s

/-- The pages a virtual range reaches through the context's windows, with the PREFHOST of the window (R201, R202). -/
def Ctx.rangePages (c : Ctx) (va len : Nat) : List (Nat × Bool) :=
  if len = 0 then []
  else
    (List.range ((va + len - 1) / 65536 - va / 65536 + 1)).filterMap fun i =>
      (c.translate (65536 * (va / 65536 + i))).map fun t => (pageOf t.2.2, t.2.1.prefhost)

/-- The pages of a group's lease set (R201): the launch's, with the counter page and the map page where mapped, and its stack area. -/
def State.leaseSet (s : State) (e : Env) : List Nat :=
  let l := match s.launch? e.launch with | some l => l.pages | none => []
  let t := match s.team? e.team with
    | some t => (t.leases.filter fun p => p.1 == e.group).flatMap (·.2)
    | none => []
  l ++ t

/-! ### Queue completions (R315, R318) -/

/-- A status halts its queue (R315). -/
def haltsQueue (status : Nat) : Bool := 1 ≤ status && status ≤ 7

/-- A completion record (R315). -/
def completion (s : State) (status res faulted : Nat) : List Byte :=
  packFields [(1, status), (1, res), (2, 0), (4, faulted), (8, s.version.toNat)]

/-- A queue of a context changed. -/
def State.mapQueue (s : State) (ctx q : Nat) (f : Queue → Queue) : State :=
  match s.ctx? ctx with
  | some c => s.setCtx (c.setQueue (f (c.queue q)))
  | none => s

/-- A completion record written at a virtual address: none where it does not translate with W, else the state and whether it was written or
waits for its page. -/
def State.recordAt (s : State) (c : Ctx) (va : Nat) (data : List Byte) : Option (State × Bool) :=
  match s.vtouch c va 16 with
  | (t, false, lack, pref) => some (t.noteLack c.id pref lack, false)
  | (t, true, _, _) => (t.vput c va data).map fun u => (u, true)

/-- A completion record written in DONE where one is given and takes it, else in the completion ring, else lost; its entry is no longer running
(R315). The second result is false where the write waits for its page. -/
def State.recordNow (s : State) (ctx q index : Nat) (done : Option Nat) (data : List Byte) : State × Bool :=
  match s.ctx? ctx with
  | none => (s, true)
  | some c =>
    let qu := c.queue q
    let r := match done.bind fun d => s.recordAt c d data with
      | some r => r
      | none => (s.recordAt c (qu.cdone.toNat + 16 * (index % 2 ^ qu.qsize)) data).getD (s, true)
    if r.2 then (r.1.mapQueue ctx q fun x => { x with running := x.running.erase index }, true) else r

/-- An entry of a queue completes: its record is written or waits, and the queue halts on a halting status, with a queue event (R315, R318). -/
def State.complete (s : State) (ctx q index : Nat) (done : Option Nat) (status res faulted : Nat) : State :=
  let data := completion s status res faulted
  let s := match s.recordNow ctx q index done data with
    | (s, true) => s
    | (s, false) => s.hubWait ctx (.record q index done data)
  if haltsQueue status then
    (s.mapQueue ctx q fun x => if x.state == .disabled then x else { x with state := .halted }).post ctx 3
      (packFields [(4, q), (4, status), (4, index)])
  else s

/-- A waiting write of the hub tried again; none while it still waits. An event waits behind an earlier one of its context. -/
def State.retryWait (s : State) (w : HubWait) : Option State :=
  let t := { s with dev := { s.dev with waits := s.dev.waits.erase w } }
  let out := match w.write with
    | .bytes ia conf pref data => t.hubBytes w.ctx ia conf pref data
    | .event type body =>
      if (s.dev.waits.find? fun (x : HubWait) => x.ctx == w.ctx && x.write.isEvent) == some w then t.postNow w.ctx type body else (t, false)
    | .record q index done data => t.recordNow w.ctx q index done data
  if out.2 then some out.1 else none

/-- The waiting writes of the hub that can go on (R202, R203). -/
def State.drainWaits (s : State) : State := s.dev.waits.foldl (fun s w => (s.retryWait w).getD s) s

/-! ### The end of groups, teams and launches (R330, R331) -/

/-- Number of teams of a launch (R319). -/
def Launch.teamCount (l : Launch) : Nat := l.gx * l.gy * l.gz

/-- A kernel that is to be unloaded goes when no launch uses it (R306). -/
def State.dropKernel (s : State) (ctx base : Nat) : State :=
  { s with kernels := s.kernels.filter fun k => !(k.ctx == ctx && k.base == base && k.unloading && k.uses == 0) }

/-- A launch whose teams have all ended, or that failed its recheck and has no placed team left, completes (R315, R317). -/
def State.settleLaunch (s : State) (lid : Nat) : State :=
  match s.launch? lid with
  | none => s
  | some l =>
    let live := s.teams.any fun t => t.launch == lid
    let all := l.endedTeams = l.teamCount
    if live || !(all || l.failed.isSome) then s
    else
      let s := l.owns.foldl State.unlease s
      let s := { s with launches := s.launches.filter fun x => x.id != lid }
      let s := match s.kernel? l.ctx l.kernel with
        | some k => (s.setKernel { k with uses := k.uses - 1 }).dropKernel l.ctx l.kernel
        | none => s
      match l.failed with
      | some r => s.complete l.ctx l.q l.index (some l.done.toNat) 1 r l.faulted
      | none => s.complete l.ctx l.q l.index (some l.done.toNat) (if l.faulted = 0 then 0 else 8) 0 l.faulted

/-- A running context with no group placed becomes runnable (R430); one that a world switch takes away is left to it (R432). -/
def State.settleCtx (s : State) (ctx : Nat) : State :=
  match s.ctx? ctx with
  | none => s
  | some c =>
    let placed := (s.teamsOf ctx).any fun t =>
      (s.groupsOf t.id).any fun g => !g.ended && !g.away
    if c.state == .running && !placed && !(s.dev.switching && s.dev.current == some ctx) then (s.setCtx { c with state := .runnable, grace := none }).traceSeal ctx else s

/-- A team whose groups have all ended and whose tile strand has exited is retired: its scratchpads, save areas, stacks and leases are
released (R330, R331). -/
def State.settleTeam (s : State) (tid : Nat) : State :=
  match s.team? tid with
  | none => s
  | some t =>
    let gs := s.groupsOf tid
    let tileDone := match t.tile with
      | none => true
      | some x => match s.strand? x with | some st => st.state == .exited | none => !t.tileAway
    -- started copies complete before a scratchpad is freed (R384), and the accesses of the team are performed before what follows its end
    let copies := s.copies.any fun k => (gs.any fun g => g.id == k.group || g.id == k.srcGroup || g.id == k.dstGroup)
    if copies || (s.flight.any fun a => a.team == tid) || !(gs.all Group.ended && tileDone) then s
    else
      -- the completion record is a release at system scope of all that the launch did (R244, R315, DEDUCED, log 99)
      let agents := ((gs.filter fun g => !g.away).map (·.core)) ++ if t.tile.isSome then [mccAgent t.cluster] else []
      let s := agents.foldl (fun (s : State) c => s.l1Release c .system) s
      let s := (t.leases.flatMap (·.2)).foldl State.unlease s
      let s := { s with
                 strands := s.strands.filter fun x => t.tile != some x.id
                 groups := s.groups.filter fun g => g.team != tid
                 teams := s.teams.filter fun x => x.id != tid }
      let s := match s.cluster t.cluster with
        | c => if t.tile.isSome then
            s.setCluster { c with pbands := c.pbands.filter fun b => some b.owner != t.tile
                                  tasks := c.tasks.filter fun k => some k.strand != t.tile } else s
      match s.launch? t.launch with
      | none => s
      | some l => ((s.setLaunch { l with endedTeams := l.endedTeams + 1 }).settleLaunch l.id).settleCtx l.ctx

/-- The strands of a group removed: slots and slabs are free, forks gone, producers dropped (R331). -/
def State.freeStrands (s : State) (gid : Nat) : State :=
  let ids := (s.strands.filter fun x => x.group == gid && !x.tile).map (·.id)
  { s with
    strands := s.strands.filter fun x => !(ids.contains x.id)
    prods := s.prods.filter fun p => !(ids.contains p.strand)
    flight := s.flight.filter fun a => !(ids.contains a.strand && a.spec) }

/-- A group with every strand exited retires (R331). -/
def State.retireGroup (s : State) (gid : Nat) : State :=
  match s.group? gid with
  | none => s
  | some g =>
    let s := (s.freeStrands gid).setGroup { g with state := .retiring }
    let s := s.settleTeam g.team
    match s.team? g.team with
    | some t => match s.launch? t.launch with | some l => s.settleCtx l.ctx | none => s
    | none => s

/-! ### Group barriers (R345-R347) -/

/-- The strands of a group that have not exited, as a mask of strand indices (R345). -/
def State.alive (s : State) (gid : Nat) : Mask :=
  Mask.of fun i => s.strands.any fun x => x.group == gid && !x.tile && x.cont.isNone && x.idx == i && x.state != .exited

/-- A barrier's arrivals are complete (R347). -/
def Bar.complete (b : Bar) (alive : Mask) : Bool := b.arr != 0 && alive &&& ~~~b.arr == 0

/-- A barrier completes its phase when its arrivals are complete: the strands blocked at it, but for the one that is issuing, move past
their BAR, an X96 form, which counts as issued (R347, R473). -/
def State.checkBar (s : State) (gid n me : Nat) : State :=
  match s.group? gid with
  | none => s
  | some g =>
    let b := vget g.bars n {}
    if b.complete (s.alive gid) then
      let s := s.setGroup { g with bars := vset g.bars n { phase := b.phase + 1, arr := 0 } }
      let moves := fun (x : Strand) => x.group == gid && x.id != me && x.state == .blocked (.bar n)
      let past := s.strands.filter moves
      let s := { s with strands := s.strands.map fun x =>
                   if moves x then { x with pc := x.pc + 12, state := .ready, restored := false } else x }
      past.foldl (fun s x => match s.env? x with | some e => s.count e.ctx 1 1 | none => s) s
    else s

/-- A tile strand owns no band any more: its physical bands are gated (R397, R398). -/
def State.releaseBands (s : State) (tile : Nat) : State :=
  { s with
    clusters := s.clusters.map fun c => { c with pbands := c.pbands.filter fun b => b.owner != tile }
    strands := s.strands.map fun x => if x.id == tile then { x with bands := [] } else x }

/-- A tile strand has tasks that wait or are issued. -/
def State.tasksOpen (s : State) (tile : Nat) : Bool :=
  s.clusters.any fun c => c.tasks.any fun k => k.strand == tile && (k.state == .waiting || k.state == .issued)

/-- A strand with no live lane and no producer in flight exits (R177): its group's barriers are checked, and the last of a group
retires it. -/
def State.strandExit (s : State) (id : Nat) : State :=
  match s.strand? id with
  | none => s
  | some st =>
    if st.live != 0 || st.state == .exited || st.cont.isSome || (s.prods.any fun p => p.strand == id) || s.tasksOpen id then s
    else
      let s := s.setStrand { st with state := .exited }
      match s.group? st.group with
      | none => s
      | some g =>
        if st.tile then (s.releaseBands id).settleTeam g.team
        else
        let s := (List.range 16).foldl (fun s n => s.checkBar g.id n 0) s
        if s.strands.all fun x => x.group != g.id || x.tile || x.state == .exited then s.retireGroup g.id
        else s

/-- A fault record (R208) with what a confidential context hides (R436). -/
def faultRecord (s : State) (conf : Bool) (code kind : Nat) (g : Group) (st : Strand) (addr : Nat) (lanes : Mask) (detail : Word)
    (va ia : Nat) : List Byte :=
  let core := if st.tile then 0x1000 + st.core else st.core
  packFields [(4, code + 256 * kind), (4, g.linear), (8, if conf then 0 else addr), (8, if conf then 0 else va)
              , (8, if conf then 0 else ia), (4, lanes.toNat), (4, if conf then 0 else detail.toNat), (8, s.version.toNat)
              , (4, core), (4, st.idx), (8, 0)]

/-- A tile strand stopped by a fault; another strand is not its concern. It keeps its bands and its tasks until its team ends or is saved (DESIGN CHOICE,
log 127). -/
def State.stopTile (s : State) (st : Strand) : State :=
  if st.tile then
    { s with strands := s.strands.map fun x => if x.id == st.id then { x with state := .exited, live := 0 } else x
             prods := s.prods.filter fun p => p.strand != st.id }
  else s

/-- A group faults (R331, R332): its strands stop, the record is posted, slots, slabs, stacks and leases are freed. For a tile strand
the fault is that of group 0 of its team. -/
def State.groupFault (s : State) (st : Strand) (kind code : Nat) (addr : Nat) (lanes : Mask) (detail : Word) (va ia : Nat) : State :=
  match s.group? st.group, s.env? st with
  | some g, some e =>
    if g.ended then
      -- a fault of the tile strand after its group has ended is reported all the same (R208, DEDUCED, log 100)
      let s := s.post e.ctx 1 (faultRecord s e.conf code kind g st addr lanes detail va ia)
      let s := s.stopTile st
      let s := if g.state == .faulted then s else
        match s.launch? e.launch with
        | some l => ((s.bump e.ctx 1 1).setGroup { g with state := .faulted, faulted := true }).setLaunch { l with faulted := l.faulted + 1 }
        | none => s
      s.settleTeam g.team
    else
      let s := s.squashWhere fun x => x.group == g.id
      let s := s.post e.ctx 1 (faultRecord s e.conf code kind g st addr lanes detail va ia)
      let s := s.bump e.ctx 1 1
      let s := s.freeStrands g.id
      let s := s.stopTile st
      let s := s.setGroup { g with state := .faulted, faulted := true }
      let s := match s.team? g.team with
        | some t =>
          let mine := (t.leases.filter fun (p : Nat × List Nat) => p.1 == g.id).flatMap Prod.snd
          (mine.foldl State.unlease s).setTeam { t with leases := t.leases.filter fun p => p.1 != g.id }
        | none => s
      let s := match s.launch? e.launch with
        | some l => s.setLaunch { l with faulted := l.faulted + 1 }
        | none => s
      (s.settleTeam g.team).settleCtx e.ctx
  | _, _ => s

end Sys2Proof.Machine
end

