-- ==== Sys2Proof/Machine/Ops.lean ====
section
/-!
DEFINITION. The named operations of an instruction: the registers with their shapes, slabs and full/empty bits (R86-R112), taking a
trap and returning from one (R179-R183, R461), and the evaluation of one instruction of a strand (R154, R155, R57).
-/

namespace Sys2Proof.Machine

/-! ### The job of one instruction -/

/-- An instruction's form: what its fields must satisfy, the fields, LEN, and word 0, which some traps report (R181). -/
structure Form where
  enc : Enc
  x : X96
  len : Nat
  word : Word
  /-- The limits on a literal hold. -/
  litOk : Bool := true

/-- The B32 form (R40). -/
def Form.b32 (e : Enc) (o : W0) : Form := { enc := e, x := e.expand o, len := 0, word := o.toWord e.op 0 }

/-- The X96 form. -/
def Form.x96 (e : Enc) (x : X96) : Form := { enc := e, x := x, len := 2, word := x.w0.toWord e.op 2 }

/-- The BL form. -/
def Form.bl (e : Enc) (o : BL) (ok : Bool) : Form :=
  { enc := e, x := e.expand o.w0, len := 1, word := o.w0.toWord e.op 1, litOk := ok }

/-- The XL form. -/
def Form.xl (e : Enc) (o : XL) (ok : Bool) : Form := { enc := e, x := o.x, len := 3, word := o.x.w0.toWord e.op 3, litOk := ok }

/-- The B32-J form (R37). -/
def Form.j (e : Enc) (o : J) : Form :=
  { enc := e, x := {}, len := 0, word := o.off ++ BitVec.ofNat 7 e.op ++ BitVec.ofNat 2 0 }

/-- Byte count of a form (R34). -/
def Form.size (f : Form) : Nat := 4 * wordsOfLen f.len

/-- The k register of the predicate: ISEL, BR and BRU use K otherwise, and their M is the path mask (R131, R159). -/
def Form.pred (f : Form) : Nat :=
  if f.enc.op = 0x13 || f.enc.op = 0x52 || f.enc.op = 0x53 then 0 else f.x.w0.k.toNat

/-- Why an instruction does not complete. -/
inductive Stop where
  /-- It blocks, with no effect yet (R155). -/
  | block (b : Block)
  /-- It waits for a page: one that is not placed waits for a frame, which an out-of-frames event reports (R202, R203). -/
  | page (page : Nat) (pref : Bool)
  /-- It blocks and keeps what it has done: a phaser wait that is held, a sleep that has started, a charge request. -/
  | hold (b : Block)
  /-- A precise trap; the instruction has no effect (R180). -/
  | trap (t : TrapInfo)
  /-- A trap before which something has happened and stays: SPILL (R102), or a task's fault that is delivered (R404). -/
  | spill (t : TrapInfo)
  /-- A group fault. -/
  | group (f : GFault)
  /-- A fork continuation stalls (R286). -/
  | stall

/-- An instruction under evaluation: the state around its strand, the strand itself, and what is known of both. -/
structure Job where
  s : State
  st : Strand
  e : Env
  f : Form
  /-- v registers that are held against being spilled (R100). -/
  hold : List Nat := []
  /-- The instruction names more than four v registers and takes them in stages (R100). -/
  staged : Bool := false
  /-- The instruction has set the pc itself. -/
  jumped : Bool := false
  /-- A fault that a continuation recorded, raised once its commit is done (R290). -/
  after : Option ContFault := none
  /-- The state and the strand that the instruction found, with its spills and reloads alone: what a SPILL trap keeps (R102). -/
  s0 : State
  st0 : Strand
  /-- The strand's state as the evaluation began (R154). -/
  was : SState

/-- Evaluations: a job to a result and a job, or to a stop. -/
abbrev M := EStateM Stop Job

/-- The strand changed. -/
def upd (f : Strand → Strand) : M Unit := modify fun j => { j with st := f j.st }

/-- The state around the strand changed. -/
def updS (f : State → State) : M Unit := modify fun j => { j with s := f j.s }

/-- State and strand changed, in what a SPILL trap keeps as well (R102, R404). -/
def updKept (f : State → State) (g : Strand → Strand) : M Unit := modify fun j =>
  { j with s := f j.s, st := g j.st, s0 := f j.s0, st0 := g j.st0 }

/-- The state as a whole changed, the strand with it. -/
def updAll (f : State → State) : M Unit := modify fun j =>
  let s := f (j.s.setStrand j.st)
  { j with s := s, st := (s.strand? j.st.id).getD j.st }

/-! ### Register sets -/

/-- A set with v[n]. -/
def RegSet.addV (r : RegSet) (n : Nat) : RegSet := { r with v := setBit r.v n }
/-- A set with b[n]. -/
def RegSet.addB (r : RegSet) (n : Nat) : RegSet := { r with b := setBit r.b n }
/-- A set with k[n]. -/
def RegSet.addK (r : RegSet) (n : Nat) : RegSet := { r with k := setBit r.k n }
/-- A set with j[n]. -/
def RegSet.addJ (r : RegSet) (n : Nat) : RegSet := { r with j := setBit r.j n }

/-- A register file and number, for the sets of R283 and the detector (R311). -/
inductive RegId where
  | v (n : Nat) | b (n : Nat) | k (n : Nat) | j (n : Nat) | sr
  deriving DecidableEq, Repr

/-- The set holds the register. -/
def RegSet.has (r : RegSet) : RegId → Bool
  | .v n => r.v.getLsbD n
  | .b n => r.b.getLsbD n
  | .k n => r.k.getLsbD n
  | .j n => r.j.getLsbD n
  | .sr => r.sr

/-- The set with the register. -/
def RegSet.add (r : RegSet) : RegId → RegSet
  | .v n => r.addV n
  | .b n => r.addB n
  | .k n => r.addK n
  | .j n => r.addJ n
  | .sr => { r with sr := true }

/-- The set without the register. -/
def RegSet.del (r : RegSet) : RegId → RegSet
  | .v n => { r with v := r.v &&& ~~~(BitVec.ofNat 64 (2 ^ n)) }
  | .b n => { r with b := r.b &&& ~~~(BitVec.ofNat 16 (2 ^ n)) }
  | .k n => { r with k := r.k &&& ~~~(BitVec.ofNat 8 (2 ^ n)) }
  | .j n => { r with j := r.j &&& ~~~(BitVec.ofNat 8 (2 ^ n)) }
  | .sr => { r with sr := false }

/-- The detector's code of a register: file and index (R311). -/
def RegId.code : RegId → Nat
  | .v n => n
  | .b n => 64 + n
  | .k n => 128 + n
  | .j n => 192 + n
  | .sr => 0

/-- Return set bit of a register (R271): v0 to v3 and b0. -/
def inReturnSet (ret : BitVec 5) : RegId → Bool
  | .v n => n < 4 && ret.getLsbD n
  | .b n => n = 0 && ret.getLsbD 4
  | _ => false

/-! ### Traps and stops -/

/-- The effective mask of the instruction (R159). -/
def Strand.mask (st : Strand) (k : Nat) : Mask := st.path &&& (if k = 0 then BitVec.allOnes 32 else vget st.k k 0)

/-- A precise trap of the instruction at the pc (R181). -/
def trapWith {α : Type} (cause : Nat) (detail : Word) (lanes : Mask) (va : Nat := 0) : M α := do
  let j ← get
  throw (.trap { cause := cause, addr := j.st.pc, lanes := lanes, detail := detail, va := va })

/-! ### The hazard detector (R310, R311) -/

/-- The detector watches the kernel (R310); a confidential context's kernels ignore DEBUG (R436). -/
def Env.debug (e : Env) : Bool := e.hdr.flags % 2 = 1 && !e.conf

/-- A hazard record posted, or counted beyond the 256th of its group (R311). -/
def State.hazard (s : State) (st : Strand) (e : Env) (kind detail ia : Nat) : State :=
  if e.debug then
    match s.group? e.group with
    | none => s
    | some g =>
      if 256 ≤ g.hazards then s.bump e.ctx 10 1
      else (s.setGroup { g with hazards := g.hazards + 1 }).post e.ctx 2
        (packFields [(1, kind), (3, 0), (4, g.linear), (8, st.pc.toNat), (4, st.idx), (4, detail), (8, ia)])
  else s

/-- A hazard of the instruction. -/
def hazard (kind detail ia : Nat) : M Unit := do
  let j ← get
  if j.e.debug then updAll fun s => s.hazard j.st j.e kind detail ia else pure ()

/-- The bit of a class (R372). -/
def Cls.bit : Cls → Nat
  | .v => 1 | .c => 2 | .m => 4 | .h => 8

/-- The classes of a set of bits (R375). -/
def Cls.ofBits (n : Nat) : List Cls := [Cls.v, .c, .m, .h].filter fun k => n / k.bit % 2 = 1

/-- The address that a hazard record gives for a sector: its IA, or its offset in its scratchpad, which has no IA (R310, DESIGN CHOICE, log 96). -/
def Sector.addr : Sector → Nat
  | .global n => 32 * n
  | .scratch _ n => 32 * n

/-- Sectors accessed by a class for a strand's group: the detector's kind 2, once for each other class that has accessed the sector with
neither fence nor handoff since (R311). -/
def State.touchClass (s : State) (st : Strand) (e : Env) (cls : Cls) (secs : List Sector) : State :=
  if e.debug then
    secs.foldl (fun s sec =>
      match s.group? e.group with
      | none => s
      | some g =>
        let others := g.touched.filter fun t => t.sector == sec && t.cls != cls && !t.fenced.contains cls
        let s := others.foldl (fun (s : State) t => s.hazard st e 2 (t.cls.bit + 16 * cls.bit) sec.addr) s
        match s.group? e.group with
        | some g => s.setGroup { g with
            touched := { sector := sec, cls := cls } :: g.touched.filter fun t => !(t.sector == sec && t.cls == cls) }
        | none => s) s
  else s

/-- A fence or a ring handoff that names classes (R311 kind 2). -/
def State.fenceClasses (s : State) (e : Env) (bits : Nat) : State :=
  if e.debug then
    match s.group? e.group with
    | none => s
    | some g =>
      let cs := Cls.ofBits bits
      s.setGroup { g with touched := g.touched.map fun t => if cs.contains t.cls then { t with fenced := t.fenced ++ cs } else t }
  else s

/-! ### What reads and writes leave behind (R283, R311) -/

/-- A register counts as read by a continuation: its read set, and its stall on the declared write set (R283). -/
def noteUse (r : RegId) : M Unit := do
  let j ← get
  match j.st.cont with
  | some c =>
    match r with
    | .v n =>
      if c.wset.getLsbD n && !inReturnSet c.ret r then throw .stall
      if !c.wrote.has r then upd fun st => { st with cont := some { c with read := c.read.add r } }
    | _ => if !c.wrote.has r then upd fun st => { st with cont := some { c with read := c.read.add r } }
  | none => pure ()

/-- A precise trap whose lane mask is M, or the path mask when M is empty (R181); an access gives its address too (R208). The predicate that gives
M counts as read (R283). -/
def trapM {α : Type} (cause : Nat) (detail : Word) (va : Nat := 0) : M α := do
  if (← get).f.pred != 0 then noteUse (.k (← get).f.pred)
  let j ← get
  let m := j.st.mask j.f.pred
  trapWith cause detail (if m = 0 then j.st.path else m) va

/-- ILLEGAL raised by an entry: the detail word is word 0 (R181). -/
def illegal {α : Type} : M α := do
  let j ← get
  trapM 0x01 j.f.word

/-- SHAPE-BASE: the detail word is the number of the first non-U source (R181). -/
def shapeBase {α : Type} (n : Nat) : M α := trapM 0x07 (BitVec.ofNat 32 n)

/-- A register is read: by a continuation (R283), and for the detector (R311). -/
def noteRead (r : RegId) : M Unit := do
  noteUse r
  let j ← get
  if j.st.dead.has r then hazard 1 r.code 0

/-- A register is written under a non-empty mask; `full` when no lane of its old contents is left. -/
def Strand.noteWrite (st : Strand) (r : RegId) (full : Bool) : Strand :=
  { st with
    cont := st.cont.map fun c => { c with wrote := c.wrote.add r }
    forks := st.forks.map fun f => { f with wrote := f.wrote.add r }
    dead := if full then st.dead.del r else st.dead }

/-- The detector's kind 5 for a write (R311); a partial write is a read as well, which has its kind 1 from noteRead. -/
def noteHazards (r : RegId) : M Unit := do
  let j ← get
  match r with
  | .v n =>
    match j.st.rets.find? fun e => e.wset.isSome with
    | some e => if !((e.wset.getD 0).getLsbD n) && !(j.st.cont.isSome) then hazard 5 n 0 else pure ()
    | none => pure ()
  | _ => pure ()

/-! ### k, b and j registers (R86, R87, R125) -/

/-- k[n]; k0 reads as all ones (R86). -/
def getK (n : Nat) : M Mask := do
  if n = 0 then pure (BitVec.allOnes 32)
  else
    noteRead (.k n)
    let j ← get
    pure (vget j.st.k n 0)

/-- The effective mask M of the instruction (R159). -/
def effMask : M Mask := do
  let j ← get
  let k ← getK j.f.pred
  pure (j.st.path &&& k)

/-- k[n] written under M (R125). -/
def Strand.kwrite (st : Strand) (n : Nat) (r m : Mask) : Strand :=
  if m = 0 then st
  else { (st.noteWrite (.k n) (m == BitVec.allOnes 32)) with k := vset st.k n ((vget st.k n 0 &&& ~~~m) ||| (r &&& m)) }

/-- kwrite (R125); bits outside M count as read (R283). -/
def kwrite (n : Nat) (r m : Mask) : M Unit := do
  if m = 0 then pure ()
  else
    if m != BitVec.allOnes 32 then noteRead (.k n)
    noteHazards (.k n)
    upd fun st => st.kwrite n r m

/-- b[n]. -/
def getB (n : Nat) : M DWord := do
  noteRead (.b n)
  let j ← get
  pure (vget j.st.b n 0)

/-- b[n] with a value written. -/
def Strand.bwrite (st : Strand) (n : Nat) (x : DWord) : Strand := { (st.noteWrite (.b n) true) with b := vset st.b n x }

/-- b[n] written under M (R87). -/
def setB (n : Nat) (x : DWord) (m : Mask) : M Unit := do
  if m = 0 then pure () else upd fun st => st.bwrite n x

/-- j[n]. -/
def getJ (n : Nat) : M JReg := do
  noteRead (.j n)
  let j ← get
  pure (vget j.st.j n {})

/-- j[n] with a value written. -/
def Strand.jwrite (st : Strand) (n : Nat) (x : JReg) : Strand := { (st.noteWrite (.j n) true) with j := vset st.j n x }

/-! ### Shapes (R90-R95) -/

/-- A value on its way to a v register: U, A or per-lane (R90, R91). -/
inductive Val where
  | u (x : Word)
  | a (base stride : Word)
  | v (lanes : Lanes)
  deriving DecidableEq, Repr

/-- The affine value, with a stride of 0 made uniform (R90). -/
def Val.affine (base stride : Word) : Val := if stride = 0 then .u base else .a base stride

/-- Lane values of an affine sequence (R90). -/
def affineLanes (base stride : Word) : Lanes := Lanes.tab fun i => base + BitVec.ofNat 32 i * stride

/-- The lane values of a value. -/
def Val.lanes : Val → Lanes
  | .u x => Lanes.const x
  | .a b s => affineLanes b s
  | .v l => l

/-- v[n] of a strand. -/
def Strand.reg (st : Strand) (n : Nat) : VReg := vget st.v n {}

/-- The strand with v[n] replaced. -/
def Strand.setReg (st : Strand) (n : Nat) (r : VReg) : Strand := { st with v := vset st.v n r }

/-- The content of v[n] as a value: lanes of a V-spilled register come from the vector area (R90, R106). -/
def Strand.val (st : Strand) (n : Nat) : Val :=
  match (st.reg n).shape with
  | .u x => .u x
  | .a b s => .a b s
  | .v l _ => .v l
  | .spilled => .v (vget st.vecArea n (Lanes.const 0))

/-- Shape code (R117). -/
def Shape.code : Shape → Nat
  | .u _ => 0
  | .a _ _ => 1
  | _ => 2

/-- Lane by lane: the new value where M has the lane, else the old (R93). -/
def mergeLanes (old new : Lanes) (m : Mask) : Lanes := Lanes.tab fun i => if m.has i then new.get i else old.get i

/-- v[n] moved to the end of the order of last writes (R98). -/
def Strand.wroteLast (st : Strand) (n : Nat) : Strand := { st with order := st.order.erase n ++ [n] }

/-- M holds every live lane: a full write (R93). -/
def Strand.covers (st : Strand) (m : Mask) : Bool := st.live &&& ~~~m == 0

/-- The value is the register's present shape and content, so a partial write changes nothing (R93). -/
def Strand.same (st : Strand) (n : Nat) (t : Val) : Bool :=
  match t, (st.reg n).shape with
  | .u x, .u y => x == y
  | .a b s, .a b' s' => b == b' && s == s'
  | _, _ => false

/-- The write of R93 once the register has the slab it needs: `slab` is the one it takes for a V result. A tile strand has one lane, and each of
its registers is U (R86, R394). -/
def Strand.commit (st : Strand) (n : Nat) (t : Val) (m : Mask) : Strand :=
  if m = 0 then st
  else if st.tile then
    let r := st.reg n
    let full := st.covers m
    ((st.noteWrite (.v n) full).setReg n
      { shape := .u ((mergeLanes (st.val n).lanes t.lanes m).get 0), full := true, poison := r.poison && !full, held := none }).wroteLast n
  else
    let r := st.reg n
    let slab := match r.held with
      | some s => s
      | none => match r.shape with | .v _ s => s | _ => 0
    if st.covers m then
      let shape := match t with | .u x => Shape.u x | .a b s => .a b s | .v l => .v l slab
      ((st.noteWrite (.v n) true).setReg n { shape := shape, full := true, poison := false, held := none }).wroteLast n
    else if st.same n t then (st.noteWrite (.v n) false).setReg n { r with full := true, held := none }
    else
      let l := mergeLanes (st.val n).lanes t.lanes m
      ((st.noteWrite (.v n) false).setReg n { r with shape := .v l slab, full := true, held := none }).wroteLast n

/-! ### Slabs (R96-R104) -/

/-- The victim of R98 step 3: the least recently written resident V register that is full and not held; a destination whose slab is taken
for the instruction is held (R100, R492). -/
def Strand.victim? (st : Strand) (hold : List Nat) : Option Nat :=
  st.order.find? fun n =>
    !hold.contains n && (st.reg n).full && (st.reg n).held.isNone && (match (st.reg n).shape with | .v _ _ => true | _ => false)

/-- v[n] spilled to the vector area; its slab is free, or stays with another table that shares it (R95, R103). -/
def Strand.spill (st : Strand) (n : Nat) : Strand :=
  match (st.reg n).shape with
  | .v l _ => { (st.setReg n { st.reg n with shape := .spilled }) with vecArea := vset st.vecArea n l }
  | _ => st

/-- Bytes of the lanes of a register in the vector area (R6, R106). -/
def laneBytes (l : Lanes) : List Byte := l.toArray.toList.flatMap fun x => bytesLE 4 x.toNat

/-- The lanes of v[n] of a strand written to its slot in the SSA (R106, R188). -/
def State.saveLanes (s : State) (st : Strand) (n : Nat) : State := s.saveBytes (st.ssa + 128 * n) (laneBytes (st.val n).lanes)

/-- v[n] spilled: its lanes go to the SSA, whose page waits for a frame where it has none (R102, R188, R202). -/
def spillReg (n : Nat) : M Unit := do
  let j ← get
  let page := pageOf (j.st.ssa + 128 * n)
  if !(j.s.touch page j.e.conf false).pageReady page then throw (.page page false)
  updKept (fun s => (s.touch page j.e.conf false).saveLanes j.st n) fun st => st.spill n

/-- A slab taken by R98, spilling victims while none is free; `fuel` bounds the victims by the registers. -/
def takeSlabN : Nat → M Nat
  | 0 => throw (.block .slab)
  | fuel + 1 => do
    let j ← get
    let s := j.s.setStrand j.st
    let mine := s.slabsOf j.st
    if mine < j.e.floor j.st || (mine < j.e.ceil j.st && 0 < s.unreserved j.st) then
      updS fun s => { s with freshId := s.freshId + 1 }
      pure j.s.freshId
    else
      match j.st.victim? j.hold with
      | none => throw (.block .slab)
      | some n =>
        spillReg n
        updKept (fun s => s.bump j.e.ctx 2 1) id
        if j.e.hdr.flags / 2 % 2 = 1 then
          let m := j.st.mask j.f.pred
          throw (.spill { cause := 0x13, addr := j.st.pc, lanes := if m = 0 then j.st.path else m, detail := BitVec.ofNat 32 n })
        takeSlabN fuel

/-- A slab taken by R98. -/
def takeSlab : M Nat := takeSlabN 65

/-- v[n] protected while an action runs, in an instruction that takes its registers in stages (R100). -/
def holding {α : Type} (ns : List Nat) (act : M α) : M α := do
  let j ← get
  if j.staged then
    modify fun j => { j with hold := ns }
    let r ← act
    modify fun j => { j with hold := [] }
    pure r
  else act

/-- A V-spilled v[n] reloaded (R99). -/
def resident (n : Nat) : M Unit := do
  let j ← get
  match (j.st.reg n).shape with
  | .spilled =>
    let id ← takeSlab
    updKept (fun s => s.bump j.e.ctx 3 1) fun st =>
      let st := st.setReg n { st.reg n with shape := .v (vget st.vecArea n (Lanes.const 0)) id }
      if st.order.contains n then st else st.wroteLast n
  | _ => pure ()

/-- v[n] has a slab of its own to write or merge into, taken now if it has none or shares it, and held from now on (R93, R100, R103, R492). -/
def ownSlab (n : Nat) : M Unit := do
  let j ← get
  let r := j.st.reg n
  match r.held with
  | some _ => pure ()
  | none =>
    let own := match r.shape with
      | .v _ s => if j.s.shared j.st s then none else some s
      | _ => none
    let id ← match own with
      | some s => pure s
      | none => takeSlab
    upd fun st => st.setReg n { st.reg n with held := some id }

/-! ### Sources (R28, R47, R48, R111) -/

/-- A v source of the instruction is full, or its wait bit decides (R111). -/
def ready (n : Nat) (wait : Bool) : M Unit := do
  let j ← get
  if (j.st.reg n).full then pure ()
  else if wait then throw (.block (.reg n))
  else trapM 0x05 (BitVec.ofNat 32 n)

/-- A v register that is read as if its wait bit were set (R47). -/
def readyWait (n : Nat) : M Unit := ready n true

/-- POISON for an instruction that would read a poisoned register (R457). -/
def checkPoison (n : Nat) : M Unit := do
  let j ← get
  if (j.st.reg n).poison then trapM 0x20 (BitVec.ofNat 32 n) else pure ()

/-- The value of v[n], reloaded when V-spilled (R99). -/
def readV (n : Nat) : M Val := do
  noteRead (.v n)
  checkPoison n
  resident n
  let j ← get
  pure (j.st.val n)

/-- The lanes of v[n]. -/
def readLanes (n : Nat) : M Lanes := do
  let v ← holding [n] (readV n)
  pure v.lanes

/-- The uniform value of v[n], or SHAPE-BASE (R122). -/
def readU (n : Nat) : M Word := do
  noteRead (.v n)
  let j ← get
  match (j.st.reg n).shape with
  | .u x =>
    checkPoison n
    pure x
  | _ => shapeBase n

/-! ### Destinations (R93, R112, R492) -/

/-- v[n] made ready for a write of `t` under M: full, and with the slab that the write needs. -/
def prepWrite (n : Nat) (t : Val) (m : Mask) : M Unit := do
  let j ← get
  if m = 0 then pure ()
  else if !(j.st.reg n).full then throw (.block (.reg n))
  else if j.st.covers m then
    match t with
    | .v _ => if j.st.tile then pure () else ownSlab n
    | _ => pure ()
    noteHazards (.v n)
  else
    noteRead (.v n)
    noteHazards (.v n)
    if j.st.tile || j.st.same n t then pure ()
    else
      resident n
      ownSlab n

/-- write(D, t, M) (R93). -/
def writeV (n : Nat) (t : Val) (m : Mask) : M Unit := do
  prepWrite n t m
  upd fun st => st.commit n t m

/-- Several writes as one effect, in ascending register order (R98). -/
def writeAll (ws : List (Nat × Val)) (m : Mask) : M Unit := do
  ws.forM fun w => prepWrite w.1 w.2 m
  ws.forM fun w => upd fun st => st.commit w.1 w.2 m

/-- A 64-bit value written as a U pair. -/
def writePair (n : Nat) (x : DWord) (m : Mask) : M Unit := writeAll [(n, .u x.lo), (n + 1, .u x.hi)] m

/-- A destination of a long-latency producer prepared at issue and marked empty; `compact` when the result is known to be U (R492). -/
def prepLong (n : Nat) (compact : Bool) (m : Mask) : M Unit := do
  let j ← get
  if !(j.st.reg n).full then throw (.block (.reg n))
  else
    if !j.st.covers m then noteRead (.v n)
    noteHazards (.v n)
    if j.st.tile || (compact && j.st.covers m) then pure ()
    else
      if !j.st.covers m then holding [n] (resident n)
      holding [n] (ownSlab n)

/-- v[n] empty while its producer is in flight (R109). -/
def Strand.markEmpty (st : Strand) (n : Nat) : Strand := st.setReg n { st.reg n with full := false }

/-! ### Taking a trap (R179-R183, R461) -/

/-- A region entry (R460): bit 0 of RA is set. -/
def RetEntry.isRegion (e : RetEntry) : Bool := e.ra.getLsbD 0

/-- The handler of a strand begins at `pc` (R180): F is the pending height, and everything else of the strand stays; a phaser wait that it was
taken out of is kept for a retry (R356, DEDUCED, log 98), and so is a SLEEP that was under way (R344). -/
def Strand.enterHandler (st : Strand) (t : TrapInfo) (pc : DWord) : Strand :=
  { st with
    pc := pc, state := .ready, held := none, sleepFrom := none, restored := false
    handler := some { floor := st.pends.length, depth := st.rets.length, trap := t, held := st.held, sleep := st.sleepFrom, slept := st.restored } }

/-- Handler mode ends; the trap state reads 0 from then on (R182). -/
def Strand.leaveHandler (st : Strand) : Strand := { st with handler := none }

/-- 8 bytes of a containment record as the strand reads them; none where the read faults (R461). -/
def State.recordWord (s : State) (st : Strand) (e : Env) (va : Nat) : Option Nat :=
  match s.ctx? e.ctx with
  | none => none
  | some c =>
    match c.translate va with
    | some (_, w, ia) =>
      if w.rd && (s.leaseSet e).contains (pageOf ia) && !s.homePoison ia then
        some (s.loadElem st.agentCore w.wkind .group ia 8).2.value
      else none
    | none => none

/-- A sector tagged as poisoned at its home slice, as a write at device scope (R457, R461): its page is placed by a first touch, the copies in
the L1s go, and continuations that read it at home lose it. -/
def State.tagSector (s : State) (core who sec : Nat) (conf pref : Bool) : State :=
  let line := sec / 4
  let s := s.touch (pageOf (32 * sec)) conf pref
  let s := ((s.l1Flush core line).dropOthers core line).lose .home (fun x => x == .global sec) who
  if s.poison.contains sec then s else { s with poison := sec :: s.poison }

/-- The declared output range of a region may be tagged: its mapped pages are touched, and none of them waits for a frame or moves (R202, R203,
R461). -/
def State.outputReady (s : State) (st : Strand) (e : Env) (outBase outLen : Nat) : State × Bool :=
  match s.ctx? e.ctx with
  | none => (s, true)
  | some c => s.touchAll c (agentDie st.agentCore) (c.rangePages outBase outLen)

/-- The unwind of a containment region (R461), given the record's fields. The top entries down to the region's are popped. -/
def State.unwind (s : State) (st : Strand) (e : Env) (t : TrapInfo) (above : List RetEntry) (reg : RetEntry) (rest : List RetEntry)
    (handler outBase outLen : Nat) : State :=
  let s := match s.ctx? e.ctx with
    | none => s
    | some c =>
      if outLen = 0 then s
      else (List.range ((outBase + outLen - 1) / 32 - outBase / 32 + 1)).foldl (fun s i =>
        match c.translate (32 * (outBase / 32 + i)) with
        | some (_, w, ia) => s.tagSector st.agentCore st.id (sectorOf ia) c.conf w.prefhost
        | none => s) s
  let d := rest.length
  -- a fork whose return entry is popped here never resolves: it is squashed (R293, DEDUCED, log 97)
  let s := (above.filterMap RetEntry.fork).foldl (fun (t : State) cid => t.squash cid 6) s
  let st := (s.strand? st.id).getD st
  let pends := st.pends.filter fun p => p.depth ≤ d
  let st := { st with
              rets := rest, pends := pends
              j := vtab 8 fun n => let r := vget st.j n {}; if r.armed && d < r.depth.toNat then {} else r
              path := reg.cm &&& st.live, pc := BitVec.ofNat 64 handler, state := .ready
              handler := some { floor := pends.length, depth := d, trap := t, unwind := true }, held := none, sleepFrom := none, restored := false }
  s.setStrand st

/-- The containment record at a region entry, when its read succeeds and it is well formed (R460, R461). -/
def State.region? (s : State) (st : Strand) (e : Env) : Option (List RetEntry × RetEntry × List RetEntry × Nat × Nat × Nat) := do
  let above := st.rets.takeWhile fun r => !r.isRegion
  match st.rets.drop above.length with
  | [] => none
  | reg :: rest =>
    let a := reg.ra.toNat - 1
    let ws ← (List.range 8).mapM fun i => s.recordWord st e (a + 8 * i)
    let h := ws.getD 0 0
    let base := ws.getD 1 0
    let len := ws.getD 2 0
    if h % 64 = 0 && len ≤ 2 ^ 32 && (ws.drop 3).all (· == 0) then some (above, reg, rest, h, base, len) else none

/-- A team's units of work withdrawn from a unit under test (R462 step 1): teams on a core or MCC are pre-empted. -/
def State.quiesceUnit (s : State) (u : UnitId) : State :=
  let on : Team → Bool := fun t =>
    match u with
    | .core n => (s.groupsOf t.id).any fun g => g.core == n && !g.ended
    | .mcc c => t.cluster == c && t.tile.isSome
    | .band c b => t.cluster == c && ((s.cluster c).pbands.any fun p => p.n == b && some p.owner == t.tile)
    | _ => false
  ((s.teams.filter on).map (·.id)).foldl State.preempt s

/-- An error charged to a unit (R456, R462): it joins a test that runs, or a test starts. -/
def State.chargeUnit (s : State) (u : UnitId) : State :=
  if s.dev.tests.any fun t => t.unit == u then s
  else
    let s := s.quiesceUnit u
    { s with dev := { s.dev with tests := s.dev.tests ++ [{ unit := u, since := s.now }] } }

/-- Delivery of the trap a strand stands at, once its earlier producers have completed (R180, R183, R60, R461). -/
def State.deliver (s : State) (id : Nat) : State :=
  match s.strand? id with
  | none => s
  | some st =>
    match st.state, s.env? st with
    | .trapped t, some e =>
      match st.handler with
      | some h =>
        s.groupFault st 2 0x82 t.addr.toNat t.lanes (BitVec.ofNat 32 (h.trap.cause + 256 * t.cause)) t.va 0
      | none =>
        -- MAP goes to the map handler (R450)
        let entry := if t.cause = 0x22 then e.hdr.mapEntry else e.hdr.trapEntry
        let plain : State :=
          if entry = 0xFFFFFFFF then s.groupFault st 1 t.cause t.addr.toNat t.lanes t.detail t.va 0
          else (s.setStrand (st.enterHandler t (BitVec.ofNat 64 (e.base + entry)))).traceOf st 4 t.cause t.addr.toNat
        if (t.cause = 0x20 || t.cause = 0x21) && st.rets.any RetEntry.isRegion then
          -- the record and the output range are translated: that waits for a window update (R206), and the tags for their pages (R202)
          if s.windowMoves e.ctx then s
          else match s.region? st e with
          | some (above, reg, rest, h, base, len) =>
            let r := s.outputReady st e base len
            if r.2 then (r.1.unwind st e t above reg rest h base len).traceOf st 4 t.cause t.addr.toNat else r.1
          | none => plain
        else plain
    | _, _ => s

/-- Taking a trap: a continuation records it and stalls (R287); a strand is trapped, and the trap is delivered at once when no
earlier producer is in flight (R180). A shadow mismatch is charged to the unit (R456). -/
def State.raise (s : State) (st : Strand) (t : TrapInfo) : State :=
  let st := if t.cause = 0x21 then { st with shadowHit := [] } else st
  match st.cont with
  | some c => s.setStrand { st with state := .stalled, cont := some { c with fault := some (.trap t) } }
  | none =>
    let s := s.setStrand { st with state := .trapped t }
    let s := if t.cause = 0x21 then s.chargeUnit (if st.tile then .mcc st.core else .core st.core) else s
    if s.prods.any fun p => p.strand == st.id then s else s.deliver st.id

/-- A group fault of the instruction; a continuation records it and stalls (R287). -/
def State.raiseGroup (s : State) (st : Strand) (f : GFault) : State :=
  match st.cont with
  | some c => s.setStrand { st with state := .stalled, cont := some { c with fault := some (.group f) } }
  | none => s.groupFault st 2 f.code st.pc.toNat f.lanes f.detail f.va f.ia

/-- A MAP trap taken before the instruction at the pc issues (R450): it waits for the strand's earlier producers, as every trap does (R180). -/
def State.deliverMap (s : State) (st : Strand) (g : Group) : State :=
  (s.setGroup { g with mapSeen := s.version }).raise st { cause := 0x22, addr := st.pc, lanes := st.path, detail := s.version.lo }

/-! ### Evaluating one instruction -/

/-- The run of v registers of a field. -/
def useVregs (u : Use) (x : X96) (n : Nat) : List Nat :=
  let run := fun m => (List.range m).map fun i => n + i
  match u with
  | .v | .vs => [n]
  | .vRun m | .vsRun m => run m
  | .voteD => if x.func = 2 then [n] else []
  | .amgetD => if x.w0.b = 1 then [] else run 2
  | .tqryA => if x.x1 then [] else [n]
  | .memRun => run x.runLen
  | .stctRun => run (x.func.toNat % 16 + 1)
  | .atomRun => run (if x.ty = .b64 then 2 else 1)
  | .atomCRun m => run (if x.ty = .b64 then 2 * m else m)
  | _ => []

/-- The v registers an instruction names (R100). -/
def Form.vregs (f : Form) : List Nat :=
  let x := f.x
  let b := if x.immb then [] else useVregs f.enc.b x x.w0.b.toNat
  (useVregs f.enc.d x x.w0.d.toNat ++ useVregs f.enc.a x x.w0.a.toNat ++ b ++ useVregs f.enc.c x x.c.toNat).eraseDups

/-- Feature bits an instruction needs beside base (R446): fp4, q4x and sparse. -/
def Form.needs (f : Form) : Nat :=
  let x := f.x
  let fmt : Option Ty → Nat := fun t => match t with
    | some .e2m1x8 => 2
    | some .q4x8 => 4
    | _ => 0
  let src := if f.enc.op = 0x40 || f.enc.op = 0x42 then fmt (srcTy? x.func) else 0
  let dst := if f.enc.op = 0x40 || f.enc.op = 0x41 || f.enc.op = 0x43 || f.enc.op = 0x6B then fmt (some x.ty) else 0
  let tile := if f.enc.op = 0x7C && (x.func = 0 || x.func = 3) then fmt (some x.ty) else 0
  let sp := if f.enc.op = 0x7C && x.func = 0 && x.x2 then 8 else 0
  src ||| dst ||| tile ||| sp

/-- A non-instruction of this unit: the tile group on a core (R56.8), or what an MCC refuses (R395). -/
def Form.foreign (f : Form) (tile : Bool) : Bool :=
  let op := f.enc.op
  if tile then
    (0x62 ≤ op && op ≤ 0x6A) || op = 0x78 || op = 0x7A || op = 0x7B || op = 0x43 || op = 0x44 ||
    ((op = 0x41 || op = 0x6B) && f.x.x1)
  else op = 0x7C

/-- A continuation stalls at these whatever their operands (R286). -/
def Form.stalls (f : Form) : Bool :=
  let op := f.enc.op
  (0x70 ≤ op && op ≤ 0x7D) || op = 0x5A || op = 0x5C || op = 0x5D || op = 0x59 || op = 0x66 || op = 0x68 || op = 0x69 || op = 0x44 ||
  op = 0x6B || op = 0x6C || op = 0x6D || op = 0x6F

/-- FEATURE (R448): needed bits outside the kernel's, else outside the unit's. -/
def checkFeature (need : Nat) : M Unit := do
  let j ← get
  let n : DWord := BitVec.ofNat 64 need
  let undeclared := n &&& ~~~j.e.hdr.features
  let missing := n &&& ~~~(j.s.unitFeatures j.st)
  if undeclared != 0 then trapM 0x0B undeclared.lo
  else if missing != 0 then trapM 0x0B missing.lo
  else pure ()

/-- A floating-point TYPE, for the class of a vector burst (R468). -/
def tyIsFloat (t : Ty) : Bool :=
  match t with
  | .f32 | .f16x2 | .bf16x2 | .f16 | .bf16 | .e4m3x4 | .e5m2x4 | .e2m1x8 | .q4x8 => true
  | _ => false

/-- The cost of a class by its table (R468). -/
def Cluster.cost (c : Cluster) (cls count : Nat) : Nat := c.weights.getD cls 0 * count

/-- A request that the arbiter can grant now (R469). -/
def Cluster.canGrant (c : Cluster) (cost : Nat) : Bool := cost ≤ c.level || c.level = 2 ^ 20

/-- The arithmetic cycle an instruction of majors 0x01-0x4F takes of its quadrant's burst; with no burst left one is reserved, at once
where nothing else waits and the bucket holds it, else by a request (R468-R470). -/
def chargeCycle : M Unit := do
  let j ← get
  let op := j.f.enc.op
  if j.st.tile || op = 0 || 0x4F < op then pure ()
  else
    let core := j.s.core j.st.core
    let q := j.st.slot % 4
    let left := j.s.burstLeft j.st.core q
    if 0 < left then updS fun s => s.setCore { core with burst := vset core.burst q (left - 1) }
    else
      let c := j.s.cluster (clusterOfCore j.st.core)
      let cls := if tyIsFloat j.f.x.ty then 0 else 1
      let cost := c.cost cls 1
      let who := (0, j.st.core, q)
      if c.requests.isEmpty && c.canGrant cost then
        updS fun s => (s.setCluster { c with level := c.level - cost }).setCore
          { core with burst := vset core.burst q 63, burstFrom := vset core.burstFrom q s.now }
      else
        if !(c.requests.any fun r => r.who == who) then
          updS fun s => (s.setCluster { c with requests := c.requests ++ [{ level := j.e.level, cls := cls, cost := cost, who := who }] })
        throw (.hold .charge)

/-- An instruction recorded in its quadrant's replay queue of 16, with the values of its sources as it issued (R459). -/
def State.replayPush (s : State) (st : Strand) (f : Form) : State :=
  let op := f.enc.op
  if st.tile || !((1 ≤ op && op ≤ 0x13) || (0x20 ≤ op && op ≤ 0x2B) || (0x38 ≤ op && op ≤ 0x43)) then s
  else
    let core := s.core st.core
    let q := st.slot % 4
    let old := vget core.replay q []
    let region := (st.rets.find? RetEntry.isRegion).map (·.opened)
    let new := (old ++ [{ strand := st.id, group := st.group, addr := st.pc, region := region, op := op, x := f.x
                          mask := st.mask f.pred, srcs := f.vregs.map fun n => (n, (st.val n).lanes), preds := st.k, sr := st.sr }])
    s.setCore { core with replay := vset core.replay q (new.drop (new.length - 16)) }

/-- What stands before every body: the conditions of R57 up to FEATURE, stalls of a continuation, and charge. -/
def prelude : M Unit := do
  let j ← get
  if !(j.f.enc.legal j.f.x && j.f.litOk) || j.f.foreign j.st.tile then illegal
  checkFeature j.f.needs
  if j.st.cont.isSome && j.f.stalls then throw .stall
  chargeCycle

/-- The strand may issue: it is ready, or blocked and evaluated again (R154). -/
def Strand.mayIssue (st : Strand) : Bool :=
  st.live != 0 && match st.state with
  | .blocked .resolve => false
  | .ready | .blocked _ => true
  | _ => false

/-- A fault recorded by a committed continuation, raised as the strand's (R290 step 6). -/
def State.raiseAfter (s : State) (st : Strand) (after : Option ContFault) : State :=
  match after with
  | none => s
  | some (.trap t) => s.raise st t
  | some (.group f) => s.raiseGroup st f

/-- The strand with what its continuation has read in an evaluation that took no effect: a read counts where the instruction traps (R283, R287). -/
def Strand.readBy (st new : Strand) : Strand :=
  match st.cont, new.cont with
  | some c, some c' => { st with cont := some { c with read := c'.read } }
  | _, _ => st

/-- A path has ended with lanes parked where no arrival can complete them: the detector's kind 4, once for each j register (R311). -/
def State.parkedHazard (s : State) (st : Strand) (e : Env) : State :=
  if st.cont.isSome then s
  else ((List.range 8).filter fun n => let r := vget st.j n {}; r.armed && r.arr != 0).foldl (fun (s : State) n => s.hazard st e 4 n 0) s

/-- The state after an evaluation (R154, R155, R180, R286). -/
def settle (s : State) (st : Strand) (r : EStateM.Result Stop Job Unit) : State :=
  match r with
  | .ok _ j =>
    let st' := if j.jumped then j.st else { j.st with pc := j.st.pc + BitVec.ofNat 64 j.f.size }
    let s' := ((j.s.setStrand st').replayPush st j.f).count j.e.ctx 1 1
    if st'.live = 0 then s'.strandExit st'.id else s'.raiseAfter st' j.after
  | .error (.block b) _ => s.setStrand { st with state := .blocked b }
  | .error (.page p pref) j =>
    if (s.pte? p).isSome then s.setStrand { st with state := .blocked .touch }
    else (s.setStrand { st with state := .blocked (.page p pref) }).postNoFrames j.e.ctx (homeOf (65536 * p)) pref
  | .error (.hold b) j => j.s.setStrand { j.st with state := .blocked b }
  | .error (.trap t) j => s.raise (st.readBy j.st) t
  -- the spill and the reloads stay, and nothing else of the instruction (R102)
  | .error (.spill t) j => ({ j.s0 with freshId := j.s.freshId }).raise (j.st0.readBy j.st) t
  | .error (.group f) j => (if f.code = 0x81 then s.parkedHazard j.st j.e else s).raiseGroup (st.readBy j.st) f
  | .error .stall _ => s.setStrand { st with state := .stalled }

/-- One evaluation for the current strand: the form of the instruction, and what it does. -/
def runM (f : Form) (act : M Unit) (s : State) : Host.Outcome State Fault Refusal :=
  match s.strand? s.cur with
  | none => .fault .noStrand
  | some st =>
    match s.env? st with
    | none => .fault .noStrand
    | some e =>
      if !st.mayIssue then .next s
      else
        let regs := f.vregs
        let staged := decide (4 < regs.length)
        let st1 := { st with state := .ready }
        let j : Job := { s := s, st := st1, e := e, f := f, hold := if staged then [] else regs, staged := staged
                         s0 := s, st0 := st1, was := st.state }
        .next (settle s st (act j))

/-- One instruction of the current strand: its form and its body, behind the conditions of R57. -/
def run (f : Form) (body : M Unit) (s : State) : Host.Outcome State Fault Refusal := runM f (prelude >>= fun _ => body) s

/-- The pc set by the instruction itself. -/
def jump (pc : DWord) : M Unit := modify fun j => { j with st := { j.st with pc := pc }, jumped := true }

end Sys2Proof.Machine
end

