-- ==== Sys2Proof/Machine/Operands.lean ====
section
/-!
DEFINITION. Operand forms: v sources in A, B and C with IMMB (R41, R91), runs, the shape of a computed result (R91, R92), addresses of
global and scratchpad lanes (R217, R218), and the stochastic-rounding draws of an instruction (R73, R74).
-/

namespace Sys2Proof.Machine

/-! ### Field numbers -/

/-- D, A, B and C of the instruction as numbers. -/
def Form.d (f : Form) : Nat := f.x.w0.d.toNat
/-- A. -/
def Form.a (f : Form) : Nat := f.x.w0.a.toNat
/-- B. -/
def Form.b (f : Form) : Nat := f.x.w0.b.toNat
/-- C. -/
def Form.c (f : Form) : Nat := f.x.c.toNat

/-- The form of the instruction under evaluation. -/
def form : M Form := do
  let j ← get
  pure j.f

/-! ### Readiness (R124) -/

/-- ready(A, WA). -/
def readyA : M Unit := do
  let f ← form
  ready f.a f.x.w0.wa

/-- ready(B, WB), where B is not an immediate. -/
def readyB : M Unit := do
  let f ← form
  if f.x.immb then pure () else ready f.b f.x.w0.wb

/-- ready(C, WC). -/
def readyC : M Unit := do
  let f ← form
  ready f.c f.x.wc

/-- ready of a run of v sources with one wait bit. -/
def readyRun (n count : Nat) (wait : Bool) : M Unit := (List.range count).forM fun i => ready (n + i) wait

/-! ### Source values -/

/-- The value of v[A]. -/
def srcA : M Val := do
  let f ← form
  readV f.a

/-- The value of the B source: v[B], or word 2 with IMMB, which counts as U (R41, R91). -/
def srcB : M Val := do
  let f ← form
  if f.x.immb then pure (.u f.x.imm) else readV f.b

/-- The value of v[C]. -/
def srcC : M Val := do
  let f ← form
  readV f.c

/-- The uniform value of the B source, or SHAPE-BASE (R122). -/
def uniformB : M Word := do
  let f ← form
  if f.x.immb then pure f.x.imm else readU f.b

/-- The shape of v[n] is U; V and V-spilled never are (R122). -/
def isUniform (n : Nat) : M Bool := do
  noteUse (.v n)
  let j ← get
  match (j.st.reg n).shape with
  | .u _ => pure true
  | _ => pure false

/-! ### Results (R91, R92) -/

/-- The value is uniform. -/
def Val.isU : Val → Bool
  | .u _ => true
  | _ => false

/-- The value is affine or uniform. -/
def Val.isUA : Val → Bool
  | .v _ => false
  | _ => true

/-- Lane `i` of a value. -/
def Val.at (t : Val) (i : Nat) : Word :=
  match t with
  | .u x => x
  | .a b s => b + BitVec.ofNat 32 i * s
  | .v l => l.get i

/-- A result of sources: computed once, as lane `i0`, when every source is U, else lane by lane (R91, R74). -/
def compute (i0 : Nat) (vs : List Val) (f : Nat → List Word → Word) : Val :=
  if vs.all Val.isU then .u (f i0 (vs.map fun v => v.at 0))
  else .v (Lanes.tab fun i => f i (vs.map fun v => v.at i))

/-- A result of one source. -/
def Val.map1 (f : Word → Word) (a : Val) : Val :=
  match a with
  | .u x => .u (f x)
  | a => .v (Lanes.tab fun i => f (a.at i))

/-- A result of two sources. -/
def Val.map2 (f : Word → Word → Word) (a b : Val) : Val :=
  match a, b with
  | .u x, .u y => .u (f x y)
  | a, b => .v (Lanes.tab fun i => f (a.at i) (b.at i))

/-- A result of three sources. -/
def Val.map3 (f : Word → Word → Word → Word) (a b c : Val) : Val :=
  match a, b, c with
  | .u x, .u y, .u z => .u (f x y z)
  | a, b, c => .v (Lanes.tab fun i => f (a.at i) (b.at i) (c.at i))

/-- Base and stride of a value that is U or A. -/
def Val.baseStride : Val → Word × Word
  | .u x => (x, 0)
  | .a b s => (b, s)
  | .v _ => (0, 0)

/-! ### Bodies by number of sources (R124) -/

/-- One v source, one v result. -/
def unaryBody (f : Val → Val) : M Unit := do
  let x ← form
  readyA
  let m ← effMask
  if m = 0 then pure ()
  else
    let a ← srcA
    writeV x.d (f a) m

/-- Two v sources, one v result. -/
def binaryBody (f : Val → Val → Val) : M Unit := do
  let x ← form
  readyA
  readyB
  let m ← effMask
  if m = 0 then pure ()
  else
    let a ← srcA
    let b ← srcB
    writeV x.d (f a b) m

/-- Three v sources, one v result. -/
def ternaryBody (f : Val → Val → Val → Val) : M Unit := do
  let x ← form
  readyA
  readyB
  readyC
  let m ← effMask
  if m = 0 then pure ()
  else
    let a ← srcA
    let b ← srcB
    let c ← srcC
    writeV x.d (f a b c) m

/-! ### Stochastic rounding (R73, R74) -/

/-- The strand with its state advanced, which reads and writes it (R73, R283). -/
def Strand.advanceSr (st : Strand) : Strand := { (st.noteWrite .sr true) with sr := srAdvance st.sr }

/-- The state an instruction under a non-empty mask draws from: advanced when RND is 5 (R73). -/
def srState : M DWord := do
  let f ← form
  if f.x.rnd = .sr then
    noteRead .sr
    upd Strand.advanceSr
    let j ← get
    pure j.st.sr
  else pure 0

/-! ### Addresses -/

/-- An index of a lane, extended by XMOD[1] (R217). -/
def indexOf (f : Form) (x : Word) : Int := if f.x.x1 then (x.toNat : Int) else x.toInt

/-- The address of a lane's global access (R217). -/
def globalAddr (f : Form) (base : DWord) (x : Word) (scale : Nat) : Nat :=
  (((base.toNat : Int) + indexOf f x * scale + f.x.imm.toInt) % 2 ^ 64).toNat

/-- The address of a lane's scratchpad access (R218). -/
def scratchAddr (f : Form) (x : Word) : Nat := (x.toNat + f.x.imm.toNat) % 2 ^ 32

/-- An address in b[A] with the word-2 offset (R270, R325, R327). -/
def baseAddr (f : Form) (base : DWord) : Nat := (((base.toNat : Int) + f.x.imm.toInt) % 2 ^ 64).toNat

/-- The element width of a memory access in bytes (R219). -/
def tyWidth (t : Ty) : Nat :=
  match t with
  | .b64 => 8
  | .f16 | .bf16 => 2
  | _ => 4

/-- The scale of a global access (R215). -/
def scaleOf (f : Form) : Nat := 2 ^ (f.x.func.toNat % 8)

end Sys2Proof.Machine
end

