-- ==== Sys2Proof/Machine/Flags.lean ====
section
/-!
DEFINITION. Conditions and what they set: comparisons (R130, R142), votes (R137), the amax registers (R81-R85), shadow check points
(R152, R153, R458) and shape choice (R120).
-/

namespace Sys2Proof.Machine

/-! ### Comparisons -/

/-- Condition `c` of R54 for integers: eq, ne, lt, le, gt, ge. -/
def icond (c : Nat) (isSigned : Bool) (x y : Word) : Bool :=
  let lt := if isSigned then x.slt y else x.ult y
  match c with
  | 0 => x == y
  | 1 => x != y
  | 2 => lt
  | 3 => lt || x == y
  | 4 => !(lt || x == y)
  | _ => !lt

/-- Condition `c` of R142 for FP32 values. -/
def fcond (c : Nat) (x y : Word) : Bool :=
  let a := f32 x
  let b := f32 y
  let un := a.isNan || b.isNan
  match c with
  | 0 => a.eqv b
  | 1 => !(a.eqv b)
  | 2 => a.lt b
  | 3 => a.lt b || a.eqv b
  | 4 => b.lt a
  | 5 => b.lt a || a.eqv b
  | 6 => !un
  | _ => un

/-- The mask of the lanes of M where a condition of two values holds (R130). -/
def condMask (m : Mask) (f : Word → Word → Bool) (a b : Val) : Mask := Mask.of fun i => m.has i && f (a.at i) (b.at i)

/-- The mask a condition writes: all ones or 0 (R137). -/
def allMask (c : Bool) : Mask := if c then BitVec.allOnes 32 else 0

/-- The body of a compare: k[D] written under M (R125). -/
def compareBody (f : Word → Word → Bool) : M Unit := do
  let x ← form
  readyA
  readyB
  let m ← effMask
  if m = 0 then pure ()
  else
    let a ← srcA
    let b ← srcB
    kwrite x.d (condMask m f a b) m

/-! ### amax (R81-R85) -/

/-- An update with a format code and the values of the lanes of M (R83). A magnitude of an s32 accumulator that FP32 cannot represent is rounded RNE
(DESIGN CHOICE, log 116). -/
def Amax.update (r : Amax) (c : Nat) (xs : List FVal) : Amax :=
  if xs.isEmpty then r
  else
    let r := { r with mixed := r.mixed || (r.fmt != 0 && r.fmt.toNat != c), fmt := BitVec.ofNat 4 c }
    xs.foldl (fun r x =>
      match x with
      | .nan => { r with nanSeen := true }
      | x =>
        let mag : FVal := match x with | .inf _ => .inf false | .fin _ k e => .fin false k e | .nan => .nan
        if FVal.lt (f32 r.max) mag then
          { r with max := match mag with | .inf _ => 0x7F800000 | v => toF32 v }
        else r) r

/-- An amax register as 64 bits (R81). -/
def Amax.bits (r : Amax) : DWord :=
  DWord.pair r.max (BitVec.ofNat 32 (r.fmt.toNat + (if r.nanSeen then 16 else 0) + (if r.mixed then 32 else 0)))

/-- An amax register from its 64 bits (R335). -/
def Amax.ofBits (x : DWord) : Amax :=
  { max := x.lo, fmt := x.extractLsb' 32 4, nanSeen := x.getLsbD 36, mixed := x.getLsbD 37 }

/-- The update that a continuation's buffer entry stands for (R85): its largest magnitude and whether a NaN was met. -/
def bufferedAmax (m c : Nat) (xs : List FVal) : BufEntry :=
  let r := ({} : Amax).update c xs
  .amax m c r.max r.nanSeen

/-- The sectors an entry covers (R285). -/
def BufEntry.sectors : BufEntry → List Sector
  | .store e _ _ _ => [.global (sectorOf e.addr)]
  | .scratch g _ es _ _ => es.map fun e => .scratch g (e.addr / 32)
  | .zero l _ _ _ => (List.range 4).map fun i => .global (4 * l + i)
  | .amax _ _ _ _ => []

/-- Store-buffer entries taken: one for each sector and one for each amax update (R285). -/
def bufferUsed (es : List BufEntry) : Nat :=
  (es.flatMap BufEntry.sectors).eraseDups.length + (es.filter fun e => e.sectors.isEmpty).length

/-- A continuation's buffer with entries added, or a stall when it would need a 65th entry (R285). -/
def bufferAdd (es : List BufEntry) : M Unit := do
  let j ← get
  match j.st.cont with
  | none => pure ()
  | some c =>
    let all := c.buffer ++ es
    if 64 < bufferUsed all then throw .stall
    else upd fun st => { st with cont := some { c with buffer := all } }

/-- m[n] of the group updated, or the update buffered by a continuation (R83-R85). -/
def amaxUpdate (n c : Nat) (xs : List FVal) : M Unit := do
  let j ← get
  if xs.isEmpty then pure ()
  else
    match j.st.cont with
    | some _ => bufferAdd [bufferedAmax n c xs]
    | none =>
      updS fun s => match s.group? j.e.group with
        | some g => s.setGroup { g with amax := vset g.amax n ((vget g.amax n {}).update c xs) }
        | none => s

/-- The values a v source contributes to an amax update: each lane of M once, a U source once (R83). -/
def amaxValues (m : Mask) (a : Val) (f : Word → List FVal) : List FVal :=
  match a with
  | .u x => f x
  | a => m.lanes.flatMap fun i => f (a.at i)

/-! ### Shadow check points (R152, R153, R458) -/

/-- A value of the unit agrees with its shadow: sign and exponent field alike, and mantissa bits [22:15] at most 1 apart; two NaNs match (R458). The
shadow is the element of R152, rounded with the same draw and after SAT, cut to eight mantissa bits (log 101). -/
def shadowAgrees (unit shadow : FVal) : Bool :=
  if unit.isNan && shadow.isNan then true
  else
    let a := shadowForm unit
    let b := shadowForm shadow
    a / 256 == b / 256 && a % 256 ≤ b % 256 + 1 && b % 256 ≤ a % 256 + 1

/-- The wrong bits that strike lane i of a check point, within the bits that the unit forms there (R458); one struck anywhere where the result
is computed once. -/
def struckBits (hits : List (Nat × Word)) (once : Bool) (formed : Word) (i : Nat) : Word :=
  hits.foldl (fun (x : Word) h => if once || h.1 = i then x ^^^ (h.2 &&& formed) else x) 0

/-- The check points of an instruction under M, once all its values are formed (R152, R458): `agrees unit shadow` compares a lane, `right` is its
value, `formed` the bits of it that the unit forms. A sound unit and its shadow agree, since the shadow is rounded as the unit rounds, with the
same draw (R152, DEDUCED, log 101); an error gives wrong bits, which raise SHADOW at the lowest lane that disagrees, lane 0 where the result is
computed once, and otherwise go on. The wrong bits of lane i, where errors have struck. -/
def shadowCheck (m : Mask) (once : Bool) (formed : Word) (agrees : Word → Word → Bool) (right : Nat → Word) : M (Option (Nat → Word)) := do
  let j ← get
  if j.st.shadowHit.isEmpty || !j.s.dev.map.shadow then pure none
  else
    let wrong := struckBits j.st.shadowHit once formed
    let checked := if once then [0] else m.lanes
    match checked.find? fun i => !agrees (right i ^^^ wrong i) (right i) with
    | some l => throw (.trap { cause := 0x21, addr := j.st.pc, lanes := m, detail := BitVec.ofNat 32 l })
    | none =>
      upd fun st => { st with shadowHit := if once then [] else st.shadowHit.filter fun h => !m.has h.1 }
      pure (some wrong)

/-- The elements of two lanes agree (R152). -/
def elemsAgree (ty : Ty) (unit shadow : Word) : Bool :=
  (List.range ty.count).all fun e => shadowAgrees (elemValue ty unit.toNat e) (elemValue ty shadow.toNat e)

/-- A value with the bits of some lanes turned over. -/
def Val.xor (t : Val) (wrong : Nat → Word) : Val :=
  match t with
  | .u x => .u (x ^^^ wrong 0)
  | t => .v (Lanes.tab fun i => t.at i ^^^ wrong i)

/-- A write of a result whose check points are compared first (R152, R153): elements of a type, of which the unit forms the bits `formed`. -/
def checkedWrite (n : Nat) (t : Val) (m : Mask) (once : Bool) (ty : Ty) (formed : Word := BitVec.allOnes 32) : M Unit := do
  prepWrite n t m
  match ← shadowCheck m once formed (elemsAgree ty) t.at with
  | none => upd fun st => st.commit n t m
  | some wrong => writeV n (t.xor wrong) m

/-! ### Shape choice (R120) -/

/-- The smallest s with (d × s − c) mod 2^32 = 0, for 1 ≤ d ≤ 31: with 2^t the power of two in d, s is found bit by bit mod 2^(32−t). -/
def smallestStride (d : Nat) (c : Word) : Option Word :=
  let t := if d % 16 = 0 then 4 else if d % 8 = 0 then 3 else if d % 4 = 0 then 2 else if d % 2 = 0 then 1 else 0
  if c.toNat % 2 ^ t != 0 then none
  else
    let q := c.toNat / 2 ^ t
    let o := d / 2 ^ t
    -- o is odd: bit i of s is the bit of the remainder that is still to be made
    let s := (List.range (32 - t)).foldl (fun (acc : Nat) i => if (o * acc) / 2 ^ i % 2 = q / 2 ^ i % 2 then acc else acc + 2 ^ i) 0
    some (BitVec.ofNat 32 s)

/-- The most compact value that holds the live lanes of `u` (R120). -/
def squeeze (u : Lanes) (live : Mask) : Val :=
  match live.lanes with
  | [] => .v u
  | l0 :: rest =>
    let u0 := u.get l0
    if rest.all fun i => u.get i == u0 then .u u0
    else
      match rest with
      | [] => .u u0
      | l1 :: _ =>
        match smallestStride (l1 - l0) (u.get l1 - u0) with
        | some s =>
          if s != 0 && (live.lanes.all fun i => u.get i == u0 + (BitVec.ofNat 32 i - BitVec.ofNat 32 l0) * s) then
            .a (u0 - BitVec.ofNat 32 l0 * s) s
          else .v u
        | none => .v u

end Sys2Proof.Machine
end

