-- ==== Sys2Proof/Machine/Access.lean ====
section
/-!
DEFINITION. Memory accesses: the checks at issue (R196-R199, R218), what an instruction puts in flight, which earlier accesses hold
one back (R229, R238, R245, R251-R256, R265, R375), how each is performed (R244, R249, R257, R262), and the values that reach the
destinations of a producer (R110, R221).
-/

namespace Sys2Proof.Machine

/-! ### Checks of global accesses (R196-R199) -/

/-- A lane's access, checked: lane, number of the window of its first byte, that window, and the IA. -/
structure Piece where
  lane : Nat
  win : Nat
  window : Window
  ia : Nat

/-- The first condition of R196 that a lane's access of `span` bytes at `a` meets; 0 for none. -/
def laneCause (c : Ctx) (lease : List Nat) (need : Need) (width span a : Nat) : Nat :=
  if a % width != 0 then 1
  else
    match c.translate a with
    | none => 2
    | some (_, w, ia) =>
      if !w.grants need then 3
      else if w.vlast < (a + span - 1) / 65536 then 4
      else if (List.range (pageOf (ia + span - 1) - pageOf ia + 1)).all fun i => lease.contains (pageOf ia + i) then 0
      else 5

/-- Cause code of a condition of R196. -/
def causeCode (k : Nat) : Nat := match k with | 1 => 0x0C | 2 | 3 => 0x0D | 4 => 0x0E | _ => 0x0F

/-- Reason code of a condition of R196 (R197, R199). -/
def causeReason (k : Nat) : Nat := match k with | 2 => 1 | 3 => 2 | 4 => 3 | _ => 0

/-- The detail word of R197. -/
def accessDetail (win reason lane : Nat) : Word := BitVec.ofNat 32 (lane + 32 * reason + 256 * win)

/-- The mask of some lanes. -/
def maskOf (ls : List Nat) : Mask := Mask.of fun i => ls.contains i

/-- A WINDOW trap of a reason code (R197, R270, R379): it concerns the instruction as a whole, so its lane mask is M. -/
def windowTrap {α : Type} (win reason : Nat) (m : Mask) (va : Nat := 0) : M α :=
  trapWith 0x0D (accessDetail win reason m.lowest) m va

/-- One access to be checked: its lane, its virtual address, its bytes and the permission it needs. -/
structure Ask where
  lane : Nat
  va : Nat
  span : Nat
  need : Need

/-- The checks of R196 for accesses of one element width: the lowest-ordered cause that any lane meets is raised, else every lane's
translation. With `whole`, the accesses are those of the instruction as a whole, and a trap's lane mask is that mask (R380, R385). While
a window update of the context is under way, translation waits (R206). -/
def checkAsks (width : Nat) (lanes : List Ask) (whole : Option Mask := none) : M (List Piece) := do
  let j ← get
  match j.s.ctx? j.e.ctx with
  | none => throw (.block .touch)
  | some c =>
    if j.s.windowMoves c.id then throw (.block .touch)
    let lease := j.s.leaseSet j.e
    let causes := lanes.map fun p => (p, laneCause c lease p.need width p.span p.va)
    let worst : Nat := causes.foldl (fun (acc : Nat) (t : Ask × Nat) => if t.2 != 0 && (acc = 0 || t.2 < acc) then t.2 else acc) 0
    if worst = 0 then
      pure (lanes.filterMap fun p => (c.translate p.va).map fun t => { lane := p.lane, win := t.1, window := t.2.1, ia := t.2.2 })
    else
      let bad := (causes.filter fun t => t.2 = worst).map Prod.fst
      let va := match bad with | p :: _ => p.va | [] => 0
      let win := match c.translate va with | some t => t.1 | none => 16
      let ia := match c.translate va with | some t => t.2.2 | none => 0
      let ls := match whole with | some m => m | none => maskOf (bad.map fun p => p.lane)
      let detail := accessDetail win (causeReason worst) ls.lowest
      if worst = 5 then throw (.group { code := 0x0F, detail := detail, lanes := ls, va := va, ia := ia })
      else trapWith (causeCode worst) detail ls va

/-- The checks of R196 for lanes with their addresses, all of one span and permission. -/
def checkGlobal (need : Need) (width span : Nat) (lanes : List (Nat × Nat)) (whole : Option Mask := none) : M (List Piece) :=
  checkAsks width (lanes.map fun p => { lane := p.1, va := p.2, span := span, need := need }) whole

/-! ### Checks of scratchpad accesses (R218) -/

/-- The group of the team with an index; none below the team size only. -/
def State.teamGroup? (s : State) (e : Env) (gi : Nat) : Option Group :=
  s.groups.find? fun g => g.team == e.team && g.gi == gi

/-- Groups of a team (R319). -/
def Env.teamSize (e : Env) : Nat := e.hdr.team

/-- The checks of R218 for lanes with addresses and target group indices (own index for LDS and STS); `whole` as in checkAsks. A scratchpad
access has no virtual address: its trap names the scratchpad byte address (R208, DESIGN CHOICE, log 102). -/
def checkScratch (peer : Bool) (width span : Nat) (lanes : List (Nat × Nat × List Nat)) (whole : Option Mask := none) : M Unit := do
  let j ← get
  let cause : Nat → List Nat → Nat := fun a gs =>
    if a % width != 0 then 1
    else if peer && gs.any fun g => j.e.teamSize ≤ g then 2
    else if gs.any fun g => (match j.s.teamGroup? j.e g with | some t => t.scratchLen | none => 0) ≤ a + span - 1 then 3
    else 0
  let causes := lanes.map fun p => (p.1, p.2.1, cause p.2.1 p.2.2)
  let worst : Nat := causes.foldl (fun (acc : Nat) (t : Nat × Nat × Nat) => if t.2.2 != 0 && (acc = 0 || t.2.2 < acc) then t.2.2 else acc) 0
  if worst = 0 then pure ()
  else
    let bad := causes.filter fun t => t.2.2 = worst
    let low := bad.headD (0, 0, 0)
    let reason := match worst with | 2 => 5 | 3 => 4 | _ => 0
    let ls := match whole with | some m => m | none => maskOf (bad.map fun t => t.1)
    trapWith (if worst = 1 then 0x0C else 0x0D) (accessDetail 16 reason ls.lowest) ls low.2.1

/-! ### The order of accesses in flight -/

/-- The scratchpad an access acts on. -/
def Access.scratch? (a : Access) : Option Nat :=
  match a.kind with
  | .scrLoad g | .scrStore g | .scrMark g _ => some g
  | _ => none

/-- It is a data access: not a fence, a publication or an order point. -/
def Access.isData (a : Access) : Bool :=
  match a.kind with
  | .fence _ | .xfence _ _ | .publish _ | .order => false
  | _ => true

/-- It reads. -/
def Access.isRead (a : Access) : Bool :=
  match a.kind with
  | .load | .scrLoad _ | .atom _ _ | .cas => true
  | _ => false

/-- It writes. -/
def Access.isWrite (a : Access) : Bool :=
  match a.kind with
  | .store | .scrStore _ | .scrMark _ _ | .atom _ _ | .cas | .prefZero => true
  | _ => false

/-- An acquire (R245); in a UO window ORD is ignored (R251). -/
def Access.acquires (a : Access) : Bool := a.wk != .uo && (a.ord == .acquire || a.ord == .acqRel)

/-- A release (R245, R251). -/
def Access.releases (a : Access) : Bool := a.wk != .uo && (a.ord == .release || a.ord == .acqRel)

/-- A peer release or acquire at scope 0 orders scratchpad and peer accesses only (R229). -/
def Access.scratchOnly (a : Access) : Bool := a.peer && a.scope == .group

/-- Two accesses touch a byte of global memory in common. -/
def Access.meets (a b : Access) : Bool :=
  a.scratch?.isNone && b.scratch?.isNone &&
  a.elems.any fun x => b.elems.any fun y => x.addr < y.addr + y.width && y.addr < x.addr + x.width

/-- Access `b`, earlier in program order, must be performed before `a`. -/
def Access.waitsFor (a b : Access) : Bool :=
  match a.kind, b.kind with
  | .order, _ => true
  | _, .order => true
  | .publish _, _ => true
  | _, .publish _ => a.kind == .fence 0 || a.kind == .fence 2 || (a.isData && (a.meets b || (a.releases && !a.scratchOnly)))
  -- XFENCE: its S and D sets count for the strand's own accesses when they hold class V (R375); what an earlier acquire makes happen
  -- before it, of whatever class, needs that acquire performed (R245, R376)
  | .xfence src _, .xfence _ dst => src % 2 = 1 || dst % 2 = 1
  | .xfence src _, .fence n => src % 2 = 1 || n != 2
  | .xfence src _, _ => b.acquires || (src % 2 = 1 && b.wk != .uo)
  -- what releases comes after what an XFENCE has waited for, on behalf of whatever class (R245, R375)
  | .fence n, .xfence src dst => dst % 2 = 1 || (n != 1 && src % 2 = 1)
  | _, .xfence src dst => a.wk != .uo && (dst % 2 = 1 || (a.releases && src % 2 = 1))
  -- FENCE (R265)
  | .fence _, .fence _ => true
  | .fence 0, _ => true
  | _, .fence 0 => true
  | .fence 1, _ => b.isRead && b.wk != .uo
  | .fence _, _ => b.wk != .uo
  | _, .fence 1 => a.wk != .uo
  | _, .fence _ => a.isWrite && a.wk != .uo
  | _, _ =>
    -- one address (R238): the lanes of one load are not ordered among themselves
    (a.meets b && !(a.ins == b.ins && a.kind == .load && b.kind == .load)) ||
    -- one scratchpad (R229, R242)
    (a.scratch?.isSome && a.scratch? == b.scratch?) ||
    -- SO (R252, R255)
    (a.wk == .so && b.wk == .so) ||
    (a.ins != b.ins && b.acquires && a.wk != .uo && (!b.scratchOnly || a.scratch?.isSome)) ||
    (a.ins != b.ins && a.releases && b.wk != .uo && (!a.scratchOnly || b.scratch?.isSome))

/-- Access `b` stands earlier in the program order of `a`: same strand, or made by the caller before the fork from which the
continuation of `a` started. -/
def State.precedes (s : State) (b a : Access) : Bool :=
  b.strand == a.strand ||
  (a.spec && b.id < a.strand && (match s.strand? a.strand with
    | some st => (match st.cont with | some c => c.owner == b.strand | none => false)
    | none => false))

/-- The accesses before `a` in issue order. -/
def State.earlier (s : State) (a : Access) : List Access := s.flight.takeWhile fun b => b.id != a.id

/-- Some earlier access of its program holds `a` back. -/
def State.held (s : State) (a : Access) : Bool := (s.earlier a).any fun b => s.precedes b a && a.waitsFor b

/-- What issued under a number may be performed at an IA: the page is ready, or began to move later, and then it is performed in the old frame
(R206). -/
def State.placeReady (s : State) (id ia : Nat) : Bool :=
  !s.unitHeld ia && (s.pageReady (pageOf ia) || s.changes.any fun ch => id < ch.id && (match ch.change with
    | .remap p _ _ | .unplace p => p == pageOf ia
    | .window _ _ => false))

/-- The pages of an access are ready, and no link on its way retrains (R484). -/
def State.pagesReady (s : State) (a : Access) : Bool :=
  a.scratch?.isSome || a.elems.all fun e => s.placeReady a.id e.addr && !s.transferHeld (agentDie a.core) (a.scope == .system) e.addr

/-- The access can be performed now. -/
def State.canPerform (s : State) (a : Access) : Bool := !s.held a && s.pagesReady a

/-! ### Values -/

/-- A lane replaced. -/
def setLane (l : Lanes) (i : Nat) (x : Word) : Lanes := vset l i x

/-- The value of an element put into a producer's destinations (R220). -/
def Producer.put (p : Producer) (e : Elem) (v : Nat) : Producer :=
  let put := fun (slot x : Nat) (ds : List (Nat × Lanes)) =>
    match ds[slot]? with
    | some d => ds.set slot (d.1, setLane d.2 e.lane (BitVec.ofNat 32 x))
    | none => ds
  if p.wide then { p with dests := put (2 * e.slot + 1) (v / 2 ^ 32) (put (2 * e.slot) v p.dests) }
  else { p with dests := put e.slot v p.dests }

/-- Elements of an access delivered to its producer, with the poison found (R457). -/
def State.deliverTo (s : State) (a : Access) (vs : List (Elem × Nat)) (poison : Bool) : State :=
  match a.prod with
  | none => s
  | some pid =>
    { s with prods := s.prods.map fun p =>
        if p.id == pid then
          let p := vs.foldl (fun p v => p.put v.1 v.2) p
          { p with waiting := p.waiting.erase a.id, poison := p.poison || poison }
        else p }

/-- What an element reads goes into a lane of the mask of its producer; a row of LDT's fragment goes into two lanes (R423, R457). -/
def State.landsIn (s : State) (a : Access) (e : Elem) : Bool :=
  match a.prod.bind fun id => s.prods.find? fun p => p.id == id with
  | some p => p.ldt.isNone || p.mask.has (e.lane / 2) || p.mask.has (e.lane / 2 + 16)
  | none => true

/-- The bytes an element took from the store buffer laid over a value (R238, R285). -/
def Elem.overlay (e : Elem) (v : Nat) : Nat :=
  natLE ((List.range e.width).map fun i =>
    if e.data2 / 2 ^ i % 2 = 1 then BitVec.ofNat 8 (e.data / 256 ^ i) else BitVec.ofNat 8 (v / 256 ^ i))

/-- A sector tracked for a continuation (R284). -/
def Cont.track (c : Cont) (sec : Sector) (copy : ReadCopy) : Cont :=
  if c.tracked.any fun t => t.sector == sec && t.copy == copy then c
  else { c with tracked := c.tracked ++ [{ sector := sec, copy := copy }] }

/-- The sectors of a performed load tracked, when its strand is a continuation. -/
def State.trackFor (s : State) (a : Access) (secs : List Sector) (copy : ReadCopy) : State :=
  if a.spec then
    match s.strand? a.strand with
    | some st => s.setStrand { st with cont := st.cont.map fun c => secs.foldl (fun c x => c.track x copy) c }
    | none => s
  else s

/-! ### Atomic functions (R262) -/

/-- op(old, x) of ATOM and RED. -/
def atomOp (fn : Nat) (ty : Ty) (old x : Nat) : Nat :=
  let a : Word := BitVec.ofNat 32 old
  let b : Word := BitVec.ofNat 32 x
  let less := if ty = .s32 then a.slt b else a.ult b
  let m := if ty = .b64 then 2 ^ 64 else 2 ^ 32
  match fn with
  | 0 => (old + x) % m
  | 1 => if less then old else x
  | 2 => if less then x else old
  | 3 => old &&& x
  | 4 => old ||| x
  | 5 => old ^^^ x
  | 6 => x
  | _ => fp32.round .rne false 0 (FVal.add false (f32 a) (f32 b))

/-! ### Scratchpads -/

/-- A little-endian value of scratchpad bytes. -/
def Group.load (g : Group) (a n : Nat) : Nat := natLE (Memory.getList g.scratch a n)

/-- A sector of the bytes carries poison (R457). -/
def Group.poisoned (g : Group) (a n : Nat) : Bool := g.poison.any fun sec => 32 * sec < a + n && a < 32 * sec + 32

/-- A group's scratchpad with elements stored in order, the last deciding a byte (R223). A sector written whole carries no poison. -/
def Group.store (g : Group) (es : List Elem) : Group :=
  let mem := es.foldl (fun m e => Memory.putList m e.addr (bytesLE e.width e.data)) g.scratch
  let covered := fun (sec : Nat) => (List.range 32).all fun i => es.any fun e => e.addr ≤ 32 * sec + i && 32 * sec + i < e.addr + e.width
  { g with scratch := mem, poison := g.poison.filter fun sec => !covered sec }

/-- What a scratchpad write takes from continuations (R284): `who` is the strand that writes. -/
def State.loseScratch (s : State) (group who : Nat) (es : List Elem) : State :=
  s.lose .scratch (fun sec => match sec with
    | .scratch g n => g == group && es.any fun e => 32 * n < e.addr + e.width && e.addr < 32 * n + 32
    | .global _ => false) who

/-- A number put into a list in rising order. -/
def insertNat (n : Nat) : List Nat → List Nat
  | [] => [n]
  | x :: xs => if n < x then n :: x :: xs else if n = x then x :: xs else x :: insertNat n xs

/-- Words marked full or empty (R209). -/
def Group.mark (g : Group) (ws : List Nat) (full : Bool) : Group :=
  { g with fullWords := if full then ws.foldl (fun acc w => insertNat w acc) g.fullWords
                        else g.fullWords.filter fun w => !ws.contains w }

/-- A store step of a scratchpad. -/
def State.scratchStore (s : State) (group who : Nat) (es : List Elem) : State :=
  match s.group? group with
  | some g => (s.setGroup (g.store es)).loseScratch group who es
  | none => s

/-! ### Slots handed on (R311, R368) -/

/-- Slot n of a ring lies at these scratchpad bytes: first and one past the last (R362). -/
def Ring.slotRange (r : Ring) (n : Nat) : Nat × Nat := (128 * r.off + n * 2 ^ r.lsz, 128 * r.off + (n + 1) * 2 ^ r.lsz)

/-- Some bytes, each range an address and a length, meet a slot of a ring that has been published, for a write, or released, for a read (R368). -/
def Ring.handedOn (r : Ring) (write : Bool) (rs : List (Nat × Nat)) : Bool :=
  r.handed.any fun h =>
    let b := r.slotRange h.1
    h.2 == write && rs.any fun x => x.1 < b.2 && b.1 < x.1 + x.2

/-- The rings of a group whose slots some bytes of its scratchpad meet after their handoff (R311 kind 3). -/
def Group.slotsHandedOn (g : Group) (write : Bool) (rs : List (Nat × Nat)) : List Nat :=
  (List.range 16).filter fun q => (vget g.rings q {}).handedOn write rs

/-- An access of a group's scratchpad by a strand, or by its copy, held against the slots handed on: the detector's kind 3 (R311). -/
def State.noteSlots (s : State) (st : Strand) (e : Env) (group : Nat) (write : Bool) (rs : List (Nat × Nat)) : State :=
  match s.group? group with
  | some g => (g.slotsHandedOn write rs).foldl (fun (s : State) q => s.hazard st e 3 q 0) s
  | none => s

/-! ### Performing an access (R249) -/

/-- HOSTVIS ranges of a context (R269). -/
def Ctx.hostvis (c : Ctx) (ia : Nat) : Bool :=
  (List.range 16).any fun n =>
    let w := c.window n
    w.valid && w.hostvis && w.iaRange.1 ≤ ia && ia ≤ w.iaRange.2

/-- The home-4 lines of a context's HOSTVIS ranges written back from their slices (R269). -/
def State.publishLines (s : State) (c : Ctx) : State :=
  ((s.h4.filter fun l => l.dirty != 0 && c.hostvis (128 * l.line)).map (·.line)).foldl State.h4Clean s

/-- A load of one element performed, its value delivered and, for a continuation, its sector tracked. -/
def State.performLoad (s : State) (a : Access) (e : Elem) : State :=
  let misses := s.l1Misses a.core a.wk a.scope e.addr e.width
  let (s, r) := s.loadElem a.core a.wk a.scope e.addr e.width
  let s := if misses = 0 then s else s.count a.ctx 5 misses
  let s := if a.acquires then s.l1Acquire a.core a.scope else s
  let s := s.trackFor a [.global (sectorOf e.addr)] r.copy
  s.deliverTo a [(e, e.overlay r.value)] r.poison

/-- A read-modify-write step (R257, R261, R264): `f` gives the new value, or none for a comparison that failed. -/
def State.performAtom (s : State) (a : Access) (e : Elem) (f : Nat → Option Nat) : State :=
  let sys := a.scope == .system
  let s := if a.releases then s.l1Release a.core a.scope else s
  let s := s.atomPrepare a.core a.wk a.scope e.addr
  let old := natLE ((List.range e.width).map fun i => s.homeByte sys (e.addr + i))
  let poison := s.homePoison e.addr
  let s := match f old with
    | some v => s.atomWrite a.core a.strand a.scope e.addr (bytesLE e.width v)
    | none => s
  let s := if a.acquires then s.l1Acquire a.core a.scope else s
  s.deliverTo a [(e, old)] poison

/-- PREF zero-line performed at the home slice as one write (R205, R234). -/
def State.performZero (s : State) (core who ia : Nat) : State :=
  let line := lineOf ia
  let s := (s.l1Drop core line).homeWrite core who false (128 * line) (List.replicate 128 0)
  if s.reachable ia && !s.inMapPage ia then
    let s := s.sliceRoom line
    { s with zeroLines := line :: s.zeroLines }
  else s

/-- The sectors that the parts of one write cover lose their tags once the last of them is performed at home (R457, DEDUCED, log 94). -/
def State.clearWhole (s : State) (a : Access) : State :=
  let done := a.whole.filter fun sec =>
    !(s.flight.any fun b => b.id != a.id && b.part == a.part && b.whole.contains sec && b.elems.any fun e => (Sector.global sec).meets e.addr e.width)
  if done.isEmpty then s else s.clearCovered a.core (done.map fun sec => (32 * sec, 32))

/-- CWB of a line (R235). -/
def State.performCwb (s : State) (core fn : Nat) (scope : Scope) (ia : Nat) : State :=
  let line := lineOf ia
  if scope == .group then s
  else
    let dirty := match s.l1? core line with | some l => l.dirty != 0 | none => false
    let s := match fn with
      | 0 => s.l1Clean core line
      | 1 => if dirty then s else s.l1Drop core line
      | _ => s.l1Flush core line
    if scope == .system && homeOf ia = 4 then
      let s := if fn = 1 then s else s.h4Clean line
      let clean := match s.h4.find? fun l => l.line == line with | some l => l.dirty == 0 | none => false
      if fn != 0 && clean then s.h4Drop line else s
    else s

/-- An access performed: its effect, its value delivered, and the access gone. The HOSTVIS ranges of a publication are those of the moment at which it
is performed (DESIGN CHOICE, log 122). -/
def State.perform (s : State) (a : Access) : State :=
  let s := { s with flight := s.flight.filter fun b => b.id != a.id }
  let each := fun (f : State → Elem → State) => a.elems.foldl f s
  match a.kind with
  | .load => each fun s e => s.performLoad a e
  | .store =>
    each fun s e =>
      let s := if a.releases then s.l1Release a.core a.scope else s
      (s.storeElem a.core a.strand a.wk a.scope e.addr (bytesLE e.width e.data)).clearWhole a
  | .atom fn ty => each fun s e => s.performAtom a e fun old => some (atomOp fn ty old e.data)
  | .cas => each fun s e => s.performAtom a e fun old => if old = e.data then some e.data2 else none
  | .scrLoad g =>
    match s.group? g with
    | none => s.deliverTo a [] false
    | some gr =>
      let s := s.trackFor a (a.elems.map fun e => .scratch g (e.addr / 32)) .scratch
      let s := if a.acquires && a.scope != .group then s.l1Acquire a.core a.scope else s
      s.deliverTo a (a.elems.map fun e => (e, e.overlay (gr.load e.addr e.width)))
        (a.elems.any fun e => gr.poisoned e.addr e.width && s.landsIn a e)
  | .scrStore g =>
    let s := if a.releases && a.scope != .group then s.l1Release a.core a.scope else s
    s.scratchStore g a.strand a.elems
  | .scrMark g full =>
    let s := if a.releases && a.scope != .group then s.l1Release a.core a.scope else s
    match s.group? g with
    | some gr => (s.setGroup (gr.mark (a.elems.map fun e => e.addr / 4) full)).loseScratch g a.strand a.elems
    | none => s
  | .prefL2 => each fun s e => s.h4Take (lineOf e.addr)
  | .prefL1 =>
    if a.wk == .so then each fun s e => s.h4Take (lineOf e.addr)
    else each fun s e => (s.loadElem a.core a.wk a.scope e.addr e.width).1
  | .prefZero => each fun s e => s.performZero a.core a.strand e.addr
  | .cwb fn => each fun s e => s.performCwb a.core fn a.scope e.addr
  | .fence fn =>
    let s := if fn != 1 then s.l1Release a.core a.scope else s
    if fn != 2 then s.l1Acquire a.core a.scope else s
  | .xfence src dst =>
    let sc := if a.scope == .group then .cluster else a.scope
    let s := if src % 2 = 1 then s.l1Release a.core sc else s
    let s := if dst % 2 = 1 then s.l1Acquire a.core sc else s
    s.deliverTo a [] false
  | .publish ctx =>
    match s.ctx? ctx with
    | none => s
    | some c =>
      let s := (s.l1Release a.core .system).publishLines c
      let n := natLE ((List.range 8).map fun i => s.homeByte true (c.pubCtr + i))
      -- the hub writes the counter: every copy of its line goes, the issuing core's too (R244, R270)
      (s.l1Flush a.core (lineOf c.pubCtr)).homeWrite 1000 0 true c.pubCtr (bytesLE 8 (n + 1))
  | .order => s

/-- A release write that its home slice holds (R256). -/
def Access.isHeldRelease (a : Access) : Bool :=
  a.releases && a.scope != .group && (match a.kind with | .store | .atom _ _ | .cas => true | _ => false)

/-- A publication. -/
def Access.isPublish (a : Access) : Bool := match a.kind with | .publish _ => true | _ => false

/-- The pages of an access after a first touch of each (R202). -/
def State.touchPages (s : State) (a : Access) : State :=
  match s.ctx? a.ctx with
  | some c => if a.scratch?.isSome then s else (a.elems.map fun e => (pageOf e.addr, e.pref)).eraseDups.foldl (fun s p => s.touchBy c p.1 p.2) s
  | none => s

/-- The access of an identity, when it satisfies `p` and can be performed, is performed; one that only its pages hold back touches them. -/
def State.performIf (s : State) (id : Nat) (p : Access → Bool) : State :=
  match s.flight.find? fun a => a.id == id with
  | some a => if p a && s.canPerform a then s.perform a else if p a && !s.held a then s.touchPages a else s
  | none => s

/-! ### Merging (R93, R110) -/

/-- A producer whose values are all known merges into its destinations under its M; each becomes full (R110, R492). Lanes outside M keep
what they hold. -/
def Strand.merge (st : Strand) (p : Producer) : Strand :=
  p.dests.foldl (fun st d =>
    let old := st.reg d.1
    let t : Val := if p.uniform then .u (d.2.get 0) else .v (mergeLanes (st.val d.1).lanes d.2 p.mask)
    let full := st.covers p.mask
    let st := st.commit d.1 t p.mask
    let r := st.reg d.1
    st.setReg d.1 { r with full := true, held := none, poison := p.poison || (old.poison && !full) }) st

/-! ### Issuing accesses -/

/-- Access kinds that a strand's accesses of one instruction share. -/
structure Issue where
  kind : AccKind
  scope : Scope
  ord : Ord
  prod : Option Nat := none
  ins : Nat := 0
  peer : Bool := false

/-- The sectors that an access touches (R311 kind 2). -/
def Access.sectors (a : Access) : List Sector :=
  match a.scratch? with
  | some g => (a.elems.map fun e => Sector.scratch g (e.addr / 32)).eraseDups
  | none => if a.isData then (a.elems.map fun e => Sector.global (sectorOf e.addr)).eraseDups else []

/-- The sectors of global memory that elements together write whole (R457). -/
def wholeSectors (es : List Elem) : List Nat :=
  let rs := es.map fun e => (e.addr, e.width)
  (es.map fun e => sectorOf e.addr).eraseDups.filter fun sec => coversSector rs sec

/-- One access put in flight; its identity. -/
def launchAccess (i : Issue) (wk : WKind) (es : List Elem) (whole : List Nat := []) : M Nat := do
  let j ← get
  let id := j.s.freshId
  let a : Access :=
    { id := id, strand := j.st.id, core := j.st.agentCore, ctx := j.e.ctx, kind := i.kind, elems := es, scope := i.scope, ord := i.ord
      wk := wk, prod := i.prod, spec := j.st.cont.isSome, ins := i.ins, peer := i.peer, team := j.e.team, part := i.ins, whole := whole }
  updS fun s => { (s.touchClass j.st j.e .v a.sectors) with freshId := id + 1, flight := s.flight ++ [a] }
  pure id

/-- A number for the instruction. -/
def freshIns : M Nat := do
  let j ← get
  updS fun s => { s with freshId := s.freshId + 1 }
  pure j.s.freshId

/-- The sectors a strand writes, remembered by each unresolved fork of which it runs the callee (R289 code 4). -/
def noteStores (secs : List Sector) : M Unit :=
  upd fun st => if st.forks.isEmpty then st
    else { st with forks := st.forks.map fun f => { f with stores := f.stores ++ secs.filter fun x => !f.stores.contains x } }

/-- Some access of the strand that must precede an access of this kind has not been performed. -/
def mustWait (i : Issue) (wk : WKind) (es : List Elem) : M Bool := do
  let j ← get
  let a : Access :=
    { id := 0, strand := j.st.id, core := j.st.agentCore, ctx := j.e.ctx, kind := i.kind, elems := es, scope := i.scope, ord := i.ord
      wk := wk, peer := i.peer, spec := j.st.cont.isSome, team := j.e.team }
  pure (j.s.flight.any fun b =>
    (b.strand == a.strand || (match j.st.cont with | some c => c.owner == b.strand && b.id < a.strand | none => false)) && a.waitsFor b)

/-- Blocks until every access of the strand that must precede an access of this kind has been performed. -/
def awaitOrder (i : Issue) (wk : WKind) (es : List Elem) : M Unit := do
  if ← mustWait i wk es then throw (.block .ordering) else pure ()

/-- The pages of an access that is performed as its instruction issues, after a first touch of each; it waits while one of them has no frame or
moves (R202, R203). -/
def needPages (ia n : Nat) (pref : Bool) : M Unit := do
  let j ← get
  match j.s.touchRange j.e.conf pref ia n (agentDie j.st.agentCore) with
  | (s, true, _) => updS fun _ => s
  | (_, false, p :: _) => throw (.page p pref)
  | (_, false, []) => throw (.block .touch)

/-- The bytes of an element that a continuation's store buffer holds: the value and the mask of bytes (R238, R285). -/
def bufferedBytes (es : List BufEntry) (scratch : Option Nat) (addr width : Nat) : Nat × Nat :=
  let byte : Nat → Option Byte := fun a =>
    es.foldl (fun acc e =>
      match e, scratch with
      | .store x _ _ _, none => if x.addr ≤ a && a < x.addr + x.width then some (BitVec.ofNat 8 (x.data / 256 ^ (a - x.addr))) else acc
      | .zero l _ _ _, none => if lineOf a = l then some 0 else acc
      | .scratch g _ xs _ _, some g' =>
        if g = g' then xs.foldl (fun acc x =>
          if x.addr ≤ a && a < x.addr + x.width then some (BitVec.ofNat 8 (x.data / 256 ^ (a - x.addr))) else acc) acc
        else acc
      | _, _ => acc) none
  (List.range width).foldl (fun (acc : Nat × Nat) i =>
    match byte (addr + i) with
    | some b => (acc.1 + b.toNat * 256 ^ i, acc.2 + 2 ^ i)
    | none => acc) (0, 0)

/-- The distinct sectors of continuation loads: tracked, and in flight. -/
def trackedWith (s : State) (st : Strand) (c : Cont) (secs : List Sector) : Nat :=
  let fl := (s.flight.filter fun a => a.strand == st.id && (a.kind == .load || (match a.kind with | .scrLoad _ => true | _ => false))).flatMap
    fun a => a.elems.map fun e => match a.kind with
      | .scrLoad g => Sector.scratch g (e.addr / 32)
      | _ => Sector.global (sectorOf e.addr)
  (c.tracked.map (·.sector) ++ fl ++ secs).eraseDups.length

/-- What a continuation may load: it stalls at a load from an SO window and at the 129th sector (R284, R286). Its elements come back with
the bytes its store buffer holds. -/
def contLoad (scratch : Option Nat) (es : List (WKind × Elem)) : M (List (WKind × Elem)) := do
  let j ← get
  match j.st.cont with
  | none => pure es
  | some c =>
    let so := es.any fun w => w.1 == .so
    let es := es.map fun w =>
      let b := bufferedBytes c.buffer scratch w.2.addr w.2.width
      (w.1, { w.2 with data := b.1, data2 := b.2 })
    let open' := es.filter fun w => w.2.data2 != 2 ^ w.2.width - 1
    let secs := open'.map fun w => match scratch with
      | some g => Sector.scratch g (w.2.addr / 32)
      | none => .global (sectorOf w.2.addr)
    if so || 128 < trackedWith j.s j.st c secs then throw .stall
    else pure es

/-- A producer for destinations `regs` under M, whose registers become empty (R109). -/
def startProducer (regs : List Nat) (m : Mask) (uniform wide : Bool) (ldt : Option Nat := none) : M Nat := do
  let j ← get
  let id := j.s.freshId
  let p : Producer :=
    { id := id, strand := j.st.id, mask := m, uniform := uniform, dests := regs.map fun n => (n, Lanes.const 0), waiting := []
      ldt := ldt, wide := wide }
  updS fun s => { s with freshId := id + 1, prods := s.prods ++ [p] }
  upd fun st => regs.foldl (fun st n => (st.noteWrite (.v n) (st.covers m)).markEmpty n) st
  pure id

/-- A producer changed. -/
def updProd (id : Nat) (f : Producer → Producer) : M Unit :=
  updS fun s => { s with prods := s.prods.map fun p => if p.id == id then f p else p }

/-- Loads of elements put in flight for a producer; an element whose bytes all come from the store buffer is known at once. -/
def issueLoads (i : Issue) (pid : Nat) (es : List (WKind × Elem)) : M Unit :=
  es.forM fun w =>
    if w.2.data2 = 2 ^ w.2.width - 1 && w.2.data2 != 0 then updProd pid fun p => p.put w.2 w.2.data
    else do
      let id ← launchAccess i w.1 [w.2]
      updProd pid fun p => { p with waiting := p.waiting ++ [id] }

end Sys2Proof.Machine
end

