-- ==== Sys2Proof/Machine/Global.lean ====
section
/-!
DEFINITION. Global memory: LD, ST, PREF and CWB (R215-R225, R234, R235), and the events that perform accesses and complete producers.
-/

namespace Sys2Proof.Machine

/-! ### Loads and stores of runs -/

/-- The registers of the data run of the instruction (R219). -/
def Form.runRegs (f : Form) : List Nat := (List.range f.x.runLen).map fun i => f.d + i

/-- The addresses of the lanes of M (R217). -/
def globalLanes (f : Form) (base : DWord) (idx : Val) (m : Mask) (scale : Nat) : List (Nat × Nat) :=
  m.lanes.map fun i => (i, globalAddr f base (idx.at i) scale)

/-- The elements of the accesses of checked lanes; a strand-uniform access is made once (R220, R221). -/
def runElems (ps : List Piece) (uniform : Bool) (w count : Nat) (data : Nat → Nat → Nat) : List (WKind × Elem) :=
  (if uniform then ps.take 1 else ps).flatMap fun p =>
    (List.range count).map fun e =>
      (p.window.wkind, { addr := p.ia + w * e, width := w, lane := if uniform then 0 else p.lane, slot := e, data := data e p.lane
                         pref := p.window.prefhost })

/-- Element `e` of lane `i` in a data run (R220). -/
def runData (ty : Ty) (vs : List Val) (e i : Nat) : Nat :=
  let at' := fun (k : Nat) => match vs[k]? with | some v => (v.at i).toNat | none => 0
  match ty with
  | .b64 => at' (2 * e) + 2 ^ 32 * at' (2 * e + 1)
  | .f16 | .bf16 => at' e % 65536
  | _ => at' e

/-- Loads put in flight for the destination run (R109, R221, R492). -/
def loadRun (i : Issue) (m : Mask) (uniform : Bool) (scratch : Option Nat) (es : List (WKind × Elem)) : M Unit := do
  let f ← form
  let es ← contLoad scratch es
  let regs := f.runRegs
  regs.forM fun n => prepLong n uniform m
  let pid ← startProducer regs m uniform (f.x.ty = .b64)
  issueLoads { i with prod := some pid } pid es

/-- The values of a data run, each read in ascending order (R100). -/
def readRun (regs : List Nat) : M (List Val) := regs.mapM fun n => holding [n] (readV n)

/-- LD (R224). -/
def ldBody : M Unit := do
  let f ← form
  readyB
  let m ← effMask
  if m = 0 then pure ()
  else
    let idx ← srcB
    let base ← getB f.a
    let w := tyWidth f.x.ty
    let ps ← checkGlobal .read w (w * f.x.count) (globalLanes f base idx m (scaleOf f))
    let ins ← freshIns
    loadRun { kind := .load, scope := f.x.scope, ord := f.x.ord, ins := ins } m idx.isU none
      (runElems ps idx.isU w f.x.count fun _ _ => 0)

/-- Global stores of elements: in flight, or in a continuation's buffer (R225, R285). -/
def storeElems (scope : Scope) (ord : Ord) (es : List (WKind × Elem)) : M Unit := do
  let j ← get
  if j.st.cont.isSome then bufferAdd (es.map fun w => .store w.2 scope ord w.1)
  else
    let ins ← freshIns
    noteStores (es.map fun w => .global (sectorOf w.2.addr))
    -- what is performed at home together (R249, R457)
    let whole := wholeSectors ((es.filter fun w => scope != .group || w.1 == .so).map (·.2))
    es.forM fun w => do
      let _ ← launchAccess { kind := .store, scope := scope, ord := ord, ins := ins } w.1 [w.2]
        (whole.filter fun sec => sec == sectorOf w.2.addr && (scope != .group || w.1 == .so))

/-- ST (R225). -/
def stBody : M Unit := do
  let f ← form
  readyB
  f.runRegs.forM readyWait
  let m ← effMask
  if m = 0 then pure ()
  else
    let idx ← srcB
    let base ← getB f.a
    let w := tyWidth f.x.ty
    let ps ← checkGlobal .write w (w * f.x.count) (globalLanes f base idx m (scaleOf f))
    let vs ← readRun f.runRegs
    let uniform := idx.isU && vs.all Val.isU
    storeElems f.x.scope f.x.ord (runElems ps uniform w f.x.count (runData f.x.ty vs))

/-! ### PREF and CWB (R234, R235) -/

/-- A whole line as an element, with the PREFHOST of the window that named it. -/
def lineElem (line : Nat) (pref : Bool) : Elem := { addr := 128 * line, width := 128, lane := 0, slot := 0, pref := pref }

/-- The distinct lines of checked lanes, each with the kind of its window. -/
def linesOf (ps : List Piece) : List (WKind × Elem) :=
  (ps.map fun p => (p.window.wkind, lineElem (lineOf p.ia) p.window.prefhost)).eraseDups

/-- PREF. -/
def prefBody : M Unit := do
  let f ← form
  readyB
  let m ← effMask
  if m = 0 then pure ()
  else
    let idx ← srcB
    let base ← getB f.a
    let zero := f.x.func = 2
    let n := if zero then 128 else 1
    let ps ← checkGlobal (if zero then .write else .read) n n (globalLanes f base idx m 1)
    let j ← get
    let ls := linesOf ps
    if zero then
      if j.st.cont.isSome then bufferAdd (ls.map fun l => .zero (lineOf l.2.addr) f.x.scope l.1 l.2.pref)
      else
        let ins ← freshIns
        noteStores (ls.flatMap fun l => (List.range 4).map fun i => .global (sectorOf l.2.addr + i))
        ls.forM fun l => do
          let _ ← launchAccess { kind := .prefZero, scope := f.x.scope, ord := .relaxed, ins := ins } l.1 [l.2]
    else if j.st.cont.isNone then
      let ins ← freshIns
      let kind := if f.x.func = 1 then AccKind.prefL1 else .prefL2
      ls.forM fun l => do
        let _ ← launchAccess { kind := kind, scope := f.x.scope, ord := .relaxed, ins := ins } l.1 [l.2]
    else pure ()

/-- CWB. -/
def cwbBody : M Unit := do
  let f ← form
  readyB
  let m ← effMask
  if m = 0 then pure ()
  else
    let idx ← srcB
    let base ← getB f.a
    let ps ← checkGlobal .read 1 1 (globalLanes f base idx m 1)
    let ins ← freshIns
    (linesOf ps).forM fun l => do
      let _ ← launchAccess { kind := .cwb f.x.func.toNat, scope := f.x.scope, ord := .relaxed, ins := ins } l.1 [l.2]

/-! ### Events -/

/-- ACCESS_PERFORMED (R249): an access that nothing holds back is performed; releases and publications have events of their own. -/
def execAccessPerformed (access : Nat) (s : State) : Host.Outcome State Fault Refusal :=
  .next (s.performIf access fun a => !a.isHeldRelease && !a.isPublish)

/-- RELEASE_WRITE_PERFORMED (R256). -/
def execReleaseWritePerformed (access : Nat) (s : State) : Host.Outcome State Fault Refusal :=
  .next (s.performIf access Access.isHeldRelease)

/-- PUBLISH_INCREMENT (R269, R270). -/
def execPublishIncrement (access : Nat) (s : State) : Host.Outcome State Fault Refusal :=
  .next (s.performIf access Access.isPublish)

/-- A producer completes once every value is known: its registers merge and become full (R110). -/
def State.completeProducer (s : State) (id : Nat) (shape : Producer → Producer) : State :=
  match s.prods.find? fun p => p.id == id with
  | none => s
  | some p =>
    if !p.waiting.isEmpty then s
    else
      let s := { s with prods := s.prods.filter fun q => q.id != id }
      match s.strand? p.strand with
      | none => s
      | some st => s.setStrand (st.merge (shape p))

/-! ### The instructions -/

/-- LD, B32 (R224). -/
def execLd (o : W0) (s : State) : Host.Outcome State Fault Refusal :=
  run (Form.b32 Enc.ld' o) ldBody s

/-- LD, X96 (R224). -/
def execLdX96 (o : X96) (s : State) : Host.Outcome State Fault Refusal :=
  run (Form.x96 Enc.ld' o) ldBody s

/-- ST, B32 (R225). -/
def execSt (o : W0) (s : State) : Host.Outcome State Fault Refusal :=
  run (Form.b32 Enc.st' o) stBody s

/-- ST, X96 (R225). -/
def execStX96 (o : X96) (s : State) : Host.Outcome State Fault Refusal :=
  run (Form.x96 Enc.st' o) stBody s

/-- PREF, B32 (R234). -/
def execPref (o : W0) (s : State) : Host.Outcome State Fault Refusal :=
  run (Form.b32 Enc.pref' o) prefBody s

/-- PREF, X96 (R234). -/
def execPrefX96 (o : X96) (s : State) : Host.Outcome State Fault Refusal :=
  run (Form.x96 Enc.pref' o) prefBody s

/-- CWB, B32 (R235). -/
def execCwb (o : W0) (s : State) : Host.Outcome State Fault Refusal :=
  run (Form.b32 Enc.cwb' o) cwbBody s

/-- CWB, X96 (R235). -/
def execCwbX96 (o : X96) (s : State) : Host.Outcome State Fault Refusal :=
  run (Form.x96 Enc.cwb' o) cwbBody s

end Sys2Proof.Machine
end

