-- ==== Sys2Proof/Machine/Integer.lean ====
section
/-!
DEFINITION. Integer, logic and bit-field instructions, majors 0x01 to 0x13 (R126-R131).
-/

namespace Sys2Proof.Machine

/-! ### Functions of lane values -/

/-- A lane read by TYPE: two's complement under s32, unsigned under u32 (R126). -/
def laneInt (t : Ty) (x : Word) : Int := if t = .u32 then (x.toNat : Int) else x.toInt

/-- An exact result clamped to the range of TYPE (R126). -/
def clampTo (t : Ty) (x : Int) : Word :=
  if t = .u32 then BitVec.ofInt 32 (max 0 (min 4294967295 x)) else BitVec.ofInt 32 (max (-2147483648) (min 2147483647 x))

/-- An exact result reduced mod 2^32, or clamped with SAT (R126). -/
def reduce (x : X96) (r : Int) : Word := if x.sat then clampTo x.ty r else BitVec.ofInt 32 r

/-- SHL of a lane by a count (R127). -/
def shlLane (x n : Word) : Word := if n.toNat < 32 then x <<< n.toNat else 0

/-- SHR of a lane by a count (R127). -/
def shrLane (x n : Word) : Word := if n.toNat < 32 then x >>> n.toNat else 0

/-- SAR of a lane by a count (R127). -/
def sarLane (x n : Word) : Word := if n.toNat < 32 then x.sshiftRight n.toNat else if x.getLsbD 31 then BitVec.allOnes 32 else 0

/-- Number of 1 bits (R128). -/
def popcount (x : Word) : Word := BitVec.ofNat 32 (Mask.count x)

/-- Number of leading 0 bits, 32 for 0 (R128). -/
def clzLane (x : Word) : Word := BitVec.ofNat 32 (if x = 0 then 32 else 31 - Nat.log2 x.toNat)

/-- Bit reversal (R128). -/
def brevLane (x : Word) : Word := Mask.of fun i => x.getLsbD (31 - i)

/-- Position and length of a selected field; none when no field is selected (R129). -/
def fieldOf (y : Word) : Option (Nat × Nat) :=
  let p := (y.extractLsb' 0 8).toNat
  let l := (y.extractLsb' 8 8).toNat
  if 32 ≤ p || l = 0 then none else some (p, min l (32 - p))

/-- BFE (R129). -/
def bfeLane (t : Ty) (x y : Word) : Word :=
  match fieldOf y with
  | none => 0
  | some (p, l) =>
    let f := x.toNat / 2 ^ p % 2 ^ l
    if t = .s32 then BitVec.ofInt 32 (signed l f) else BitVec.ofNat 32 f

/-- BFI (R129). -/
def bfiLane (x y z : Word) : Word :=
  match fieldOf y with
  | none => z
  | some (p, l) =>
    let m : Word := BitVec.ofNat 32 ((2 ^ l - 1) * 2 ^ p)
    (z &&& ~~~m) ||| ((x <<< p) &&& m)

/-! ### Affine-closed results (R92) -/

/-- IADD of U and A values without SAT; else lane by lane. -/
def iaddVal (x : X96) (a b : Val) : Val :=
  if a.isU && b.isU || x.sat || !(a.isUA && b.isUA) then Val.map2 (fun p q => reduce x (laneInt x.ty p + laneInt x.ty q)) a b
  else Val.affine (a.baseStride.1 + b.baseStride.1) (a.baseStride.2 + b.baseStride.2)

/-- ISUB likewise. -/
def isubVal (x : X96) (a b : Val) : Val :=
  if a.isU && b.isU || x.sat || !(a.isUA && b.isUA) then Val.map2 (fun p q => reduce x (laneInt x.ty p - laneInt x.ty q)) a b
  else Val.affine (a.baseStride.1 - b.baseStride.1) (a.baseStride.2 - b.baseStride.2)

/-- IMUL of an A by a U, in either order, is affine. -/
def imulVal (x : X96) (a b : Val) : Val :=
  match a, b with
  | .a p s, .u q => Val.affine (p * q) (s * q)
  | .u q, .a p s => Val.affine (p * q) (s * q)
  | a, b => Val.map2 (fun p q => BitVec.ofInt 32 (laneInt x.ty p * laneInt x.ty q)) a b

/-- SHL of an A by a U: lane 0 after the shift, and lane 1 less lane 0 (R92). -/
def shlVal (a b : Val) : Val :=
  match a, b with
  | .a p s, .u n => Val.affine (shlLane p n) (shlLane (p + s) n - shlLane p n)
  | a, b => Val.map2 shlLane a b

/-- INEG of an A is affine. -/
def inegVal (a : Val) : Val :=
  match a with
  | .a p s => .a (-p) (-s)
  | a => a.map1 fun x => -x

/-- IMIN and IMAX by TYPE. -/
def iminLane (isMax : Bool) (t : Ty) (x y : Word) : Word := if decide (laneInt t x < laneInt t y) != isMax then x else y

/-! ### Bodies -/

/-- The body of a two-source instruction by its fields. -/
def binaryX (f : X96 → Val → Val → Val) : M Unit := do
  let x ← form
  binaryBody (f x.x)

/-- The body of a one-source instruction by its fields. -/
def unaryX (f : X96 → Val → Val) : M Unit := do
  let x ← form
  unaryBody (f x.x)

/-- IADD. -/
def iaddBody : M Unit := binaryX iaddVal
/-- ISUB. -/
def isubBody : M Unit := binaryX isubVal
/-- IMUL. -/
def imulBody : M Unit := binaryX imulVal
/-- IMULH: floor of the product over 2^32. -/
def imulhBody : M Unit := binaryX fun x => Val.map2 fun p q => BitVec.ofInt 32 (laneInt x.ty p * laneInt x.ty q / 4294967296)
/-- IMAD. -/
def imadBody : M Unit := do
  let f ← form
  ternaryBody (Val.map3 fun p q r => reduce f.x (laneInt f.x.ty p * laneInt f.x.ty q + laneInt f.x.ty r))
/-- IMIN. -/
def iminBody : M Unit := binaryX fun x => Val.map2 (iminLane false x.ty)
/-- IMAX. -/
def imaxBody : M Unit := binaryX fun x => Val.map2 (iminLane true x.ty)
/-- AND. -/
def andBody : M Unit := binaryBody (Val.map2 fun p q => p &&& q)
/-- OR. -/
def orBody : M Unit := binaryBody (Val.map2 fun p q => p ||| q)
/-- XOR. -/
def xorBody : M Unit := binaryBody (Val.map2 fun p q => p ^^^ q)
/-- ANDN. -/
def andnBody : M Unit := binaryBody (Val.map2 fun p q => p &&& ~~~q)
/-- SHL. -/
def shlBody : M Unit := binaryBody shlVal
/-- SHR. -/
def shrBody : M Unit := binaryBody (Val.map2 shrLane)
/-- SAR. -/
def sarBody : M Unit := binaryBody (Val.map2 sarLane)
/-- INEG. -/
def inegBody : M Unit := unaryBody inegVal
/-- IABS: under s32 the magnitude mod 2^32, under u32 the value itself (R128). -/
def iabsBody : M Unit := unaryX fun x => Val.map1 fun p => if x.ty = .s32 && p.getLsbD 31 then -p else p
/-- NOT. -/
def notBody : M Unit := unaryBody (Val.map1 fun p => ~~~p)
/-- POPC. -/
def popcBody : M Unit := unaryBody (Val.map1 popcount)
/-- CLZ. -/
def clzBody : M Unit := unaryBody (Val.map1 clzLane)
/-- BREV. -/
def brevBody : M Unit := unaryBody (Val.map1 brevLane)
/-- BFE. -/
def bfeBody : M Unit := binaryX fun x => Val.map2 (bfeLane x.ty)
/-- BFI. -/
def bfiBody : M Unit := ternaryBody (Val.map3 bfiLane)
/-- ICMP (R130). -/
def icmpBody : M Unit := do
  let f ← form
  compareBody (icond f.x.func.toNat (f.x.ty = .s32))

/-- ISEL (R131): M is the path mask; k[K] counts as a U source when it gives every live lane the same side. -/
def iselBody : M Unit := do
  let f ← form
  readyA
  readyB
  let k ← getK f.x.w0.k.toNat
  let j ← get
  let m := j.st.path
  if m = 0 then pure ()
  else
    let a ← srcA
    let b ← srcB
    let j ← get
    let flat := k &&& j.st.live == j.st.live || k &&& j.st.live == 0
    let t : Val :=
      if a.isU && b.isU && flat then .u (if k &&& j.st.live == j.st.live then a.at 0 else b.at 0)
      else .v (Lanes.tab fun i => if k.has i then a.at i else b.at i)
    writeV f.d t m

/-! ### The instructions -/

/-- IADD, B32 (R126). -/
def execIadd (o : W0) (s : State) : Host.Outcome State Fault Refusal :=
  run (Form.b32 Enc.iadd' o) iaddBody s

/-- IADD, X96 (R126). -/
def execIaddX96 (o : X96) (s : State) : Host.Outcome State Fault Refusal :=
  run (Form.x96 Enc.iadd' o) iaddBody s

/-- ISUB, B32 (R126). -/
def execIsub (o : W0) (s : State) : Host.Outcome State Fault Refusal :=
  run (Form.b32 Enc.isub' o) isubBody s

/-- ISUB, X96 (R126). -/
def execIsubX96 (o : X96) (s : State) : Host.Outcome State Fault Refusal :=
  run (Form.x96 Enc.isub' o) isubBody s

/-- IMUL, B32 (R126). -/
def execImul (o : W0) (s : State) : Host.Outcome State Fault Refusal :=
  run (Form.b32 Enc.imul' o) imulBody s

/-- IMUL, X96 (R126). -/
def execImulX96 (o : X96) (s : State) : Host.Outcome State Fault Refusal :=
  run (Form.x96 Enc.imul' o) imulBody s

/-- IMULH, B32 (R126). -/
def execImulh (o : W0) (s : State) : Host.Outcome State Fault Refusal :=
  run (Form.b32 Enc.imulh' o) imulhBody s

/-- IMULH, X96 (R126). -/
def execImulhX96 (o : X96) (s : State) : Host.Outcome State Fault Refusal :=
  run (Form.x96 Enc.imulh' o) imulhBody s

/-- IMAD (R126). -/
def execImad (o : X96) (s : State) : Host.Outcome State Fault Refusal :=
  run (Form.x96 Enc.imad' o) imadBody s

/-- IMIN, B32 (R126). -/
def execImin (o : W0) (s : State) : Host.Outcome State Fault Refusal :=
  run (Form.b32 Enc.imin' o) iminBody s

/-- IMIN, X96 (R126). -/
def execIminX96 (o : X96) (s : State) : Host.Outcome State Fault Refusal :=
  run (Form.x96 Enc.imin' o) iminBody s

/-- IMAX, B32 (R126). -/
def execImax (o : W0) (s : State) : Host.Outcome State Fault Refusal :=
  run (Form.b32 Enc.imax' o) imaxBody s

/-- IMAX, X96 (R126). -/
def execImaxX96 (o : X96) (s : State) : Host.Outcome State Fault Refusal :=
  run (Form.x96 Enc.imax' o) imaxBody s

/-- AND, B32 (R126). -/
def execAnd (o : W0) (s : State) : Host.Outcome State Fault Refusal :=
  run (Form.b32 Enc.and' o) andBody s

/-- AND, X96 (R126). -/
def execAndX96 (o : X96) (s : State) : Host.Outcome State Fault Refusal :=
  run (Form.x96 Enc.and' o) andBody s

/-- OR, B32 (R126). -/
def execOr (o : W0) (s : State) : Host.Outcome State Fault Refusal :=
  run (Form.b32 Enc.or' o) orBody s

/-- OR, X96 (R126). -/
def execOrX96 (o : X96) (s : State) : Host.Outcome State Fault Refusal :=
  run (Form.x96 Enc.or' o) orBody s

/-- XOR, B32 (R126). -/
def execXor (o : W0) (s : State) : Host.Outcome State Fault Refusal :=
  run (Form.b32 Enc.xor' o) xorBody s

/-- XOR, X96 (R126). -/
def execXorX96 (o : X96) (s : State) : Host.Outcome State Fault Refusal :=
  run (Form.x96 Enc.xor' o) xorBody s

/-- ANDN, B32 (R126). -/
def execAndn (o : W0) (s : State) : Host.Outcome State Fault Refusal :=
  run (Form.b32 Enc.andn' o) andnBody s

/-- ANDN, X96 (R126). -/
def execAndnX96 (o : X96) (s : State) : Host.Outcome State Fault Refusal :=
  run (Form.x96 Enc.andn' o) andnBody s

/-- SHL, B32 (R127). -/
def execShl (o : W0) (s : State) : Host.Outcome State Fault Refusal :=
  run (Form.b32 Enc.shl' o) shlBody s

/-- SHL, X96 (R127). -/
def execShlX96 (o : X96) (s : State) : Host.Outcome State Fault Refusal :=
  run (Form.x96 Enc.shl' o) shlBody s

/-- SHR, B32 (R127). -/
def execShr (o : W0) (s : State) : Host.Outcome State Fault Refusal :=
  run (Form.b32 Enc.shr' o) shrBody s

/-- SHR, X96 (R127). -/
def execShrX96 (o : X96) (s : State) : Host.Outcome State Fault Refusal :=
  run (Form.x96 Enc.shr' o) shrBody s

/-- SAR, B32 (R127). -/
def execSar (o : W0) (s : State) : Host.Outcome State Fault Refusal :=
  run (Form.b32 Enc.sar' o) sarBody s

/-- SAR, X96 (R127). -/
def execSarX96 (o : X96) (s : State) : Host.Outcome State Fault Refusal :=
  run (Form.x96 Enc.sar' o) sarBody s

/-- INEG, B32 (R128). -/
def execIneg (o : W0) (s : State) : Host.Outcome State Fault Refusal :=
  run (Form.b32 Enc.ineg' o) inegBody s

/-- INEG, X96 (R128). -/
def execInegX96 (o : X96) (s : State) : Host.Outcome State Fault Refusal :=
  run (Form.x96 Enc.ineg' o) inegBody s

/-- IABS, B32 (R128). -/
def execIabs (o : W0) (s : State) : Host.Outcome State Fault Refusal :=
  run (Form.b32 Enc.iabs' o) iabsBody s

/-- IABS, X96 (R128). -/
def execIabsX96 (o : X96) (s : State) : Host.Outcome State Fault Refusal :=
  run (Form.x96 Enc.iabs' o) iabsBody s

/-- NOT, B32 (R128). -/
def execNot (o : W0) (s : State) : Host.Outcome State Fault Refusal :=
  run (Form.b32 Enc.not' o) notBody s

/-- NOT, X96 (R128). -/
def execNotX96 (o : X96) (s : State) : Host.Outcome State Fault Refusal :=
  run (Form.x96 Enc.not' o) notBody s

/-- POPC, B32 (R128). -/
def execPopc (o : W0) (s : State) : Host.Outcome State Fault Refusal :=
  run (Form.b32 Enc.popc' o) popcBody s

/-- POPC, X96 (R128). -/
def execPopcX96 (o : X96) (s : State) : Host.Outcome State Fault Refusal :=
  run (Form.x96 Enc.popc' o) popcBody s

/-- CLZ, B32 (R128). -/
def execClz (o : W0) (s : State) : Host.Outcome State Fault Refusal :=
  run (Form.b32 Enc.clz' o) clzBody s

/-- CLZ, X96 (R128). -/
def execClzX96 (o : X96) (s : State) : Host.Outcome State Fault Refusal :=
  run (Form.x96 Enc.clz' o) clzBody s

/-- BREV, B32 (R128). -/
def execBrev (o : W0) (s : State) : Host.Outcome State Fault Refusal :=
  run (Form.b32 Enc.brev' o) brevBody s

/-- BREV, X96 (R128). -/
def execBrevX96 (o : X96) (s : State) : Host.Outcome State Fault Refusal :=
  run (Form.x96 Enc.brev' o) brevBody s

/-- BFE, B32 (R129). -/
def execBfe (o : W0) (s : State) : Host.Outcome State Fault Refusal :=
  run (Form.b32 Enc.bfe' o) bfeBody s

/-- BFE, X96 (R129). -/
def execBfeX96 (o : X96) (s : State) : Host.Outcome State Fault Refusal :=
  run (Form.x96 Enc.bfe' o) bfeBody s

/-- BFI (R129). -/
def execBfi (o : X96) (s : State) : Host.Outcome State Fault Refusal :=
  run (Form.x96 Enc.bfi' o) bfiBody s

/-- ICMP, B32 (R130). -/
def execIcmp (o : W0) (s : State) : Host.Outcome State Fault Refusal :=
  run (Form.b32 Enc.icmp' o) icmpBody s

/-- ICMP, X96 (R130). -/
def execIcmpX96 (o : X96) (s : State) : Host.Outcome State Fault Refusal :=
  run (Form.x96 Enc.icmp' o) icmpBody s

/-- ISEL, B32 (R131). -/
def execIsel (o : W0) (s : State) : Host.Outcome State Fault Refusal :=
  run (Form.b32 Enc.isel' o) iselBody s

/-- ISEL, X96 (R131). -/
def execIselX96 (o : X96) (s : State) : Host.Outcome State Fault Refusal :=
  run (Form.x96 Enc.isel' o) iselBody s

end Sys2Proof.Machine
end

