-- ==== Sys2Proof/Machine/Move.lean ====
section
/-!
DEFINITION. Moves, shapes and base registers (R113-R122), masks (R132-R134), lane exchange and identity (R135-R139).
-/

namespace Sys2Proof.Machine

/-! ### Moves and shapes -/

/-- MOV (R115). -/
def movBody : M Unit := unaryBody id

/-- MOVI (R115): the low half of the literal as U. -/
def moviBody (lit : DWord) : M Unit := do
  let f ← form
  let m ← effMask
  writeV f.d (.u lit.lo) m

/-- LANE of a base and a stride (R91, R92, R116). -/
def laneVal (a b : Val) : Val :=
  match a, b with
  | .u x, .u y => Val.affine x y
  | .a x s, .u y => Val.affine x (s + y)
  | a, b => .v (Lanes.tab fun i => a.at i + BitVec.ofNat 32 i * b.at i)

/-- LANE (R116). -/
def laneBody : M Unit := binaryBody laneVal

/-- SHAPE (R117): 3 for an empty register, else the shape code; never waits, never reloads. -/
def shapeBody : M Unit := do
  let f ← form
  let m ← effMask
  noteRead (.v f.a)
  let j ← get
  let r := j.st.reg f.a
  writeV f.d (.u (BitVec.ofNat 32 (if r.full then r.shape.code else 3))) m

/-- SHAPEA (R118). -/
def shapeaBody : M Unit := do
  let f ← form
  readyA
  let m ← effMask
  noteRead (.v f.a)
  let j ← get
  let c := (j.st.reg f.a).shape.code
  if m != 0 && !(f.x.w0.b.getLsbD c) then
    trapM 0x06 (BitVec.ofNat 32 (f.a + 256 * c + 65536 * f.b))
  else pure ()

/-- SHAPEF (R119): a V copy, resident with B = 2, V-spilled with B = 3 (not counted as a spill, R102). -/
def shapefBody : M Unit := do
  let f ← form
  readyA
  let m ← effMask
  if m = 0 then pure ()
  else
    let a ← srcA
    writeV f.d (.v a.lanes) m
    -- a tile strand's registers stay U (R394)
    let j ← get
    if f.b = 3 && !j.st.tile then spillReg f.d else pure ()

/-- SQZ (R120): the shape chosen from the merged lanes is installed as a full write. -/
def sqzBody : M Unit := do
  let f ← form
  readyA
  let m ← effMask
  if m = 0 then pure ()
  else
    let a ← srcA
    readyWait f.d
    let j ← get
    if !j.st.covers m then
      let _ ← readV f.d
    let j ← get
    let u := mergeLanes (j.st.val f.d).lanes a.lanes m
    writeV f.d (squeeze u j.st.live) j.st.live

/-- BCAST (R121): lane B of v[A], live or not. -/
def bcastBody : M Unit := do
  let f ← form
  readyA
  let m ← effMask
  if m = 0 then pure ()
  else
    let a ← srcA
    writeV f.d (.u (a.at f.b)) m

/-! ### Base registers (R122) -/

/-- SHAPE-BASE unless the B source is U; made even under an empty M. -/
def needUniformB : M Unit := do
  let f ← form
  if f.x.immb then pure ()
  else
    let u ← isUniform f.b
    if u then pure () else shapeBase f.b

/-- SHAPE-BASE unless v[n] is U; made even under an empty M. -/
def needUniform (n : Nat) : M Unit := do
  let u ← isUniform n
  if u then pure () else shapeBase n

/-- BADD. -/
def baddBody : M Unit := do
  let f ← form
  readyB
  let m ← effMask
  needUniformB
  if m = 0 then pure ()
  else
    let y ← uniformB
    let b ← getB f.a
    setB f.d (b + y.signExtend 64) m

/-- BMOV. -/
def bmovBody : M Unit := do
  let f ← form
  readyRun f.a 2 f.x.w0.wa
  let m ← effMask
  needUniform f.a
  needUniform (f.a + 1)
  if m = 0 then pure ()
  else
    let lo ← readU f.a
    let hi ← readU (f.a + 1)
    setB f.d (DWord.pair lo hi) m

/-- BGET. -/
def bgetBody : M Unit := do
  let f ← form
  let m ← effMask
  if m = 0 then pure ()
  else
    let b ← getB f.a
    writePair f.d b m

/-- BLIT. -/
def blitBody (lit : DWord) : M Unit := do
  let f ← form
  let m ← effMask
  setB f.d lit m

/-! ### Masks (R132-R134) -/

/-- The second k register of KOP: B[23:21] (R132). -/
def Form.e (f : Form) : Nat := f.b % 8

/-- KAND, KOR, KXOR, KANDN. -/
def kopBody (g : Mask → Mask → Mask) : M Unit := do
  let f ← form
  let m ← effMask
  if m = 0 then pure ()
  else
    let a ← getK f.a
    let e ← getK f.e
    kwrite f.d (g a e) m

/-- KNOT and KMOV. -/
def kop1Body (g : Mask → Mask) : M Unit := do
  let f ← form
  let m ← effMask
  if m = 0 then pure ()
  else
    let a ← getK f.a
    kwrite f.d (g a) m

/-- KSET (R133). -/
def ksetBody : M Unit := do
  let f ← form
  readyA
  let m ← effMask
  if f.x.x1 then
    if m = 0 then pure ()
    else
      let a ← srcA
      kwrite f.d (Mask.of fun i => a.at i != 0) m
  else
    needUniform f.a
    if m = 0 then pure ()
    else
      let x ← readU f.a
      kwrite f.d x m

/-- KPOP. -/
def kpopBody : M Unit := do
  let f ← form
  let m ← effMask
  if m = 0 then pure ()
  else
    let a ← getK f.a
    writeV f.d (.u (popcount a)) m

/-- KGET. -/
def kgetBody : M Unit := do
  let f ← form
  let m ← effMask
  if m = 0 then pure ()
  else
    let a ← getK f.a
    writeV f.d (.u a) m

/-! ### Lane exchange (R135-R138) -/

/-- Source lane of lane `i` for SHFL function `fn` (R136). -/
def shflLane (fn : Nat) (n : Word) (i : Nat) : Nat :=
  match fn with
  | 0 => n.toNat % 32
  | 1 => (i + n.toNat) % 32
  | 2 =>
    let g := n.toNat % 8
    let o := n.toNat / 256 % 32
    if g ≤ 5 then i / 2 ^ g * 2 ^ g + o % 2 ^ g else i
  | _ => i ^^^ (n.toNat % 32)

/-- SHFL of a value by an index value (R136): U when v[A] is U, else V. -/
def shflVal (fn : Nat) (a b : Val) : Val :=
  match a with
  | .u x => .u x
  | a => .v (Lanes.tab fun i => a.at (shflLane fn (b.at i) i))

/-- SHFL. -/
def shflBody : M Unit := do
  let f ← form
  binaryBody (shflVal f.x.func.toNat)

/-- VOTE (R137). -/
def voteBody : M Unit := do
  let f ← form
  readyA
  let m ← effMask
  if m = 0 then pure ()
  else
    let a ← srcA
    let p := fun i => a.at i != 0
    match f.x.func.toNat with
    | 0 => kwrite f.d (allMask (m.lanes.all p)) m
    | 1 => kwrite f.d (allMask (m.lanes.any p)) m
    | 2 => writeV f.d (.u (Mask.of fun i => m.has i && p i)) m
    | _ => kwrite f.d (allMask (m.lanes.all fun i => a.at i == a.at m.lowest)) m

/-- Two lanes of the reduction tree, either of which may be absent (R79). -/
def combine (g : Word → Word → Word) : Option Word → Option Word → Option Word
  | some x, some y => some (g x y)
  | some x, none => some x
  | none, y => y

/-- One level of the tree: neighbours combined (R79). -/
def treeLevel (g : Word → Word → Word) : List (Option Word) → List (Option Word)
  | x :: y :: rest => combine g x y :: treeLevel g rest
  | rest => rest

/-- The fixed pairwise tree over 32 lanes (R79). -/
def lredTree (g : Word → Word → Word) (m : Mask) (a : Val) : Word :=
  let n := (List.range 32).map fun i => if m.has i then some (a.at i) else none
  match treeLevel g (treeLevel g (treeLevel g (treeLevel g (treeLevel g n)))) with
  | some x :: _ => x
  | _ => 0

/-- The combining function of LRED (R138). -/
def lredFn (fn : Nat) (t : Ty) (x y : Word) : Word :=
  if t = .f32 then
    match fn with
    | 0 => BitVec.ofNat 32 (fp32.round .rne false 0 (FVal.add false (f32 x) (f32 y)))
    | 1 => BitVec.ofNat 32 (fminmax fp32 false x.toNat y.toNat)
    | _ => BitVec.ofNat 32 (fminmax fp32 true x.toNat y.toNat)
  else
    match fn with
    | 0 => x + y
    | 1 => iminLane false t x y
    | 2 => iminLane true t x y
    | 3 => x &&& y
    | 4 => x ||| y
    | _ => x ^^^ y

/-- One combine of the tree on a unit that errors may strike: the combine's number and whether one before it disagreed with its shadow, and the
same after it, with the value that the unit forms. An error strikes the combine of its number (R152, R458). -/
def struckCombine (hits : List (Nat × Word)) (g : Word → Word → Word) (at' : Nat × Bool) (x y : Word) : (Nat × Bool) × Word :=
  let right := g x y
  let unit := right ^^^ struckBits hits false (BitVec.allOnes 32) at'.1
  ((at'.1 + 1, at'.2 || !shadowAgrees (f32 unit) (f32 right)), unit)

/-- One level of the tree on such a unit. -/
def struckLevel (hits : List (Nat × Word)) (g : Word → Word → Word) : Nat × Bool → List (Option Word) → (Nat × Bool) × List (Option Word)
  | c, some x :: some y :: rest =>
    let r := struckCombine hits g c x y
    let t := struckLevel hits g r.1 rest
    (t.1, some r.2 :: t.2)
  | c, x :: y :: rest =>
    let t := struckLevel hits g c rest
    (t.1, combine g x y :: t.2)
  | c, rest => (c, rest)

/-- The tree on such a unit: whether some combine disagreed with its shadow, and the value that comes out. -/
def struckTree (hits : List (Nat × Word)) (g : Word → Word → Word) (m : Mask) (a : Val) : Bool × Word :=
  let n := (List.range 32).map fun i => if m.has i then some (a.at i) else none
  let r := (List.range 5).foldl (fun (r : (Nat × Bool) × List (Option Word)) _ => struckLevel hits g r.1 r.2) ((0, false), n)
  (r.1.2, match r.2 with | some x :: _ => x | _ => 0)

/-- The write of an LRED of f32 values: each combine is a check point of its own, and the result is one computed once (R152, R458). -/
def lredChecked (g : Word → Word → Word) (m : Mask) (a : Val) : M Unit := do
  let f ← form
  let t := Val.u (lredTree g m a)
  prepWrite f.d t m
  let j ← get
  if j.st.shadowHit.isEmpty || !j.s.dev.map.shadow then upd fun st => st.commit f.d t m
  else
    let r := struckTree j.st.shadowHit g m a
    if r.1 then throw (.trap { cause := 0x21, addr := j.st.pc, lanes := m, detail := 0 })
    else
      upd fun st => { st with shadowHit := st.shadowHit.filter fun h => !(h.1 + 1 < m.lanes.length) }
      writeV f.d (.u r.2) m

/-- LRED (R138). -/
def lredBody : M Unit := do
  let f ← form
  readyA
  let m ← effMask
  if m = 0 then pure ()
  else
    let a ← srcA
    let t := Val.u (lredTree (lredFn f.x.func.toNat f.x.ty) m a)
    if f.x.ty = .f32 then lredChecked (lredFn f.x.func.toNat f.x.ty) m a else writeV f.d t m

/-! ### GID (R55, R139) -/

/-- The value GID reads for a function; the trap state reads 0 outside handler mode (R139, R181, R182). -/
def gidVal (s : State) (st : Strand) (e : Env) (fn : Nat) : Val :=
  let g := s.group? e.group
  let t := s.team? e.team
  let l := s.launch? e.launch
  let num := fun (n : Nat) => Val.u (BitVec.ofNat 32 n)
  let index := match t with | some t => t.index | none => 0
  let grid := match l with | some l => (l.gx, l.gy, l.gz) | none => (1, 1, 1)
  let trap : TrapInfo := match st.handler with | some h => h.trap | none => { cause := 0, addr := 0, lanes := 0, detail := 0 }
  match fn with
  | 0 => if st.tile then .u 0 else .a 0 1
  | 1 => num st.idx
  | 2 => if st.tile then .u 8 else num (match g with | some g => g.gi | none => 0)
  | 3 => num (index % grid.1)
  | 4 => num (index / grid.1 % grid.2.1)
  | 5 => num (index / grid.1 / grid.2.1)
  | 6 => num grid.1
  | 7 => num grid.2.1
  | 8 => num grid.2.2
  | 9 => num (if st.tile then 0x1000 + st.core else st.core)
  | 10 => num (if e.feed then 0 else 1)
  | 11 => num trap.cause
  | 12 => .u trap.addr.lo
  | 13 => .u trap.addr.hi
  | 14 => .u trap.lanes
  | _ => .u trap.detail

/-- GID. -/
def gidBody : M Unit := do
  let f ← form
  let m ← effMask
  let j ← get
  writeV f.d (gidVal j.s j.st j.e f.x.func.toNat) m

/-! ### The instructions -/

/-- BADD, B32 (R122). -/
def execBadd (o : W0) (s : State) : Host.Outcome State Fault Refusal :=
  run (Form.b32 Enc.badd' o) baddBody s

/-- BADD, X96 (R122). -/
def execBaddX96 (o : X96) (s : State) : Host.Outcome State Fault Refusal :=
  run (Form.x96 Enc.badd' o) baddBody s

/-- BMOV, B32 (R122). -/
def execBmov (o : W0) (s : State) : Host.Outcome State Fault Refusal :=
  run (Form.b32 Enc.bmov' o) bmovBody s

/-- BMOV, X96 (R122). -/
def execBmovX96 (o : X96) (s : State) : Host.Outcome State Fault Refusal :=
  run (Form.x96 Enc.bmov' o) bmovBody s

/-- BGET, B32 (R122). -/
def execBget (o : W0) (s : State) : Host.Outcome State Fault Refusal :=
  run (Form.b32 Enc.bget' o) bgetBody s

/-- BGET, X96 (R122). -/
def execBgetX96 (o : X96) (s : State) : Host.Outcome State Fault Refusal :=
  run (Form.x96 Enc.bget' o) bgetBody s

/-- BLIT (R122). -/
def execBlit (o : BL) (s : State) : Host.Outcome State Fault Refusal :=
  run (Form.bl Enc.blit' o true) (blitBody o.lit) s

/-- MOV, B32 (R115). -/
def execMov (o : W0) (s : State) : Host.Outcome State Fault Refusal :=
  run (Form.b32 Enc.mov' o) movBody s

/-- MOV, X96 (R115). -/
def execMovX96 (o : X96) (s : State) : Host.Outcome State Fault Refusal :=
  run (Form.x96 Enc.mov' o) movBody s

/-- MOVI (R115): a literal with a non-zero high half is no instruction. -/
def execMovi (o : BL) (s : State) : Host.Outcome State Fault Refusal :=
  run (Form.bl Enc.movi' o (o.lit.hi == 0)) (moviBody o.lit) s

/-- LANE, B32 (R116). -/
def execLane (o : W0) (s : State) : Host.Outcome State Fault Refusal :=
  run (Form.b32 Enc.lane' o) laneBody s

/-- LANE, X96 (R116). -/
def execLaneX96 (o : X96) (s : State) : Host.Outcome State Fault Refusal :=
  run (Form.x96 Enc.lane' o) laneBody s

/-- SHAPE, B32 (R117). -/
def execShape (o : W0) (s : State) : Host.Outcome State Fault Refusal :=
  run (Form.b32 Enc.shape' o) shapeBody s

/-- SHAPE, X96 (R117). -/
def execShapeX96 (o : X96) (s : State) : Host.Outcome State Fault Refusal :=
  run (Form.x96 Enc.shape' o) shapeBody s

/-- SHAPEA, B32 (R118). -/
def execShapea (o : W0) (s : State) : Host.Outcome State Fault Refusal :=
  run (Form.b32 Enc.shapea' o) shapeaBody s

/-- SHAPEA, X96 (R118). -/
def execShapeaX96 (o : X96) (s : State) : Host.Outcome State Fault Refusal :=
  run (Form.x96 Enc.shapea' o) shapeaBody s

/-- SHAPEF, B32 (R119). -/
def execShapef (o : W0) (s : State) : Host.Outcome State Fault Refusal :=
  run (Form.b32 Enc.shapef' o) shapefBody s

/-- SHAPEF, X96 (R119). -/
def execShapefX96 (o : X96) (s : State) : Host.Outcome State Fault Refusal :=
  run (Form.x96 Enc.shapef' o) shapefBody s

/-- SQZ, B32 (R120). -/
def execSqz (o : W0) (s : State) : Host.Outcome State Fault Refusal :=
  run (Form.b32 Enc.sqz' o) sqzBody s

/-- SQZ, X96 (R120). -/
def execSqzX96 (o : X96) (s : State) : Host.Outcome State Fault Refusal :=
  run (Form.x96 Enc.sqz' o) sqzBody s

/-- BCAST, B32 (R121). -/
def execBcast (o : W0) (s : State) : Host.Outcome State Fault Refusal :=
  run (Form.b32 Enc.bcast' o) bcastBody s

/-- BCAST, X96 (R121). -/
def execBcastX96 (o : X96) (s : State) : Host.Outcome State Fault Refusal :=
  run (Form.x96 Enc.bcast' o) bcastBody s

/-- SHFL, B32 (R136). -/
def execShfl (o : W0) (s : State) : Host.Outcome State Fault Refusal :=
  run (Form.b32 Enc.shfl' o) shflBody s

/-- SHFL, X96 (R136). -/
def execShflX96 (o : X96) (s : State) : Host.Outcome State Fault Refusal :=
  run (Form.x96 Enc.shfl' o) shflBody s

/-- VOTE, B32 (R137). -/
def execVote (o : W0) (s : State) : Host.Outcome State Fault Refusal :=
  run (Form.b32 Enc.vote' o) voteBody s

/-- VOTE, X96 (R137). -/
def execVoteX96 (o : X96) (s : State) : Host.Outcome State Fault Refusal :=
  run (Form.x96 Enc.vote' o) voteBody s

/-- LRED, B32 (R138). -/
def execLred (o : W0) (s : State) : Host.Outcome State Fault Refusal :=
  run (Form.b32 Enc.lred' o) lredBody s

/-- LRED, X96 (R138). -/
def execLredX96 (o : X96) (s : State) : Host.Outcome State Fault Refusal :=
  run (Form.x96 Enc.lred' o) lredBody s

/-- GID, B32 (R139). -/
def execGid (o : W0) (s : State) : Host.Outcome State Fault Refusal :=
  run (Form.b32 Enc.gid' o) gidBody s

/-- GID, X96 (R139). -/
def execGidX96 (o : X96) (s : State) : Host.Outcome State Fault Refusal :=
  run (Form.x96 Enc.gid' o) gidBody s

/-- KAND, B32 (R132). -/
def execKand (o : W0) (s : State) : Host.Outcome State Fault Refusal :=
  run (Form.b32 Enc.kand' o) (kopBody fun a e => a &&& e) s

/-- KAND, X96 (R132). -/
def execKandX96 (o : X96) (s : State) : Host.Outcome State Fault Refusal :=
  run (Form.x96 Enc.kand' o) (kopBody fun a e => a &&& e) s

/-- KOR, B32 (R132). -/
def execKor (o : W0) (s : State) : Host.Outcome State Fault Refusal :=
  run (Form.b32 Enc.kor' o) (kopBody fun a e => a ||| e) s

/-- KOR, X96 (R132). -/
def execKorX96 (o : X96) (s : State) : Host.Outcome State Fault Refusal :=
  run (Form.x96 Enc.kor' o) (kopBody fun a e => a ||| e) s

/-- KXOR, B32 (R132). -/
def execKxor (o : W0) (s : State) : Host.Outcome State Fault Refusal :=
  run (Form.b32 Enc.kxor' o) (kopBody fun a e => a ^^^ e) s

/-- KXOR, X96 (R132). -/
def execKxorX96 (o : X96) (s : State) : Host.Outcome State Fault Refusal :=
  run (Form.x96 Enc.kxor' o) (kopBody fun a e => a ^^^ e) s

/-- KANDN, B32 (R132). -/
def execKandn (o : W0) (s : State) : Host.Outcome State Fault Refusal :=
  run (Form.b32 Enc.kandn' o) (kopBody fun a e => a &&& ~~~e) s

/-- KANDN, X96 (R132). -/
def execKandnX96 (o : X96) (s : State) : Host.Outcome State Fault Refusal :=
  run (Form.x96 Enc.kandn' o) (kopBody fun a e => a &&& ~~~e) s

/-- KNOT, B32 (R132). -/
def execKnot (o : W0) (s : State) : Host.Outcome State Fault Refusal :=
  run (Form.b32 Enc.knot' o) (kop1Body fun a => ~~~a) s

/-- KNOT, X96 (R132). -/
def execKnotX96 (o : X96) (s : State) : Host.Outcome State Fault Refusal :=
  run (Form.x96 Enc.knot' o) (kop1Body fun a => ~~~a) s

/-- KMOV, B32 (R132). -/
def execKmov (o : W0) (s : State) : Host.Outcome State Fault Refusal :=
  run (Form.b32 Enc.kmov' o) (kop1Body id) s

/-- KMOV, X96 (R132). -/
def execKmovX96 (o : X96) (s : State) : Host.Outcome State Fault Refusal :=
  run (Form.x96 Enc.kmov' o) (kop1Body id) s

/-- KSET, B32 (R133). -/
def execKset (o : W0) (s : State) : Host.Outcome State Fault Refusal :=
  run (Form.b32 Enc.kset' o) ksetBody s

/-- KSET, X96 (R133). -/
def execKsetX96 (o : X96) (s : State) : Host.Outcome State Fault Refusal :=
  run (Form.x96 Enc.kset' o) ksetBody s

/-- KPOP, B32 (R134). -/
def execKpop (o : W0) (s : State) : Host.Outcome State Fault Refusal :=
  run (Form.b32 Enc.kpop' o) kpopBody s

/-- KPOP, X96 (R134). -/
def execKpopX96 (o : X96) (s : State) : Host.Outcome State Fault Refusal :=
  run (Form.x96 Enc.kpop' o) kpopBody s

/-- KGET, B32 (R134). -/
def execKget (o : W0) (s : State) : Host.Outcome State Fault Refusal :=
  run (Form.b32 Enc.kget' o) kgetBody s

/-- KGET, X96 (R134). -/
def execKgetX96 (o : X96) (s : State) : Host.Outcome State Fault Refusal :=
  run (Form.x96 Enc.kget' o) kgetBody s

end Sys2Proof.Machine
end

