-- ==== Sys2Proof/Machine/Scratch.lean ====
section
/-!
DEFINITION. Scratchpads: LDS, STS, LDP, STP, LDF, LDFK, STF, FESET and LDT (R218-R233, R422, R423), and PRODUCER_COMPLETE (R110).
-/

namespace Sys2Proof.Machine

/-! ### Own and peer targets -/

/-- The index of the strand's group in its team. -/
def ownIndex : M Nat := do
  let j ← get
  pure (match j.s.group? j.e.group with | some g => g.gi | none => 0)

/-- The identity of the group of the team with an index; 0 for none. -/
def groupAt (s : State) (e : Env) (gi : Nat) : Nat := match s.teamGroup? e gi with | some g => g.id | none => 0

/-- The addresses of the lanes of M (R218), each with the indices of its target groups. -/
def scratchLanes (f : Form) (a : Val) (m : Mask) (targets : Nat → List Nat) : List (Nat × Nat × List Nat) :=
  m.lanes.map fun i => (i, scratchAddr f (a.at i), targets i)

/-- The elements of lanes for one target group (R220). -/
def scratchElems (ls : List (Nat × Nat × List Nat)) (gi w count : Nat) (uniform : Bool) (data : Nat → Nat → Nat) : List Elem :=
  let mine := ls.filter fun p => p.2.2.contains gi
  (if uniform then mine.take 1 else mine).flatMap fun p =>
    (List.range count).map fun e =>
      { addr := p.2.1 + w * e, width := w, lane := if uniform then 0 else p.1, slot := e, data := data e p.1 }

/-- The target groups of lanes, each once, in ascending order. -/
def targetsOf (ls : List (Nat × Nat × List Nat)) : List Nat :=
  (List.range 8).filter fun g => ls.any fun p => p.2.2.contains g

/-- Elements of a group's scratchpad held against the slots handed on (R311). -/
def noteSlots (group : Nat) (write : Bool) (es : List Elem) : M Unit := do
  let j ← get
  if j.e.debug then updAll fun s => s.noteSlots j.st j.e group write (es.map fun e => (e.addr, e.width)) else pure ()

/-- Scratchpad sectors that a step of the strand itself accesses with class V at issue (R311 kind 2). -/
def touchWords (secs : List Sector) : M Unit := do
  let j ← get
  updS fun s => s.touchClass j.st j.e .v secs

/-- One scratchpad load step put in flight for a producer; elements that the store buffer holds whole are known at once. -/
def scratchLoad (i : Issue) (pid group : Nat) (es : List Elem) : M Unit := do
  let es ← contLoad (some group) (es.map fun e => (WKind.rc, e))
  let known := fun (e : Elem) => e.data2 = 2 ^ e.width - 1 && e.data2 != 0
  let es := es.map Prod.snd
  (es.filter known).forM fun e => updProd pid fun p => p.put e e.data
  let rest := es.filter fun e => !known e
  if rest.isEmpty then pure ()
  else
    let id ← launchAccess { i with kind := .scrLoad group, prod := some pid } .rc rest
    updProd pid fun p => { p with waiting := p.waiting ++ [id] }

/-- Scratchpad load steps of a destination run, one for each target group. -/
def scratchLoadRun (m : Mask) (uniform : Bool) (ldt : Option Nat) (w count : Nat) (ls : List (Nat × Nat × List Nat)) : M Unit := do
  let f ← form
  let own ← ownIndex
  let regs := f.runRegs
  regs.forM fun n => prepLong n uniform m
  let ins ← freshIns
  let pid ← startProducer regs m uniform (f.x.ty = .b64) ldt
  (targetsOf ls).forM fun gi => do
    let j ← get
    noteSlots (groupAt j.s j.e gi) false (scratchElems ls gi w count uniform fun _ _ => 0)
    scratchLoad { kind := .load, scope := f.x.scope, ord := f.x.ord, ins := ins, peer := gi != own } pid (groupAt j.s j.e gi)
      (scratchElems ls gi w count uniform fun _ _ => 0)

/-- Scratchpad store steps, one for each target group (R226, R228), or buffered by a continuation (R285). -/
def scratchStoreRun (ls : List (Nat × Nat × List Nat)) (w count : Nat) (uniform : Bool) (data : Nat → Nat → Nat) : M Unit := do
  let f ← form
  let own ← ownIndex
  let ins ← freshIns
  (targetsOf ls).forM fun gi => do
    let j ← get
    let g := groupAt j.s j.e gi
    let es := scratchElems ls gi w count uniform data
    if j.st.cont.isSome then bufferAdd [.scratch g (gi != own) es f.x.scope f.x.ord]
    else
      noteSlots g true es
      noteStores (es.map fun e => .scratch g (e.addr / 32))
      let _ ← launchAccess { kind := .scrStore g, scope := f.x.scope, ord := f.x.ord, ins := ins, peer := gi != own } .rc es

/-! ### LDS, STS, LDP, STP (R226-R229) -/

/-- LDS. -/
def ldsBody : M Unit := do
  let f ← form
  readyA
  let m ← effMask
  if m = 0 then pure ()
  else
    let a ← srcA
    let own ← ownIndex
    let w := tyWidth f.x.ty
    let ls := scratchLanes f a m fun _ => [own]
    checkScratch false w (w * f.x.count) ls
    scratchLoadRun m a.isU none w f.x.count ls

/-- STS. -/
def stsBody : M Unit := do
  let f ← form
  readyA
  f.runRegs.forM readyWait
  let m ← effMask
  if m = 0 then pure ()
  else
    let a ← srcA
    let own ← ownIndex
    let w := tyWidth f.x.ty
    let ls := scratchLanes f a m fun _ => [own]
    checkScratch false w (w * f.x.count) ls
    let vs ← readRun f.runRegs
    scratchStoreRun ls w f.x.count (a.isU && vs.all Val.isU) (runData f.x.ty vs)

/-- LDP: lane i loads from team group lane(v[B], i). -/
def ldpBody : M Unit := do
  let f ← form
  readyA
  readyB
  let m ← effMask
  if m = 0 then pure ()
  else
    let a ← srcA
    let b ← srcB
    let w := tyWidth f.x.ty
    let ls := scratchLanes f a m fun i => [(b.at i).toNat]
    checkScratch true w (w * f.x.count) ls
    scratchLoadRun m (a.isU && b.isU) none w f.x.count ls

/-- STP: to one group for each lane, or with `.mc` to every group of a uniform mask. -/
def stpBody : M Unit := do
  let f ← form
  readyA
  readyB
  f.runRegs.forM readyWait
  let m ← effMask
  if f.x.x1 then needUniform f.b else pure ()
  if m = 0 then pure ()
  else
    let a ← srcA
    let b ← srcB
    let w := tyWidth f.x.ty
    let ls := scratchLanes f a m fun i => if f.x.x1 then Mask.lanes (b.at 0) else [(b.at i).toNat]
    checkScratch true w (w * f.x.count) ls
    let vs ← readRun f.runRegs
    scratchStoreRun ls w f.x.count (a.isU && b.isU && vs.all Val.isU) (runData f.x.ty vs)

/-! ### Full and empty (R230-R232) -/

/-- The words that the lanes span. -/
def wordsSpanned (ls : List (Nat × Nat × List Nat)) (span : Nat) : List Nat :=
  (ls.flatMap fun p => (List.range ((span + 3) / 4)).map fun k => p.2.1 / 4 + k).eraseDups

/-- The scratchpad sectors of words. -/
def wordSectors (group : Nat) (ws : List Nat) : List Sector := (ws.map fun w => Sector.scratch group (w / 8)).eraseDups

/-- LDF and LDFK: wait until every word is full; then one step reads them and, for LDF, empties them. -/
def ldfBody (keep : Bool) : M Unit := do
  let f ← form
  readyA
  let m ← effMask
  if m = 0 then pure ()
  else
    let a ← srcA
    let own ← ownIndex
    let w := tyWidth f.x.ty
    let ls := scratchLanes f a m fun _ => [own]
    checkScratch false w w ls
    let j ← get
    match j.s.group? j.e.group with
    | none => pure ()
    | some g =>
      let ws := wordsSpanned ls w
      let es := scratchElems ls own w 1 a.isU fun _ _ => 0
      awaitOrder { kind := .scrLoad g.id, scope := .group, ord := f.x.ord } .rc es
      if !(ws.all fun x => g.fullWords.contains x) then throw (.block .fullEmpty)
      noteSlots g.id false es
      touchWords (wordSectors g.id ws)
      let es ← contLoad (some g.id) (es.map fun e => (WKind.rc, e))
      let regs := f.runRegs
      regs.forM fun n => prepLong n a.isU m
      let pid ← startProducer regs m a.isU (f.x.ty = .b64)
      es.forM fun e => updProd pid fun p =>
        { (p.put e.2 (e.2.overlay (g.load e.2.addr e.2.width))) with poison := p.poison || g.poisoned e.2.addr e.2.width }
      let j ← get
      if j.st.cont.isSome then
        -- what comes whole from the continuation's own store buffer is not tracked (R284)
        let read := (es.filter fun w => w.2.data2 != 2 ^ w.2.width - 1).map fun w => Sector.scratch g.id (w.2.addr / 32)
        upd fun st => { st with cont := st.cont.map fun c => read.foldl (fun c x => c.track x .scratch) c }
      else pure ()
      if keep then pure ()
      else
        noteStores (wordSectors g.id ws)
        updS fun s => match s.group? g.id with
          | some g => s.setGroup (g.mark ws false)
          | none => s

/-- STF: waits until every word is empty; then one step writes and fills them. -/
def stfBody : M Unit := do
  let f ← form
  readyA
  f.runRegs.forM readyWait
  let m ← effMask
  if m = 0 then pure ()
  else
    let a ← srcA
    let own ← ownIndex
    let w := tyWidth f.x.ty
    let ls := scratchLanes f a m fun _ => [own]
    checkScratch false w w ls
    let vs ← readRun f.runRegs
    let j ← get
    match j.s.group? j.e.group with
    | none => pure ()
    | some g =>
      let ws := wordsSpanned ls w
      let es := scratchElems ls own w 1 (a.isU && vs.all Val.isU) (runData f.x.ty vs)
      awaitOrder { kind := .scrStore g.id, scope := .group, ord := f.x.ord } .rc es
      if ws.any fun x => g.fullWords.contains x then throw (.block .fullEmpty)
      noteSlots g.id true es
      touchWords (wordSectors g.id ws)
      noteStores (wordSectors g.id ws)
      updS fun s =>
        let s := s.scratchStore g.id j.st.id es
        match s.group? g.id with
        | some g => s.setGroup (g.mark ws true)
        | none => s

/-- FESET. -/
def fesetBody : M Unit := do
  let f ← form
  readyA
  let m ← effMask
  if m = 0 then pure ()
  else
    let a ← srcA
    let own ← ownIndex
    let w := tyWidth f.x.ty
    let span := w * f.x.count
    let ls := scratchLanes f a m fun _ => [own]
    checkScratch false w span ls
    let j ← get
    match j.s.group? j.e.group with
    | none => pure ()
    | some g =>
      let ws := wordsSpanned ls span
      let es := ws.map fun w => { addr := 4 * w, width := 4, lane := 0, slot := 0 : Elem }
      let i : Issue := { kind := .scrMark g.id f.x.x1, scope := .group, ord := f.x.ord }
      noteStores (wordSectors g.id ws)
      if ← mustWait i .rc es then
        -- it never blocks: its step takes its place behind the accesses it must follow
        let _ ← launchAccess i .rc es
      else
        touchWords (wordSectors g.id ws)
        updS fun s => match s.group? g.id with
          | some g => (s.setGroup (g.mark ws f.x.x1)).loseScratch g.id j.st.id es
          | none => s

/-! ### LDT (R423) -/

/-- LDT: lane i reads row i of a fragment, 4c bytes; the transposition is made when the rows are known. -/
def ldtBody : M Unit := do
  let f ← form
  readyA
  let m ← effMask
  if m = 0 then pure ()
  else
    let a ← srcA
    let own ← ownIndex
    let c := f.x.count
    let ls := scratchLanes f a m fun _ => [own]
    checkScratch false 4 (4 * c) ls
    scratchLoadRun m false (some c) 4 c ls

/-- Register e of a transposed fragment: each lane takes two rows of one column (R423). Row r, columns 2e and 2e + 1, is lane r of
`rows`. -/
def transposeLanes (rows : Lanes) : Lanes :=
  Lanes.tab fun i =>
    let half := fun (r : Nat) => (rows.get r).extractLsb' (16 * (i / 16)) 16
    half ((2 * i + 1) % 32) ++ half ((2 * i) % 32)

/-- The values a producer installs: those it loaded, transposed for LDT. -/
def Producer.shaped (p : Producer) : Producer :=
  match p.ldt with
  | some _ => { p with dests := p.dests.map fun d => (d.1, transposeLanes d.2) }
  | none => p

/-- PRODUCER_COMPLETE (R110). -/
def execProducerComplete (producer : Nat) (s : State) : Host.Outcome State Fault Refusal :=
  .next (s.completeProducer producer Producer.shaped)

/-! ### The instructions -/

/-- LDS, B32 (R226). -/
def execLds (o : W0) (s : State) : Host.Outcome State Fault Refusal :=
  run (Form.b32 Enc.lds' o) ldsBody s

/-- LDS, X96 (R226). -/
def execLdsX96 (o : X96) (s : State) : Host.Outcome State Fault Refusal :=
  run (Form.x96 Enc.lds' o) ldsBody s

/-- STS, B32 (R226). -/
def execSts (o : W0) (s : State) : Host.Outcome State Fault Refusal :=
  run (Form.b32 Enc.sts' o) stsBody s

/-- STS, X96 (R226). -/
def execStsX96 (o : X96) (s : State) : Host.Outcome State Fault Refusal :=
  run (Form.x96 Enc.sts' o) stsBody s

/-- LDP, B32 (R227). -/
def execLdp (o : W0) (s : State) : Host.Outcome State Fault Refusal :=
  run (Form.b32 Enc.ldp' o) ldpBody s

/-- LDP, X96 (R227). -/
def execLdpX96 (o : X96) (s : State) : Host.Outcome State Fault Refusal :=
  run (Form.x96 Enc.ldp' o) ldpBody s

/-- STP, B32 (R228). -/
def execStp (o : W0) (s : State) : Host.Outcome State Fault Refusal :=
  run (Form.b32 Enc.stp' o) stpBody s

/-- STP, X96 (R228). -/
def execStpX96 (o : X96) (s : State) : Host.Outcome State Fault Refusal :=
  run (Form.x96 Enc.stp' o) stpBody s

/-- LDF, B32 (R230). -/
def execLdf (o : W0) (s : State) : Host.Outcome State Fault Refusal :=
  run (Form.b32 Enc.ldf' o) (ldfBody false) s

/-- LDF, X96 (R230). -/
def execLdfX96 (o : X96) (s : State) : Host.Outcome State Fault Refusal :=
  run (Form.x96 Enc.ldf' o) (ldfBody false) s

/-- LDFK, B32 (R230). -/
def execLdfk (o : W0) (s : State) : Host.Outcome State Fault Refusal :=
  run (Form.b32 Enc.ldfk' o) (ldfBody true) s

/-- LDFK, X96 (R230). -/
def execLdfkX96 (o : X96) (s : State) : Host.Outcome State Fault Refusal :=
  run (Form.x96 Enc.ldfk' o) (ldfBody true) s

/-- STF, B32 (R231). -/
def execStf (o : W0) (s : State) : Host.Outcome State Fault Refusal :=
  run (Form.b32 Enc.stf' o) stfBody s

/-- STF, X96 (R231). -/
def execStfX96 (o : X96) (s : State) : Host.Outcome State Fault Refusal :=
  run (Form.x96 Enc.stf' o) stfBody s

/-- FESET, B32 (R232). -/
def execFeset (o : W0) (s : State) : Host.Outcome State Fault Refusal :=
  run (Form.b32 Enc.feset' o) fesetBody s

/-- FESET, X96 (R232). -/
def execFesetX96 (o : X96) (s : State) : Host.Outcome State Fault Refusal :=
  run (Form.x96 Enc.feset' o) fesetBody s

/-- LDT, B32 (R423). -/
def execLdt (o : W0) (s : State) : Host.Outcome State Fault Refusal :=
  run (Form.b32 Enc.ldt' o) ldtBody s

/-- LDT, X96 (R423). -/
def execLdtX96 (o : X96) (s : State) : Host.Outcome State Fault Refusal :=
  run (Form.x96 Enc.ldt' o) ldtBody s

end Sys2Proof.Machine
end

