-- ==== Sys2Proof/Machine/Barrier.lean ====
section
/-!
DEFINITION. Group barriers and phasers (R345-R361), with the event PHASER_POLL (R359).
-/

namespace Sys2Proof.Machine

/-! ### BAR (R346-R349) -/

/-- An arrival of strand `i` (R346). -/
def Bar.arrive (b : Bar) (i : Nat) : Bar := { b with arr := setBit b.arr i }

/-- The arrival of the strand at barrier `n`: a release at group scope, the bit, and the check of completion (R349). -/
def barArrive (g : Group) (n : Nat) : M Unit := do
  let j ← get
  awaitOrder { kind := .fence 2, scope := .group, ord := .relaxed } .rc []
  updS fun s => (s.setGroup { g with bars := vset g.bars n ((vget g.bars n {}).arrive j.st.idx) }).checkBar g.id n j.st.id

/-- BAR. -/
def barBody : M Unit := do
  let f ← form
  let m ← effMask
  if m = 0 then pure ()
  else
    let fn := f.x.func.toNat
    let j ← get
    match j.s.group? j.e.group with
    | none => pure ()
    | some g =>
      if fn != 1 && !(vget g.bars f.d {}).arr.getLsbD j.st.idx then barArrive g f.d
      if fn = 0 then pure ()
      else
        let j ← get
        match j.s.group? j.e.group with
        | none => pure ()
        | some g =>
          if (vget g.bars f.d {}).arr.getLsbD j.st.idx then throw (.hold (.bar f.d))
          else updS fun s => s.l1Acquire j.st.agentCore .group

/-! ### Phaser records (R351-R353) -/

/-- The fields of a phaser record. -/
structure Phaser where
  phase : Nat
  sigcnt : Nat
  arrived : Nat
  addnext : Nat
  dropnext : Nat
  waitcnt : Nat
  reserved : Bool
  deriving DecidableEq, Repr

/-- A record from its 64 bytes (R351). -/
def Phaser.ofBytes (bs : List Byte) : Phaser :=
  let w := fun (i : Nat) => natLE ((bs.drop (4 * i)).take 4)
  { phase := w 0, sigcnt := w 1, arrived := w 2, addnext := w 3, dropnext := w 4, waitcnt := w 5
    reserved := (bs.drop 24).any fun b => b != 0 }

/-- The 24 bytes of a record that hold fields. -/
def Phaser.bytes (r : Phaser) : List Byte :=
  packFields [(4, r.phase), (4, r.sigcnt), (4, r.arrived), (4, r.addnext), (4, r.dropnext), (4, r.waitcnt)]

/-- The record is well formed (R351). -/
def Phaser.ok (r : Phaser) : Bool :=
  !r.reserved && (if r.sigcnt = 0 then r.arrived = 0 && r.addnext = 0 && r.dropnext = 0 else r.arrived < r.sigcnt) &&
  r.dropnext ≤ r.sigcnt + r.addnext

/-- No count is above 2^32 - 1 (R356). -/
def Phaser.fits (r : Phaser) : Bool :=
  [r.sigcnt, r.arrived, r.addnext, r.dropnext, r.waitcnt].all fun n => n < 2 ^ 32

/-- The advance, when it is due (R353). -/
def Phaser.advance (r : Phaser) : Phaser :=
  if 0 < r.sigcnt && r.arrived = r.sigcnt then
    { r with phase := (r.phase + 1) % 2 ^ 32, sigcnt := r.sigcnt + r.addnext - r.dropnext, arrived := 0, addnext := 0, dropnext := 0 }
  else r

/-- (p - PHASE) mod 2^32 (R356). -/
def Phaser.dist (r : Phaser) (p : Nat) : Nat := (p + 2 ^ 32 - r.phase) % 2 ^ 32

/-- The wait for phase p is over (R356). -/
def Phaser.passed (r : Phaser) (p : Nat) : Bool :=
  let d := (r.phase + 2 ^ 32 - p) % 2 ^ 32
  0 < d && d < 2 ^ 31

/-- What a step on a record gives: its new fields, or the code of a PHASER trap (R360). -/
inductive PhStep where
  | ok (r : Phaser)
  | bad (code : Nat)
  deriving DecidableEq, Repr

/-- A step's result held against the limits of R356: an overflow, or a record that is not well formed, has code 4. -/
def Phaser.close (r : Phaser) : PhStep :=
  let r' := r.advance
  if r.fits && r.dropnext ≤ r.sigcnt + r.addnext && r'.fits && r'.ok then .ok r' else .bad 4

/-- PHREG: the record, and the phase it returns (R356). -/
def Phaser.reg (r : Phaser) (sig wait : Bool) : PhStep × Nat :=
  let open' := r.sigcnt = 0
  let f := if sig && !open' then (r.phase + 1) % 2 ^ 32 else r.phase
  let r := if sig then (if open' then { r with sigcnt := 1 } else { r with addnext := r.addnext + 1 }) else r
  let r := if wait then { r with waitcnt := r.waitcnt + 1 } else r
  (r.close, f)

/-- PHSIG (R356). -/
def Phaser.sig (r : Phaser) (p : Nat) : PhStep :=
  if r.sigcnt = 0 || r.dist p != 0 then .bad 2 else Phaser.close { r with arrived := r.arrived + 1 }

/-- PHDROP (R356). -/
def Phaser.drop (r : Phaser) (p : Nat) (sig wait : Bool) : PhStep :=
  if sig && (r.sigcnt = 0 || 1 < r.dist p) then .bad 3
  else if wait && r.waitcnt = 0 then .bad 5
  else
    let r := if sig then { r with arrived := if r.dist p = 0 then r.arrived + 1 else r.arrived, dropnext := r.dropnext + 1 } else r
    Phaser.close (if wait then { r with waitcnt := r.waitcnt - 1 } else r)

/-! ### Steps at the synchronisation unit (R355, R357, R358) -/

/-- The record at an IA, as the home slice gives it. -/
def State.phaserAt (s : State) (ia : Nat) : Phaser := Phaser.ofBytes ((List.range 64).map fun i => s.homeByte false (ia + i))

/-- The IA of a record address in a strand's context. -/
def State.recordIa (s : State) (st : Strand) (va : Nat) : Option Nat :=
  match s.env? st with
  | none => none
  | some e =>
    match s.ctx? e.ctx with
    | none => none
    | some c => (c.translate va).map fun t => t.2.2

/-- A blocked wait on a record whose phase has passed wakes (R353, R359). -/
def State.wakeWait (s : State) (x : Strand) : Strand :=
  match x.held with
  | none => x
  | some h =>
    match s.recordIa x h.1.toNat with
    | none => x
    | some ia => if x.state == .blocked .phaser && (s.phaserAt ia).passed h.2.toNat then { x with state := .ready } else x

/-- Every subscribed wait that a step has satisfied wakes. -/
def State.wakePhaser (s : State) : State := { s with strands := s.strands.map s.wakeWait }

/-- The checks and the order of a step at the record of b[A] (R355, R358): a release waits for every earlier access and writes its L1 back, a
relaxed step only for the strand's own accesses to the record's bytes and for a full fence, whatever the window's KIND. -/
def phaserRecord (m : Mask) (release : Bool) : M Piece := do
  let f ← form
  let base ← getB f.a
  let ps ← checkGlobal .atomic 64 64 [(m.lowest, base.toNat)] (some m)
  match ps with
  | [] => throw (.block .touch)
  | p :: _ =>
    needPages p.ia 64 p.window.prefhost
    let j ← get
    awaitOrder { kind := .atom 0 .b32, scope := .device, ord := if release then .release else .relaxed }
      (if release then .rc else .uo) [{ addr := p.ia, width := 64, lane := 0, slot := 0 }]
    updS fun s =>
      let s := if release then s.l1Release j.st.agentCore .device else s
      (s.atomPrepare j.st.agentCore p.window.wkind .device p.ia).touchClass j.st j.e .v
        [.global (sectorOf p.ia), .global (sectorOf p.ia + 1)]
    pure p

/-- A PHASER trap (R360): it is an access to the record of b[A] (R208). -/
def phaserTrap {α : Type} (code : Nat) : M α := do
  let f ← form
  let j ← get
  trapM 0x15 (BitVec.ofNat 32 code) (vget j.st.b f.a 0).toNat

/-- The record as the step finds it, well formed (R355). -/
def phaserRead (p : Piece) : M Phaser := do
  let j ← get
  let r := j.s.phaserAt p.ia
  if r.ok then pure r else phaserTrap 1

/-- The record as a step leaves it, and the waits it wakes. -/
def phaserWrite (p : Piece) (r : PhStep) : M Unit := do
  match r with
  | .bad k => phaserTrap k
  | .ok r =>
    noteStores [.global (sectorOf p.ia)]
    let j ← get
    updS fun s => (s.atomWrite j.st.agentCore j.st.id .device p.ia r.bytes).wakePhaser

/-- The phase operand p: uniform even under an empty M (R355). -/
def phaserArg : M Unit := do
  readyB
  needUniformB

/-- PHREG. -/
def phregBody : M Unit := do
  let f ← form
  let m ← effMask
  if m = 0 then pure ()
  else
    let p ← phaserRecord m false
    let r ← phaserRead p
    let step := r.reg f.x.x1 f.x.x2
    phaserWrite p step.1
    writeV f.d (.u (BitVec.ofNat 32 step.2)) m

/-- PHDROP: with d = 0 it is a release (R358). -/
def phdropBody : M Unit := do
  let f ← form
  phaserArg
  let m ← effMask
  if m = 0 then pure ()
  else
    let q ← uniformB
    let p ← phaserRecord m false
    let r ← phaserRead p
    if r.dist q.toNat = 0 then
      let _ ← phaserRecord m true
    let r ← phaserRead p
    phaserWrite p (r.drop q.toNat f.x.x1 f.x.x2)

/-- PHSIG. -/
def phsigBody : M Unit := do
  phaserArg
  let m ← effMask
  if m = 0 then pure ()
  else
    let q ← uniformB
    let p ← phaserRecord m true
    let r ← phaserRead p
    phaserWrite p (r.sig q.toNat)

/-- The wait of PHWAIT and PHSW: an acquire when it completes, else the strand is subscribed (R356, R358, R359). -/
def phaserWait (p : Piece) (q : Word) : M Unit := do
  let f ← form
  let j ← get
  if (j.s.phaserAt p.ia).passed q.toNat then
    upd fun st => { st with held := none }
    updS fun s => s.l1Acquire j.st.agentCore .device
  else
    upd fun st => { st with held := some (vget j.st.b f.a 0, q) }
    throw (.hold .phaser)

/-- PHWAIT. -/
def phwaitBody : M Unit := do
  phaserArg
  let m ← effMask
  if m = 0 then pure ()
  else
    let q ← uniformB
    let p ← phaserRecord m false
    let j ← get
    if j.st.held.isNone then
      let _ ← phaserRead p
    phaserWait p q

/-- PHSW: the signal is made once, when the strand holds no wait yet. -/
def phswBody : M Unit := do
  phaserArg
  let m ← effMask
  if m = 0 then pure ()
  else
    let q ← uniformB
    let j ← get
    if j.st.held.isNone then
      let p ← phaserRecord m true
      let r ← phaserRead p
      phaserWrite p (r.sig q.toNat)
      phaserWait p q
    else
      let p ← phaserRecord m false
      phaserWait p q

/-- PHQ. -/
def phqBody : M Unit := do
  let f ← form
  let m ← effMask
  if m = 0 then pure ()
  else
    let p ← phaserRecord m false
    let r ← phaserRead p
    writeV f.d (.u (BitVec.ofNat 32 r.phase)) m

/-- PHASER_POLL (R359): a blocked wait re-reads its record, and wakes when the phase has passed. -/
def execPhaserPoll (strand : Nat) (s : State) : Host.Outcome State Fault Refusal :=
  .next (match s.strand? strand with | some st => s.setStrand (s.wakeWait st) | none => s)

/-! ### The instructions -/

/-- BAR, B32 (R349). -/
def execBar (o : W0) (s : State) : Host.Outcome State Fault Refusal :=
  run (Form.b32 Enc.bar' o) barBody s

/-- BAR, X96 (R349). -/
def execBarX96 (o : X96) (s : State) : Host.Outcome State Fault Refusal :=
  run (Form.x96 Enc.bar' o) barBody s

/-- PHREG (R356). -/
def execPhreg (o : X96) (s : State) : Host.Outcome State Fault Refusal :=
  run (Form.x96 Enc.phreg' o) phregBody s

/-- PHDROP (R356). -/
def execPhdrop (o : X96) (s : State) : Host.Outcome State Fault Refusal :=
  run (Form.x96 Enc.phdrop' o) phdropBody s

/-- PHSIG (R356). -/
def execPhsig (o : X96) (s : State) : Host.Outcome State Fault Refusal :=
  run (Form.x96 Enc.phsig' o) phsigBody s

/-- PHWAIT (R356). -/
def execPhwait (o : X96) (s : State) : Host.Outcome State Fault Refusal :=
  run (Form.x96 Enc.phwait' o) phwaitBody s

/-- PHSW (R356). -/
def execPhsw (o : X96) (s : State) : Host.Outcome State Fault Refusal :=
  run (Form.x96 Enc.phsw' o) phswBody s

/-- PHQ (R356). -/
def execPhq (o : X96) (s : State) : Host.Outcome State Fault Refusal :=
  run (Form.x96 Enc.phq' o) phqBody s

end Sys2Proof.Machine
end

