-- ==== Sys2Proof/Machine/Ring.lean ====
section
/-!
DEFINITION. Rings: the counters of a q register (R362, R363), RDEF, RACQ, RPUB, RGET and RREL (R365, R366).
-/

namespace Sys2Proof.Machine

/-! ### Counters (R362) -/

/-- The acquire pointer Qp. -/
def Ring.acqPtr (r : Ring) : Nat := (r.cidx + r.cnt - r.free) % (2 * r.cnt)

/-- The get pointer G. -/
def Ring.getPtr (r : Ring) : Nat := (r.pidx + 2 * r.cnt - r.filled) % (2 * r.cnt)

/-- The held count Hp: slots acquired and not yet published. -/
def Ring.heldP (r : Ring) : Nat := (r.acqPtr + 2 * r.cnt - r.pidx) % (2 * r.cnt)

/-- The held count Hc: slots got and not yet released. -/
def Ring.heldC (r : Ring) : Nat := (r.getPtr + 2 * r.cnt - r.cidx) % (2 * r.cnt)

/-- The byte at which slot `n` starts. -/
def Ring.slotAddr (r : Ring) (n : Nat) : Nat := 128 * r.off + n * 2 ^ r.lsz

/-- RACQ takes this slot: FREE - 1 (R365). -/
def Ring.acquire (r : Ring) : Ring × Nat :=
  let n := r.acqPtr % r.cnt
  ({ r with free := r.free - 1, handed := r.handed.filter fun h => h.1 != n }, n)

/-- RPUB: FILLED + 1, PIDX + 1; the slot is published (R368). -/
def Ring.publish (r : Ring) : Ring :=
  { r with filled := r.filled + 1, pidx := (r.pidx + 1) % (2 * r.cnt), handed := r.handed ++ [(r.pidx % r.cnt, true)] }

/-- RGET takes this slot: FILLED - 1. -/
def Ring.take (r : Ring) : Ring × Nat := ({ r with filled := r.filled - 1 }, r.getPtr % r.cnt)

/-- RREL: CIDX + 1, FREE + 1; the slot is released (R368). -/
def Ring.release (r : Ring) : Ring :=
  { r with cidx := (r.cidx + 1) % (2 * r.cnt), free := r.free + 1, handed := r.handed ++ [(r.cidx % r.cnt, false)] }

/-! ### Ring steps of strands -/

/-- q[n] of a group. -/
def Group.ring (g : Group) (n : Nat) : Ring := vget g.rings n {}

/-- A group with q[n] replaced. -/
def Group.setRing (g : Group) (n : Nat) (r : Ring) : Group := { g with rings := vset g.rings n r }

/-- The state with q[n] of a group replaced. -/
def State.setRing (s : State) (gid n : Nat) (r : Ring) : State :=
  match s.group? gid with
  | some g => s.setGroup (g.setRing n r)
  | none => s

/-- A RING trap (R367). -/
def ringTrap {α : Type} (n code : Nat) : M α := trapM 0x12 (BitVec.ofNat 32 (code + 256 * n))

/-- The group of the strand, with q[A]. -/
def ownRing : M (Option Ring) := do
  let f ← form
  let j ← get
  pure ((j.s.group? j.e.group).map fun g => g.ring f.a)

/-- q[A] changed by a step. -/
def ringStep (r : Ring) : M Unit := do
  let f ← form
  let j ← get
  updS fun s => s.setRing j.e.group f.a r

/-- What a ring step of the strand waits for, so that steps which happen one before the other keep that order (R369): its earlier acquires, and
for a releasing step every earlier access (R366). -/
def ringAwait (release : Bool) : M Unit :=
  awaitOrder { kind := if release then .order else .scrLoad 0, scope := .cluster, ord := .relaxed } .rc []

/-- A ring step is refused: not defined, or a class set that lacks V (R365). -/
def ringCheck (r : Ring) (producer : Bool) : M Unit := do
  let f ← form
  if !r.defd then ringTrap f.a 1
  if !((if producer then r.pcls else r.ccls).getLsbD 0) then ringTrap f.a 2

/-- The fence of an acquiring step, from the classes `src` to V at cluster scope, put in flight (R366). -/
def ringAcquire (src : BitVec 4) (prod : Option Nat) : M Nat := do
  let j ← get
  updS fun s => s.fenceClasses j.e (src.toNat ||| 1)
  launchAccess { kind := .xfence src.toNat 1, scope := .cluster, ord := .relaxed, prod := prod } .rc []

/-- The fence of a releasing step, from V to the classes `dst` (R366); every earlier access of the strand has been performed. -/
def ringRelease (dst : BitVec 4) : M Unit := do
  let j ← get
  updS fun s =>
    let s := (s.fenceClasses j.e (dst.toNat ||| 1)).l1Release j.st.agentCore .cluster
    if dst.getLsbD 0 then s.l1Acquire j.st.agentCore .cluster else s

/-- RDEF. -/
def rdefBody : M Unit := do
  let f ← form
  let m ← effMask
  if m = 0 then pure ()
  else
    ringAwait false
    let j ← get
    match j.s.group? j.e.group with
    | none => pure ()
    | some g =>
      let d := j.e.hdr.rings.getD f.a {}
      let q := g.ring f.a
      let pc : BitVec 4 := f.x.imm.extractLsb' 0 4
      let cc : BitVec 4 := f.x.imm.extractLsb' 4 4
      if d.cnt = 0 || g.scratchLen < 128 * d.off + d.cnt * 2 ^ d.lsz then ringTrap f.a 5
      if q.defd && q.free != q.cnt then ringTrap f.a 6
      if pc = 0 || cc = 0 then ringTrap f.a 7
      updS fun s => s.setRing g.id f.a
        { defd := true, ccls := cc, pcls := pc, cidx := 0, pidx := 0, filled := 0, free := d.cnt, off := d.off, lsz := d.lsz
          cnt := d.cnt, owner := j.st.core }

/-- RACQ. -/
def racqBody : M Unit := do
  let f ← form
  let m ← effMask
  if m = 0 then pure ()
  else
    ringAwait false
    match ← ownRing with
    | none => pure ()
    | some q =>
      ringCheck q true
      if q.free = 0 then throw (.block .ring)
      let t := q.acquire
      ringStep t.1
      let _ ← ringAcquire q.ccls none
      writeV f.d (.u (BitVec.ofNat 32 (q.slotAddr t.2))) m

/-- RPUB. -/
def rpubBody : M Unit := do
  let f ← form
  let m ← effMask
  if m = 0 then pure ()
  else
    ringAwait true
    match ← ownRing with
    | none => pure ()
    | some q =>
      ringCheck q true
      if q.heldP = 0 then ringTrap f.a 3
      ringRelease q.ccls
      ringStep q.publish

/-- RGET: a long-latency producer that completes with its acquire. -/
def rgetBody : M Unit := do
  let f ← form
  let m ← effMask
  if m = 0 then pure ()
  else
    ringAwait false
    match ← ownRing with
    | none => pure ()
    | some q =>
      ringCheck q false
      if q.filled = 0 then throw (.block .ring)
      let t := q.take
      prepLong f.d true m
      ringStep t.1
      let pid ← startProducer [f.d] m true false
      let id ← ringAcquire q.pcls (some pid)
      updProd pid fun p => { p with dests := [(f.d, Lanes.const (BitVec.ofNat 32 (q.slotAddr t.2)))], waiting := [id] }

/-- RREL. -/
def rrelBody : M Unit := do
  let f ← form
  let m ← effMask
  if m = 0 then pure ()
  else
    ringAwait true
    match ← ownRing with
    | none => pure ()
    | some q =>
      ringCheck q false
      if q.heldC = 0 then ringTrap f.a 4
      ringRelease q.pcls
      ringStep q.release

/-! ### The instructions -/

/-- RDEF (R365). -/
def execRdef (o : X96) (s : State) : Host.Outcome State Fault Refusal :=
  run (Form.x96 Enc.rdef' o) rdefBody s

/-- RACQ (R365). -/
def execRacq (o : X96) (s : State) : Host.Outcome State Fault Refusal :=
  run (Form.x96 Enc.racq' o) racqBody s

/-- RPUB (R365). -/
def execRpub (o : X96) (s : State) : Host.Outcome State Fault Refusal :=
  run (Form.x96 Enc.rpub' o) rpubBody s

/-- RGET (R365). -/
def execRget (o : X96) (s : State) : Host.Outcome State Fault Refusal :=
  run (Form.x96 Enc.rget' o) rgetBody s

/-- RREL (R365). -/
def execRrel (o : X96) (s : State) : Host.Outcome State Fault Refusal :=
  run (Form.x96 Enc.rrel' o) rrelBody s

end Sys2Proof.Machine
end

