-- ==== Sys2Proof/Machine/Engine.lean ====
section
/-!
DEFINITION. The engines as paths to memory: STCT, STZ, LDZ, CPY, CPYW and XFENCE (R372-R390), charge requests (R467-R470), and the
event COPY_COMPLETE (R377).
-/

namespace Sys2Proof.Machine

/-! ### STCT (R385) -/

/-- The elements of a row of STCT: each of 8 bits or more is stored by itself; 4-bit elements go by bytes, and a byte is written when it
holds an element of M. -/
def stctRow (w : Nat) (m : Mask) (p : Piece) (q : Nat → Nat) : List (WKind × Elem) :=
  let elem := fun (at' n i x : Nat) =>
    (p.window.wkind, { addr := p.ia + at', width := n, lane := i, slot := 0, data := x, pref := p.window.prefhost : Elem })
  if w = 4 then
    ((List.range 16).filter fun k => m.has (2 * k) || m.has (2 * k + 1)).map fun k =>
      let half := fun (i : Nat) => if m.has i then q i else 0
      elem k 1 (2 * k) (half (2 * k) + 16 * half (2 * k + 1))
  else m.lanes.map fun i => elem (i * (w / 8)) (w / 8) i (q i)

/-- STCT. -/
def stctBody : M Unit := do
  let f ← form
  let x := f.x
  let n := x.func.toNat % 16 + 1
  let regs := (List.range n).map fun e => f.d + e
  readyB
  regs.forM readyWait
  let m ← effMask
  needUniformB
  if m = 0 then pure ()
  else
    let pitch ← uniformB
    let base ← getB f.a
    let w := Ty.elemBits x.ty
    let rb := 4 * w
    let va := fun (e : Nat) => (((base.toNat : Int) + e * pitch.toInt) % 2 ^ 64).toNat
    let ps ← checkGlobal .write rb rb ((List.range n).map fun e => (e, va e)) (some m)
    let vs ← readRun regs
    let sr ← srState
    let lane := fun (e i : Nat) => match vs[e]? with | some v => v.at i | none => 0
    let q := fun (e i : Nat) => toElem x.ty x.rnd x.sat (if x.rnd = .sr then srDraw sr i e else 0) (f32 (lane e i))
    if x.x1 then amaxUpdate f.c x.ty.code ((List.range n).flatMap fun e => m.lanes.map fun i => f32 (lane e i))
    storeElems x.scope x.ord (ps.flatMap fun p => stctRow w m p (q p.lane))

/-! ### Packed areas (R386-R389) -/

/-- The bytes of a value of a packed type. -/
def packWidth (t : Nat) : Nat := if t = 6 || t = 7 then 2 else 4

/-- The size of a record (R387). -/
def recordSize (n nv ty : Nat) : Nat := 4 + 4 * n + 4 * ((nv * packWidth ty + 3) / 4)

/-- The words of a little-endian byte sequence whose length is a multiple of 4. -/
def wordsOf (bs : List Byte) : List Nat := (List.range (bs.length / 4)).map fun i => natLE ((bs.drop (4 * i)).take 4)

/-- The words of the record of a data run (R387, R388): `z e i` is element (i, e), 0 where it is absent. -/
def recordWords (n ty : Nat) (z : Nat → Nat → Nat) : List Nat :=
  let es := List.range n
  let vals := es.flatMap fun e => ((List.range 32).map fun i => z e i).filter fun x => x != 0
  let masks := es.map fun e => (Mask.of fun i => z e i != 0).toNat
  let bytes := vals.flatMap fun x => bytesLE (packWidth ty) x
  let pad := List.replicate (4 * ((bytes.length + 3) / 4) - bytes.length) (0 : Byte)
  (vals.length + 2 ^ 8 * n + 2 ^ 11 * ty) :: (masks ++ wordsOf (bytes ++ pad))

/-- A precise trap of the instruction as a whole, with the window of its address. -/
def wholeTrap {α : Type} (cause win reason : Nat) (m : Mask) (va : Nat) : M α :=
  trapWith cause (accessDetail win reason m.lowest) m va

/-- A span of the instruction as a whole, in the window of its first byte: STRADDLE where it passes the window's end, LEASE where a page
is not leased (R196). -/
def checkSpan (p : Piece) (va n : Nat) (m : Mask) : M Unit := do
  let j ← get
  if p.window.vlast < (va + n - 1) / 65536 then wholeTrap 0x0E p.win 3 m va
  let lease := j.s.leaseSet j.e
  if (List.range (pageOf (p.ia + n - 1) - pageOf p.ia + 1)).all fun i => lease.contains (pageOf p.ia + i) then pure ()
  else throw (.group { code := 0x0F, detail := accessDetail p.win 0 m.lowest, lanes := m, va := va, ia := p.ia })

/-- STZ. -/
def stzBody : M Unit := do
  let f ← form
  let x := f.x
  readyB
  f.runRegs.forM readyWait
  let m ← effMask
  needUniformB
  if m = 0 then pure ()
  else
    let idx ← uniformB
    let base ← getB f.a
    let va := globalAddr f base idx 1
    let ps ← checkGlobal .update 32 32 [(m.lowest, va)] (some m)
    match ps with
    | [] => throw (.block .touch)
    | p :: _ =>
      let vs ← readRun f.runRegs
      let n := f.runRegs.length
      let z := fun (e i : Nat) => if m.has i then runData x.ty vs e i else 0
      let words := recordWords n x.ty.code z
      let size := 4 * words.length
      needPages p.ia 32 p.window.prefhost
      awaitOrder { kind := .atom 0 .b32, scope := .device, ord := x.ord } p.window.wkind
        [{ addr := p.ia, width := 32, lane := 0, slot := 0 }]
      let core := (← get).st.agentCore
      updS fun s =>
        let s := if x.ord = .release && p.window.wkind != .uo then s.l1Release core x.scope else s
        s.atomPrepare core p.window.wkind .device p.ia
      let j ← get
      let field := fun (i : Nat) => natLE ((List.range 4).map fun k => j.s.homeByte false (p.ia + 4 * i + k))
      let cap := field 0
      let len := field 1
      if (List.range 16).any fun k => j.s.homeByte false (p.ia + 16 + k) != 0 then windowTrap p.win 7 m va
      if cap % 4 != 0 || len % 4 != 0 || cap < len then windowTrap p.win 7 m va
      if p.window.vlast < (va + 32 + cap - 1) / 65536 then wholeTrap 0x0E p.win 3 m va
      if cap < len + size then trapWith 0x10 (BitVec.ofNat 32 (size % 512)) m va
      let at' := p.ia + 32 + len
      checkSpan { p with ia := at' } (va + 32 + len) size m
      updS fun s =>
        let s := s.touchClass j.st j.e .v [.global (sectorOf p.ia)]
        s.atomWrite core j.st.id .device (p.ia + 4) (packFields [(4, len + size), (4, field 2 + 1), (4, field 3 + 32 * n)])
      noteStores [.global (sectorOf p.ia)]
      storeElems x.scope .relaxed ((List.range words.length).map fun i =>
        (p.window.wkind, { addr := at' + 4 * i, width := 4, lane := 0, slot := 0, data := words.getD i 0, pref := p.window.prefhost }))

/-- One aligned word of a record, read at issue; its value and its poison. -/
def readWord (p : Piece) (i : Nat) : M (Nat × Bool) := do
  let f ← form
  let j ← get
  let misses := j.s.l1Misses j.st.agentCore p.window.wkind f.x.scope (p.ia + 4 * i) 4
  let r := j.s.loadElem j.st.agentCore p.window.wkind f.x.scope (p.ia + 4 * i) 4
  updS fun _ => if misses = 0 then r.1 else r.1.count j.e.ctx 5 misses
  pure (r.2.value, r.2.poison)

/-- The place among a record's values of element (i, e), which the masks hold: those of lower registers come first, then those of lower lanes
(R387). -/
def packedIndex (masks : List Nat) (e i : Nat) : Nat :=
  let before := (masks.take e).foldl (fun (acc : Nat) k => acc + Mask.count (BitVec.ofNat 32 k)) 0
  before + ((List.range i).filter fun t => Mask.has (BitVec.ofNat 32 (masks.getD e 0)) t).length

/-- The lanes of register `e` of a record: `masks` are its mask words and `vals` its value bytes. -/
def expandLanes (w e : Nat) (masks : List Nat) (vals : List Byte) : Lanes :=
  let mask : Mask := BitVec.ofNat 32 (masks.getD e 0)
  Lanes.tab fun i => if mask.has i then BitVec.ofNat 32 (natLE ((vals.drop (w * packedIndex masks e i)).take w)) else 0

/-- Poison comes with a record into a lane of M: with its header or a mask word, which decide every lane, or with a word that holds a value of such
a lane (R457). `words` are the words behind the header, each with its poison. -/
def recordPoison (w : Nat) (m : Mask) (head : Bool) (masks : List Nat) (words : List (Nat × Bool)) : Bool :=
  let n := masks.length
  head || (words.take n).any Prod.snd ||
    (List.range n).any fun e => m.lanes.any fun i =>
      Mask.has (BitVec.ofNat 32 (masks.getD e 0)) i && (words.getD (n + w * packedIndex masks e i / 4) (0, false)).2

/-- LDZ. -/
def ldzBody : M Unit := do
  let f ← form
  let x := f.x
  readyB
  let m ← effMask
  needUniformB
  if m = 0 then pure ()
  else
    let idx ← uniformB
    let base ← getB f.a
    let va := globalAddr f base idx 1
    let ps ← checkGlobal .read 4 4 [(m.lowest, va)] (some m)
    match ps with
    | [] => throw (.block .touch)
    | p :: _ =>
      let order := fun (n : Nat) => do
        needPages p.ia n p.window.prefhost
        awaitOrder { kind := .load, scope := x.scope, ord := x.ord } p.window.wkind [{ addr := p.ia, width := n, lane := 0, slot := 0 }]
      order 4
      let h ← readWord p 0
      let nv := h.1 % 256
      let n := h.1 / 2 ^ 8 % 8
      let ty := h.1 / 2 ^ 11 % 16
      let size := recordSize n nv ty
      checkSpan p va size m
      order size
      let rest ← ((List.range (size / 4)).drop 1).mapM fun i => readWord p i
      let words := rest.map Prod.fst
      let masks := words.take n
      let bits := masks.foldl (fun (acc : Nat) k => acc + Mask.count (BitVec.ofNat 32 k)) 0
      if h.1 / 2 ^ 15 != 0 || n != x.count || ty != x.ty.code || bits != nv then windowTrap p.win 7 m va
      let regs := f.runRegs
      regs.forM fun r => prepLong r false m
      let pid ← startProducer regs m false false
      let vals := (words.drop n).flatMap fun k => bytesLE 4 k
      let j ← get
      updProd pid fun q =>
        { q with dests := (List.range regs.length).map fun e => (regs.getD e 0, expandLanes (packWidth ty) e masks vals)
                 poison := recordPoison (packWidth ty) m h.2 masks rest }
      updS fun s =>
        let s := s.touchClass j.st j.e .v ((List.range (size / 4)).map fun i => Sector.global (sectorOf (p.ia + 4 * i))).eraseDups
        if x.ord = .acquire && p.window.wkind != .uo then s.l1Acquire j.st.agentCore x.scope else s

/-! ### XFENCE (R375) -/

/-- XFENCE. -/
def xfenceBody : M Unit := do
  let f ← form
  let m ← effMask
  if m = 0 then pure ()
  else
    let src := f.x.func.toNat % 16
    let dst := f.x.func.toNat / 16
    let j ← get
    updS fun s => s.fenceClasses j.e (src ||| dst)
    let _ ← launchAccess { kind := .xfence src dst, scope := f.x.scope, ord := .relaxed } .rc []
    pure ()

/-! ### Charge requests (R468, R469) -/

/-- What a grant gives: 64 arithmetic cycles of a quadrant, a burst of a copy, or a task's charge. -/
def State.granted (s : State) (cl : Nat) (r : ChargeReq) : State :=
  match r.who with
  | (0, core, q) =>
    let c := s.core core
    s.setCore { c with burst := vset c.burst q 64, burstFrom := vset c.burstFrom q s.now }
  | (1, id, _) =>
    match s.copies.find? fun k => k.id == id with
    | none => s
    | some k =>
      let s := { s with copies := s.copies.map fun x => if x.id == id then { x with bursts := x.bursts - 1 } else x }
      if 1 < k.bursts then
        let c := s.cluster cl
        s.setCluster { c with requests := c.requests ++ [{ r with cost := c.cost 2 1 }] }
      else s
  | (_, seq, _) =>
    let c := s.cluster cl
    s.setCluster { c with tasks := c.tasks.map fun t => if t.seq == seq then { t with charged := true } else t }

/-- The charge of a request taken from the bucket (R469). -/
def State.grant (s : State) (cl : Nat) (r : ChargeReq) : State :=
  let c := s.cluster cl
  (s.setCluster { c with level := c.level - r.cost, requests := c.requests.erase r }).granted cl r

/-- A request is granted at once where no other waits and the bucket holds its cost, else it is queued. -/
def State.request (s : State) (cl : Nat) (r : ChargeReq) : State :=
  let c := s.cluster cl
  if c.requests.isEmpty && c.canGrant r.cost then s.grant cl r
  else s.setCluster { c with requests := c.requests ++ [r] }

/-- The request that the arbiter grants next: the oldest of the highest level (R469). -/
def Cluster.nextRequest (c : Cluster) : Option ChargeReq :=
  let top := c.requests.foldl (fun (acc : Nat) r => max acc r.level) 0
  c.requests.find? fun r => r.level == top

/-- CHARGE_GRANT (R469). -/
def execChargeGrant (cluster : Nat) (s : State) : Host.Outcome State Fault Refusal :=
  .next (match (s.cluster cluster).nextRequest with
    | some r => if (s.cluster cluster).canGrant r.cost then s.grant cluster r else s
    | none => s)

/-! ### CPY (R377-R382) -/

/-- Fields of a control word (R379). -/
structure CopyCtl where
  ssp : Nat
  dsp : Nat
  sg : Nat
  dg : Nat
  rq : Nat
  rmode : Nat
  scp : Nat

/-- The control word taken apart. -/
def CopyCtl.of (w : Word) : CopyCtl :=
  let n := w.toNat
  { ssp := bitsOf n 1 0, dsp := bitsOf n 3 2, sg := bitsOf n 6 4, dg := bitsOf n 9 7, rq := bitsOf n 13 10, rmode := bitsOf n 15 14
    scp := bitsOf n 18 16 }

/-- A scope of a code 0 to 4. -/
def Scope.ofCode (n : Nat) : Scope :=
  match n with | 0 => .group | 1 => .cluster | 2 => .die | 3 => .device | _ => .system

/-- First byte of row `r` from a start and a stride. -/
def rowAddr (start : Nat) (stride : Int) (r : Nat) : Int := (start : Int) + r * stride

/-- A row's address in 64 bits. -/
def rowVa (start : Nat) (stride : Int) (r : Nat) : Nat := (rowAddr start stride r % 2 ^ 64).toNat

/-- A read of a word of a copy: its value and its poison (R381). -/
def State.copyRead (s : State) (c : Ctx) (space scope group a : Nat) : State × Nat × Bool :=
  if space = 0 then
    match c.translate a with
    | some (_, _, ia) =>
      let r := s.loadElem 1001 .so (Scope.ofCode scope) ia 4
      (r.1, r.2.value, r.2.poison)
    | none => (s, 0, false)
  else
    match s.group? group with
    | some g => (s, g.load a 4, g.poisoned a 4)
    | none => (s, 0, false)

/-- A row of a copy written at an address, its words with their poison, by the engine: an agent other than the strand (R284). A sector written whole
loses its tag, and poisoned data is written as poisoned data (R381, R457). -/
def State.copyWrite (s : State) (c : Ctx) (space scope group a : Nat) (ws : List (Nat × Bool)) : State :=
  if space = 0 then
    let s := ws.zipIdx.foldl (fun (s : State) w =>
      match c.translate (a + 4 * w.2) with
      | some (_, _, ia) => s.storeElem 1001 0 .so (Scope.ofCode scope) ia (bytesLE 4 w.1.1)
      | none => s) s
    let s := match c.translate a with
      | some (_, _, ia) => s.clearCovered 1001 [(ia, 4 * ws.length)]
      | none => s
    ws.zipIdx.foldl (fun (s : State) w =>
      match c.translate (a + 4 * w.2) with
      | some (_, win, ia) => if w.1.2 then s.tagSector 1001 0 (sectorOf ia) c.conf win.prefhost else s
      | none => s) s
  else
    let s := s.scratchStore group 0 (ws.zipIdx.map fun w => { addr := a + 4 * w.2, width := 4, lane := 0, slot := 0, data := w.1.1 })
    match s.group? group with
    | some g =>
      let bad := (ws.zipIdx.filter fun w => w.1.2).map fun w => (a + 4 * w.2) / 32
      s.setGroup { g with poison := bad.foldl (fun p n => if p.contains n then p else n :: p) g.poison }
    | none => s

/-- The words of a copy moved, row by row; a row is read before it is written. -/
def State.copyMove (s : State) (k : Copy) : State :=
  match s.ctx? k.ctx with
  | none => s
  | some c =>
    let c := { c with windows := k.windows }
    let t := CopyCtl.of k.ctl
    (List.range k.rows).foldl (fun s r =>
      let (s, ws) := (List.range (k.rowLen / 4)).foldl (fun (acc : State × List (Nat × Bool)) i =>
        let r' := acc.1.copyRead c t.ssp t.scp k.srcGroup (rowVa k.src k.sstr r + 4 * i)
        (r'.1, acc.2 ++ [r'.2])) (s, [])
      s.copyWrite c t.dsp t.scp k.dstGroup (rowVa k.dst k.dstr r) ws) s

/-- The sectors that one side of a copy touches: of global memory, or of a group's scratchpad. -/
def Copy.sectors (k : Copy) (c : Ctx) (space group start : Nat) (stride : Int) : List Sector :=
  if k.rowLen = 0 then []
  else
    ((List.range k.rows).flatMap fun r =>
      let span := fun (a : Nat) => (List.range ((a + k.rowLen - 1) / 32 - a / 32 + 1)).map fun i => a / 32 + i
      if space = 0 then
        match ({ c with windows := k.windows } : Ctx).translate (rowVa start stride r) with
        | some (_, _, ia) => (span ia).map Sector.global
        | none => []
      else (span (rowVa start stride r)).map (Sector.scratch group)).eraseDups

/-- The sectors of global memory that a copy touches on both sides. -/
def Copy.globals (k : Copy) (c : Ctx) : List Nat :=
  let t := CopyCtl.of k.ctl
  (k.sectors c t.ssp k.srcGroup k.src k.sstr ++ k.sectors c t.dsp k.dstGroup k.dst k.dstr).filterMap fun x =>
    match x with | .global n => some n | .scratch _ _ => none

/-- The pages of global memory that a copy touches on both sides, each with the PREFHOST of the window that translates the row (R202). -/
def Copy.pages (k : Copy) (c : Ctx) : List (Nat × Bool) :=
  if k.rowLen = 0 then []
  else
    let t := CopyCtl.of k.ctl
    let side := fun (space start : Nat) (stride : Int) =>
      if space != 0 then []
      else (List.range k.rows).flatMap fun r =>
        match ({ c with windows := k.windows } : Ctx).translate (rowVa start stride r) with
        | some (_, w, ia) => (List.range (pageOf (ia + k.rowLen - 1) - pageOf ia + 1)).map fun i => (pageOf ia + i, w.prefhost)
        | none => []
    (side t.ssp k.src k.sstr ++ side t.dsp k.dst k.dstr).eraseDups

/-- The pages of a copy after a first touch of each, and whether it may move its words (R202, R206, R462, R484): its engine is one of the die of
the strand's cluster (R377). -/
def State.copyReady (s : State) (k : Copy) : State × Bool :=
  match s.ctx? k.ctx with
  | none => (s, true)
  | some c =>
    let ps := k.pages c
    let die := match s.strand? k.strand with | some st => agentDie st.agentCore | none => 4
    let sys := (CopyCtl.of k.ctl).scp == 4
    let s := ps.foldl (fun s p => s.touchBy c p.1 p.2) s
    (s, (ps.all fun p => s.placeReady k.id (65536 * p.1)) && (k.globals c).all fun n => !s.transferHeld die sys (32 * n))

/-- The byte ranges of a scratchpad that one side of a copy touches. -/
def Copy.scratchRows (k : Copy) (space start : Nat) (stride : Int) : List (Nat × Nat) :=
  if space = 0 || k.rowLen = 0 then [] else (List.range k.rows).map fun r => (rowVa start stride r, k.rowLen)

/-- A copy holds its ring's order: an earlier copy that took a slot of the same side of the same ring is still started (R382). -/
def State.copyHeld (s : State) (k : Copy) : Bool :=
  let t := CopyCtl.of k.ctl
  s.copies.any fun x =>
    x.id < k.id && (x.strand == k.strand ||
      (t.rmode != 0 && x.group == k.group && (CopyCtl.of x.ctl).rmode == t.rmode && (CopyCtl.of x.ctl).rq == t.rq))

/-- The ring step of a copy names class C and the classes of the ring's other side (R366, R382). -/
def State.copyFence (s : State) (e : Env) (t : CopyCtl) (q : Ring) : State :=
  s.fenceClasses e (2 ||| (if t.rmode = 1 then q.ccls else q.pcls).toNat)

/-- The ring step of a copy that completes: RPUB or RREL of class C (R382). -/
def State.copyRing (s : State) (k : Copy) : State :=
  let t := CopyCtl.of k.ctl
  match s.group? k.group with
  | none => s
  | some g =>
    let q := g.ring t.rq
    let s := match (s.strand? k.strand).bind s.env? with
      | some e => if t.rmode = 0 then s else s.copyFence e t q
      | none => s
    let g := (s.group? k.group).getD g
    if t.rmode = 1 then s.setGroup (g.setRing t.rq q.publish)
    else if t.rmode = 2 then s.setGroup (g.setRing t.rq q.release)
    else s

/-- An earlier access of a strand holds back what the strand hands to an engine whose accesses are of class number `cls` (1 C, 2 M): an acquire,
from which a chain may carry that class, or an XFENCE towards it (R373, R375, R376, DEDUCED, log 105). -/
def Access.holdsClass (cls : Nat) (a : Access) : Bool :=
  a.acquires || (match a.kind with
    | .fence n => n != 2
    | .xfence _ d => d / 2 ^ cls % 2 == 1
    | _ => false)

/-- A started copy goes on: its words move once its bursts hold charge and nothing holds it back, and then, when the copies before it are
complete, it completes (R375, R377, R382). -/
def State.copyStep (s : State) (id : Nat) : State :=
  match s.copies.find? fun k => k.id == id with
  | none => s
  | some k =>
    -- a copy of no bytes makes no access that a fence could order (R380)
    let fenced := k.rows != 0 && s.flight.any fun a => a.strand == k.strand && a.id < k.id && a.holdsClass 1
    let (s, ready) := if k.moved || k.bursts != 0 || fenced then (s, k.moved) else s.copyReady k
    if k.bursts != 0 || !ready then s
    else
      let s := if k.moved then s
        else (let s := s.copyMove k; { s with copies := s.copies.map fun x => if x.id == id then { x with moved := true } else x })
      if s.copyHeld k then s
      else
        let s := { s.copyRing k with copies := s.copies.filter fun x => x.id != id }
        let t := CopyCtl.of k.ctl
        let s := { s with strands := s.strands.map fun (st : Strand) =>
          if st.id == k.strand then { st with copied := max st.copied (max t.scp 1) } else st }
        match s.group? k.group with
        | some g => s.settleTeam g.team
        | none => s

/-- COPY_COMPLETE (R377). -/
def execCopyComplete (copy : Nat) (s : State) : Host.Outcome State Fault Refusal :=
  .next (s.copyStep copy)

/-- The ring checks of a copy (R380): the ring is defined, its class set is exactly C, and the rows lie in a slot. -/
def copyRingCheck (t : CopyCtl) (q : Ring) (rows rowLen : Nat) (start : Nat) (stride : Int) (m : Mask) : M Unit := do
  if !q.defd then ringTrap t.rq 1
  if (if t.rmode = 1 then q.pcls else q.ccls) != 2 then ringTrap t.rq 8
  let out := fun (r : Nat) => rowAddr start stride r < 0 || (2 ^ q.lsz : Int) < rowAddr start stride r + rowLen
  if rowLen != 0 && (List.range rows).any out then windowTrap 16 7 m

/-- One side of a copy: the global rows it asks R196 about, none for a scratchpad. -/
def copyAsks (space start : Nat) (stride : Int) (rows rowLen : Nat) (need : Need) (lane : Nat) : List Ask :=
  if space = 0 then (List.range rows).map fun r => { lane := lane, va := rowVa start stride r, span := rowLen, need := need } else []

/-- CPY. -/
def cpyBody : M Unit := do
  let f ← form
  let m ← effMask
  if m = 0 then pure ()
  else
    let src ← getB f.a
    let dst ← getB (f.a + 1)
    let d2 ← getB (f.a + 2)
    let d3 ← getB (f.a + 3)
    let t := CopyCtl.of f.x.imm
    let rows := (d2.extractLsb' 32 16).toNat
    let rowLen := (d2.extractLsb' 0 24).toNat
    let sstr := d3.lo.toInt
    let dstr := d3.hi.toInt
    if d2.extractLsb' 48 16 != 0 || d2.extractLsb' 24 8 != 0 then windowTrap 16 7 m
    if src.toNat % 4 != 0 || dst.toNat % 4 != 0 || rowLen % 4 != 0 || sstr % 4 != 0 || dstr % 4 != 0 then
      wholeTrap 0x0C 16 0 m 0
    if t.rmode != 0 then ringAwait false
    let j ← get
    match j.s.group? j.e.group, j.s.ctx? j.e.ctx with
    | some g, some c =>
      let q := g.ring t.rq
      if t.rmode = 1 then copyRingCheck t q rows rowLen dst.toNat dstr m
      else if t.rmode = 2 then copyRingCheck t q rows rowLen src.toNat sstr m
      else pure ()
      let n := if rowLen = 0 then 0 else rows
      let _ ← checkAsks 4 (copyAsks t.ssp src.toNat sstr n rowLen .read m.lowest ++ copyAsks t.dsp dst.toNat dstr n rowLen .write m.lowest)
        (some m)
      let side := fun (space start : Nat) (stride : Int) (gi : Nat) (ring : Bool) =>
        if space = 0 || ring then []
        else (List.range n).map fun r => (m.lowest, rowVa start stride r, [if space = 2 then gi else g.gi])
      -- the rows of both sides are checked together: the lowest-ordered cause of R218 is raised
      checkScratch true 4 rowLen (side t.ssp src.toNat sstr t.sg (t.rmode == 2) ++ side t.dsp dst.toNat dstr t.dg (t.rmode == 1)) (some m)
      if 16 ≤ (j.s.copies.filter fun k => k.strand == j.st.id).length then writeV f.d (.u 2) m
      else if (t.rmode = 1 && q.free = 0) || (t.rmode = 2 && q.filled = 0) then writeV f.d (.u 1) m
      else
        let take := if t.rmode = 1 then some q.acquire else if t.rmode = 2 then some q.take else none
        let base := match take with | some p => q.slotAddr p.2 | none => 0
        match take with
        | some p => updS fun s => (s.setRing g.id t.rq p.1).copyFence j.e t q
        | none => pure ()
        let id ← freshIns
        let k : Copy :=
          { id := id, strand := j.st.id, ctx := c.id, group := g.id, src := src.toNat + (if t.rmode = 2 then base else 0)
            dst := dst.toNat + (if t.rmode = 1 then base else 0), rows := n, rowLen := rowLen, sstr := sstr, dstr := dstr, ctl := f.x.imm
            windows := c.windows, srcGroup := if t.ssp = 2 then groupAt j.s j.e t.sg else g.id
            dstGroup := if t.dsp = 2 then groupAt j.s j.e t.dg else g.id, bursts := (n * rowLen + 4095) / 4096 }
        let out := k.sectors c t.dsp k.dstGroup k.dst k.dstr
        noteStores out
        -- a copy of no bytes completes here, which its strand observes (R376)
        updAll fun s =>
          let s := { s with copies := s.copies ++ [k] }
          let s := s.touchClass j.st j.e .c (k.sectors c t.ssp k.srcGroup k.src k.sstr ++ out)
          let s := s.noteSlots j.st j.e k.srcGroup false (k.scratchRows t.ssp k.src k.sstr)
          let s := s.noteSlots j.st j.e k.dstGroup true (k.scratchRows t.dsp k.dst k.dstr)
          if k.bursts = 0 then s.copyStep id
          else
            let cl := j.st.clusterNo
            s.request cl { level := j.e.level, cls := 2, cost := (s.cluster cl).cost 2 1, who := (1, id, 0) }
        writeV f.d (.u 0) m
    | _, _ => pure ()

/-- CPYW (R383). -/
def cpywBody : M Unit := do
  let f ← form
  let m ← effMask
  if m = 0 then pure ()
  else
    let j ← get
    if f.b < (j.s.copies.filter fun k => k.strand == j.st.id).length then throw (.block .cpyw)
    else
      updS fun s =>
        let s := s.fenceClasses j.e 3
        if j.st.copied = 0 then s else s.l1Acquire j.st.agentCore (Scope.ofCode j.st.copied)
      upd fun st => { st with copied := 0 }

/-! ### The instructions -/

/-- STCT (R385). -/
def execStct (o : X96) (s : State) : Host.Outcome State Fault Refusal :=
  run (Form.x96 Enc.stct' o) stctBody s

/-- STZ, B32 (R388). -/
def execStz (o : W0) (s : State) : Host.Outcome State Fault Refusal :=
  run (Form.b32 Enc.stz' o) stzBody s

/-- STZ, X96 (R388). -/
def execStzX96 (o : X96) (s : State) : Host.Outcome State Fault Refusal :=
  run (Form.x96 Enc.stz' o) stzBody s

/-- LDZ, B32 (R389). -/
def execLdz (o : W0) (s : State) : Host.Outcome State Fault Refusal :=
  run (Form.b32 Enc.ldz' o) ldzBody s

/-- LDZ, X96 (R389). -/
def execLdzX96 (o : X96) (s : State) : Host.Outcome State Fault Refusal :=
  run (Form.x96 Enc.ldz' o) ldzBody s

/-- XFENCE (R375). -/
def execXfence (o : X96) (s : State) : Host.Outcome State Fault Refusal :=
  run (Form.x96 Enc.xfence' o) xfenceBody s

/-- CPY (R380). -/
def execCpy (o : X96) (s : State) : Host.Outcome State Fault Refusal :=
  run (Form.x96 Enc.cpy' o) cpyBody s

/-- CPYW (R383). -/
def execCpyw (o : X96) (s : State) : Host.Outcome State Fault Refusal :=
  run (Form.x96 Enc.cpyw' o) cpywBody s

end Sys2Proof.Machine
end

