-- ==== Sys2Proof/Machine/Launch.lean ====
section
/-!
DEFINITION. LAUNCH and CHUNK (R325-R327).
-/

namespace Sys2Proof.Machine

/-! ### LAUNCH (R325) -/

/-- Address of the entry at an index of a queue's ring (R312). -/
def Queue.slotAddr (q : Queue) (i : BitVec 32) : Nat := q.qbase.toNat + 64 * (i.toNat % 2 ^ q.qsize)

/-- The ring is full (R312). -/
def Queue.full (q : Queue) : Bool := (q.tail - q.head).toNat = 2 ^ q.qsize

/-- The queue takes nothing: it is disabled or halted. -/
def Queue.closed (q : Queue) : Bool := q.state == .disabled || q.state == .halted

/-- Where the entry at TAIL goes, if it translates with W. -/
def Queue.target? (q : Queue) (c : Ctx) : Option (Window × Nat) :=
  match c.translate (q.slotAddr q.tail) with
  | some (_, w, ia) => if w.w then some (w, ia) else none
  | none => none

/-- The status of a LAUNCH (R325), and the entry's place for status 0. -/
def Queue.launchStatus (q : Queue) (c : Ctx) : Nat × Option (Window × Nat) :=
  if q.closed then (2, none)
  else if !q.devsub then (3, none)
  else if q.full then (1, none)
  else match q.target? c with
    | some t => (0, some t)
    | none => (4, none)

/-- The 64 bytes at the entry's address copied to its place, as a release at device scope. -/
def launchCopy (p : Piece) (t : Window × Nat) : M Unit := do
  needPages p.ia 64 p.window.prefhost
  needPages t.2 64 t.1.prefhost
  let j ← get
  awaitOrder { kind := .atom 0 .b32, scope := .device, ord := .release } .rc [{ addr := p.ia, width := 64, lane := 0, slot := 0 }]
  let core := j.st.agentCore
  updS fun s => s.l1Release core .device
  updS fun s =>
    let (s, ws) := (List.range 8).foldl (fun (acc : State × List Loaded) i =>
      let r := acc.1.loadElem core p.window.wkind .group (p.ia + 8 * i) 8
      (r.1, acc.2 ++ [r.2])) (s, [])
    let s := ws.zipIdx.foldl (fun (s : State) w => s.storeElem core j.st.id t.1.wkind .device (t.2 + 8 * w.2) (bytesLE 8 w.1.value)) s
    let s := s.clearCovered core [(t.2, 64)]
    let s := ws.zipIdx.foldl (fun (s : State) w =>
      if w.1.poison then s.tagSector core j.st.id (sectorOf (t.2 + 8 * w.2)) j.e.conf t.1.prefhost else s) s
    s.touchClass j.st j.e .v [.global (sectorOf p.ia), .global (sectorOf (p.ia + 32))]

/-- LAUNCH. -/
def launchBody : M Unit := do
  let f ← form
  let m ← effMask
  if m = 0 then pure ()
  else
    let base ← getB f.a
    let ps ← checkGlobal .read 64 64 [(m.lowest, baseAddr f base)] (some m)
    let j ← get
    match ps, j.s.ctx? j.e.ctx with
    | p :: _, some c =>
      let q := c.queue f.b
      match q.launchStatus c with
      | (0, some t) =>
        launchCopy p t
        updS fun s => match s.ctx? j.e.ctx with
          | some c => s.setCtx (c.setQueue { q with tail := q.tail + 1 })
          | none => s
        writeV f.d (.u 0) m
      | (n, _) => writeV f.d (.u (BitVec.ofNat 32 n)) m
    | _, _ => throw (.block .touch)

/-! ### CHUNK (R326, R327) -/

/-- The items handed out by one step: min(REMAIN, max(MIN, ceil(REMAIN / DIV))). -/
def chunkCount (remain mn dv : Nat) : Nat := min remain (max mn ((remain + dv - 1) / dv))

/-- CHUNK. -/
def chunkBody : M Unit := do
  let f ← form
  let m ← effMask
  if m = 0 then pure ()
  else
    let base ← getB f.a
    let ps ← checkGlobal .atomic 32 32 [(m.lowest, baseAddr f base)] (some m)
    match ps with
    | [] => throw (.block .touch)
    | p :: _ =>
      needPages p.ia 32 p.window.prefhost
      awaitOrder { kind := .atom 0 .b32, scope := .device, ord := .relaxed } p.window.wkind
        [{ addr := p.ia, width := 32, lane := 0, slot := 0 }]
      let core := (← get).st.agentCore
      updS fun s => s.atomPrepare core p.window.wkind .device p.ia
      let j ← get
      let field := fun (i : Nat) => natLE ((List.range 4).map fun k => j.s.homeByte false (p.ia + 4 * i + k))
      let remain := field 0
      let next := field 1
      let va := baseAddr f base
      if field 2 = 0 then trapM 0x16 1 va
      if field 3 = 0 then trapM 0x16 2 va
      if (List.range 16).any fun k => j.s.homeByte false (p.ia + 16 + k) != 0 then trapM 0x16 3 va
      let n := chunkCount remain (field 2) (field 3)
      prepLong f.d true m
      prepLong (f.d + 1) true m
      let pid ← startProducer [f.d, f.d + 1] m true false
      updProd pid fun q =>
        { q with dests := [(f.d, Lanes.const (BitVec.ofNat 32 next)), (f.d + 1, Lanes.const (BitVec.ofNat 32 n))]
                 poison := j.s.homePoison p.ia }
      noteStores [.global (sectorOf p.ia)]
      updS fun s =>
        (s.touchClass j.st j.e .v [.global (sectorOf p.ia)]).atomWrite core j.st.id .device p.ia
          (packFields [(4, remain - n), (4, (next + n) % 2 ^ 32)])

/-! ### The instructions -/

/-- LAUNCH, B32 (R325). -/
def execLaunch (o : W0) (s : State) : Host.Outcome State Fault Refusal :=
  run (Form.b32 Enc.launch' o) launchBody s

/-- LAUNCH, X96 (R325). -/
def execLaunchX96 (o : X96) (s : State) : Host.Outcome State Fault Refusal :=
  run (Form.x96 Enc.launch' o) launchBody s

/-- CHUNK, B32 (R327). -/
def execChunk (o : W0) (s : State) : Host.Outcome State Fault Refusal :=
  run (Form.b32 Enc.chunk' o) chunkBody s

/-- CHUNK, X96 (R327). -/
def execChunkX96 (o : X96) (s : State) : Host.Outcome State Fault Refusal :=
  run (Form.x96 Enc.chunk' o) chunkBody s

end Sys2Proof.Machine
end

