-- ==== Sys2Proof/Machine/Fetch.lean ====
section
/-!
DEFINITION. Instruction fetch: the words at the pc, with the traps a fetch raises (R50, R193, R194, R196), and the listed points (R303, R334).
-/

namespace Sys2Proof.Machine

/-- The words of the instruction at a virtual address, as a fetch reads them: word 0 gives the byte count (R34). -/
def State.codeWords (s : State) (ia : Nat) : List Word :=
  let word := fun (k : Nat) => BitVec.ofNat 32 (natLE ((List.range 4).map fun i => s.homeByte false (ia + 4 * k + i)))
  let w0 := word 0
  (List.range (wordsOfLen (lenOf w0))).map word

/-- The byte count of the form at a virtual address (R34, R179); 4 where it cannot be fetched. -/
def State.formSizeAt (s : State) (ctx : Nat) (va : Nat) : Nat :=
  match s.ctx? ctx with
  | none => 4
  | some c =>
    match c.translate va with
    | some (_, w, ia) => if w.x then formBytes ((s.codeWords ia).headD 0) else 4
    | none => 4

/-- What a fetch gives. -/
inductive FetchResult where
  | words (ws : List Word)
  | trap (t : TrapInfo)
  /-- The page waits for a frame or moves, or a window of the context changes (R202, R203, R206). -/
  | wait (b : Block)

/-- The fetch at the pc of a strand. Conditions 1, 4 and 5 of R196 do not apply to it, and an unplaced page is touched (R202). The words come from
the home slice, and the instruction cache takes their line (R211). -/
def State.fetch (s : State) (st : Strand) (e : Env) : State × FetchResult :=
  match s.ctx? e.ctx with
  | none => (s, .wait .touch)
  | some c =>
    if s.windowMoves c.id then (s, .wait .touch) else
    let bad := fun (win reason : Nat) =>
      FetchResult.trap { cause := 0x0D, addr := st.pc, lanes := st.path, detail := accessDetail win reason st.path.lowest
                         va := st.pc.toNat }
    match c.translate st.pc.toNat with
    | none => (s, bad 16 1)
    | some (n, w, ia) =>
      if !w.x then (s, bad n 2)
      else
        let s' := s.touch (pageOf ia) c.conf w.prefhost
        if s'.pageReady (pageOf ia) then
          let ws := s'.codeWords ia
          if 64 < st.pc.toNat % 64 + 4 * ws.length then
            (s', .trap { cause := 0x04, addr := st.pc, lanes := st.path, detail := 0 })
          else (s'.icFill st.agentCore (lineOf ia), .words ws)
        else if (s'.pte? (pageOf ia)).isSome then (s', .wait .touch)
        else (s'.postNoFrames c.id (homeOf ia) w.prefhost, .wait (.page (pageOf ia) w.prefhost))

/-! ### Listed points (R303, R334) -/

/-- An instruction that is a listed point of itself: BAR, PHWAIT, PHSW, RACQ, RGET, LDF, STF, CPYW, TWAIT and SLEEP (R303). -/
def listedInstr : Instr → Bool
  | .bar _ | .barX96 _ | .phwait _ | .phsw _ | .racq _ | .rget _ | .ldf _ | .ldfX96 _ | .stf _ | .stfX96 _
  | .cpyw _ | .twait _ | .sleep _ => true
  | _ => false

/-- The kernel of a strand. -/
def State.kernelOf (s : State) (st : Strand) : Option Kernel := do
  let g ← s.group? st.group
  let t ← s.team? g.team
  let l ← s.launch? t.launch
  s.kernel? l.ctx l.kernel

/-- The side-table entry for an address (R303). -/
def Kernel.sideAt (k : Kernel) (pc : Nat) : Option SideEntry := k.side.find? fun e => k.base + e.off == pc

/-- The side-table entry of the address a strand stands at. -/
def State.sideOf (s : State) (st : Strand) : Option SideEntry := (s.kernelOf st).bind fun k => k.sideAt st.pc.toNat

/-- The instruction at the pc of a strand, where it can be fetched. -/
def State.instrAt (s : State) (st : Strand) (e : Env) : Option Instr :=
  match s.fetch st e with
  | (_, .words ws) => decode ws
  | _ => none

/-- The strand stands at a listed point (R303, R334): its path has an instruction to issue, and that is listed. A wait for charge is none (R470). -/
def State.atPoint (s : State) (st : Strand) (e : Env) : Bool :=
  (match st.state with
    | .ready => true
    | .blocked .resolve | .blocked .charge => false
    | .blocked _ => true
    | _ => false) &&
  ((s.sideOf st).isSome || match s.instrAt st e with
    | some i => listedInstr i
    | none => false)

/-- A live register that carries poison holds a strand off its listed point (R457): the lowest one. -/
def State.pointPoison (s : State) (st : Strand) : Option Nat :=
  let live : BitVec 64 := match s.sideOf st with | some e => e.vlive | none => BitVec.allOnes 64
  (List.range 64).find? fun n => live.getLsbD n && (st.reg n).poison

end Sys2Proof.Machine
end

