-- ==== Sys2Proof/Machine/Fork.lean ====
section
/-!
DEFINITION. Forkable calls: the return-value predictor (R277-R280), the start of a continuation (R281), the checks at a resolution
(R288, R289), commit and squash (R290, R291), and the selection of the next path (R165).
-/

namespace Sys2Proof.Machine

/-! ### The predictor (R277-R280) -/

/-- Index of an FCALL's fetch block (R277). -/
def predIndex (blk : DWord) : Nat := ((blk.extractLsb' 6 8) ^^^ (blk.extractLsb' 14 8)).toNat

/-- Tag of an FCALL's fetch block (R277). -/
def predTag (blk : DWord) : Nat := (blk.extractLsb' 22 16).toNat

/-- The fetch block of an address (R51). -/
def blockOf (pc : DWord) : DWord := pc &&& ~~~(0x3F : DWord)

/-- The predicted value of a v slot (R279). -/
def PSlot.predictV (p : PSlot) : Shape :=
  let x := (p.val + p.delta).lo
  if p.kind = 2 then .a x p.str else .u x

/-- The predicted value of the b0 slot. -/
def PSlot.predictB (p : PSlot) : DWord := p.val + p.delta

/-- One slot trained with the actual kind, value or base, and stride (R280): `v` for a slot of 32 bits. -/
def PSlot.train (p : PSlot) (v : Bool) (actual : Option (Nat × DWord × Word)) : PSlot :=
  match actual with
  | none => { p with kind := 0, conf := 0 }
  | some (k, x, str) =>
    let wide : DWord → DWord := fun y => if v then y.lo.setWidth 64 else y
    let right := p.kind = k && wide (p.val + p.delta) == x && p.str == str
    let p := if right then { p with conf := min (p.conf + 1) 3 }
             else { p with delta := if p.kind = k then wide (x - p.val) else 0, conf := 0 }
    { p with kind := k, val := x, str := str }

/-- The actual kind, value and stride of a return register (R280). -/
def Shape.actual : Shape → Option (Nat × DWord × Word)
  | .u x => some (1, x.setWidth 64, 0)
  | .a b s => some (2, b.setWidth 64, s)
  | _ => none

/-- The actual value of slot `i` of the return set. -/
def Strand.actual (st : Strand) (i : Nat) : Option (Nat × DWord × Word) :=
  if i = 4 then some (1, vget st.b 0 0, 0) else (st.reg i).shape.actual

/-- The predictor of a core trained with a record (R280). -/
def Core.train (c : Core) (r : TrainRec) (st : Strand) : Core :=
  let old := c.predictor.find? fun p => p.index == r.index
  let same := match old with | some p => p.tag == r.tag | none => false
  let base : Vector PSlot 5 := match old with
    | some p => if same then p.slots else vtab 5 fun _ => {}
    | none => vtab 5 fun _ => {}
  let slots := vtab 5 fun i =>
    let p := vget base i {}
    if r.ret.getLsbD i then p.train (i != 4) (st.actual i) else p
  { c with predictor := { index := r.index, tag := r.tag, slots := slots } :: c.predictor.filter fun p => p.index != r.index }

/-- The record of a return entry trains its core's predictor; an MCC has none. -/
def State.trainWith (s : State) (st : Strand) (r : Option TrainRec) : State :=
  match r with
  | some r => if st.tile then s else s.setCore ((s.core st.core).train r st)
  | none => s

/-! ### Return entries (R160, R280) -/

/-- A return entry pushed; the record of an entry that leaves the eight on chip is gone (R162, R280). -/
def Strand.pushRet (st : Strand) (e : RetEntry) : Strand :=
  { st with rets := e :: (st.rets.take 7 ++ (st.rets.drop 7).map fun r => { r with train := none }) }

/-- The registers of a return set are full. -/
def Strand.returnFull (st : Strand) (ret : BitVec 5) : Bool :=
  (List.range 4).all fun i => !ret.getLsbD i || (st.reg i).full

/-! ### The start of a continuation (R272, R281) -/

/-- The predictor entry an FCALL needs, when the conditions of R272 hold. -/
def forkEntry? (s : State) (st : Strand) (e : Env) (ret : BitVec 5) : Option PEntry :=
  let blk := blockOf st.pc
  if st.tile || st.cont.isSome || st.handler.isSome || st.path != st.live || 2 ≤ st.forks.length ||
      (s.freeSlots st.core).isEmpty || e.hdr.flags / 4 % 2 = 0 || st.forkSaves.isEmpty then none
  else
    match (s.core st.core).predictor.find? fun p => p.index == predIndex blk with
    | none => none
    | some p =>
      let ok := fun (i : Nat) => !ret.getLsbD i || (let x := vget p.slots i {}; (x.kind = 1 || x.kind = 2) && 2 ≤ x.conf)
      if p.tag == predTag blk && (List.range 5).all ok then some p else none

/-- The registers of a return set (R271). -/
def returnSet (ret : BitVec 5) : List RegId :=
  ((List.range 4).filter fun i => ret.getLsbD i).map RegId.v ++ if ret.getLsbD 4 then [.b 0] else []

/-- The continuation of an FCALL (R281, R282); what is predicted counts as written, for the detector (R311). -/
def Strand.continuation (st : Strand) (id slot ssa : Nat) (ra : DWord) (lit : DWord) (ret : BitVec 5) (p : PEntry) : Strand :=
  let v := vtab 64 fun n =>
    if n < 4 && ret.getLsbD n then { shape := (vget p.slots n {}).predictV : VReg } else st.reg n
  let b := if ret.getLsbD 4 then vset st.b 0 (vget p.slots 4 {}).predictB else st.b
  { st with
    id := id, slot := slot, ssa := ssa, forkSaves := [], pc := ra, path := st.live, v := v, b := b, forks := [], state := .ready
    dead := (returnSet ret).foldl RegSet.del st.dead, lastIssue := id, shadowHit := [], rets := st.rets.map fun r => { r with fork := none }
    cont := some { owner := st.id, depth0 := st.rets.length, live0 := st.live, wset := lit, ret := ret } }

/-! ### Resolution (R288-R291) -/

/-- A register set with what another holds. -/
def RegSet.join (a b : RegSet) : RegSet := { v := a.v ||| b.v, b := a.b ||| b.b, k := a.k ||| b.k, j := a.j ||| b.j, sr := a.sr || b.sr }

/-- The return set as registers. -/
def returnRegs (ret : BitVec 5) : RegSet := (returnSet ret).foldl RegSet.add {}

/-- Two sets have a register in common outside a third. -/
def RegSet.crosses (a b skip : RegSet) : Bool :=
  (a.v &&& b.v &&& ~~~skip.v) != 0 || (a.b &&& b.b &&& ~~~skip.b) != 0 || (a.k &&& b.k) != 0 || (a.j &&& b.j) != 0 || (a.sr && b.sr)

/-- The first reason of R289 for which a fork squashes; 0 when it commits. -/
def forkReason (st : Strand) (top : RetEntry) (f : Fork) (c : Cont) : Nat :=
  if top.cm &&& st.live != c.live0 then 1
  else if (f.predV.any fun p => (st.reg p.1).shape != p.2) || (match f.predB with | some x => vget st.b 0 0 != x | none => false) then 2
  else if f.wrote.crosses c.read (returnRegs c.ret) then 3
  else if c.tracked.any fun t => f.stores.contains t.sector then 4
  else if c.tracked.any fun t => t.lost then 5
  else 0

/-- A buffered store as the strand's access (R290 step 5): `part` is the number of the drain, and `whole` the sectors that it writes whole. -/
def BufEntry.access (e : BufEntry) (id : Nat) (st : Strand) (ctx team part : Nat) (whole : List Nat) : Option Access :=
  let mk := fun (k : AccKind) (es : List Elem) (scope : Scope) (ord : Ord) (wk : WKind) (peer : Bool) =>
    some { id := id, strand := st.id, core := st.agentCore, ctx := ctx, kind := k, elems := es, scope := scope, ord := ord, wk := wk
           ins := id, peer := peer, team := team, part := part
           whole := if k == .store && (scope != .group || wk == .so) then whole.filter fun n => es.any fun x => sectorOf x.addr == n else [] : Access }
  match e with
  | .store x scope ord wk => mk .store [x] scope ord wk false
  | .scratch g peer xs scope ord => mk (.scrStore g) xs scope ord .rc peer
  | .zero l scope wk pref => mk .prefZero [{ addr := 128 * l, width := 128, lane := 0, slot := 0, pref := pref }] scope .relaxed wk false
  | .amax _ _ _ _ => none

/-- An amax update that was buffered (R85). -/
def Amax.absorb (r : Amax) (fmt : Nat) (max : Word) (nan : Bool) : Amax :=
  let xs : List FVal := (if nan then [.nan] else []) ++ [f32 max]
  r.update fmt xs

/-- The sectors that the buffered stores performed at home write whole (R457). -/
def drainWhole (buffer : List BufEntry) : List Nat :=
  wholeSectors (buffer.filterMap fun e => match e with
    | .store x scope _ wk => if scope != .group || wk == .so then some x else none
    | _ => none)

/-- What a commit leaves in flight: the strand's own accesses, whose registers are gone with the callee's state, the order point, the
continuation's loads as the strand's, then its buffered stores (R290 steps 2, 4 and 5). -/
def State.commitAccesses (s : State) (st : Strand) (cid ctx : Nat) (buffer : List BufEntry) : State :=
  let gone := (s.prods.filter fun p => p.strand == st.id).map (·.id)
  let team := match s.group? st.group with | some g => g.team | none => 0
  let own := (s.flight.filter fun a => a.strand != cid).map fun a =>
    { a with prod := a.prod.filter fun p => !gone.contains p }
  let loads := (s.flight.filter fun a => a.strand == cid).map fun a => { a with strand := st.id, spec := false }
  let point : Access :=
    { id := s.freshId, strand := st.id, core := st.agentCore, ctx := ctx, kind := .order, elems := [], scope := .group, ord := .relaxed
      wk := .rc, team := team }
  let whole := drainWhole buffer
  let stores := (List.range buffer.length).filterMap fun i => match buffer[i]? with
    | some e => e.access (s.freshId + 1 + i) st ctx team s.freshId whole
    | none => none
  { s with
    freshId := s.freshId + 1 + buffer.length
    flight := own ++ point :: loads ++ stores
    prods := (s.prods.filter fun p => !gone.contains p.id).map fun p =>
      if p.strand == cid then { p with strand := st.id } else p }

/-- The detector's view of the buffered stores of a commit: their classes, and the ring slots that they write (R311). -/
def State.commitHazards (s : State) (st : Strand) (buffer : List BufEntry) : State :=
  match s.env? st with
  | none => s
  | some e =>
    if !e.debug then s
    else
      let s := s.touchClass st e .v (buffer.flatMap BufEntry.sectors).eraseDups
      buffer.foldl (fun (s : State) b => match b with
        | .scratch g _ es _ _ => s.noteSlots st e g true (es.map fun x => (x.addr, x.width))
        | _ => s) s

/-- The buffered amax updates of a commit applied to the group. -/
def State.commitAmax (s : State) (group : Nat) (buffer : List BufEntry) : State :=
  match s.group? group with
  | none => s
  | some g =>
    s.setGroup (buffer.foldl (fun g e => match e with
      | .amax m fmt max nan => { g with amax := vset g.amax m ((vget g.amax m {}).absorb fmt max nan) }
      | _ => g) g)

/-- The strand that a commit leaves: the continuation's state, every register with it, under the strand's identity (R290 step 2, R75; R274 read
with it: DEDUCED, log 20). -/
def Strand.committed (st c : Strand) (ct : Cont) (rest : List RetEntry) : Strand :=
  let above := c.rets.take (c.rets.length - ct.depth0)
  let below := (List.range ct.depth0).filterMap fun i =>
    match (c.rets.drop above.length)[i]?, rest[i]? with
    | some x, some y => some { x with fork := y.fork, wset := y.wset, train := if y.train.isSome then x.train else none }
    | some x, none => some x
    | none, _ => none
  let outer := (st.forks.filter fun f => f.cont != c.id).map fun f =>
    { f with wrote := f.wrote.join ct.wrote, stores := f.stores ++ (ct.buffer.flatMap BufEntry.sectors) }
  { c with
    id := st.id, cont := none, forks := outer, ssa := c.ssa, forkSaves := st.forkSaves ++ [st.ssa], rets := above ++ below
    state := .ready, copied := st.copied, runOn := st.runOn, lastIssue := st.lastIssue, shadowHit := st.shadowHit }

/-- A fork commits at the pop of its return entry (R290): the state, the strand, and a fault to raise. -/
def State.commitFork (s : State) (st c : Strand) (ct : Cont) (ctx : Nat) (top : RetEntry) (rest : List RetEntry) :
    State × Strand × Option ContFault :=
  let s := s.trainWith st top.train
  let new := st.committed c ct rest
  let s := ((s.commitAccesses new c.id ctx ct.buffer).commitHazards new ct.buffer).commitAmax st.group ct.buffer
  let s := { s with strands := s.strands.filter fun x => x.id != c.id }
  let s := (s.bump ctx 6 1).traceOf st 5 0 c.pc.toNat
  (s, new, ct.fault)

/-! ### Path selection (R165) -/

/-- How a selection ends. -/
inductive SelOut where
  /-- A path runs. -/
  | run
  /-- live = 0: the strand exits. -/
  | exited
  /-- JOIN-STALL (R166). -/
  | stall
  /-- The pop of a return entry waits for its return registers (R288). -/
  | wait
  /-- A continuation would leave its caller's frame (R276). -/
  | hold
  deriving DecidableEq, Repr

/-- The state around the strand, the strand, how the selection ended, and a fault to raise afterwards. -/
structure Sel where
  s : State
  st : Strand
  out : SelOut
  after : Option ContFault := none

/-- What the pop of the top return entry, now complete, gives. -/
inductive Popped where
  | wait (s : State)
  | committed (s : State) (st : Strand) (after : Option ContFault)
  | popped (s : State) (st : Strand) (m : Mask) (ra : DWord)

/-- The top return entry completes: a fork that hangs on it resolves, a training record trains, and the entry is popped. A pop that
resolves or trains waits until its return registers are full (R280, R288). -/
def popTop (s : State) (st : Strand) (ctx : Nat) (top : RetEntry) (rest : List RetEntry) : Popped :=
  let ret : BitVec 5 := match top.train with | some r => r.ret | none => 0
  let fork := top.fork.bind fun id => st.forks.find? fun f => f.cont == id
  let ret := match fork with | some f => f.ret | none => ret
  let pop := fun (s : State) (st : Strand) => Popped.popped s { st with rets := rest } (top.arr &&& st.live) top.ra
  match fork with
  | none => if st.returnFull ret then pop (s.trainWith st top.train) st else .wait s
  | some f =>
    match s.strand? f.cont with
    | none => pop (s.trainWith st top.train) st
    | some c =>
      if !st.returnFull ret then .wait (s.setStrand { c with state := .stalled })
      else
        match c.cont with
        | none => pop s st
        | some ct =>
          match forkReason st top f ct with
          | 0 =>
            let r := s.commitFork st c ct ctx top rest
            .committed r.1 r.2.1 r.2.2
          | code =>
            let s := s.trainWith st top.train
            -- the squash takes the fork from its owner in the list; the strand at hand follows it
            let s := (s.setStrand st).squash f.cont code
            match s.strand? st.id with
            | some st' => pop s st'
            | none => pop s st

/-- A continuation has read j0 to j[n - 1] (R283). -/
def Strand.readJs (st : Strand) (n : Nat) : Strand :=
  { st with cont := st.cont.map fun c =>
      (List.range n).foldl (fun c i => if c.wrote.has (.j i) then c else { c with read := c.read.add (.j i) }) c }

/-- The next path of a strand whose current path has ended (R165). -/
def selectPath : Nat → Bool → Nat → Nat → State → Strand → Sel
  | 0, _, _, _, s, st => { s := s, st := st, out := .stall }
  | fuel + 1, byExit, base, ctx, s, st =>
    let h := st.rets.length
    let floor := match st.handler with | some hd => hd.floor | none => 0
    let fromPend : Option (PendEntry × List PendEntry) := match st.pends with
      | e :: es => if floor < st.pends.length && e.depth == h then some (e, es) else none
      | [] => none
    match fromPend with
    | some (e, es) =>
      let m := e.mask &&& st.live
      let st := { st with pends := es }
      if m != 0 then { s := s, st := { st with pc := e.pc, path := m }, out := .run } else selectPath fuel byExit base ctx s st
    | none =>
      if st.handler.isSome then
        if byExit then selectPath fuel byExit base ctx s st.leaveHandler else { s := s, st := st, out := .stall }
      else
        let done := (List.range 8).find? fun n =>
          let r := vget st.j n {}
          r.armed && r.depth.toNat == h && (r.exp &&& st.live &&& ~~~r.arr) == 0
        let st := st.readJs (match done with | some n => n + 1 | none => 8)
        match done with
        | some n =>
          let r := vget st.j n {}
          let m := r.arr &&& st.live
          let st := st.jwrite n {}
          if m != 0 then { s := s, st := { st with pc := BitVec.ofNat 64 base + r.jpc.setWidth 64, path := m }, out := .run }
          else selectPath fuel byExit base ctx s st
        | none =>
          match st.rets with
          | top :: rest =>
            if (top.cm &&& st.live &&& ~~~top.arr) == 0 then
              if (match st.cont with | some c => c.depth0 == h | none => false) then { s := s, st := st, out := .hold }
              else
                match popTop s st ctx top rest with
                | .wait s => { s := s, st := st, out := .wait }
                | .committed s st f => { s := s, st := st, out := .run, after := f }
                | .popped s st m ra =>
                  if m != 0 then { s := s, st := { st with pc := ra, path := m }, out := .run } else selectPath fuel byExit base ctx s st
            else if st.live = 0 then { s := s, st := st, out := .exited } else { s := s, st := st, out := .stall }
          | [] => if st.live = 0 then { s := s, st := st, out := .exited } else { s := s, st := st, out := .stall }

/-- Enough steps for any selection: each takes a pending entry, one of eight j registers, a return entry, or leaves handler mode. -/
def Strand.selectFuel (st : Strand) : Nat := st.pends.length + st.rets.length + 10

/-- The pop of the complete top return entry, and what runs next. -/
def popAndSelect (base ctx : Nat) (s : State) (st : Strand) : Sel :=
  match st.rets with
  | [] => { s := s, st := st, out := .stall }
  | top :: rest =>
    match popTop s st ctx top rest with
    | .wait s => { s := s, st := st, out := .wait }
    | .committed s st f => { s := s, st := st, out := .run, after := f }
    | .popped s st m ra =>
      if m != 0 then { s := s, st := { st with pc := ra, path := m }, out := .run } else selectPath st.selectFuel false base ctx s st

end Sys2Proof.Machine
end

