-- ==== Sys2Proof/Machine/Control.lean ====
section
/-!
DEFINITION. Control transfer, majors 0x50 to 0x5D (R160-R183, R271-R273), and the events of a strand's control: trap delivery, exit and
fork resolution.
-/

namespace Sys2Proof.Machine

/-! ### Ends of paths -/

/-- What a selection decided, taken as the instruction's effect. -/
def applySel (r : Sel) : M Unit := do
  let j ← get
  match r.out with
  | .run => set { j with s := r.s, st := { r.st with state := .ready }, jumped := true, after := r.after }
  | .exited => set { j with s := r.s, st := { r.st with path := 0, state := .ready }, jumped := true }
  | .wait => set { j with s := r.s, st := { r.st with state := .blocked .resolve }, jumped := true }
  | .stall => throw (.group { code := 0x81, lanes := j.st.path })
  | .hold => throw .stall

/-- The current path ends and the next one is selected. -/
def endPath (byExit : Bool) : M Unit := do
  let j ← get
  applySel (selectPath j.st.selectFuel byExit j.e.base j.e.ctx j.s j.st)

/-- The address of the next instruction. -/
def nextPc : M DWord := do
  let j ← get
  pure (j.st.pc + BitVec.ofNat 64 j.f.size)

/-! ### Calls (R160, R170) -/

/-- The return address of a call at a pc (R160). -/
def returnAddr (pc : DWord) : DWord := blockOf pc + 64

/-- CALL-DEPTH when 128 calls are open (R160). -/
def checkDepth : M Unit := do
  let j ← get
  if 128 ≤ j.st.rets.length then throw (.group { code := 0x80, lanes := j.st.path }) else pure ()

/-- A branch target by a block offset (R51). -/
def blockTarget (pc : DWord) (off : Int) : DWord := blockOf pc + BitVec.ofInt 64 (off * 64)

/-- JMP. -/
def jmpBody (off : BitVec 23) : M Unit := do
  let j ← get
  jump (blockTarget j.st.pc off.toInt)

/-- CALL to a target. -/
def callTo (target : DWord) : M Unit := do
  checkDepth
  upd fun st => st.pushRet { ra := returnAddr st.pc, cm := st.path }
  jump target

/-- CALL. -/
def callBody (off : BitVec 23) : M Unit := do
  let j ← get
  callTo (blockTarget j.st.pc off.toInt)

/-- The target in b[A], aligned, or ALIGN (R52, R181). -/
def alignedTarget : M DWord := do
  let f ← form
  let t ← getB f.a
  if t.extractLsb' 0 6 != 0 then trapM 0x03 t.lo else pure t

/-- JMPI. -/
def jmpiBody : M Unit := do
  let t ← alignedTarget
  jump t

/-- CALLI. -/
def calliBody : M Unit := do
  let t ← alignedTarget
  callTo t

/-! ### Branches (R171, R172) -/

/-- BR. -/
def brBody : M Unit := do
  let f ← form
  let k ← getK f.x.w0.k.toNat
  let j ← get
  let st := j.st
  let t := st.path &&& k
  let n := st.path &&& ~~~k
  let target := blockTarget st.pc f.x.imm.toInt
  let next ← nextPc
  let old := vget st.j f.d {}
  if old.armed && old.arr != 0 then hazard 4 f.d 0
  upd fun st => st.jwrite f.d { exp := st.path, arr := 0, depth := BitVec.ofNat 8 st.rets.length, armed := true, jpc := 0 }
  if t = 0 then jump next
  else if n = 0 then jump target
  else
    upd fun st => { st with pends := { pc := target, mask := t, depth := st.rets.length } :: st.pends, path := n }
    jump next

/-- BRU. -/
def bruBody : M Unit := do
  let f ← form
  let k ← getK f.x.w0.k.toNat
  let j ← get
  let t := j.st.path &&& k
  let next ← nextPc
  if t = j.st.path then jump (blockTarget j.st.pc f.x.imm.toInt)
  else if t = 0 then jump next
  else trapWith 0x08 t t

/-! ### Rejoining (R164, R173, R174) -/

/-- The arrivals of a j register are complete (R164). -/
def JReg.complete (r : JReg) (live : Mask) : Bool := (r.exp &&& live &&& ~~~r.arr) == 0

/-- The address after a JOIN lies in the 4 GiB above its code base (R297). -/
def joinReach (base next : Nat) : Bool := base ≤ next && next - base < 2 ^ 32

/-- JOIN. -/
def joinBody : M Unit := do
  let f ← form
  let next ← nextPc
  let j ← get
  if !joinReach j.e.base next.toNat then illegal
  let r ← getJ f.d
  let j ← get
  let h := j.st.rets.length
  if !r.armed then jump next
  else if r.depth.toNat != h then
    trapM 0x09 (BitVec.ofNat 32 (r.depth.toNat + 256 * h + 65536 * f.d))
  else
    let r := { r with arr := r.arr ||| j.st.path }
    if r.complete j.st.live then
      upd fun st => { (st.jwrite f.d {}) with path := r.arr &&& st.live }
      jump next
    else
      upd fun st => st.jwrite f.d { r with jpc := (next - BitVec.ofNat 64 j.e.base).lo }
      endPath false

/-- YIELDP. -/
def yieldpBody : M Unit := do
  let j ← get
  let st := j.st
  let h := st.rets.length
  let floor := match st.handler with | some hd => hd.floor | none => 0
  let next ← nextPc
  match st.pends with
  | [] => jump next
  | e :: es =>
    if st.pends.length ≤ floor then jump next
    else if e.depth != h then trapM 0x0A (BitVec.ofNat 32 (e.depth + 256 * h))
    else
      upd fun st => { st with pends := { pc := next, mask := st.path, depth := h } :: es, path := e.mask &&& st.live }
      if e.mask &&& st.live = 0 then endPath false else jump e.pc

/-! ### EXIT and RET (R175, R177) -/

/-- The oldest faulted task of a tile strand is delivered to it, and its entry is free (R402, R404). -/
def deferredFault : M Unit := do
  let j ← get
  if j.st.tile then
    let c := j.s.cluster j.st.core
    match c.tasks.find? fun k => k.strand == j.st.id && (match k.state with | .faulted _ => true | _ => false) with
    | some k =>
      match k.state with
      | .faulted t =>
        updKept (fun s => s.setCluster { c with tasks := c.tasks.filter fun x => x.seq != k.seq }) id
        throw (.spill { t with addr := j.st.pc, lanes := 1 })
      | _ => pure ()
    | none => pure ()
  else pure ()

/-- The lanes of M end. -/
def exitLanes (m : Mask) : M Unit := do
  let next ← nextPc
  if m = 0 then jump next
  else
    upd fun st => { st with live := st.live &&& ~~~m, path := st.path &&& ~~~m }
    let j ← get
    if j.st.path != 0 then jump next else endPath true

/-- EXIT. -/
def exitBody : M Unit := do
  deferredFault
  let m ← effMask
  exitLanes m

/-- RET: the implicit join of its call; a continuation stalls at the depth at which it started (R276). -/
def retBody : M Unit := do
  let j ← get
  let st := j.st
  if (match st.cont with | some c => c.depth0 == st.rets.length | none => false) then throw .stall
  match st.rets with
  | [] =>
    deferredFault
    exitLanes st.path
  | top :: rest =>
    if top.isRegion then illegal
    else if top.ra.extractLsb' 0 6 != 0 then trapM 0x03 top.ra.lo
    else
      let top := { top with arr := top.arr ||| st.path }
      upd fun st => { st with rets := top :: rest }
      let j ← get
      if (top.cm &&& st.live &&& ~~~top.arr) == 0 then applySel (popAndSelect j.e.base j.e.ctx j.s j.st)
      else endPath false

/-! ### JGET and JPUT (R163, R178) -/

/-- The four words of a j register (R163). -/
def JReg.words (r : JReg) : List Word :=
  [r.exp, r.arr, BitVec.ofNat 32 (r.depth.toNat + if r.armed then 2 ^ 31 else 0), r.jpc]

/-- A j register from its four words, reserved bits ignored (R163). -/
def JReg.ofWords (w0 w1 w2 w3 : Word) : JReg :=
  { exp := w0, arr := w1, depth := w2.extractLsb' 0 8, armed := w2.getLsbD 31, jpc := w3 }

/-- JGET. -/
def jgetBody : M Unit := do
  let f ← form
  let m ← effMask
  if m = 0 then pure ()
  else
    let r ← getJ f.a
    writeAll ((List.range 4).map fun i => (f.d + i, Val.u (r.words.getD i 0))) m

/-- JPUT. -/
def jputBody : M Unit := do
  let f ← form
  readyRun f.a 4 f.x.w0.wa
  let m ← effMask
  (List.range 4).forM fun i => needUniform (f.a + i)
  if m = 0 then pure ()
  else
    let w0 ← readU f.a
    let w1 ← readU (f.a + 1)
    let w2 ← readU (f.a + 2)
    let w3 ← readU (f.a + 3)
    upd fun st => st.jwrite f.d (JReg.ofWords w0 w1 w2 w3)

/-! ### Traps (R179) -/

/-- TRAP. -/
def trapBody : M Unit := do
  let f ← form
  let m ← effMask
  if m = 0 then pure () else trapWith 0x14 (BitVec.ofNat 32 f.b) m

/-- THRET. -/
def thretBody : M Unit := do
  let f ← form
  let j ← get
  match j.st.handler with
  | none => illegal
  | some h =>
    if j.st.rets.length != h.depth then throw (.group { code := 0x81, lanes := j.st.path })
    else
      let a := h.trap.addr
      let skip := f.b = 1 && h.trap.cause != 0x22
      -- a retry takes up the phaser wait that the trap interrupted (R356, DEDUCED, log 98)
      upd fun st => { st.leaveHandler with
                    held := if skip then none else h.held, sleepFrom := if skip then none else h.sleep, restored := !skip && h.slept }
      jump (if skip then a + BitVec.ofNat 64 (j.s.formSizeAt j.e.ctx a.toNat) else a)

/-! ### FCALL (R271-R273, R281) -/

/-- FCALL: declined it is a CALL that trains; else the continuation starts at the return address. -/
def fcallBody (lit : DWord) : M Unit := do
  let f ← form
  checkDepth
  let j ← get
  let st := j.st
  let ret : BitVec 5 := BitVec.ofNat 5 f.b
  let blk := blockOf st.pc
  let ra := returnAddr st.pc
  let target := blockTarget st.pc f.x.imm.toInt
  let rec' : Option TrainRec := if st.tile then none else some { index := predIndex blk, tag := predTag blk, ret := ret }
  let entry : RetEntry := { ra := ra, cm := st.path, train := rec', wset := some lit }
  match forkEntry? j.s st j.e ret with
  | none =>
    upd fun st => st.pushRet entry
    updS fun s => s.bump j.e.ctx 5 1
    jump target
  | some p =>
    if st.v.toArray.toList.any fun r => !r.full then throw (.block .fork)
    let id := j.s.freshId
    let slot := (j.s.freeSlots st.core).headD 0
    let ssa := st.forkSaves.headD 0
    let c := st.continuation id slot ssa ra lit ret p
    -- lanes that are V-spilled at the fork lie in both areas from then on (R103, DESIGN CHOICE, log 95)
    let spilled := (List.range 64).filter fun n => (c.reg n).shape == .spilled
    spilled.forM fun n => needPages (ssa + 128 * n) 128 false
    updS fun s => spilled.foldl (fun s n => s.saveLanes c n) s
    let predV := ((List.range 4).filter fun i => ret.getLsbD i).map fun i => (i, (vget p.slots i {}).predictV)
    let predB := if ret.getLsbD 4 then some (vget p.slots 4 {}).predictB else none
    updS fun s => { (s.bump j.e.ctx 4 1) with freshId := id + 1, strands := s.strands ++ [c] }
    upd fun st =>
      { (st.pushRet { entry with fork := some id }) with
        forkSaves := st.forkSaves.drop 1
        forks := st.forks ++ [{ cont := id, ret := ret, predV := predV, predB := predB }] }
    jump target

/-! ### Events -/

/-- TRAP_DELIVERY (R180): once no earlier producer of the trapped strand is in flight. -/
def execTrapDelivery (strand : Nat) (s : State) : Host.Outcome State Fault Refusal :=
  .next (if s.prods.any fun p => p.strand == strand then s else s.deliver strand)

/-- STRAND_EXITED (R177). -/
def execStrandExited (strand : Nat) (s : State) : Host.Outcome State Fault Refusal :=
  .next (s.strandExit strand)

/-- The resolution of the fork, or the training pop, at which a strand waits (R280, R288). -/
def State.resolve (s : State) (strand : Nat) : State :=
  match s.strand? strand with
  | none => s
  | some st =>
    match st.state, s.env? st with
    | .blocked .resolve, some e =>
      let r := popAndSelect e.base e.ctx s st
      match r.out with
      | .run => (r.s.setStrand { r.st with state := .ready }).raiseAfter { r.st with state := .ready } r.after
      | .exited => (r.s.setStrand { r.st with path := 0, state := .ready }).strandExit st.id
      | .wait => r.s
      | .stall => (r.s.parkedHazard r.st e).raiseGroup r.st { code := 0x81, lanes := st.path }
      | .hold => s
    | _, _ => s

/-- FORK_RESOLUTION (R288-R291). -/
def execForkResolution (strand : Nat) (s : State) : Host.Outcome State Fault Refusal :=
  .next (s.resolve strand)

/-! ### The instructions -/

/-- JMP (R170). -/
def execJmp (o : J) (s : State) : Host.Outcome State Fault Refusal :=
  run (Form.j Enc.jmp' o) (jmpBody o.off) s

/-- CALL (R170). -/
def execCall (o : J) (s : State) : Host.Outcome State Fault Refusal :=
  run (Form.j Enc.call' o) (callBody o.off) s

/-- BR (R171). -/
def execBr (o : X96) (s : State) : Host.Outcome State Fault Refusal :=
  run (Form.x96 Enc.br' o) brBody s

/-- BRU (R172). -/
def execBru (o : X96) (s : State) : Host.Outcome State Fault Refusal :=
  run (Form.x96 Enc.bru' o) bruBody s

/-- JOIN, B32 (R173). -/
def execJoin (o : W0) (s : State) : Host.Outcome State Fault Refusal :=
  run (Form.b32 Enc.join' o) joinBody s

/-- JOIN, X96 (R173). -/
def execJoinX96 (o : X96) (s : State) : Host.Outcome State Fault Refusal :=
  run (Form.x96 Enc.join' o) joinBody s

/-- YIELDP, B32 (R174). -/
def execYieldp (s : State) : Host.Outcome State Fault Refusal :=
  run (Form.b32 Enc.yieldp' {}) yieldpBody s

/-- YIELDP, X96 (R174). -/
def execYieldpX96 (s : State) : Host.Outcome State Fault Refusal :=
  run (Form.x96 Enc.yieldp' {}) yieldpBody s

/-- RET, B32 (R175). -/
def execRet (o : W0) (s : State) : Host.Outcome State Fault Refusal :=
  run (Form.b32 Enc.ret' o) retBody s

/-- RET, X96 (R175). -/
def execRetX96 (o : X96) (s : State) : Host.Outcome State Fault Refusal :=
  run (Form.x96 Enc.ret' o) retBody s

/-- JMPI, B32 (R176). -/
def execJmpi (o : W0) (s : State) : Host.Outcome State Fault Refusal :=
  run (Form.b32 Enc.jmpi' o) jmpiBody s

/-- JMPI, X96 (R176). -/
def execJmpiX96 (o : X96) (s : State) : Host.Outcome State Fault Refusal :=
  run (Form.x96 Enc.jmpi' o) jmpiBody s

/-- CALLI, B32 (R176). -/
def execCalli (o : W0) (s : State) : Host.Outcome State Fault Refusal :=
  run (Form.b32 Enc.calli' o) calliBody s

/-- CALLI, X96 (R176). -/
def execCalliX96 (o : X96) (s : State) : Host.Outcome State Fault Refusal :=
  run (Form.x96 Enc.calli' o) calliBody s

/-- FCALL (R273). -/
def execFcall (o : XL) (s : State) : Host.Outcome State Fault Refusal :=
  run (Form.xl Enc.fcall' o true) (fcallBody o.lit) s

/-- EXIT, B32 (R177). -/
def execExit (o : W0) (s : State) : Host.Outcome State Fault Refusal :=
  run (Form.b32 Enc.exit' o) exitBody s

/-- EXIT, X96 (R177). -/
def execExitX96 (o : X96) (s : State) : Host.Outcome State Fault Refusal :=
  run (Form.x96 Enc.exit' o) exitBody s

/-- JGET, B32 (R178). -/
def execJget (o : W0) (s : State) : Host.Outcome State Fault Refusal :=
  run (Form.b32 Enc.jget' o) jgetBody s

/-- JGET, X96 (R178). -/
def execJgetX96 (o : X96) (s : State) : Host.Outcome State Fault Refusal :=
  run (Form.x96 Enc.jget' o) jgetBody s

/-- JPUT (R178). -/
def execJput (o : X96) (s : State) : Host.Outcome State Fault Refusal :=
  run (Form.x96 Enc.jput' o) jputBody s

/-- TRAP, B32 (R179). -/
def execTrap (o : W0) (s : State) : Host.Outcome State Fault Refusal :=
  run (Form.b32 Enc.trap' o) trapBody s

/-- TRAP, X96 (R179). -/
def execTrapX96 (o : X96) (s : State) : Host.Outcome State Fault Refusal :=
  run (Form.x96 Enc.trap' o) trapBody s

/-- THRET, B32 (R179). -/
def execThret (o : W0) (s : State) : Host.Outcome State Fault Refusal :=
  run (Form.b32 Enc.thret' o) thretBody s

/-- THRET, X96 (R179). -/
def execThretX96 (o : X96) (s : State) : Host.Outcome State Fault Refusal :=
  run (Form.x96 Enc.thret' o) thretBody s

end Sys2Proof.Machine
end

