-- ==== Sys2Proof/Machine/Tile.lean ====
section
/-!
DEFINITION. The tile object (R394-R421): array planes, the sums of the array (R76-R78), tasks and their table, WLD, WSWAP, MMA, MDRAIN,
ASHAPE, TWAIT and TQRY, and the events TASK_ISSUE, TASK_RETIRE and BAND_POWER_UP.
-/

namespace Sys2Proof.Machine

/-! ### Sparse lists by key -/

/-- The value at a key of a list in rising key order; 0 where it is not listed. -/
def kvGet : List (Nat × Nat) → Nat → Nat
  | [], _ => 0
  | p :: ps, k => if k < p.1 then 0 else if p.1 = k then p.2 else kvGet ps k

/-- A value put at a key; a 0 is not listed. -/
def kvPut : List (Nat × Nat) → Nat → Nat → List (Nat × Nat)
  | [], k, v => if v = 0 then [] else [(k, v)]
  | p :: ps, k, v =>
    if k < p.1 then (if v = 0 then p :: ps else (k, v) :: p :: ps)
    else if p.1 = k then (if v = 0 then ps else (k, v) :: ps)
    else p :: kvPut ps k v

/-! ### Elements of a slot -/

/-- Rounded up to 128 bytes (R407). -/
def round128 (n : Nat) : Nat := (n + 127) / 128 * 128

/-- Bits of element `e` of a region of `w`-bit elements in a scratchpad. -/
def Group.elemBits (g : Group) (base w e : Nat) : Nat :=
  if w = 4 then g.load (base + e / 2) 1 / 2 ^ (4 * (e % 2)) % 16 else g.load (base + e * (w / 8)) (w / 8)

/-- The value of element `e` of a region, unscaled; Q4X by quads in memory order (R67). -/
def Group.elemVal (g : Group) (base : Nat) (ty : Ty) (e : Nat) : FVal :=
  match ty with
  | .q4x8 => q4xQuad (g.load (base + 2 * (e / 4)) 2) (e % 4)
  | ty => elemValue ty (g.elemBits base (Ty.elemBits ty) e) 0

/-! ### Planes (R398, R408) -/

/-- The nibble of a 2:4 group: K positions i and j it keeps. -/
def metaPair (nib : Nat) : Nat × Nat := (nib % 4, nib / 4 % 4)

/-- Position (k, n) was removed by 2:4 sparsity (R408). -/
def Plane.removed (p : Plane) (k n : Nat) : Bool :=
  p.sparse && k < p.rows && (let m := metaPair (p.smeta.getD (64 * (k / 4) + n) 0); k % 4 != m.1 && k % 4 != m.2)

/-- The weight (k, n), scaled; none where it was removed (R76, R408). -/
def Plane.weight (p : Plane) (k n : Nat) : Option FVal :=
  if p.removed k n then none
  else if p.rows ≤ k then some (.fin false 0 0)
  else
    let v := match p.fmt with
      | .q4x8 =>
        let e := if p.trans then p.rows * n + k else 64 * k + n
        let slot := fun (i : Nat) => kvGet p.vals (e / 4 * 4 + i) * 16 ^ i
        q4xQuad (slot 0 + slot 1 + slot 2 + slot 3) (e % 4)
      | ty => elemValue ty (kvGet p.vals (64 * k + n)) 0
    some (if p.scl then v.scaled (p.scales.getD (64 * (k / 32) + n) 0).toNat else v)

/-! ### The sums of the array (R77, R78) -/

/-- floor(log2 |p|) of a non-zero product; 0 for the others. -/
def FVal.exp2 : FVal → Int
  | .fin _ m e => if m = 0 then 0 else e + Nat.log2 m
  | _ => 0

/-- The sum of one block's products, as FP32 (R77). -/
def blockSum (ps : List FVal) : Word :=
  let infs := ps.filter FVal.isInf
  let plus := infs.any fun v => !v.neg
  let minus := infs.any FVal.neg
  if ps.any FVal.isNan || (plus && minus) then BitVec.ofNat 32 fp32.nanEnc
  else if plus then 0x7F800000
  else if minus then 0xFF800000
  else
    let nz := ps.filter fun v => !v.isZero
    match nz with
    | [] => if !ps.isEmpty && ps.all FVal.neg then 0x80000000 else 0
    | p :: rest =>
      let emax := rest.foldl (fun (acc : Int) v => max acc v.exp2) p.exp2
      let q := emax - 40
      let sum := nz.foldl (fun (acc : Int) v =>
        match v with
        | .fin neg m e =>
          let k : Int := (roundAt .rz neg 0 m e q : Nat)
          acc + (if neg then -k else k)
        | _ => acc) 0
      toF32 (if sum = 0 then .fin false 0 q else .fin (sum < 0) sum.natAbs q)

/-- One FP32 addition, rounded RNE. -/
def faddRne (x y : Word) : Word := toF32 (FVal.add false (f32 x) (f32 y))

/-- The products of K positions 32t to 32t + 31 below `kext`. -/
def blockProducts (kext t : Nat) (f : Nat → Option FVal) : List FVal :=
  ((List.range 32).filter fun i => 32 * t + i < kext).filterMap fun i => f (32 * t + i)

/-- The accumulator with every block sum added, in block order (R77). -/
def dotF32 (kext : Nat) (base : Word) (f : Nat → Option FVal) : Word :=
  (List.range ((kext + 31) / 32)).foldl (fun (acc : Word) t => faddRne acc (blockSum (blockProducts kext t f))) base

/-- The accumulator with integer products added mod 2^32 (R78). -/
def dotS32 (kext : Nat) (base : Word) (f : Nat → Option Int) : Word :=
  base + BitVec.ofInt 32 (((List.range kext).filterMap f).foldl (fun (acc : Int) x => acc + x) 0)

/-- An exact integer value. -/
def FVal.toInt : FVal → Int
  | .fin neg m e =>
    let k : Int := (m * 2 ^ e.toNat : Nat)
    if neg then -k else k
  | _ => 0

/-! ### Task fields -/

/-- The ring a task names: group index and q (R403). -/
structure RSel where
  gi : Nat
  q : Nat
  deriving DecidableEq, Repr

/-- A 7-bit ring selector (R403). -/
def RSel.of (n : Nat) : RSel := { gi := n / 16 % 8, q := n % 16 }

/-- The descriptor of a task: what its control word or literal says (R406, R410, R413). -/
structure TaskDesc where
  sel : RSel
  drain : Bool := false
  bandMask : Nat := 0
  kw : Nat := 0
  scl : Bool := false
  afmt : Ty := .bf16
  atrans : Bool := false
  ascale : Bool := false
  acc : Bool := false
  row0 : Nat := 0
  rows : Nat := 0
  kext : Nat := 0
  midx : Nat := 0

/-- TYPE of a code 6 to 13 (R410). -/
def tyOfCode (n : Nat) : Ty := (allTypes.find? fun t => t.code = n).getD .bf16

/-- The descriptor of a kind, word 2 and literal. -/
def TaskDesc.of (kind : TaskKind) (x : X96) (lit : DWord) : TaskDesc :=
  match kind with
  | .wld =>
    let w := x.imm.toNat
    { sel := RSel.of (bitsOf w 6 0), bandMask := bitsOf w 11 8, kw := bitsOf w 19 12 + 1, scl := bitsOf w 7 7 = 1 }
  | .mma =>
    let w := lit.toNat
    { sel := RSel.of (bitsOf w 35 29), ascale := bitsOf w 28 28 = 1, atrans := bitsOf w 27 27 = 1, afmt := tyOfCode (bitsOf w 26 23)
      acc := bitsOf w 22 22 = 1, row0 := bitsOf w 21 15, kext := bitsOf w 14 7 + 1, rows := bitsOf w 6 0 + 1 }
  | .mdrain =>
    let w := x.imm.toNat
    { sel := RSel.of (bitsOf w 6 0), drain := true, row0 := bitsOf w 13 7, rows := bitsOf w 20 14 + 1, midx := bitsOf w 24 21 }

/-- The descriptor of a task. -/
def Task.desc (t : Task) : TaskDesc := TaskDesc.of t.kind t.x t.lit

/-- Logical bands of a 4-bit mask, ascending. -/
def bandsOf (m : Nat) : List Nat := (List.range 4).filter fun l => m / 2 ^ l % 2 = 1

/-- The regions of a WLD band block: bytes of values, scales and metadata, each rounded up (R407). -/
def wldRegions (x : X96) (d : TaskDesc) : Nat × Nat × Nat :=
  let ks := if x.x2 then d.kw / 2 else d.kw
  (round128 (ks * 64 * Ty.elemBits x.ty / 8), if d.scl then round128 (64 * ((d.kw + 31) / 32)) else 0
   , if x.x2 then round128 (64 * d.kw / 8) else 0)

/-- Bytes of a slot that a task's layout takes, for a band set (R407, R411, R413). -/
def slotBytes (kind : TaskKind) (x : X96) (lit : DWord) (bands : List Nat) : Nat :=
  let d := TaskDesc.of kind x lit
  match kind with
  | .wld => let r := wldRegions x d; (bandsOf d.bandMask).length * (r.1 + r.2.1 + r.2.2)
  | .mma =>
    let vals := (d.rows * d.kext * Ty.elemBits d.afmt + 7) / 8
    if d.ascale then round128 vals + d.rows * ((d.kext + 31) / 32) else vals
  | .mdrain => (d.rows * (64 * bands.length) * Ty.elemBits x.ty + 7) / 8

/-! ### Tickets (R399) -/

/-- A ticket is satisfied: its entry holds no task bearing it (a retired task has left the table). -/
def Cluster.satisfied (c : Cluster) (ticket : Nat) : Bool := !(c.tasks.any fun t => t.ticket == ticket)

/-- The lowest-numbered free entry. -/
def Cluster.freeEntry (c : Cluster) : Option Nat := (List.range 64).find? fun n => !(c.tasks.any fun t => t.entry == n)

/-- The counter after a ticket: mod 2^26, skipping 0. -/
def nextSeq (n : Nat) : Nat := if (n + 1) % 2 ^ 26 = 0 then 1 else (n + 1) % 2 ^ 26

/-- A task that has neither retired nor faulted. -/
def Task.isOpen (t : Task) : Bool := t.state == .waiting || t.state == .issued

/-! ### R403: the checks of a ring -/

/-- Why a task's ring does not serve it. -/
inductive RingBad where
  | group
  | undef
  | classes
  | fit

/-- The first failing check of R403 for the ring of a task in a team. -/
def ringBad (s : State) (e : Env) (sel : RSel) (drain : Bool) (bytes : Nat) : Option RingBad :=
  if e.teamSize ≤ sel.gi then some .group
  else match s.teamGroup? e sel.gi with
    | none => some .undef
    | some g =>
      let q := g.ring sel.q
      if !q.defd then some .undef
      else if (if drain then q.pcls else q.ccls) != 4 then some .classes
      else if 2 ^ q.lsz < bytes then some .fit
      else none

/-- The trap of a failing check: cause and detail (R197, R367, R403). -/
def RingBad.trap (b : RingBad) (sel : RSel) : Nat × Word :=
  match b with
  | .group => (0x0D, accessDetail 16 5 0)
  | .undef => (0x12, BitVec.ofNat 32 (1 + 256 * sel.q))
  | .classes => (0x12, BitVec.ofNat 32 (9 + 256 * sel.q))
  | .fit => (0x0D, accessDetail 16 7 0)

/-! ### Entering a task (R399, R405) -/

/-- The logical bands of a tile strand, ascending. -/
def Strand.bandSet (st : Strand) : List Nat := (List.range 4).filter fun l => st.bands.any fun b => b.logical == l

/-- The common part of WLD, MMA and MDRAIN. Its ring check, and with it the task's ring step, waits for the strand's earlier acquires, as a ring step
of a strand does (R369). -/
def enterTask (kind : TaskKind) (lit : DWord) : M Unit := do
  deferredFault
  let f ← form
  readyA
  readyB
  needUniform f.a
  needUniformB
  let m ← effMask
  if m = 0 then pure ()
  else
    let pa ← readU f.a
    let pb ← uniformB
    ringAwait false
    let j ← get
    let d := TaskDesc.of kind f.x lit
    let bands := j.st.bandSet
    match ringBad j.s j.e d.sel d.drain (slotBytes kind f.x lit bands) with
    | some b => trapWith (b.trap d.sel).1 (b.trap d.sel).2 m
    | none =>
      let c := j.s.cluster j.st.core
      match c.freeEntry with
      | none => throw (.block .table)
      | some n =>
        if kind = .mdrain && f.x.rnd = .sr then upd Strand.advanceSr
        let j ← get
        let ticket := c.taskCtr * 64 + n
        let t : Task :=
          { entry := n, seq := j.s.freshId, ticket := ticket, strand := j.st.id, kind := kind, x := f.x, lit := lit, predA := pa.toNat
            predB := pb.toNat, bands := bands, sr := j.st.sr, addr := j.st.pc }
        updS fun s =>
          { (s.setCluster { c with taskCtr := nextSeq c.taskCtr, tasks := c.tasks ++ [t] }) with freshId := s.freshId + 1 }
        writeV f.d (.u (BitVec.ofNat 32 ticket)) m

/-- WLD. -/
def wldBody : M Unit := enterTask .wld 0

/-- MMA: its activation format needs its feature word (R446). -/
def mmaBody (lit : DWord) : M Unit := do
  checkFeature (match (TaskDesc.of .mma {} lit).afmt with | .e2m1x8 => 2 | .q4x8 => 4 | _ => 0)
  enterTask .mma lit

/-- MDRAIN. -/
def mdrainBody : M Unit := enterTask .mdrain 0

/-! ### WSWAP, ASHAPE, TWAIT, TQRY -/

/-- A SPARSE-META detail word (R404). -/
def sparseDetail (ticket band reason : Nat) : Word := BitVec.ofNat 32 (reason + 64 * band + 65536 * (ticket % 65536))

/-- The tile strand has an open task of a kind. -/
def openTask (p : Task → Bool) : M Bool := do
  let j ← get
  pure ((j.s.cluster j.st.core).tasks.any fun t => t.strand == j.st.id && t.isOpen && p t)

/-- WSWAP: the fault names the lowest logical band whose shadow plane is invalid (DESIGN CHOICE, log 124). -/
def wswapBody : M Unit := do
  deferredFault
  let m ← effMask
  if m = 0 then pure ()
  else
    let busy ← openTask fun t => t.kind == .wld || t.kind == .mma
    if busy then throw (.block .table)
    let j ← get
    match j.st.bandSet.find? fun l => j.st.bands.any fun b => b.logical == l && !b.shadow.valid with
    | some l => trapWith 0x11 (sparseDetail 0 l 3) m
    | none =>
      upd fun st =>
        { st with bands := st.bands.map fun b => { b with active := b.shadow, shadow := { b.active with valid := false } } }

/-- A critical island waits for its lower operating point, a change that cannot wait: what the island feeds takes nothing more until the change
is made (R341, R471). -/
def State.pointPending (s : State) (n : Nat) : Bool :=
  let h := s.heat n
  h.state == .critical && h.point != h.want

/-- Live physical bands of an MCC (R443); a band under test is withdrawn from grants (R462), and so is one whose island waits for its point. -/
def State.liveBands (s : State) (cl : Nat) : List Nat :=
  (List.range 4).filter fun b => s.dev.map.bandLive.getLsbD (4 * cl + b) && !(s.dev.tests.any fun t => t.unit == .band cl b) &&
    !s.pointPending (13 * cl + 9 + b)

/-- Free live physical bands of an MCC. -/
def State.freeBands (s : State) (cl : Nat) : List Nat :=
  (s.liveBands cl).filter fun b => !((s.cluster cl).pbands.any fun p => p.n == b)

/-- A logical band bound to a physical band: the one of its number when it is free and live, else the lowest (R397). -/
def State.grantBand (s : State) (cl tile l : Nat) (b : Band) : State :=
  let free := s.freeBands cl
  let n := if free.contains l then l else free.headD 0
  let c := s.cluster cl
  let s := s.setCluster { c with pbands := c.pbands ++ [{ n := n, owner := tile, powered := false, since := s.now }] }
  { s with strands := s.strands.map fun x => if x.id == tile then { x with bands := x.bands ++ [{ b with logical := l, physical := n }] } else x }

/-- ASHAPE (R415): the change for a mask that can be met. -/
def State.reshape (s : State) (cl tile : Nat) (mask : List Nat) : State :=
  match s.strand? tile with
  | none => s
  | some st =>
    let drop := st.bands.filter fun b => !mask.contains b.logical
    let c := s.cluster cl
    let s := s.setCluster { c with pbands := c.pbands.filter fun p => !(p.owner == tile && drop.any fun b => b.physical == p.n) }
    let s := s.setStrand { st with bands := st.bands.filter fun b => mask.contains b.logical }
    (mask.filter fun l => !st.bandSet.contains l).foldl (fun s l => s.grantBand cl tile l { logical := l, physical := 0 }) s

/-- ASHAPE. -/
def ashapeBody : M Unit := do
  deferredFault
  let f ← form
  readyB
  needUniformB
  let m ← effMask
  if m = 0 then pure ()
  else
    let x ← uniformB
    if x.extractLsb' 4 28 != 0 then trapM 0x07 (BitVec.ofNat 32 (256 + f.b))
    let busy ← openTask fun _ => true
    if busy then throw (.block .table)
    let j ← get
    let cl := j.st.core
    let mask := bandsOf x.toNat
    let adds := (mask.filter fun l => !j.st.bandSet.contains l).length
    let live := ((List.range 4).filter fun b => j.s.dev.map.bandLive.getLsbD (4 * cl + b)).length
    if live < mask.length then writeV f.d (.u 2) m
    else if (j.s.freeBands cl).length < adds then writeV f.d (.u 1) m
    else
      updAll fun s => s.reshape cl j.st.id mask
      writeV f.d (.u 0) m

/-- The wait of a TWAIT has ended (R416): its ticket is satisfied, or the task of the strand that bears it has faulted and will not go on, which R404
then delivers (DEDUCED, log 106); for ticket 0, no task of the strand is open. -/
def Cluster.waitEnded (c : Cluster) (st : Strand) (ticket : Nat) : Bool :=
  if ticket = 0 then !(c.tasks.any fun t => t.strand == st.id && t.isOpen)
  else !(c.tasks.any fun t => t.ticket == ticket && (t.isOpen || t.strand != st.id))

/-- TWAIT: R404 applies when it first issues, and again when its wait ends; a task fault comes before EMPTY-READ of the ticket register (DESIGN CHOICE,
log 118). -/
def twaitBody : M Unit := do
  let f ← form
  let waited := (← get).was == .blocked .twait
  if !waited then deferredFault
  readyA
  needUniform f.a
  let m ← effMask
  if m = 0 then pure ()
  else
    let t ← readU f.a
    let j ← get
    if !((j.s.cluster j.st.core).waitEnded j.st t.toNat) then throw (.block .twait)
    if waited then deferredFault
    if (j.s.cluster j.st.core).satisfied t.toNat || t = 0 then pure () else throw (.block .twait)

/-- The state of a ticket (R417). -/
def Cluster.ticketState (c : Cluster) (ticket : Nat) : Nat :=
  match c.tasks.find? fun t => t.ticket == ticket with
  | none => 0
  | some t => match t.state with | .waiting => 1 | .issued => 2 | .faulted _ => 3

/-- The table word of TQRY with `.arr` (R417). -/
def tableWord (c : Cluster) (st : Strand) : Word :=
  let bit := fun (p : Band → Bool) => st.bands.foldl (fun (acc : Nat) b => if p b then acc + 2 ^ b.logical else acc) 0
  BitVec.ofNat 32 (bit (fun _ => true) + 2 ^ 4 * bit (fun b => b.active.valid) + 2 ^ 8 * bit (fun b => b.shadow.valid) +
    2 ^ 16 * (c.tasks.filter fun t => t.strand == st.id).length + 2 ^ 24 * (64 - c.tasks.length))

/-- TQRY: a task fault comes before EMPTY-READ of the ticket register (DESIGN CHOICE, log 118). -/
def tqryBody : M Unit := do
  deferredFault
  let f ← form
  if f.x.x1 then pure ()
  else
    readyA
    needUniform f.a
  let m ← effMask
  if m = 0 then pure ()
  else
    let t ← if f.x.x1 then pure (0 : Word) else readU f.a
    let j ← get
    let c := j.s.cluster j.st.core
    writeV f.d (.u (if f.x.x1 then tableWord c j.st else BitVec.ofNat 32 (c.ticketState t.toNat))) m

/-! ### TASK_ISSUE (R401) -/

/-- Two row ranges meet. -/
def rowsMeet (a b : TaskDesc) : Bool := a.row0 < b.row0 + b.rows && b.row0 < a.row0 + a.rows

/-- An earlier task `b` holds task `a` back by R401 condition 2. -/
def Task.follows (a b : Task) : Bool :=
  b.seq < a.seq && b.strand == a.strand && b.isOpen &&
  (match a.kind, b.kind with
    | .wld, .wld => (bandsOf a.desc.bandMask).any fun l => (bandsOf b.desc.bandMask).contains l
    | .wld, _ => false
    | _, .wld => false
    | _, _ => (a.bands.any fun l => b.bands.contains l) && rowsMeet a.desc b.desc)

/-- An earlier task that names the same ring of the same team has yet to take its slot (R401 condition 3). -/
def Task.queues (a b : Task) : Bool :=
  b.seq < a.seq && b.strand == a.strand && b.state == .waiting && b.desc.sel == a.desc.sel

/-- Charge class and cost of a task (R468). -/
def Task.charge (t : Task) (c : Cluster) : Nat × Nat :=
  let d := t.desc
  match t.kind with
  | .wld => (6, c.cost 6 (t.bands.filter fun l => (bandsOf d.bandMask).contains l).length)
  | .mdrain => (7, c.cost 7 t.bands.length)
  | .mma =>
    let cls := match d.afmt with | .f16 | .bf16 => 3 | .e4m3x4 | .e5m2x4 | .s8x4 => 4 | _ => 5
    (cls, c.cost cls (t.bands.length * ((d.kext + 31) / 32) * ((d.rows + 31) / 32)))

/-- The task with a number replaced. -/
def State.setTask (s : State) (cl : Nat) (t : Task) : State :=
  let c := s.cluster cl
  s.setCluster { c with tasks := c.tasks.map fun x => if x.seq == t.seq then t else x }

/-- A task faults with a cause and a detail word (R404). -/
def Task.fault (t : Task) (cause : Nat) (detail : Word) : Task :=
  { t with state := .faulted { cause := cause, addr := 0, lanes := 1, detail := detail } }

/-- The classes that a ring step of a task names: M, and the classes of the ring's other side (R366). -/
def TaskDesc.fence (d : TaskDesc) (q : Ring) : Nat := 4 ||| (if d.drain then q.ccls else q.pcls).toNat

/-- A waiting task issues where R401 allows it, and no earlier acquire or XFENCE of its strand holds class M back (R373, R375): a slot is taken and
charge is asked for; a task whose ring no longer serves it faults and takes no slot (R403). -/
def State.taskIssue (s : State) (cl entry : Nat) : State :=
  let c := s.cluster cl
  match c.tasks.find? fun t => t.entry == entry && t.state == .waiting with
  | none => s
  | some t =>
    match s.strand? t.strand with
    | none => s
    | some st =>
      match s.env? st with
      | none => s
      | some e =>
        let powered := t.bands.all fun l => st.bands.any fun b => b.logical == l &&
          c.pbands.any fun p => p.n == b.physical && p.owner == st.id && p.powered
        let fenced := s.flight.any fun a => a.strand == t.strand && a.id < t.seq && a.holdsClass 2
        let stands := (match s.team? e.team with | some t => t.state != .running | none => true) && s.atPoint st e
        if stands || !(c.satisfied t.predA || t.predA = 0) || !(c.satisfied t.predB || t.predB = 0) || c.tasks.any t.follows || c.tasks.any t.queues
            || !powered || fenced then s
        else
          let d := t.desc
          match s.teamGroup? e d.sel.gi with
          | none => s
          | some g =>
            let q := g.ring d.sel.q
            if (if d.drain then q.free else q.filled) = 0 then s
            else
              match ringBad s e d.sel d.drain (slotBytes t.kind t.x t.lit t.bands) with
              | some b => s.setTask cl (t.fault (b.trap d.sel).1 (b.trap d.sel).2)
              | none =>
                let k := if d.drain then q.acquire else q.take
                let s := (s.setGroup (g.setRing d.sel.q k.1)).fenceClasses { e with group := g.id } (d.fence q)
                let ch := t.charge c
                let s := s.setTask cl { t with state := .issued, slot := k.2 }
                s.request cl { level := e.level, cls := ch.1, cost := ch.2, who := (2, t.seq, 0) }

/-- TASK_ISSUE (R401). -/
def execTaskIssue (cluster entry : Nat) (s : State) : Host.Outcome State Fault Refusal :=
  .next (s.taskIssue cluster entry)

/-! ### TASK_RETIRE (R402, R408, R412, R414) -/

/-- What the work of a task gives: the strand, or the fault it ends in with the strand as it then stands. -/
inductive Work where
  | done (st : Strand)
  | bad (cause : Nat) (detail : Word) (st : Strand)

/-- A band of a strand replaced. -/
def Strand.setBand (st : Strand) (b : Band) : Strand :=
  { st with bands := st.bands.map fun x => if x.logical == b.logical then b else x }

/-- The plane that one band block of a WLD slot gives, or the reason it has none (R408). -/
def wldPlane (g : Group) (x : X96) (d : TaskDesc) (base : Nat) : Plane ⊕ Nat :=
  let r := wldRegions x d
  let w := Ty.elemBits x.ty
  let ks := if x.x2 then d.kw / 2 else d.kw
  let pos := fun (j n : Nat) => if x.x1 then ks * n + j else 64 * j + n
  let smeta := if x.x2 then (List.range (d.kw / 4 * 64)).map fun i => g.elemBits (base + r.1 + r.2.1) 4 i else []
  if smeta.any fun nib => (metaPair nib).2 ≤ (metaPair nib).1 then .inr 1
  else if x.ty = .q4x8 && ((List.range (ks * 16)).any fun i => q4xReserved (g.load (base + 2 * i) 2)) then .inr 2
  else
    let keys := (List.range ks).flatMap fun j => (List.range 64).map fun n => (j, n)
    let vals :=
      if x.ty = .q4x8 then
        (List.range (ks * 64)).foldl (fun (acc : List (Nat × Nat)) e => kvPut acc e (g.elemBits base 4 e)) []
      else keys.foldl (fun (acc : List (Nat × Nat)) p =>
        let k := if x.x2 then
            let m := metaPair (smeta.getD (64 * (p.1 / 2) + p.2) 0)
            4 * (p.1 / 2) + (if p.1 % 2 = 0 then m.1 else m.2)
          else p.1
        kvPut acc (64 * k + p.2) (g.elemBits base w (pos p.1 p.2))) []
    .inl { valid := true, fmt := x.ty, scl := d.scl, sparse := x.x2, rows := d.kw, trans := x.x1, vals := vals
           scales := if d.scl then Memory.getList g.scratch (base + r.1) (64 * ((d.kw + 31) / 32)) else [], smeta := smeta }

/-- WLD's work: the shadow planes of the bands it names that the set holds, or none of them (R408). Of several bad blocks the fault names the lowest
logical band (DESIGN CHOICE, log 124). -/
def wldWork (g : Group) (base : Nat) (t : Task) (st : Strand) : Work :=
  let d := t.desc
  let r := wldRegions t.x d
  let named := bandsOf d.bandMask
  let planes := (List.range named.length).map fun i => (named.getD i 0, wldPlane g t.x d (base + i * (r.1 + r.2.1 + r.2.2)))
  match planes.find? fun p => p.2.isRight with
  | some (l, .inr reason) =>
    .bad 0x11 (sparseDetail t.ticket l reason)
      { st with bands := st.bands.map fun b => if named.contains b.logical then { b with shadow := { b.shadow with valid := false } } else b }
  | _ =>
    .done { st with bands := st.bands.map fun b =>
      match planes.find? fun p => p.1 == b.logical && t.bands.contains b.logical with
      | some (_, .inl p) => { b with shadow := p }
      | _ => b }

/-- Activation (m, k) of an MMA's slot, scaled (R411). -/
def activation (g : Group) (base : Nat) (d : TaskDesc) (m k : Nat) : FVal :=
  let e := if d.atrans then d.rows * k + m else d.kext * m + k
  let v := g.elemVal base d.afmt e
  if d.ascale then
    let off := base + round128 ((d.rows * d.kext * Ty.elemBits d.afmt + 7) / 8)
    v.scaled (g.load (off + (d.kext + 31) / 32 * m + k / 32) 1)
  else v

/-- An MMA of a band is of kind s32 (R412). -/
def mmaInt (d : TaskDesc) (p : Plane) : Bool :=
  (d.afmt == .s8x4 || d.afmt == .s4x8) && (p.fmt == .s8x4 || p.fmt == .s4x8) && !d.ascale && !p.scl

/-- A band after an MMA (R412). -/
def mmaBand (g : Group) (base : Nat) (d : TaskDesc) (b : Band) : Band :=
  let isInt := mmaInt d b.active
  let at' := fun (m n : Nat) => (64 * (d.row0 + m) + n)
  let acc := (List.range d.rows).foldl (fun (acc : List (Nat × Nat)) m =>
    (List.range 64).foldl (fun (acc : List (Nat × Nat)) n =>
      let old : Word := if d.acc then BitVec.ofNat 32 (kvGet acc (at' m n)) else 0
      let new := if isInt then
          dotS32 d.kext old fun k => (b.active.weight k n).map fun w => (activation g base d m k).toInt * w.toInt
        else dotF32 d.kext old fun k => (b.active.weight k n).map fun w => FVal.mul (activation g base d m k) w
      kvPut acc (at' m n) new.toNat) acc) (b.acc.map fun p => (p.1, p.2.toNat))
  let rows := (List.range d.rows).map fun m => d.row0 + m
  let others := b.intRows.filter fun r => !rows.contains r
  { b with acc := acc.map fun p => (p.1, BitVec.ofNat 32 p.2), intRows := if isInt then rows.foldl (fun l r => insertNat r l) others else others }

/-- MMA's work: of several invalid active planes the fault names the lowest logical band (DESIGN CHOICE, log 124). -/
def mmaWork (g : Group) (base : Nat) (t : Task) (st : Strand) : Work :=
  match t.bands.find? fun l => st.bands.any fun b => b.logical == l && !b.active.valid with
  | some l => .bad 0x11 (sparseDetail t.ticket l 4) st
  | none => .done { st with bands := st.bands.map fun b => if t.bands.contains b.logical then mmaBand g base t.desc b else b }

/-- An accumulator element as a value, by its row's KIND (R414). -/
def Band.value (b : Band) (r n : Nat) : FVal :=
  let x : Word := match b.acc.find? fun p => p.1 == 64 * r + n with | some p => p.2 | none => 0
  if b.intRows.contains r then FVal.ofInt x.toInt else f32 x

/-- The values an MDRAIN reads: row by row, columns across the bands (R414). -/
def drainValues (t : Task) (st : Strand) : List FVal :=
  let d := t.desc
  (List.range d.rows).flatMap fun m => t.bands.flatMap fun l =>
    (List.range 64).map fun n => match st.bands.find? fun b => b.logical == l with
      | some b => b.value (d.row0 + m) n
      | none => .fin false 0 0

/-- The bytes an MDRAIN writes (R414). -/
def drainBytes (t : Task) (vs : List FVal) : List Byte :=
  let d := t.desc
  let nc := 64 * t.bands.length
  let w := Ty.elemBits t.x.ty
  let elem := fun (e : Nat) =>
    let i := if t.x.x1 then (e % d.rows) * nc + e / d.rows else e
    toElem t.x.ty t.x.rnd t.x.sat (if t.x.rnd = .sr then srDraw t.sr 0 e else 0) (vs.getD i .nan)
  if w = 4 then (List.range ((vs.length + 1) / 2)).map fun i =>
      BitVec.ofNat 8 (elem (2 * i) + 16 * (if 2 * i + 1 < vs.length then elem (2 * i + 1) else 0))
  else (List.range vs.length).flatMap fun e => bytesLE (w / 8) (elem e)

/-- A task that has finished leaves its slot: an input is released, a drain slot published (R402). -/
def State.taskRing (s : State) (g : Nat) (t : Task) : State :=
  match s.group? g with
  | none => s
  | some g =>
    let d := t.desc
    let q := g.ring d.sel.q
    s.setGroup (g.setRing d.sel.q (if d.drain then q.publish else q.release))

/-- The ranges of its slot that a task reads, each an offset and a length: the regions of its layout without their padding (R407, R411). -/
def Task.reads (t : Task) : List (Nat × Nat) :=
  let d := t.desc
  match t.kind with
  | .wld =>
    let r := wldRegions t.x d
    let ks := if t.x.x2 then d.kw / 2 else d.kw
    (List.range (bandsOf d.bandMask).length).flatMap fun i =>
      let o := i * (r.1 + r.2.1 + r.2.2)
      [(o, ks * 64 * Ty.elemBits t.x.ty / 8), (o + r.1, if d.scl then 64 * ((d.kw + 31) / 32) else 0)
       , (o + r.1 + r.2.1, if t.x.x2 then 64 * d.kw / 8 else 0)]
  | .mma =>
    let vals := (d.rows * d.kext * Ty.elemBits d.afmt + 7) / 8
    [(0, vals), (round128 vals, if d.ascale then d.rows * ((d.kext + 31) / 32) else 0)]
  | .mdrain => []

/-- The ranges of its slot that a task writes. -/
def Task.writes (t : Task) : List (Nat × Nat) :=
  match t.kind with
  | .mdrain => [(0, slotBytes t.kind t.x t.lit t.bands)]
  | _ => []

/-- The bytes of its slot that a task reads carry poison (R404). -/
def Task.poisoned (t : Task) (g : Group) (base : Nat) : Bool := t.reads.any fun r => r.2 != 0 && g.poisoned (base + r.1) r.2

/-- The sectors of a group's scratchpad that a task accesses, its slot at `base` (R311 kind 2). -/
def Task.sectors (t : Task) (group base : Nat) : List Sector :=
  ((t.reads ++ t.writes).flatMap fun r => if r.2 = 0 then [] else
    (List.range ((base + r.1 + r.2 - 1) / 32 - (base + r.1) / 32 + 1)).map fun i => Sector.scratch group ((base + r.1) / 32 + i)).eraseDups

/-- An issued task with its charge completes: its work is done, or it faults; either way its slot passes on, after the slots of earlier
tasks on the same ring (R402). Poisoned data is found before any SPARSE-META cause (DESIGN CHOICE, log 125). -/
def State.taskRetire (s : State) (cl entry : Nat) : State :=
  let c := s.cluster cl
  match c.tasks.find? fun t => t.entry == entry && t.state == .issued with
  | none => s
  | some t =>
    let earlier := c.tasks.any fun b => b.seq < t.seq && b.strand == t.strand && b.state == .issued && b.desc.sel == t.desc.sel
    match s.strand? t.strand with
    | none => s
    | some st =>
      match s.env? st with
      | none => s
      | some e =>
        match s.teamGroup? e t.desc.sel.gi with
        | none => s
        | some g =>
          if earlier || !t.charged then s
          else
            let base := (g.ring t.desc.sel.q).slotAddr t.slot
            let poisoned := t.poisoned g base
            let e' := { e with group := g.id }
            let s := (s.touchClass { st with pc := t.addr } e' .m (t.sectors g.id base)).fenceClasses e' (t.desc.fence (g.ring t.desc.sel.q))
            let gone := fun (s : State) =>
              let c := s.cluster cl
              (s.setCluster { c with tasks := c.tasks.filter fun x => x.seq != t.seq }).strandExit st.id
            let bad := fun (cause : Nat) (detail : Word) (st : Strand) =>
              ((s.setStrand st).setTask cl (t.fault cause detail)).taskRing g.id t
            if poisoned then bad 0x20 (Config.taskPoisonDetail t.ticket) st
            else
              match t.kind with
              | .wld => match wldWork g base t st with
                | .done st => gone ((s.setStrand st).taskRing g.id t)
                | .bad k d st => bad k d st
              | .mma => match mmaWork g base t st with
                | .done st => gone ((s.setStrand st).taskRing g.id t)
                | .bad k d st => bad k d st
              | .mdrain =>
                let vs := drainValues t st
                let bytes := drainBytes t vs
                let s := s.scratchStore g.id st.id ((List.range bytes.length).map fun i =>
                  { addr := base + i, width := 1, lane := 0, slot := 0, data := (bytes.getD i 0).toNat })
                let s := match s.group? g.id with
                  | some g => if t.x.x2 then
                      s.setGroup { g with amax := vset g.amax t.desc.midx ((vget g.amax t.desc.midx {}).update t.x.ty.code vs) } else s
                  | none => s
                gone (s.taskRing g.id t)

/-- TASK_RETIRE (R402). -/
def execTaskRetire (cluster entry : Nat) (s : State) : Host.Outcome State Fault Refusal :=
  .next (s.taskRetire cluster entry)

/-- BAND_POWER_UP (R398): 2 us after its grant a band is powered. -/
def execBandPowerUp (cluster band : Nat) (s : State) : Host.Outcome State Fault Refusal :=
  let c := s.cluster cluster
  .next (s.setCluster { c with pbands := c.pbands.map fun p => if p.n == band && p.since + 2000 ≤ s.now then { p with powered := true } else p })

/-! ### The instructions -/

/-- WLD, B32 (R408). -/
def execWld (o : W0) (s : State) : Host.Outcome State Fault Refusal :=
  run (Form.b32 Enc.wld' o) wldBody s

/-- WLD, X96 (R408). -/
def execWldX96 (o : X96) (s : State) : Host.Outcome State Fault Refusal :=
  run (Form.x96 Enc.wld' o) wldBody s

/-- WSWAP (R409). -/
def execWswap (o : X96) (s : State) : Host.Outcome State Fault Refusal :=
  run (Form.x96 Enc.wswap' o) wswapBody s

/-- MMA (R412). -/
def execMma (o : XL) (s : State) : Host.Outcome State Fault Refusal :=
  run (Form.xl Enc.mma' o (mmaOk o.lit)) (mmaBody o.lit) s

/-- MDRAIN (R414). -/
def execMdrain (o : X96) (s : State) : Host.Outcome State Fault Refusal :=
  run (Form.x96 Enc.mdrain' o) mdrainBody s

/-- ASHAPE (R415). -/
def execAshape (o : X96) (s : State) : Host.Outcome State Fault Refusal :=
  run (Form.x96 Enc.ashape' o) ashapeBody s

/-- TWAIT (R416). -/
def execTwait (o : X96) (s : State) : Host.Outcome State Fault Refusal :=
  run (Form.x96 Enc.twait' o) twaitBody s

/-- TQRY (R417). -/
def execTqry (o : X96) (s : State) : Host.Outcome State Fault Refusal :=
  run (Form.x96 Enc.tqry' o) tqryBody s

end Sys2Proof.Machine
end

