-- ==== Sys2Proof/Machine/Save.lean ====
section
/-!
DEFINITION. The images that a group is saved in and restored from: the SSA (R106-R108, R162, R338),
the group save record (R335-R337) and the tile save area (R421).
-/

namespace Sys2Proof.Machine

/-! ### What a save does to a strand (R108, R280, R305) -/

/-- The registers that are dead at a side-table entry (R305). -/
def SideEntry.deadSet (e : SideEntry) : RegSet := { v := ~~~e.vlive, b := ~~~e.blive, k := ~~~e.klive &&& 0xFE, j := ~~~e.jlive }

/-- A strand as its image holds it: dead registers gone, V registers in the vector area, training records discarded. -/
def Strand.parked (st : Strand) (dead : RegSet) : Strand :=
  let st := (List.range 64).foldl (fun (st : Strand) n =>
    if dead.v.getLsbD n then st.setReg n {} else st.spill n) st
  { st with
    b := vtab 16 fun n => if dead.b.getLsbD n then 0 else vget st.b n 0
    k := vtab 8 fun n => if dead.k.getLsbD n then 0 else vget st.k n 0
    j := vtab 8 fun n => if dead.j.getLsbD n then {} else vget st.j n {}
    rets := st.rets.map fun r => { r with train := none, fork := none }
    order := [], copied := 0, shadowHit := [], dead := {} }

/-! ### The SSA image (R106, R107, R162, R338) -/

/-- The payload of a shape (R107): HI and LO. -/
def Shape.payload : Shape → Nat × Nat
  | .u x => (0, x.toNat)
  | .a b s => (s.toNat, b.toNat)
  | _ => (0, 0)

/-- The tag of a shape (R107). -/
def Shape.tag : Shape → Nat
  | .u _ => 0
  | .a _ _ => 1
  | .v _ _ => 2
  | .spilled => 3

/-- The image of a strand: the 12 KiB of its SSA. -/
def Strand.image (st : Strand) : List Byte :=
  let zeros := fun (n : Nat) => List.replicate n (0 : Byte)
  let h := st.handler
  let num := fun (f : Handler → Nat) => match h with | some x => f x | none => 0
  let rets := st.rets.reverse
  let pends := st.pends.reverse
  let held := st.held.getD (0, 0)
  ((List.range 64).flatMap fun n => (List.range 32).flatMap fun i => bytesLE 4 ((vget st.vecArea n (Lanes.const 0)).get i).toNat) ++
  ((List.range 128).flatMap fun n => match rets[n]? with
    | some r => packFields [(8, r.ra.toNat), (4, r.cm.toNat), (4, r.arr.toNat)]
    | none => zeros 16) ++
  ((List.range 32).flatMap fun n => match pends[n]? with
    | some p => packFields [(8, p.pc.toNat), (4, p.mask.toNat), (1, p.depth)] ++ zeros 19
    | none => zeros 32) ++
  ((List.range 64).flatMap fun n => let p := (st.reg n).shape.payload; packFields [(4, p.2), (4, p.1)]) ++
  ((List.range 64).flatMap fun n => bytesLE 1 (st.reg n).shape.tag) ++
  packFields
    [(8, st.pc.toNat), (4, st.path.toNat), (4, st.live.toNat), (1, st.rets.length), (1, st.rets.length), (1, st.pends.length)
     , (1, (if h.isSome then 1 else 0) + (match st.state with | .blocked _ => 2 | _ => 0) + (if st.held.isSome then 4 else 0))
     , (1, num (·.floor)), (1, num (·.depth)), (1, num (·.trap.cause)), (1, 0), (8, num (·.trap.addr.toNat))
     , (4, num (·.trap.lanes.toNat)), (4, num (·.trap.detail.toNat)), (8, st.sr.toNat), (8, held.1.toNat), (4, held.2.toNat), (4, 0)] ++
  ((List.range 7).flatMap fun n => bytesLE 4 (vget st.k (n + 1) 0).toNat) ++ zeros 4 ++
  ((List.range 16).flatMap fun n => bytesLE 8 (vget st.b n 0).toNat) ++
  ((List.range 8).flatMap fun n =>
    let r := vget st.j n {}
    packFields [(4, r.exp.toNat), (4, r.arr.toNat), (4, r.depth.toNat + (if r.armed then 2 ^ 31 else 0)), (4, r.jpc.toNat)]) ++
  zeros 96

/-- Every tag and payload of an image keeps R107, so that its restore does not fail (R108). An A with a stride of 0, which no save writes (R90), is
not refused and is installed as it stands (DEDUCED, log 107). -/
def imageOk (rd : Nat → Nat → Nat) : Bool :=
  (List.range 64).all fun n =>
    let tag := rd (0x2E00 + n) 1
    let lo := rd (0x2C00 + 8 * n) 4
    let hi := rd (0x2C04 + 8 * n) 4
    match tag with
    | 0 => hi = 0
    | 1 => true
    | 3 => hi = 0 && lo = 0
    | _ => false

/-- A strand reloaded from its image (R339): `rd off n` is the n-byte value at an offset. What the image does not hold is as kept. -/
def Strand.reload (old : Strand) (rd : Nat → Nat → Nat) : Strand :=
  let word := fun (off : Nat) => (BitVec.ofNat 32 (rd off 4) : Word)
  let dword := fun (off : Nat) => (BitVec.ofNat 64 (rd off 8) : DWord)
  let flags := rd 0x2E53 1
  let nrets := min (rd 0x2E51 1) 128
  let npends := min (rd 0x2E52 1) 32
  let blocked := flags / 2 % 2 = 1
  { old with
    v := vtab 64 fun n =>
      let lo := word (0x2C00 + 8 * n)
      match rd (0x2E00 + n) 1 with
      | 0 => { shape := .u lo }
      | 1 => { shape := .a lo (word (0x2C04 + 8 * n)) }
      | _ => { shape := .spilled }
    vecArea := vtab 64 fun n => Lanes.tab fun i => word (0x80 * n + 4 * i)
    order := []
    b := vtab 16 fun n => dword (0x2EA0 + 8 * n)
    k := vtab 8 fun n => if n = 0 then 0 else word (0x2E80 + 4 * (n - 1))
    j := vtab 8 fun n =>
      let a := 0x2F20 + 16 * n
      let w := rd (a + 8) 4
      { exp := word a, arr := word (a + 4), depth := BitVec.ofNat 8 w, armed := 2 ^ 31 ≤ w, jpc := word (a + 12) }
    pc := dword 0x2E40
    path := word 0x2E48
    live := word 0x2E4C
    rets := ((List.range nrets).map fun n =>
      let a := 0x2000 + 16 * n
      -- what an FCALL declared, and the number of a region, are not in the image, and stay (R311 kind 5, R459)
      { ra := dword a, cm := word (a + 8), arr := word (a + 12), wset := (old.rets.reverse[n]?).bind RetEntry.wset
        opened := (old.rets.reverse[n]?).elim 0 RetEntry.opened : RetEntry }).reverse
    pends := ((List.range npends).map fun n =>
      let a := 0x2800 + 32 * n
      { pc := dword a, mask := word (a + 8), depth := rd (a + 12) 1 : PendEntry }).reverse
    handler := if flags % 2 = 1 then
        some { floor := rd 0x2E54 1, depth := rd 0x2E55 1
               trap := { cause := rd 0x2E56 1, addr := dword 0x2E58, lanes := word 0x2E60, detail := word 0x2E64 }
               unwind := match old.handler with | some h => h.unwind | none => false
               held := old.handler.bind Handler.held
               -- the SLEEP that the handler interrupted completes at once when it is evaluated again (R344)
               sleep := none, slept := match old.handler with | some h => h.sleep.isSome || h.slept | none => false }
      else none
    sr := dword 0x2E68
    held := if flags / 4 % 2 = 1 then some (dword 0x2E70, word 0x2E78) else none
    state := match old.state with
      | .blocked b => if blocked then .blocked b else .ready
      | _ => .ready
    sleepFrom := none, restored := old.sleepFrom.isSome || old.restored, runOn := 0 }

/-! ### The group save record (R335-R337) -/

/-- A saved ring entry (R337). -/
def Ring.bits (r : Ring) : Nat :=
  r.cnt + 2 ^ 8 * r.lsz + 2 ^ 16 * r.off + 2 ^ 32 * r.free + 2 ^ 40 * r.filled + 2 ^ 48 * r.pidx + 2 ^ 56 * r.cidx +
    2 ^ 72 * r.pcls.toNat + 2 ^ 80 * r.ccls.toNat + (if r.defd then 2 ^ 87 else 0)

/-- A ring from its saved entry, owned by the core that restores it. -/
def Ring.ofBits (x owner : Nat) : Ring :=
  { cnt := bitsOf x 7 0, lsz := bitsOf x 15 8, off := bitsOf x 31 16, free := bitsOf x 39 32, filled := bitsOf x 47 40
    pidx := bitsOf x 55 48, cidx := bitsOf x 63 56, pcls := BitVec.ofNat 4 (bitsOf x 75 72), ccls := BitVec.ofNat 4 (bitsOf x 83 80)
    defd := bitsOf x 87 87 = 1, owner := owner }

/-- State code of a strand in STR (R335). -/
def Strand.strCode (st : Strand) : Nat :=
  match st.state with
  | .exited => 3
  | .blocked _ => 2
  | _ => 1

/-- Bytes of a group's save area: 0x3800 + SCRATCH + DYNSCR rounded up to 4 KiB (R335). -/
def saveSize (scratchLen : Nat) : Nat := (0x3800 + scratchLen + 4095) / 4096 * 4096

/-- Bytes of the tile save area (R421). -/
def tileSaveSize : Nat := 0x6D000

/-- The bytes of a group's save record (R335), its strands as they stood. -/
def Group.record (g : Group) (h : Header) (kernel : Nat) (tile tileSa : Nat) (version : DWord) (strands : List Strand) : List Byte :=
  let find := fun (n : Nat) => strands.find? fun x => x.idx == n
  let alive := (List.range 32).foldl (fun (acc : Nat) n => match find n with
    | some x => if x.state == .exited then acc else acc + 2 ^ n
    | none => acc) 0
  let own := fun (bs : List Byte) => if g.ended then List.replicate bs.length (0 : Byte) else bs
  packFields
    [(4, 0x31525347), (4, 0x3800 + g.scratchLen), (8, kernel), (4, g.linear), (1, g.level), (1, h.strands), (1, h.feed)
     , (1, (if g.ended then 1 else 0) + 2 * tile), (8, version.toNat), (4, g.core), (4, g.scratchLen), (8, tileSa), (4, if g.ended then 0 else alive)
     , (12, 0)] ++
  own ((List.range 16).flatMap fun n => bytesLE 8 (vget g.amax n {}).bits.toNat) ++
  own ((List.range 16).flatMap fun n => let b := vget g.bars n {}; packFields [(4, b.arr.toNat), (4, b.phase.toNat)]) ++
  own ((List.range 16).flatMap fun n => bytesLE 16 (vget g.rings n {}).bits) ++
  own ((List.range 32).flatMap fun n => match find n with
    | some x => packFields [(8, x.ssa), (1, x.strCode), (7, 0)]
    | none => packFields [(16, 0)]) ++
  List.replicate 960 (0 : Byte) ++
  ((List.range 12288).map fun i => BitVec.ofNat 8
    ((List.range 8).foldl (fun (acc : Nat) k => if g.fullWords.contains (8 * i + k) then acc + 2 ^ k else acc) 0)) ++
  Memory.getList g.scratch 0 g.scratchLen

/-- A group with what its save record holds (R339 steps 2 and 3); SCRB is the allocation's. The record of a group that had ended carries its scratchpad
alone, and its rings, barriers and amax registers come back as 0 (R332, R335). What the detector knows of a ring's slots stays with it. -/
def Group.reload (g : Group) (core : Nat) (rd : Nat → Nat → Nat) : Group :=
  let full := (List.range (g.scratchLen / 4)).filter fun w => rd (0x800 + w / 8) 1 / 2 ^ (w % 8) % 2 = 1
  let scr := ((List.range g.scratchLen).map fun i => (i, BitVec.ofNat 8 (rd (0x3800 + i) 1))).filter fun (c : Nat × Byte) => c.2 != 0
  { g with
    core := core, scratch := scr, fullWords := full, poison := []
    amax := vtab 16 fun n => Amax.ofBits (BitVec.ofNat 64 (rd (0x40 + 8 * n) 8))
    bars := vtab 16 fun n => { arr := BitVec.ofNat 32 (rd (0xC0 + 8 * n) 4), phase := BitVec.ofNat 32 (rd (0xC4 + 8 * n) 4) }
    rings := vtab 16 fun n =>
      let r := Ring.ofBits (rd (0x140 + 16 * n) 16) core
      if r.defd then { r with handed := (vget g.rings n {}).handed } else r }

/-! ### The tile save area (R421) -/

/-- The elements of a plane as dense bytes, element (k, n) at bit w × (64k + n); the bits of a Q4X slot that was in `.tr` order are kept by their
place in the slot (R398). -/
def Plane.image (p : Plane) : List Byte :=
  let w := Ty.elemBits p.fmt
  let elem := fun (e : Nat) =>
    if p.fmt = .q4x8 && p.trans then (if e / 64 < p.rows then kvGet p.vals (p.rows * (e % 64) + e / 64) else 0) else kvGet p.vals e
  let vals := if w = 4 then (List.range 8192).map fun i => BitVec.ofNat 8 (elem (2 * i) + 16 * elem (2 * i + 1))
    else (List.range 16384).flatMap fun e => bytesLE (w / 8) (elem e)
  (vals ++ List.replicate (0x8000 - vals.length) 0) ++ (p.scales ++ List.replicate (0x200 - p.scales.length) 0) ++
    ((List.range 2048).map fun i => BitVec.ofNat 8 (p.smeta.getD (2 * i) 0 + 16 * p.smeta.getD (2 * i + 1) 0)) ++ List.replicate 0x600 0

/-- The byte of a plane's format, SCL and SPARSE as a WLD has latched them, whatever VALID is; 0 before any WLD has (R421; its bits are a DESIGN
CHOICE, log 120). -/
def Plane.code (p : Plane) : Nat := if p.rows = 0 then 0 else p.fmt.code + (if p.scl then 16 else 0) + (if p.sparse then 32 else 0)

/-- A saved task of 64 bytes, its valid byte 1 at offset 40 (R421; the places of its fields are a DESIGN CHOICE, log 120). -/
def Task.image (t : Task) : List Byte :=
  let ws := (encodeTask t).map fun w => w.toNat
  packFields [(4, ws.getD 0 0), (4, ws.getD 1 0), (4, ws.getD 2 0), (8, t.lit.toNat), (4, t.ticket), (4, t.predA), (4, t.predB)
              , (8, t.sr.toNat), (1, 1), (23, 0)]
where
  /-- Words 0 to 2 of the task's instruction. -/
  encodeTask (t : Task) : List Word :=
    match t.kind with
    | .wld => [t.x.w0.toWord 0x7C 2, t.x.word1, t.x.imm]
    | .mma => [t.x.w0.toWord 0x7C 3, t.x.word1, t.x.imm]
    | .mdrain => [t.x.w0.toWord 0x7C 2, t.x.word1, t.x.imm]

/-- The bytes of the tile save area, the tasks in the order in which they entered (R402, R421); plane 0 of a band is the active one (DESIGN CHOICE,
log 120). -/
def Strand.tileImage (st : Strand) (tasks : List Task) : List Byte :=
  let band := fun (l : Nat) => st.bands.find? fun b => b.logical == l
  let mask := fun (p : Band → Bool) => st.bands.foldl (fun (acc : Nat) b => if p b then acc + 2 ^ b.logical else acc) 0
  let planes : List Plane := (List.range 8).map fun i => match band (i / 2) with
    | some b => if i % 2 = 0 then b.active else b.shadow
    | none => {}
  st.image ++
  packFields [(2, mask (fun _ => true) + 16 * mask (fun b => b.active.valid) + 256 * mask (fun b => b.shadow.valid)), (14, 0)] ++
  ((planes.map fun p => BitVec.ofNat 8 p.code) : List Byte) ++ List.replicate 232 (0 : Byte) ++
  ((List.range 64).flatMap fun n => match tasks[n]? with
    | some t => t.image
    | none => List.replicate 64 (0 : Byte)) ++
  ((List.range 4).flatMap fun l => match band l with
    | some b => bytesLE 16 (b.intRows.foldl (fun (acc : Nat) r => acc + 2 ^ r) 0)
    | none => bytesLE 16 0) ++
  List.replicate 0xEC0 (0 : Byte) ++
  ((List.range 4).flatMap fun l => match band l with
    | some b => (List.range 8192).flatMap fun i => bytesLE 4 (match b.acc.find? fun p => p.1 == i with | some p => p.2.toNat | none => 0)
    | none => List.replicate 0x8000 (0 : Byte)) ++
  planes.flatMap Plane.image

end Sys2Proof.Machine
end

