-- ==== Sys2Proof/Machine/Place.lean ====
section
/-!
DEFINITION. Placement and pre-emption of teams: the map as the scheduler reads it (R307, R309, R316), the pools (R105, R319, R335), the
order of pending teams (R320-R322), the events TEAM_PLACE, LEVEL_RISE, PRIORITY_PREEMPT, PREEMPT_TIMEOUT, GROUP_SAVE and
OPERATING_POINT_CHANGE, and the world switches that a save completes (R432).
-/

namespace Sys2Proof.Machine

/-! ### The map as the scheduler reads it (R307, R309, R316) -/

/-- A feature mask holds another (R446). -/
def holdsFeatures (have' need : DWord) : Bool := need &&& ~~~have' == 0

/-- A unit under test is withheld from placement (R445). -/
def State.underTest (s : State) (u : UnitId) : Bool := s.dev.tests.any fun t => t.unit == u

/-- The live cores of a cluster whose feature masks hold the kernel's FEATURES. -/
def State.fitCores (s : State) (h : Header) (cl : Nat) : List Nat :=
  ((List.range 8).map fun i => 8 * cl + i).filter fun n =>
    s.dev.map.liveCore.getLsbD n && holdsFeatures (pairVal s.dev.map.coreFeat n) h.features

/-- The header has a tile strand (R298). -/
def Header.hasTile (h : Header) : Bool := h.tileEntry != 0xFFFFFFFF

/-- A live cluster with TEAM fit cores (R307, R316 check 5). -/
def State.clusterFits (s : State) (h : Header) (cl : Nat) : Bool :=
  s.dev.map.liveCl.getLsbD cl && h.team ≤ (s.fitCores h cl).length

/-- A cluster is eligible (R309): it fits, and has a live MCC where the kernel has a tile strand. -/
def State.eligible (s : State) (h : Header) (cl : Nat) : Bool :=
  s.clusterFits h cl && (!h.hasTile || s.dev.map.liveMcc.getLsbD cl)

/-- The placement table of R309; none when VCL clusters cannot be placed. -/
def State.buildTable (s : State) (h : Header) : Option (List Nat) :=
  let runs := (List.range 4).flatMap fun d =>
    let es := ((List.range 12).map fun c => 12 * d + c).filter (s.eligible h)
    es.take (es.length / h.vspan * h.vspan)
  if h.vcl = 0 then some []
  else if h.vcl ≤ runs.length then some (runs.take h.vcl)
  else none

/-- Slabs that the floors of a group reserve (R96). -/
def Header.floors (h : Header) : Nat := h.feed * h.floorF + (h.strands - h.feed) * h.floorW

/-- The first failing check of R316, by its code. -/
def State.exceeds (s : State) (h : Header) (dynScr : Nat) (c : Ctx) : Option Nat :=
  if 64 < h.strands then some 1
  else if 2048 < h.floors then some 2
  else if 393216 < h.scratch + dynScr then some 3
  else if 8 < h.team then some 4
  else if !((List.range 48).any (s.clusterFits h)) then some 5
  else if !((List.range 48).any (s.eligible h)) then some 6
  else if c.stackPool.2 < h.stack * h.strands * h.team then some 7
  else none

/-! ### Pools (R105, R319, R335) -/

/-- Two areas, each a start and a length, have a byte in common. -/
def areasMeet (a b : Nat × Nat) : Bool := a.1 < b.1 + b.2 && b.1 < a.1 + a.2

/-- Areas within a pool, aligned, and clear of those in use and of each other (R319, R335). -/
def areasOk (pool : Nat × Nat) (align : Nat) (used : List (Nat × Nat)) : List (Nat × Nat) → Bool
  | [] => true
  | a :: as =>
    pool.1 ≤ a.1 && a.1 + a.2 ≤ pool.1 + pool.2 && a.1 % align = 0 && !(used.any (areasMeet a)) && areasOk pool align (a :: used) as

/-- The lowest aligned place in a pool for an area that is clear of those in use. -/
def firstFit (pool : Nat × Nat) (align size : Nat) (used : List (Nat × Nat)) : Option Nat :=
  let up := fun (a : Nat) => (a + align - 1) / align * align
  let starts := up pool.1 :: used.map fun u => up (u.1 + u.2)
  let good := starts.filter fun a => pool.1 ≤ a && a + size ≤ pool.1 + pool.2 && !(used.any (areasMeet (a, size)))
  match good with
  | [] => none
  | a :: as => some (as.foldl (fun (m : Nat) x => min m x) a)

/-- Places for areas of given sizes, one after the other. -/
def fitAll (pool : Nat × Nat) (align : Nat) : List (Nat × Nat) → List Nat → Option (List Nat)
  | _, [] => some []
  | used, size :: sizes =>
    match firstFit pool align size used with
    | none => none
    | some a => (fitAll pool align ((a, size) :: used) sizes).map fun as => a :: as

/-- A team with its launch, kernel header and scratchpad bytes per group. -/
def State.teamShape (s : State) (t : Team) : Option (Launch × Header × Nat) := do
  let l ← s.launch? t.launch
  let k ← s.kernel? l.ctx l.kernel
  some (l, k.hdr, k.hdr.scratch + l.dynScr)

/-- Members `i` of a list of areas by group and strand, `per` of them for each group. -/
def ofGroup (as : List Nat) (per gi : Nat) : List Nat := (as.drop (per * gi)).take per

/-- The save-pool areas that a context's teams use. A group that faults releases its own at once (R335); while it is saved with its team, its
scratchpad, and with group 0 a tile strand that lives, lies in areas taken for that save (R332, log 65). -/
def State.saveAreas (s : State) (ctx : Nat) : List (Nat × Nat) :=
  (s.teamsOf ctx).flatMap fun t =>
    match s.teamShape t with
    | none => []
    | some (_, h, scr) =>
      (s.groupsOf t.id).flatMap fun g =>
        if g.state == .faulted then
          (if g.away then [(g.saveAt, saveSize scr)] else []) ++
            (if g.gi = 0 && (t.kept.any fun x => x.tile && x.state != .exited) then [(t.tileSave, tileSaveSize)] else [])
        else (if g.gi = 0 && t.tile.isSome then [(t.tileSave, tileSaveSize)] else []) ++ (g.saveAt, saveSize scr) ::
          (ofGroup t.ssas h.strands g.gi ++ ofGroup t.forkSaves (2 * h.strands) g.gi).map fun a => (a, 0x3000)

/-- The stack areas that a context's teams use (R319). -/
def State.stackAreas (s : State) (ctx : Nat) : List (Nat × Nat) :=
  (s.teamsOf ctx).flatMap fun t =>
    match s.teamShape t with
    | none => []
    | some (_, h, _) => if h.stack = 0 then [] else
      (s.groupsOf t.id).flatMap fun g => if g.state == .faulted then [] else (ofGroup t.stackAreas h.strands g.gi).map fun a => (a, h.stack)

/-- Sizes of the save-pool areas a first placement takes: save records, SSAs, fork save areas, and the tile save area. -/
def saveSizes (h : Header) (scr : Nat) : List Nat :=
  List.replicate h.team (saveSize scr) ++ List.replicate (h.team * h.strands * (if h.flags / 4 % 2 = 1 then 3 else 1)) 0x3000 ++
    (if h.hasTile then [tileSaveSize] else [])

/-- The areas that a placement names. -/
def Placement.saveAreas (p : Placement) (h : Header) (scr : Nat) : List (Nat × Nat) :=
  (p.saves.map fun a => (a, saveSize scr)) ++ (p.ssas.map fun a => (a, 0x3000)) ++ (p.forkSaves.map fun a => (a, 0x3000)) ++
    (if h.hasTile then [(p.tileSave, tileSaveSize)] else [])

/-- A placement names one core for each group and areas in the numbers that R105, R282, R319, R335 and R421 ask for. -/
def Placement.shaped (p : Placement) (h : Header) : Bool :=
  p.saves.length = h.team && p.ssas.length = h.team * h.strands && p.stackAreas.length = (if h.stack = 0 then 0 else h.team * h.strands) &&
    p.forkSaves.length = (if h.flags / 4 % 2 = 1 then 2 * h.team * h.strands else 0)

/-! ### What cores and MCCs have left (R96, R321, R330) -/

/-- Groups of a team, whose resources a check may count free. -/
def State.skipped (s : State) (skip : Option Nat) : List Nat :=
  match skip with
  | some t => (s.groupsOf t).map (·.id)
  | none => []

/-- Free strand slots of a core. -/
def State.slotsLeft (s : State) (core : Nat) (skip : List Nat) : Nat :=
  64 - (s.strands.filter fun x => !x.tile && x.core == core && !skip.contains x.group).length

/-- Slabs of a core's unreserved pool (R96, R97). -/
def State.slabsLeft (s : State) (core : Nat) (skip : List Nat) : Nat :=
  2048 - (s.strands.filter fun x => !x.tile && x.core == core && !skip.contains x.group).foldl (fun (acc : Nat) x =>
    match s.env? x with
    | some e => acc + max (e.floor x) (s.slabsOf x)
    | none => acc) 0

/-- Free scratchpad bytes of a core (R330). -/
def State.scratchLeft (s : State) (core : Nat) (skip : List Nat) : Nat :=
  393216 - (s.groups.filter fun g => g.core == core && !g.away && !skip.contains g.id).foldl (fun (acc : Nat) g => acc + g.scratchLen) 0

/-- Free tile-strand slots of an MCC. -/
def State.tileSlotsLeft (s : State) (cl : Nat) (skip : List Nat) : List Nat :=
  (List.range 4).filter fun n => !(s.strands.any fun x => x.tile && x.core == cl && x.slot == n && !skip.contains x.group)

/-- Free live bands of an MCC. -/
def State.bandsLeft (s : State) (cl : Nat) (skip : List Nat) : Nat :=
  ((s.liveBands cl).filter fun b => !((s.cluster cl).pbands.any fun p => p.n == b &&
    !(s.strands.any fun x => x.id == p.owner && skip.contains x.group))).length

/-! ### Pending teams (R320, R321) -/

/-- A pending team: its launch, its linear index, its level, when it became pending, and its record when it is a saved team. -/
structure Pend where
  launch : Nat
  index : Nat
  level : Nat
  since : Nat
  saved : Option Nat := none
  deriving DecidableEq, Repr

/-- A context's groups may be placed: its state allows it, and a sliced context is current and not on its way out (R430, R432). -/
def State.mayRun (s : State) (c : Ctx) : Bool :=
  (c.state == .runnable || c.state == .running) && !c.destroyWaits && (!c.sliced || (s.dev.current == some c.id && !s.dev.switching))

/-- The lowest-numbered team of a launch with a residue that has not been placed yet. -/
def Launch.nextIndex (l : Launch) (vcl v : Nat) : Option Nat :=
  ((List.range (l.started.length + 1)).map fun i => v + vcl * i).find? fun i => !l.started.contains i && i < l.teamCount

/-- The next teams of a launch, one for each virtual cluster (R309): a team behind one of them waits for the same resources. -/
def State.nextTeams (s : State) (l : Launch) : List Pend :=
  match s.kernel? l.ctx l.kernel with
  | none => []
  | some k =>
    let n := max k.hdr.vcl 1
    (List.range n).filterMap fun v => (l.nextIndex n v).map fun i =>
      { launch := l.id, index := i, level := min 10 (l.prio + l.risen), since := l.since }

/-- The pending teams that a placement may take. -/
def State.pending (s : State) : List Pend :=
  (s.launches.flatMap fun l =>
    match s.ctx? l.ctx with
    | some c => if s.mayRun c && l.failed.isNone then s.nextTeams l else []
    | none => []) ++
  s.teams.filterMap fun t =>
    match s.launch? t.launch with
    | some l => match s.ctx? l.ctx with
      | some c => if t.state == .saved && s.mayRun c then
          some { launch := l.id, index := t.index, level := min 10 (t.level + t.risen), since := t.since, saved := some t.id } else none
      | none => none
    | none => none

/-- The order of R321: highest level, then the order in which groups became pending. -/
def Pend.before (a b : Pend) : Bool :=
  b.level < a.level ||
    (a.level == b.level && (a.since < b.since || (a.since == b.since && (a.launch < b.launch || (a.launch == b.launch && a.index < b.index)))))

/-- The clusters a team may use (R309, R321). -/
def State.clustersFor (s : State) (l : Launch) (index : Nat) : List Nat :=
  match s.kernel? l.ctx l.kernel with
  | none => []
  | some k =>
    match k.table with
    | none => []
    | some t =>
      if k.hdr.vcl = 0 then (List.range 48).filter (s.eligible k.hdr)
      else match t[index % k.hdr.vcl]? with
        | some c => [c]
        | none => []

/-- The cores of a cluster with room for a group of a launch (R321); one whose island waits for its point takes none (R341). -/
def State.roomyCores (s : State) (h : Header) (scr cl : Nat) (skip : List Nat) : List Nat :=
  (s.fitCores h cl).filter fun n =>
    !s.underTest (.core n) && !s.pointPending (13 * cl + n % 8) && h.strands ≤ s.slotsLeft n skip && h.floors ≤ s.slabsLeft n skip && scr ≤ s.scratchLeft n skip

/-- Bands and saved tasks that a saved team needs on its MCC (R420). -/
def Team.needs (t : Team) : Nat × Nat :=
  (((t.kept.filter fun x => x.tile).flatMap (·.bands)).length, t.keptTasks.length)

/-- The MCC of a cluster can take a team's tile strand (R321, R341, R420). That its table has free entries for the saved tasks is awaited too (DESIGN
CHOICE, log 126). -/
def State.mccRoom (s : State) (h : Header) (cl : Nat) (saved : Option Team) (skip : List Nat) : Bool :=
  !h.hasTile ||
    (s.dev.map.liveMcc.getLsbD cl && !s.underTest (.mcc cl) && !s.pointPending (13 * cl + 8) && !(s.tileSlotsLeft cl skip).isEmpty &&
      match saved with
      | some t => t.needs.1 ≤ s.bandsLeft cl skip && t.needs.2 ≤ 64 - (s.cluster cl).tasks.length
      | none => true)

/-- The out-of-frames event of a lease that waits for a frame; a page that is being moved needs none (R202, R203). -/
def State.leaseLacks (s : State) (c : Ctx) (page : Nat) (pref : Bool) : State :=
  if (s.pte? page).isSome then s else s.postNoFrames c.id (homeOf (65536 * page)) pref

/-- Pages leased one after the other, all of them or none: where one waits, the leases taken before it go back, and its touch and its event stay. -/
def State.leaseList (s : State) (c : Ctx) : List (Nat × Bool) → State × Bool
  | [] => (s, true)
  | w :: ws =>
    match s.lease w.1 c.conf w.2 with
    | some s' => match s'.leaseList c ws with
      | (s'', true) => (s'', true)
      | (s'', false) => (s''.unlease w.1, false)
    | none => (s.leaseLacks c w.1 w.2, false)

/-- The stack pages of one group's strands. -/
def stackPages (c : Ctx) (h : Header) (areas : List Nat) (gi : Nat) : List (Nat × Bool) :=
  ((ofGroup areas h.strands gi).flatMap fun a => c.rangePages a h.stack).eraseDups

/-- The pages that a first placement leases: for each group the launch's and its own stack's (R201, R319). -/
def teamPages (l : Launch) (c : Ctx) (h : Header) (areas : List Nat) : List (Nat × Bool) :=
  (List.range h.team).flatMap fun g => l.owns.map (fun p => (p, false)) ++ stackPages c h areas g

/-- The stack areas of a first placement, where the pool supplies them (R319). -/
def State.stackFit (s : State) (c : Ctx) (h : Header) : Option (List Nat) :=
  if h.stack = 0 then some [] else fitAll c.stackPool 64 (s.stackAreas c.id) (List.replicate (h.team * h.strands) h.stack)

/-- The pools can supply a first placement, and frames its stacks (R319, R321, R335). -/
def State.poolsSupply (s : State) (l : Launch) (c : Ctx) (h : Header) (scr : Nat) : Bool :=
  (fitAll c.savePool 4096 (s.saveAreas c.id) (saveSizes h scr)).isSome &&
    match s.stackFit c h with
    | some areas => (s.leaseList c (teamPages l c h areas)).2
    | none => false

/-- The cluster and cores a pending team could be placed on, but for pages that wait for a lease; none when there is no place. The
resources of the team `skip` count as free (R343). -/
def State.couldPlace (s : State) (p : Pend) (skip : Option Nat := none) : Option (Nat × List Nat) := do
  let l ← s.launch? p.launch
  let k ← s.kernel? l.ctx l.kernel
  let c ← s.ctx? l.ctx
  let scr := k.hdr.scratch + l.dynScr
  let sk := s.skipped skip
  let saved := p.saved.bind s.team?
  if (saved.isNone && !s.poolsSupply l c k.hdr scr) || !l.waiting.isEmpty then none
  else
    let cl ← (s.clustersFor l p.index).find? fun cl =>
      k.hdr.team ≤ (s.roomyCores k.hdr scr cl sk).length && s.mccRoom k.hdr cl saved sk
    some (cl, (s.roomyCores k.hdr scr cl sk).take k.hdr.team)

/-- The cluster and cores of a placement satisfy R321 for a pending team. -/
def State.fitsAt (s : State) (p : Pend) (l : Launch) (h : Header) (cl : Nat) (cores : List Nat) : Bool :=
  (s.clustersFor l p.index).contains cl && cores.length = h.team && cores.eraseDups.length = h.team &&
    (cores.all fun n => (s.roomyCores h (h.scratch + l.dynScr) cl []).contains n) && s.mccRoom h cl (p.saved.bind s.team?) [] &&
    l.waiting.isEmpty

/-! ### Leases at launch (R201) -/

/-- Pages of a launch that wait are leased where that is possible now. -/
def State.leaseWaiting (s : State) (lid : Nat) : State :=
  match s.launch? lid with
  | none => s
  | some l =>
    match s.ctx? l.ctx with
    | none => s
    | some c =>
      l.waiting.foldl (fun s w =>
        match s.lease w.1 c.conf w.2 with
        | some s' => match s'.launch? lid with
          | some l => s'.setLaunch { l with waiting := l.waiting.erase w, owns := w.1 :: l.owns }
          | none => s'
        | none => s.leaseLacks c w.1 w.2) s

/-- A page named by IA leased for a group that has not ended, touched with PREFHOST 0 (DESIGN CHOICE, log 117); a lease that must wait is owed to the
group until it can be taken (R201-R203). -/
def State.leaseGroup (s : State) (c : Ctx) (page gid : Nat) : State :=
  match s.group? gid with
  | none => s
  | some g =>
    match s.team? g.team with
    | none => s
    | some t =>
      let t := { t with owed := t.owed.erase (gid, page) }
      if g.ended then s.setTeam t
      else match s.lease page c.conf false with
        | some s => s.setTeam { t with leases := t.leases.map fun p => if p.1 == gid then (p.1, p.2 ++ [page]) else p }
        | none => (s.leaseLacks c page false).setTeam { t with owed := t.owed ++ [(gid, page)] }

/-- The leases owed to a team's groups tried. -/
def State.leaseOwed (s : State) (t : Team) : State :=
  match (s.launch? t.launch).bind fun l => s.ctx? l.ctx with
  | some c => t.owed.foldl (fun s o => s.leaseGroup c o.2 o.1) s
  | none => s

/-- Every launch's waiting pages tried, and every lease owed to a placed group. -/
def State.leaseAll (s : State) : State :=
  let s := ((s.launches.filter fun l => !l.waiting.isEmpty).map (·.id)).foldl State.leaseWaiting s
  s.teams.foldl State.leaseOwed s

/-! ### TEAM_PLACE (R88, R319, R321, R330, R331, R339) -/

/-- A group's record of the trace: placed or saved (R478). -/
def State.traceGroup (s : State) (kind : Nat) (g : Group) (l : Launch) : State :=
  s.tracePost l.ctx { kind := kind, spec := false, launchSeq := l.seq, linear := g.linear, strand := 0, tag := 0
                      cluster := clusterOfCore g.core, addr := 0 }

/-- A core takes a group of a context: its predictor is cleared when its last group was of another (R277). -/
def State.coreTakes (s : State) (core ctx : Nat) : State :=
  let k := s.core core
  if k.lastCtx == some ctx then s else s.setCore { k with predictor := [], lastCtx := some ctx }

/-- A strand as it starts (R73, R88, R154): the top of its stack area, its arguments and its first instruction. -/
def startStrand (id group idx core slot : Nat) (pc args stackTop sr : DWord) (lanes : Mask) (ssa : Nat) (forkSaves : List Nat) : Strand :=
  { id := id, group := group, idx := idx, core := core, slot := slot
    v := vtab 64 fun _ => {}
    vecArea := vtab 64 fun _ => Lanes.const 0
    b := vtab 16 fun n => if n = 14 then args else if n = 15 || n = 12 then stackTop else 0
    k := vtab 8 fun _ => 0
    j := vtab 8 fun _ => {}
    pc := pc, path := lanes, live := lanes, sr := sr, ssa := ssa, forkSaves := forkSaves }

/-- A group as it is first placed (R82, R209, R330). -/
def startGroup (id team gi linear core level scratchLen saveAt : Nat) : Group :=
  { id := id, team := team, gi := gi, linear := linear, core := core, state := .running, level := level, scratchLen := scratchLen
    bars := vtab 16 fun _ => {}
    rings := vtab 16 fun _ => {}
    amax := vtab 16 fun _ => {}
    saveAt := saveAt, mapSeen := 0 }

/-- A context with a group placed is running; its grace clock starts when it is unacknowledged (R430, R451). -/
def State.ctxRuns (s : State) (ctx : Nat) : State :=
  match s.ctx? ctx with
  | none => s
  | some c =>
    if c.state == .runnable then
      s.setCtx { c with state := .running, runFrom := s.now, grace := if c.ack < s.version then some s.now else none }
    else s

/-- A launch all of whose teams have been placed holds no lease of its own any more: each group holds its own (R201, DEDUCED, log 109). -/
def State.dropOwns (s : State) (lid : Nat) : State :=
  match s.launch? lid with
  | some l => if l.started.length = l.teamCount then (l.owns.foldl State.unlease s).setLaunch { l with owns := [] } else s
  | none => s

/-- The first placement of a team, its pages leased. What the launching strand, or the host, did before its launch happens before what the strands
do: their cores, and the MCC of a tile strand, start as after an acquire (R325, R395, DEDUCED, log 108). -/
def State.placeNew (s : State) (l : Launch) (k : Kernel) (c : Ctx) (p : Pend) (w : Placement) : State :=
  let h := k.hdr
  let scr := h.scratch + l.dynScr
  let base := BitVec.ofNat 64 k.base
  let tid := s.freshId
  let gid := fun (g : Nat) => tid + 1 + g
  let sid := fun (g i : Nat) => tid + 1 + h.team + h.strands * g + i
  let tileId := tid + 1 + h.team + h.strands * h.team
  let stackTop := fun (g i : Nat) =>
    if h.stack = 0 then (0 : DWord) else BitVec.ofNat 64 (w.stackAreas.getD (h.strands * g + i) 0 + h.stack)
  let linear := fun (g : Nat) => p.index * h.team + g
  let strands := (List.range h.team).flatMap fun g =>
    let core := w.cores.getD g 0
    let slots := s.freeSlots core
    (List.range h.strands).map fun i =>
      startStrand (sid g i) (gid g) i core (slots.getD i 0) (base + BitVec.ofNat 64 h.entry) l.args (stackTop g i)
        (srStart l.seed (linear g) i) (BitVec.allOnes 32) (w.ssas.getD (h.strands * g + i) 0) ((w.forkSaves.drop (2 * (h.strands * g + i))).take 2)
  let tileSlot := (s.tileSlotsLeft w.cluster []).headD 0
  let tile := if h.hasTile then
      [{ (startStrand tileId (gid 0) tileSlot w.cluster tileSlot (base + BitVec.ofNat 64 h.tileEntry) l.args 0
          (srStartTile l.seed p.index) 1 w.tileSave []) with tile := true }]
    else []
  let groups := (List.range h.team).map fun g =>
    startGroup (gid g) tid g (linear g) (w.cores.getD g 0) p.level scr (w.saves.getD g 0)
  let team : Team :=
    { id := tid, launch := l.id, index := p.index, state := .running, cluster := w.cluster, level := p.level, since := s.now, placed := tid
      groups := (List.range h.team).map gid, tile := if h.hasTile then some tileId else none, tileSlot := tileSlot
      tileSave := if h.hasTile then w.tileSave else 0
      leases := (List.range h.team).map fun g => (gid g, l.owns ++ (stackPages c h w.stackAreas g).map Prod.fst)
      stackAreas := w.stackAreas, ssas := w.ssas, forkSaves := w.forkSaves }
  let s := { s with freshId := tileId + 1, strands := s.strands ++ strands ++ tile, groups := s.groups ++ groups, teams := s.teams ++ [team] }
  let s := s.setLaunch { l with started := p.index :: l.started }
  let s := s.dropOwns l.id
  let s := w.cores.foldl (fun s n => (s.coreTakes n l.ctx).l1Acquire n .system) s
  let s := if h.hasTile then s.l1Acquire (mccAgent w.cluster) .system else s
  let s := groups.foldl (fun s g => s.traceGroup 2 g l) s
  (s.bump l.ctx 0 h.team).ctxRuns l.ctx

/-- Bytes of a save area as the device reads them, as a number. -/
def State.saveNum (s : State) (at' off n : Nat) : Nat := natLE ((List.range n).map fun i => s.homeByte false (at' + off + i))

/-- Some sector of a range carries poison, or it cannot be reached. -/
def State.savePoisoned (s : State) (lo len : Nat) : Bool :=
  !s.reachable lo || s.poison.any fun sec => lo ≤ 32 * sec && 32 * sec < lo + len

/-- The member whose image fails the checks of R339 step 1: a strand index, or 0xFF for the group record. Of an ended group only the record is there
to check (R335). -/
def State.restoreFails (s : State) (g : Group) (kept : List Strand) : Option Nat :=
  let rd := s.saveNum g.saveAt
  if rd 0 4 != 0x31525347 || rd 4 4 != 0x3800 + g.scratchLen || s.savePoisoned g.saveAt 0x3800 then some 0xFF
  else if g.ended then none
  else
    let alive := kept.filter fun x => x.group == g.id && !x.tile && x.state != .exited
    (alive.find? fun x => s.savePoisoned x.ssa 0x3000 || !imageOk (s.saveNum x.ssa)).map (·.idx)

/-- The save areas that a restore of a team reads: the records of its groups, the SSAs of their strands that live, and the tile save area. -/
def State.restoreAreas (s : State) (t : Team) : List (Nat × Nat) :=
  let live := t.kept.filter fun x => x.state != .exited
  ((s.groupsOf t.id).map fun g => (g.saveAt, saveSize g.scratchLen)) ++ (live.filter fun x => !x.tile).map (fun x => (x.ssa, 0x3000)) ++
    (if live.any fun x => x.tile then [(t.tileSave, tileSaveSize)] else [])

/-- Save areas made ready for the device, which touches them with PREFHOST 0 (R202, log 117), and whether all of them may be accessed. -/
def State.readyAreas (s : State) (c : Ctx) (areas : List (Nat × Nat)) : State × Bool :=
  areas.foldl (fun (acc : State × Bool) a => let q := acc.1.readyRange c a.1 a.2; (q.1, acc.2 && q.2)) (s, true)

/-- One group of a saved team restored on a core (R339). One whose image fails has been placed all the same (R331, R435). -/
def State.restoreGroup (s : State) (t : Team) (l : Launch) (gid core : Nat) : State :=
  match s.group? gid with
  | none => s
  | some g =>
    let s := (s.coreTakes core l.ctx).l1Acquire core .cluster
    let s := if g.ended then s else (s.traceGroup 2 { g with core := core } l).bump l.ctx 0 1
    match s.restoreFails g t.kept with
    | some n =>
      let s := s.setGroup { g with core := core, away := false, state := if g.state == .faulted then .faulted else .resumed }
      let st := startStrand 0 gid n core 0 0 0 0 0 0 0 []
      s.groupFault st 2 0x84 0 0 (BitVec.ofNat 32 n) 0 0
    | none =>
      let slots := s.freeSlots core
      let mine := t.kept.filter fun x => x.group == gid && !x.tile
      let back := mine.zipIdx.map fun p =>
        let x := { p.1 with core := core, slot := slots.getD p.2 0 }
        if x.state == .exited then x else x.reload (s.saveNum x.ssa)
      let poison := (s.poison.filter fun sec => g.saveAt + 0x3800 ≤ 32 * sec && 32 * sec < g.saveAt + 0x3800 + g.scratchLen).map
        fun sec => sec - (g.saveAt + 0x3800) / 32
      let g' := g.reload core (s.saveNum g.saveAt)
      let g' := { g' with poison := poison, away := false, state := if g.ended then g.state else .running, level := t.level }
      { (s.setGroup g') with strands := s.strands ++ back }

/-- The tile strand of a saved team restored on an MCC, with its bands and tasks (R420), which drops the lines of its L1 that have r = 0 (R339, R395). It
keeps its identity (R339); where its image fails the checks of R108 its group faults. A task whose entry is taken moves to the lowest free one under
its old ticket (DESIGN CHOICE, log 126). -/
def State.restoreTile (s : State) (t : Team) (cl : Nat) : State :=
  match t.kept.find? fun x => x.tile with
  | none => s
  | some x =>
    let slot := (s.tileSlotsLeft cl []).headD 0
    let s := s.l1Acquire (mccAgent cl) .cluster
    let s := match s.team? t.id with
      | some u => s.setTeam { u with tileAway := false }
      | none => s
    if x.state == .exited then { s with strands := s.strands ++ [{ x with core := cl, slot := slot }] }
    else if s.savePoisoned t.tileSave 0x3000 || !imageOk (s.saveNum t.tileSave) then
      let y := { x with core := cl, slot := slot, bands := [] }
      ({ s with strands := s.strands ++ [y] }).groupFault y 2 0x84 0 0 (BitVec.ofNat 32 x.idx) 0 0
    else
      let y := { (x.reload (s.saveNum t.tileSave)) with core := cl, slot := slot, bands := [] }
      let s := { s with strands := s.strands ++ [y] }
      let s := x.bands.foldl (fun s b => s.grantBand cl x.id b.logical b) s
      t.keptTasks.foldl (fun s k =>
        let c := s.cluster cl
        let entry := if c.tasks.any fun z => z.entry == k.entry then c.freeEntry.getD 0 else k.entry
        s.setCluster { c with tasks := c.tasks ++ [{ k with entry := entry, state := .waiting, charged := false }] }) s

/-- A saved team placed again (R339), its save areas ready. -/
def State.restoreTeam (s : State) (t : Team) (l : Launch) (p : Pend) (cl : Nat) (cores : List Nat) : State :=
  let t' := { t with state := .running, cluster := cl, level := p.level, kept := [], keptTasks := []
                     placed := s.freshId, aboveSince := none, preemptor := none }
  let s := { (s.setTeam t') with freshId := s.freshId + 1 }
  let s := s.ctxRuns l.ctx
  let s := (t.groups.zipIdx).foldl (fun s g => s.restoreGroup { t with level := p.level } l g.1 (cores.getD g.2 0)) s
  s.restoreTile { t with level := p.level } cl

/-- A saved team placed again once its save areas may be read: its placement waits for a page that has no frame or is being moved (R202, R203). -/
def State.placeSaved (s : State) (t : Team) (l : Launch) (c : Ctx) (p : Pend) (cl : Nat) (cores : List Nat) : State :=
  match s.readyAreas c (s.restoreAreas t) with
  | (s, true) => s.restoreTeam t l p cl cores
  | (s, false) => s

/-- TEAM_PLACE: a pending team is placed where R321 allows it and no team ahead of it could be placed. -/
def State.teamPlace (s : State) (launch index : Nat) (w : Placement) : State :=
  let s := s.leaseAll
  match s.pending.find? fun p => p.launch == launch && p.index == index with
  | none => s
  | some p =>
    match s.launch? launch with
    | none => s
    | some l =>
      match s.kernel? l.ctx l.kernel, s.ctx? l.ctx with
      | some k, some c =>
        if !s.fitsAt p l k.hdr w.cluster w.cores || (s.pending.any fun q => q.before p && (s.couldPlace q).isSome) then s
        else
          match p.saved with
          | some tid => match s.team? tid with
            | some t => s.placeSaved t l c p w.cluster w.cores
            | none => s
          | none =>
            let scr := k.hdr.scratch + l.dynScr
            if !(Placement.shaped w k.hdr) || !areasOk c.savePool 4096 (s.saveAreas c.id) (Placement.saveAreas w k.hdr scr) ||
                !areasOk c.stackPool 64 (s.stackAreas c.id) (w.stackAreas.map fun a => (a, k.hdr.stack)) then s
            else
              let pages := teamPages l c k.hdr w.stackAreas
              match s.leaseList c pages with
              | (s', true) => match s'.launch? launch, s'.ctx? l.ctx with
                | some l, some c => s'.placeNew l k c p w
                | _, _ => s
              | (s', false) => s'
      | _, _ => s

/-- The placement that the model's own default order takes for a pending team: the first cluster and cores, and the lowest areas. -/
def State.defaultPlacement (s : State) (p : Pend) : Option Placement := do
  let l ← s.launch? p.launch
  let k ← s.kernel? l.ctx l.kernel
  let c ← s.ctx? l.ctx
  let at' ← s.couldPlace p
  let h := k.hdr
  let scr := h.scratch + l.dynScr
  if p.saved.isSome then
    some { cluster := at'.1, cores := at'.2, stackAreas := [], saves := [], ssas := [], forkSaves := [], tileSave := 0 }
  else
    let saves ← fitAll c.savePool 4096 (s.saveAreas c.id) (saveSizes h scr)
    let areas ← s.stackFit c h
    let n := h.team * h.strands
    let forks := if h.flags / 4 % 2 = 1 then 2 * n else 0
    some { cluster := at'.1, cores := at'.2, stackAreas := areas, saves := saves.take h.team, ssas := (saves.drop h.team).take n
           forkSaves := (saves.drop (h.team + n)).take forks, tileSave := if h.hasTile then saves.getLastD 0 else 0 }

/-- TEAM_PLACE (R321). -/
def execTeamPlace (launch team : Nat) (p : Placement) (s : State) : Host.Outcome State Fault Refusal := .next (s.teamPlace launch team p)

/-! ### LEVEL_RISE and PRIORITY_PREEMPT (R320, R322) -/

/-- LEVEL_RISE: a full 10 ms of waiting raises a pending team's level by 1, up to 10 (R320). -/
def execLevelRise (launch team : Nat) (s : State) : Host.Outcome State Fault Refusal :=
  .next (match s.teams.find? fun t => t.launch == launch && t.index == team && t.state == .saved with
    | some t => if t.since + 10000000 * (t.risen + 1) ≤ s.now && t.level + t.risen < 10 then s.setTeam { t with risen := t.risen + 1 } else s
    | none => match s.launch? launch with
      | some l =>
        if l.since + 10000000 * (l.risen + 1) ≤ s.now && l.prio + l.risen < 10 && team < l.teamCount && !l.started.contains team then
          s.setLaunch { l with risen := l.risen + 1 }
        else s
      | none => s)

/-- The running groups of lower level on cores that a pending team could use (R322). -/
def State.preemptable (s : State) (p : Pend) : List Group :=
  match s.launch? p.launch with
  | none => []
  | some l =>
    match s.kernel? l.ctx l.kernel with
    | none => []
    | some k =>
      let cores := (s.clustersFor l p.index).flatMap fun cl => (s.fitCores k.hdr cl).filter fun n => !s.underTest (.core n)
      s.groups.filter fun g => g.state == .running && !g.away && g.level < p.level && cores.contains g.core

/-- Order of a group's placement. -/
def State.placedOrder (s : State) (g : Group) : Nat := match s.team? g.team with | some t => t.placed | none => 0

/-- The victim of R322: the lowest level, among equals the most recently placed. -/
def State.isVictim (s : State) (p : Pend) (g : Group) : Bool :=
  let gs := s.preemptable p
  gs.contains g && gs.all fun x => g.level < x.level || (g.level == x.level && s.placedOrder x ≤ s.placedOrder g)

/-- The number of a launch's virtual clusters; without a virtual grid all its teams may use the same clusters (R309). -/
def State.gridOf (s : State) (l : Launch) : Nat := match s.kernel? l.ctx l.kernel with | some k => max k.hdr.vcl 1 | none => 1

/-- The virtual cluster of a pending team (R309). -/
def State.vclOf (s : State) (p : Pend) : Nat := match s.launch? p.launch with | some l => p.index % s.gridOf l | none => 0

/-- Since when a pending team stands above a group it could replace, kept as time passes. Teams of one launch and virtual cluster that have not been
placed yet have been pending together, and could replace the same groups (R320, R322). -/
def State.aboveAt (s : State) (p : Pend) : Option Nat :=
  match p.saved with
  | some t => (s.team? t).bind (·.aboveSince)
  | none => (s.launch? p.launch).bind fun l => (l.above.find? fun x => x.1 == s.vclOf p).map Prod.snd

/-- The record of R322 brought up to date: where no group of lower level can be replaced the wait is interrupted. -/
def State.noteAbove (s : State) : State :=
  let ps := s.pending.map fun p => (p, if (s.preemptable p).isEmpty then none else some ((s.aboveAt p).getD s.now))
  { s with
    launches := s.launches.map fun l => { l with above := ps.filterMap fun q =>
      if q.1.launch == l.id && q.1.saved.isNone then q.2.map fun t => (s.vclOf q.1, t) else none }
    teams := s.teams.map fun t => { t with aboveSince := (ps.find? fun q => q.1.saved == some t.id).bind Prod.snd } }

/-- A pending team has a pre-emption under way (R322). -/
def State.preempts (s : State) (launch index : Nat) : Bool :=
  s.teams.any fun t => t.state == .preempting && t.preemptor == some (launch, index)

/-- The pending team of a launch with a linear index: one of `pending`, or one behind it that waits for the same resources. -/
def State.pendingTeam (s : State) (launch index : Nat) : Option Pend :=
  match s.launch? launch with
  | none => none
  | some l =>
    (s.pending.find? fun p => p.launch == launch && (p.index == index ||
      (p.saved.isNone && p.index < index && index < l.teamCount && !l.started.contains index && p.index % s.gridOf l == index % s.gridOf l))).map
      fun p => { p with index := index }

/-- The pending teams that may start a pre-emption next: for each of `pending` itself, or the first team behind it with none under way. -/
def State.preemptors (s : State) : List Pend :=
  s.pending.filterMap fun p =>
    if !s.preempts p.launch p.index then some p
    else if p.saved.isSome then none
    else match s.launch? p.launch with
      | none => none
      | some l =>
        let n := s.gridOf l
        let busy := s.teams.filterMap fun t => t.preemptor.bind fun q => if t.state == .preempting && q.1 == l.id then some q.2 else none
        (({ l with started := l.started ++ busy } : Launch).nextIndex n (p.index % n)).map fun i => { p with index := i }

/-- PRIORITY_PREEMPT: after 50 us at a higher level, a pending team pre-empts its victim; it starts one pre-emption at a time (R322). -/
def State.priorityPreempt (s : State) (launch index victim : Nat) : State :=
  match s.pendingTeam launch index, s.group? victim with
  | some p, some g =>
    let long := match s.aboveAt p with | some t => t + 50000 ≤ s.now | none => false
    if long && s.isVictim p g && !s.preempts launch index then
      let s := s.preempt g.team
      match s.team? g.team with
      | some t => s.setTeam { t with preemptor := some (launch, index) }
      | none => s
    else s
  | _, _ => s

/-- PRIORITY_PREEMPT (R322). -/
def execPriorityPreempt (launch team victim : Nat) (s : State) : Host.Outcome State Fault Refusal :=
  .next (s.priorityPreempt launch team victim)

/-- PREEMPT_TIMEOUT: a strand that has issued more than 2^20 instructions since the request reached no listed point within them (R334). Its record gives
the strand's pc and no lane (DESIGN CHOICE, log 45). -/
def execPreemptTimeout (strand : Nat) (s : State) : Host.Outcome State Fault Refusal :=
  .next (match s.strand? strand with
    | none => s
    | some st =>
      match s.group? st.group with
      | some g =>
        let preempting := match s.team? g.team with | some t => t.state == .preempting | none => false
        if preempting && st.overran && st.state != .exited then s.groupFault st 2 0x83 st.pc.toNat 0 (BitVec.ofNat 32 st.idx) 0 0 else s
      | none => s)

/-! ### World switches (R432, R435) -/

/-- The rotation: the sliced contexts that are runnable, running or saved, by CTXID; one under destruction has left it (R430, R432). -/
def State.rotation (s : State) : List Nat :=
  let ids := (s.ctxs.filter fun c => c.sliced && !c.destroyWaits && (c.state == .runnable || c.state == .running || c.state == .saved)).map (·.id)
  (List.range 4096).filter ids.contains

/-- The member that follows a context in the rotation, wrapping around; none when it is empty. -/
def nextIn (rot : List Nat) (c : Nat) : Option Nat :=
  match rot.find? fun x => c < x with
  | some x => some x
  | none => rot.head?

/-- The counters of a context read back from its save area (R435). -/
def State.loadCounters (s : State) (c : Ctx) : Ctx :=
  if s.reachable c.ctxSave then
    { c with counters := vtab 16 fun n => BitVec.ofNat 64 (s.saveNum c.ctxSave (8 * n) 8) }
  else c

/-- The counters of a context written to its save area; a write that fails faults the context (R434, R435). -/
def State.storeCounters (s : State) (ctx : Nat) : State :=
  match s.ctx? ctx with
  | none => s
  | some c => match s.saveCounters c with
    | some s => s
    | none => s.faultCtx ctx 2

/-- The save area of a context's counters may be read: its page is ready, and no write of the counters still waits for it (R202, R435). One that cannot
be reached is read as nothing. -/
def State.countersReady (s : State) (c : Ctx) : State × Bool :=
  if s.dev.waits.any fun w => w.ctx == c.id && (match w.write with | .bytes ia _ _ _ => ia == c.ctxSave | _ => false) then (s, false)
  else if s.reachable c.ctxSave then s.readyRange c c.ctxSave 128
  else (s, true)

/-- The current context, if it is saved, becomes runnable with its counters as soon as they may be read (R432, R435). -/
def State.wakeSaved (s : State) : State :=
  match s.dev.current.bind s.ctx? with
  | none => s
  | some c =>
    if c.state != .saved || s.dev.switching then s
    else match s.countersReady c with
      | (s, true) => match s.ctx? c.id with
        | some c => (s.setCtx (s.loadCounters c)).ctxTo c.id .runnable 4
        | none => s
      | (s, false) => s

/-- A member of the rotation becomes current and its slice starts; a saved one becomes runnable (R432). -/
def State.makeCurrent (s : State) (id : Option Nat) : State :=
  { s with dev := { s.dev with current := id, sliceFrom := s.now, switching := false } }.wakeSaved

/-- A context is suspended (R431): a world switch starts at once where it was the current one (R432), and its counters go to CTXSAVE, once more when
the run-on of its teams has ended. -/
def State.suspendNow (s : State) (ctx cause : Nat) : State :=
  match s.ctx? ctx with
  | none => s
  | some c =>
    let s := s.setCtx { c with suspendWaits := none, grace := none, saveDue := s.anyPlaced ctx }
    let s := ((s.startSwitch ctx).quiesce ctx).traceSeal ctx
    (s.ctxTo ctx .suspended cause).storeCounters ctx

/-- The states from which a suspension is possible (R430). -/
def CState.suspendable : CState → Bool
  | .built | .runnable | .running | .saved => true
  | _ => false

/-- The suspensions that waited for the end of a world switch (R431). -/
def State.suspendWaiting (s : State) : State :=
  (s.ctxs.filterMap fun c => c.suspendWaits.map fun k => (c.id, k)).foldl (fun (s : State) w =>
    match s.ctx? w.1 with
    | none => s
    | some c => if c.state.suspendable then s.suspendNow w.1 w.2 else s.setCtx { c with suspendWaits := none }) s

/-- The outgoing context of a world switch as its last team is saved (R432 step 2): one that was running is saved, and the counters of one that is
still in the rotation go to CTXSAVE (R435). -/
def State.switchedOut (s : State) (c : Nat) : State :=
  match s.ctx? c with
  | none => s
  | some x =>
    let s := s.setCtx { x with grace := none }
    if x.state == .running then ((s.ctxTo c .saved 4).traceSeal c).storeCounters c
    else if x.state == .runnable then s.storeCounters c
    else s

/-- A world switch goes on where it can: from a current context that has left the rotation or whose slice is over, once its last team is
saved; or to the first member when none is current (R432). Suspensions that waited for its end come before the next member is chosen (R431). -/
def State.settleWorld (s : State) : State :=
  let rot := s.rotation
  match s.dev.current with
  | none => match rot.head? with
    | some x => s.makeCurrent (some x)
    | none => s
  | some c =>
    if s.anyPlaced c || (rot.contains c && !s.dev.switching) then s.wakeSaved
    else
      let s := s.switchedOut c
      let s := { s with dev := { s.dev with current := none, switching := false } }.suspendWaiting
      s.makeCurrent (nextIn s.rotation c)

/-! ### GROUP_SAVE (R334, R335, R420) -/

/-- Nothing of a strand is in flight (R334 step 3). -/
def State.drained (s : State) (st : Strand) : Bool :=
  !(s.flight.any fun a => a.strand == st.id && !a.spec) && !(s.prods.any fun p => p.strand == st.id) &&
    !(s.copies.any fun k => k.strand == st.id)

/-- The strands of a team, its tile strand among them. -/
def State.strandsOf (s : State) (t : Team) : List Strand :=
  s.strands.filter fun x => x.cont.isNone && t.groups.contains x.group

/-- Every strand of a pre-empting team stands at a listed point or has exited, and everything issued has completed (R334), what strands that are gone
have left in flight included (R384). -/
def State.readyToSave (s : State) (t : Team) : Bool :=
  !(s.flight.any fun a => a.team == t.id && !a.spec) && !(s.copies.any fun k => t.groups.contains k.group) &&
  (s.strandsOf t).all fun x =>
    (x.state == .exited || (match s.env? x with
      | some e => s.atPoint x e && !x.overran && (s.pointPoison x).isNone
      | none => false)) &&
    s.drained x && !(s.clusters.any fun c => c.tasks.any fun k => k.strand == x.id && k.state == .issued)

/-- A parked strand written to its SSA: the slots of its V-spilled registers in the vector area (R108), and what follows that area. -/
def State.saveStrand (s : State) (x : Strand) : State :=
  let s := ((List.range 64).filter fun n => (x.reg n).shape == .spilled).foldl (fun s n => s.saveLanes x n) s
  s.saveBytes (x.ssa + 0x2000) (x.image.drop 0x2000)

/-- The tile strand of a team written to its save area, where it lives; its bands are released and its tasks leave the table (R420, R421). -/
def State.saveTile (s : State) (t : Team) : State :=
  match t.tile.bind s.strand? with
  | none => s
  | some x =>
    let cl := x.core
    let tasks := (s.cluster cl).tasks.filter fun k => k.strand == x.id
    let x' := x.parked (match s.sideOf x with | some e => e.deadSet | none => {})
    let s := if x.state == .exited then s else s.saveBytes (t.tileSave + 0x2000) ((x'.tileImage tasks).drop 0x2000)
    let s := s.l1CleanAll x.agentCore
    let c := s.cluster cl
    let s := s.setCluster { c with tasks := c.tasks.filter fun k => k.strand != x.id }
    let s := s.releaseBands x.id
    let s := { s with strands := s.strands.filter fun y => y.id != x.id }
    match s.team? t.id with
    | some t => s.setTeam { t with kept := t.kept ++ [x'], keptTasks := tasks, tileAway := true }
    | none => s

/-- A group of a pre-empting team written to its save area (R334 step 4, R335); a fork made while its strands ran on is squashed first (DESIGN CHOICE,
log 123). -/
def State.saveMembers (s : State) (t : Team) (g : Group) (l : Launch) (h : Header) : State :=
  let s := s.squashWhere fun x => x.group == g.id
  let mine := s.strands.filter fun x => x.group == g.id && !x.tile
  let parked := mine.map fun x =>
    if x.state == .exited then x else x.parked (match s.sideOf x with | some e => e.deadSet | none => {})
  let s := s.l1CleanAll g.core
  let s := parked.foldl (fun s x => if x.state == .exited then s else s.saveStrand x) s
  let s := s.saveBytes g.saveAt
    (g.record h l.kernel (if t.tile.isSome then 1 else 0) (if g.gi = 0 then t.tileSave else 0) s.version parked)
  let s := g.poison.foldl (fun (s : State) sec =>
    let at' := (g.saveAt + 0x3800) / 32 + sec
    if s.poison.contains at' then s else { s with poison := at' :: s.poison }) s
  let s := { s with strands := s.strands.filter fun x => !(x.group == g.id && !x.tile) }
  let s := s.setGroup { g with away := true, state := if g.ended then g.state else .saved }
  let s := if g.ended then s else s.traceGroup 3 g l
  match s.team? t.id with
  | some t => s.setTeam { t with kept := t.kept ++ parked }
  | none => s

/-- A team is saved when its last member is, and it is pending again (R320, R333). -/
def State.settleSaved (s : State) (tid : Nat) : State :=
  match s.team? tid with
  | none => s
  | some t =>
    let gone := (s.groupsOf tid).all (·.away) && !(t.tile.isSome && (t.tile.bind s.strand?).isSome)
    if t.state == .preempting && gone then
      let s := s.setTeam { t with state := .saved, since := s.now, risen := 0, aboveSince := none, preemptor := none }
      let s := match s.launch? t.launch with | some l => s.settleCtx l.ctx | none => s
      s.settleWorld
    else s

/-- The tile strand of a team is placed and lives. -/
def State.tileLives (s : State) (t : Team) : Bool := match t.tile.bind s.strand? with | some x => x.state != .exited | none => false

/-- A group with the record area of its save, and its team with the tile save area: their own, or for a faulted group the lowest free places in the
save pool; none while the pool has none (R332, R335, log 65). -/
def State.recordArea (s : State) (c : Ctx) (t : Team) (g : Group) : Option (Group × Team) :=
  if g.state != .faulted then some (g, t)
  else do
    let used := s.saveAreas c.id
    let a ← firstFit c.savePool 4096 (saveSize g.scratchLen) used
    let b ← if g.gi = 0 && s.tileLives t then firstFit c.savePool 4096 tileSaveSize ((a, saveSize g.scratchLen) :: used) else some t.tileSave
    some ({ g with saveAt := a }, { t with tileSave := b })

/-- GROUP_SAVE. -/
def State.groupSave (s : State) (gid : Nat) : State :=
  match s.group? gid with
  | none => s
  | some g =>
    match s.team? g.team with
    | none => s
    | some t =>
      match s.teamShape t with
      | none => s
      | some (l, h, _) =>
        if t.state != .preempting || g.away || !s.readyToSave t then s
        else
          match (s.ctx? l.ctx).bind fun c => (s.recordArea c t g).map fun a => (c, a) with
          | none => s
          | some (c, g, t) =>
            let areas := (g.saveAt, saveSize g.scratchLen) :: ((s.strands.filter fun x => x.group == gid && !x.tile && x.state != .exited).map
              fun x => (x.ssa, 0x3000)) ++ (if g.gi = 0 && s.tileLives t then [(t.tileSave, tileSaveSize)] else [])
            match s.readyAreas c areas with
            | (s, false) => s
            | (s, true) =>
              let s := (s.setGroup g).setTeam t
              let s := if g.gi = 0 then s.saveTile t else s
              match s.group? gid, s.team? t.id with
              | some g, some t => (s.saveMembers t g l h).settleSaved t.id
              | _, _ => s

/-- GROUP_SAVE (R334). -/
def execGroupSave (group : Nat) (s : State) : Host.Outcome State Fault Refusal := .next (s.groupSave group)

/-! ### OPERATING_POINT_CHANGE (R341) -/

/-- The heat record of an island put back; one that is as at reset is not listed. -/
def State.setHeat (s : State) (h : Heat) : State :=
  let rest := s.dev.heats.filter fun x => x.island != h.island
  { s with dev := { s.dev with heats := if h = { island := h.island } then rest else h :: rest } }

/-- No group runs on what the island feeds (R341): a core, an MCC or a band; other islands feed no group alone. -/
def State.islandIdle (s : State) (n : Nat) : Bool :=
  let cl := n / 13
  let k := n % 13
  if 624 ≤ n then true
  else if k < 8 then !(s.groups.any fun g => g.core == 8 * cl + k && !g.ended && !g.away)
  else if k = 8 then !(s.strands.any fun x => x.tile && x.core == cl && x.state != .exited)
  else !((s.cluster cl).pbands.any fun p => p.n == k - 9)

/-- OPERATING_POINT_CHANGE: a requested point is taken at a moment that R341 allows; an island that has left critical gets its point and
its share of RT back with it (R471). -/
def execOperatingPointChange (island : Nat) (s : State) : Host.Outcome State Fault Refusal :=
  let h := s.heat island
  .next (if (h.point != h.want || h.restoring) && s.islandIdle island then s.setHeat { h with point := h.want, restoring := false } else s)

end Sys2Proof.Machine
end

