-- ==== Sys2Proof/Machine/System.lean ====
section
/-!
DEFINITION. The system group, major 0x7D: YIELD and SLEEP (R342-R344), CROPEN and CRCLOSE (R460), MAPV, MAPACK and FEAT (R453-R455), CLK,
PMRD, PMCFG and PROG (R475, R476); NOP, UDF and the non-instructions (R53, R56); and the event SLEEP_WAKE.
-/

namespace Sys2Proof.Machine

/-! ### YIELD and SLEEP -/

/-- Some pending team of level at least the group's could be placed with this team's resources counted free (R343). -/
def State.yieldHelps (s : State) (team level : Nat) : Bool :=
  s.pending.any fun p => level ≤ p.level && (s.couldPlace p (some team)).isSome

/-- YIELD. -/
def yieldBody : M Unit := do
  let m ← effMask
  if m = 0 then pure ()
  else
    let j ← get
    if (j.s.setStrand j.st).yieldHelps j.e.team j.e.level then updAll fun s => s.preempt j.e.team else pure ()

/-- SLEEP. -/
def sleepBody : M Unit := do
  readyB
  needUniformB
  let m ← effMask
  let done := upd fun st => { st with sleepFrom := none, restored := false }
  if m = 0 then done
  else
    let x ← uniformB
    let j ← get
    let now := (j.s.cluster j.st.clusterNo).cycles
    let start := j.st.sleepFrom.getD (now, x.toNat)
    if x = 0 || j.st.restored || start.1 + x.toNat ≤ now then done
    else
      upd fun st => { st with sleepFrom := some start }
      throw (.hold .sleep)

/-- SLEEP_WAKE: a sleeper whose cluster's counter has advanced far enough is ready again (R344). -/
def execSleepWake (strand : Nat) (s : State) : Host.Outcome State Fault Refusal :=
  .next (match s.strand? strand with
    | none => s
    | some st =>
      match st.state, st.sleepFrom with
      | .blocked .sleep, some f => if f.1 + f.2 ≤ (s.cluster st.clusterNo).cycles then s.setStrand { st with state := .ready } else s
      | _, _ => s)

/-! ### CROPEN and CRCLOSE (R460) -/

/-- CROPEN. -/
def cropenBody : M Unit := do
  let f ← form
  let m ← effMask
  if m = 0 then pure ()
  else
    let j ← get
    if j.st.handler.isSome then illegal
    let b ← getB f.a
    if b.extractLsb' 0 6 != 0 then trapM 0x03 b.lo
    if 128 ≤ j.st.rets.length then throw (.group { code := 0x80, lanes := j.st.path })
    updS fun s => { s with freshId := s.freshId + 1 }
    upd fun st => { st with rets := { ra := b + 1, cm := st.path, opened := j.s.freshId } :: st.rets }

/-- CRCLOSE. -/
def crcloseBody : M Unit := do
  let m ← effMask
  if m = 0 then pure ()
  else
    let j ← get
    match j.st.handler, j.st.rets with
    | some h, rets =>
      if h.unwind then upd Strand.leaveHandler
      else match rets with
        | top :: rest => if top.isRegion && j.st.path == top.cm &&& j.st.live then upd fun st => { st with rets := rest } else illegal
        | [] => illegal
    | none, top :: rest => if top.isRegion && j.st.path == top.cm &&& j.st.live then upd fun st => { st with rets := rest } else illegal
    | none, [] => illegal

/-! ### MAPV, MAPACK and FEAT (R454, R455) -/

/-- A 64-bit value read into a v pair; an empty mask reads nothing (R454, R476). -/
def pairBody (value : Job → DWord) : M Unit := do
  let f ← form
  let m ← effMask
  if m = 0 then pure ()
  else
    let j ← get
    writePair f.d (value j) m

/-- MAPV. -/
def mapvBody : M Unit := do
  let f ← form
  pairBody fun j => if f.x.x1 then (match j.s.ctx? j.e.ctx with | some c => c.ack | none => 0) else j.s.version

/-- FEAT. -/
def featBody : M Unit := do
  let f ← form
  pairBody fun j => if f.x.x1 then j.e.hdr.features else j.s.unitFeatures j.st

/-- The grace clock of a context after a change of its state, its ACK or the version (R451). -/
def State.regrace (s : State) (c : Ctx) : Ctx :=
  let start := max c.runFrom (s.dev.published.getD c.ack.toNat s.now)
  { c with grace := if c.state == .running && c.ack < s.version then some start else none }

/-- An acknowledgement up to a version: its status, 0 when ACK is raised (R455). -/
def State.acknowledge (s : State) (ctx : Nat) (n : DWord) : State × Nat :=
  match s.ctx? ctx with
  | none => (s, 2)
  | some c =>
    if s.version < n then (s, 2)
    else if n ≤ c.ack then (s, 1)
    else (s.setCtx (s.regrace { c with ack := n }), 0)

/-- MAPACK. -/
def mapackBody : M Unit := do
  let f ← form
  readyRun f.a 2 f.x.w0.wa
  needUniform f.a
  needUniform (f.a + 1)
  let m ← effMask
  if m = 0 then pure ()
  else
    let lo ← readU f.a
    let hi ← readU (f.a + 1)
    let j ← get
    let r := j.s.acknowledge j.e.ctx (DWord.pair lo hi)
    writeV f.d (.u (BitVec.ofNat 32 r.2)) m
    updS fun s => (s.acknowledge j.e.ctx (DWord.pair lo hi)).1

/-! ### CLK, PMRD, PMCFG and PROG (R476) -/

/-- CLK. -/
def clkBody : M Unit := pairBody fun j => BitVec.ofNat 64 (j.s.cluster j.st.clusterNo).cycles

/-- Some counter of a context counts an event (R473). -/
def Ctx.counts (c : Ctx) (ev : Nat) : Bool :=
  (List.range 5).any fun i => !c.claimed.contains (11 + i) && ((vget c.select (11 + i) 0).extractLsb' 0 16).toNat == ev

/-- Events that are a matter of timing or of traffic inside the device (R473), counted for a context up to now: how many of each have happened is a
free value (DESIGN CHOICE, log 16). -/
def State.countFree (s : State) (ctx : Nat) (evs : List Nat) : State :=
  evs.foldl (fun s ev =>
    match s.ctx? ctx with
    | some c =>
      if c.counts ev then ({ s with freeCtr := s.freeCtr + 1 }).count ctx ev (Config.timedCount s.freeCtr).toNat else s
    | none => s) s

/-- The traffic of a context counted where it arrives: L2 sector reads, HBM bursts and die-to-die beats (R473). -/
def State.countTraffic (s : State) (ctx : Nat) : State := s.countFree ctx [6, 7, 8]

/-- PMRD. -/
def pmrdBody : M Unit := do
  let f ← form
  let m ← effMask
  if m = 0 then pure ()
  else
    let e := (← get).e
    updS fun s => s.countTraffic e.ctx
    let j ← get
    match j.s.ctx? j.e.ctx with
    | none => pure ()
    | some c => writePair f.d (vget c.counters f.b 0) m

/-- A selection word is malformed (R473). -/
def badSelection (w : Word) : Bool :=
  w.extractLsb' 22 10 != 0 || (1 ≤ (w.extractLsb' 16 6).toNat && (w.extractLsb' 16 6).toNat ≤ 15) || 9 < (w.extractLsb' 0 16).toNat

/-- PMCFG. -/
def pmcfgBody : M Unit := do
  let f ← form
  readyA
  needUniform f.a
  let m ← effMask
  if m = 0 then pure ()
  else
    let w ← readU f.a
    let j ← get
    match j.s.ctx? j.e.ctx with
    | none => pure ()
    | some c =>
      let status := if c.claimed.contains f.b then 2 else if badSelection w then 1 else 0
      writeV f.d (.u (BitVec.ofNat 32 status)) m
      if status = 0 then
        updS fun s => match s.ctx? j.e.ctx with
          | some c => s.setCtx { c with select := vset c.select f.b w, counters := vset c.counters f.b 0 }
          | none => s

/-- A PROG point counted for a cluster and the function of a context (R476, R481). -/
def Cluster.prog (c : Cluster) (func : Nat) : Cluster :=
  let old := match c.progs.find? fun p => p.1 == func with | some p => p.2 | none => 0
  { c with progs := (func, old + 1) :: c.progs.filter fun p => p.1 != func }

/-- PROG. -/
def progBody : M Unit := do
  let f ← form
  let m ← effMask
  if m = 0 then pure ()
  else
    let j ← get
    let func := match j.s.ctx? j.e.ctx with | some c => c.func | none => 0
    updAll fun s =>
      ((s.setCluster ((s.cluster j.st.clusterNo).prog func)).count j.e.ctx 4 1).traceOf j.st 1 f.b j.st.pc.toNat

/-- NOP: its predicate is read, and nothing follows. -/
def nopBody : M Unit := do
  let _ ← effMask

/-! ### The instructions -/

/-- YIELD, B32 (R343). -/
def execYield (o : W0) (s : State) : Host.Outcome State Fault Refusal :=
  run (Form.b32 Enc.yield' o) yieldBody s

/-- YIELD, X96 (R343). -/
def execYieldX96 (o : X96) (s : State) : Host.Outcome State Fault Refusal :=
  run (Form.x96 Enc.yield' o) yieldBody s

/-- SLEEP (R344). -/
def execSleep (o : X96) (s : State) : Host.Outcome State Fault Refusal :=
  run (Form.x96 Enc.sleep' o) sleepBody s

/-- CROPEN (R460). -/
def execCropen (o : X96) (s : State) : Host.Outcome State Fault Refusal :=
  run (Form.x96 Enc.cropen' o) cropenBody s

/-- CRCLOSE (R460). -/
def execCrclose (o : X96) (s : State) : Host.Outcome State Fault Refusal :=
  run (Form.x96 Enc.crclose' o) crcloseBody s

/-- MAPV (R454). -/
def execMapv (o : X96) (s : State) : Host.Outcome State Fault Refusal :=
  run (Form.x96 Enc.mapv' o) mapvBody s

/-- MAPACK (R455). -/
def execMapack (o : X96) (s : State) : Host.Outcome State Fault Refusal :=
  run (Form.x96 Enc.mapack' o) mapackBody s

/-- FEAT (R454). -/
def execFeat (o : X96) (s : State) : Host.Outcome State Fault Refusal :=
  run (Form.x96 Enc.feat' o) featBody s

/-- CLK (R476). -/
def execClk (o : X96) (s : State) : Host.Outcome State Fault Refusal :=
  run (Form.x96 Enc.clk' o) clkBody s

/-- PMRD (R476). -/
def execPmrd (o : X96) (s : State) : Host.Outcome State Fault Refusal :=
  run (Form.x96 Enc.pmrd' o) pmrdBody s

/-- PMCFG (R476). -/
def execPmcfg (o : X96) (s : State) : Host.Outcome State Fault Refusal :=
  run (Form.x96 Enc.pmcfg' o) pmcfgBody s

/-- PROG (R476). -/
def execProg (o : X96) (s : State) : Host.Outcome State Fault Refusal :=
  run (Form.x96 Enc.prog' o) progBody s

/-- NOP, B32 (R53). -/
def execNop (o : W0) (s : State) : Host.Outcome State Fault Refusal := run (Form.b32 Enc.nop' o) nopBody s

/-- NOP, X96 (R53). -/
def execNopX96 (o : X96) (s : State) : Host.Outcome State Fault Refusal := run (Form.x96 Enc.nop' o) nopBody s

/-- The form of a word 0 that is no instruction: its predicate is what K names, but for the majors whose word holds none. -/
def Form.bare (w : Word) : Form :=
  let op := opOf w
  { enc := { op := op }, x := if op = 0x50 || op = 0x51 then {} else { w0 := W0.ofWord w }, len := lenOf w, word := w, litOk := false }

/-- UDF: the UDF trap, with word 0 as its detail (R56, R181). -/
def execUdf (w : Word) (s : State) : Host.Outcome State Fault Refusal := runM (Form.bare w) (trapM 0x02 w) s

/-- A non-instruction: ILLEGAL, with word 0 as its detail (R56, R181). -/
def execNonInstruction (w : Word) (s : State) : Host.Outcome State Fault Refusal := runM (Form.bare w) (trapM 0x01 w) s

end Sys2Proof.Machine
end

