-- ==== Sys2Proof/Machine/Queue.lean ====
section
/-!
DEFINITION. The queue object: the host's writes of a control block (R312, R318, R438), the fetch of entries (R313), launch admission
(R314-R317, R494), waits and signals, mapping changes and frames (R192, R202, R203, R206), and the first touch of a page (R202).
-/

namespace Sys2Proof.Machine

/-! ### The host at a control block (R312, R318, R429) -/

/-- The device serves host commands and control-block writes: it runs, and a host link is up or degraded (R482, R487, R489, R493). What the host
sends while the links retrain is held (R484, log 130). -/
def State.hostServed (s : State) : Bool := s.dev.state == .running && s.dev.links.any fun l => l.n < 2 && l.serves

/-- A context that a function may reach: its own, or any for the physical function (R428, R429). -/
def State.ctxFor (s : State) (func ctx : Nat) : Option Ctx :=
  if s.hostServed then (s.ctx? ctx).filter fun c => func = 0 || c.func = func else none

/-- A queue of a context changed by a host write. The queues of a context under destruction are disabled for good (R433). -/
def State.hostQueue (s : State) (func ctx q : Nat) (f : Queue → Queue) : State :=
  match s.ctxFor func ctx with
  | some c => if q < 64 && !c.destroyWaits then s.setCtx (c.setQueue (f (c.queue q))) else s
  | none => s

/-- A host write of TAIL, the doorbell: ignored where LAUNCH submits or the ring would overfill (R312). -/
def Queue.hostTail (x : Queue) (tail : BitVec 32) : Queue :=
  if x.devsub || 2 ^ x.qsize < (tail - x.head).toNat then x else { x with tail := tail }

/-- Enable set: a queue is idle at TAIL; with QSIZE 0 it stays disabled (R312, R318). -/
def Queue.hostEnable (x : Queue) : Queue :=
  if x.state == .disabled && x.qsize != 0 then { x with enable := true, state := .idle, head := x.tail } else x

/-- Enable cleared: fetching stops and a waiting entry is abandoned (R318). -/
def Queue.hostDisable (x : Queue) : Queue := { x.abandon with enable := false, state := .disabled }

/-- Resume: a halted queue goes on past the failed entry (R318). -/
def Queue.hostResume (x : Queue) : Queue := if x.state == .halted then { x with state := .active } else x

/-- Reset: entries not yet started are dropped unread (R318). -/
def Queue.hostReset (x : Queue) : Queue :=
  if x.state == .disabled then x else { x.abandon with head := x.tail, state := .idle }

/-- DEVSUB is written only while the queue is disabled (R312). -/
def Queue.hostDevsub (x : Queue) (devsub : Bool) : Queue := if x.state == .disabled then { x with devsub := devsub } else x

/-- QBASE, QSIZE and CDONE are written while the queue is disabled and within their limits (R312). -/
def Queue.hostField (x : Queue) (field : QField) (value : DWord) : Queue :=
  if x.state != .disabled then x
  else match field with
    | .qbase => if value.toNat % 64 = 0 then { x with qbase := value } else x
    | .cdone => if value.toNat % 16 = 0 then { x with cdone := value } else x
    | .qsize => if 4 ≤ value.toNat % 256 && value.toNat % 256 ≤ 16 then { x with qsize := value.toNat % 256 } else x

/-- A host write of EQHEAD: a value past TAIL is ignored (R438). -/
def Ctx.hostEqHead (c : Ctx) (value : BitVec 32) : Ctx :=
  if 2 ^ c.eqSize < (c.eqTail - value).toNat then c else { c with eqHead := value }

/-- QUEUE_DOORBELL (R312). -/
def execQueueDoorbell (func ctx q : Nat) (tail : BitVec 32) (s : State) : Host.Outcome State Fault Refusal :=
  .next (s.hostQueue func ctx q fun x => x.hostTail tail)

/-- QUEUE_CTRL_ENABLE (R318). -/
def execQueueCtrlEnable (func ctx q : Nat) (s : State) : Host.Outcome State Fault Refusal :=
  .next (s.hostQueue func ctx q Queue.hostEnable)

/-- QUEUE_CTRL_DISABLE (R318). -/
def execQueueCtrlDisable (func ctx q : Nat) (s : State) : Host.Outcome State Fault Refusal :=
  .next (s.hostQueue func ctx q Queue.hostDisable)

/-- QUEUE_CTRL_RESUME (R318). -/
def execQueueCtrlResume (func ctx q : Nat) (s : State) : Host.Outcome State Fault Refusal :=
  .next (s.hostQueue func ctx q Queue.hostResume)

/-- QUEUE_CTRL_RESET (R318). -/
def execQueueCtrlReset (func ctx q : Nat) (s : State) : Host.Outcome State Fault Refusal :=
  .next (s.hostQueue func ctx q Queue.hostReset)

/-- QUEUE_CTRL_DEVSUB (R312). -/
def execQueueCtrlDevsub (func ctx q : Nat) (devsub : Bool) (s : State) : Host.Outcome State Fault Refusal :=
  .next (s.hostQueue func ctx q fun x => x.hostDevsub devsub)

/-- REGISTER_WRITE: QBASE, QSIZE and CDONE (R312). -/
def execRegisterWrite (func ctx q : Nat) (field : QField) (value : DWord) (s : State) : Host.Outcome State Fault Refusal :=
  .next (s.hostQueue func ctx q fun x => x.hostField field value)

/-- EQHEAD_WRITE: the host consumes events (R438). -/
def execEqheadWrite (func ctx : Nat) (value : BitVec 32) (s : State) : Host.Outcome State Fault Refusal :=
  .next (match s.ctxFor func ctx with
    | some c => s.setCtx (c.hostEqHead value)
    | none => s)

/-! ### Entries -/

/-- The n-byte field of an entry at an offset. -/
def entryNum (bs : List Byte) (off n : Nat) : Nat := natLE ((bs.drop off).take n)

/-- Every byte of a range of an entry is 0 (R313). -/
def entryZero (bs : List Byte) (off n : Nat) : Bool := ((bs.drop off).take n).all fun b => b == 0

/-- The state of a queue by what it holds (R318). -/
def Queue.settled (q : Queue) : Queue :=
  match q.state with
  | .idle | .active | .waiting =>
    { q with state := if q.fetched.any (fun f => f.waits && f.started) then .waiting else if q.head == q.tail && q.fetched.isNone then .idle else .active }
  | _ => q

/-- A context's queue changed from inside. -/
def State.setQueueOf (s : State) (ctx q : Nat) (f : Queue → Queue) : State :=
  match s.ctx? ctx with
  | some c => s.setCtx (c.setQueue (f (c.queue q)).settled)
  | none => s

/-- The entry that a queue has fetched and that is not done yet, of one type. -/
def State.fetchedOf (s : State) (ctx q type : Nat) : Option (Ctx × Fetched) :=
  match (s.ctx? ctx).filter fun c => !c.destroyWaits with
  | some c => match (c.queue q).fetched with
    | some f => if (f.bytes.headD 0).toNat = type then some (c, f) else none
    | none => none
  | none => none

/-- The fetched entry is done with, and completes at once with a status. -/
def State.finish (s : State) (ctx q : Nat) (f : Fetched) (done : Option Nat) (status res : Nat) : State :=
  (s.setQueueOf ctx q fun x => { x with fetched := none }).complete ctx q f.index done status res 0

/-- QUEUE_FETCH: the entry at HEAD is fetched and starts; one of unknown type, or that cannot be read, completes as ENTRY-MALFORMED
(R313, R318). While its page has no frame or moves nothing is fetched (R202, R203). -/
def State.queueFetch (s : State) (ctx q : Nat) : State :=
  match s.ctx? ctx with
  | none => s
  | some c =>
    let x := c.queue q
    let live := !c.destroyWaits && (c.state == .built || c.state == .runnable || c.state == .running || c.state == .saved)
    if !live || !(x.state == .idle || x.state == .active) || x.head == x.tail || x.fetched.isSome then s
    else
      let at' := x.slotAddr x.head
      match s.vtouch c at' 64 with
      | (s, false, lack, pref) => s.noteLack ctx pref lack
      | (s, true, _, _) =>
        let bytes := (s.vread c at' 64).getD (List.replicate 64 0)
        let f : Fetched := { index := x.head.toNat, bytes := bytes }
        let s := s.setCtx (c.setQueue { x with head := x.head + 1, fetched := some f, state := .active, running := x.running ++ [f.index] })
        let type := (bytes.headD 0).toNat
        if 1 ≤ type && type ≤ 7 then s else s.finish ctx q f none 7 0

/-- QUEUE_FETCH (R313). -/
def execQueueFetch (ctx q : Nat) (s : State) : Host.Outcome State Fault Refusal := .next (s.queueFetch ctx q)

/-! ### LAUNCH_ENTRY (R314-R316, R494, R201) -/

/-- n bytes at an address translate with W (R194, R313). -/
def writable (c : Ctx) (va n : Nat) : Bool :=
  match c.translate va with
  | some (_, w, _) => w.w && (va + n - 1) / 65536 ≤ w.vlast
  | none => false

/-- A launch entry is malformed (R313, R314): a reserved byte, PRIO, DYNSCR, the grid, a DONE that cannot be written, or a kernel that is not
there. -/
def launchMalformed (s : State) (c : Ctx) (bs : List Byte) : Bool :=
  let prio := entryNum bs 0x01 1
  !(entryZero bs 0x02 2 && entryZero bs 0x24 4 && entryZero bs 0x38 8) || 10 < prio || c.prioCap < prio || entryNum bs 0x04 4 % 128 != 0 ||
    entryNum bs 0x10 4 = 0 || entryNum bs 0x14 2 = 0 || entryNum bs 0x16 2 = 0 || !writable c (entryNum bs 0x30 8) 16 || (s.kernel? c.id (entryNum bs 0x08 8)).isNone

/-- The lease ranges of a launch (R201): the header's descriptors and the argument block. -/
def leaseRanges (h : Header) (bs : List Byte) : List (Nat × Nat) :=
  h.leases ++ (if entryNum bs 0x20 4 = 0 then [] else [(entryNum bs 0x18 8, entryNum bs 0x20 4)])

/-- The pages that a lease set names by IA: those of the publication counter and of the map, where a window maps them (R201). -/
def State.namedPages (s : State) (c : Ctx) : List Nat :=
  [pageOf c.pubCtr, pageOf s.dev.mapPage].filter fun p => c.mapsPage p

/-- The pages of a launch's lease set, with the PREFHOST of the window that reaches each. -/
def launchPages (s : State) (c : Ctx) (h : Header) (bs : List Byte) : List (Nat × Bool) :=
  let ranges := (leaseRanges h bs).flatMap fun r => c.rangePages r.1 r.2
  (ranges ++ (s.namedPages c).map fun p => (p, false)).foldl (fun (acc : List (Nat × Bool)) p => if acc.any fun x => x.1 == p.1 then acc else acc ++ [p]) []

/-- LAUNCH_ENTRY: the checks in the order of R494, then the teams and the leases. -/
def State.launchEntry (s : State) (ctx q : Nat) : State :=
  match s.fetchedOf ctx q 1 with
  | none => s
  | some (c, f) =>
    let bs := f.bytes
    let done := entryNum bs 0x30 8
    if launchMalformed s c bs then s.finish ctx q f none 7 0
    else
      match s.kernel? ctx (entryNum bs 0x08 8) with
      | none => s
      | some k =>
        if k.unloading then s.finish ctx q f (some done) 4 0
        else match s.exceeds k.hdr (entryNum bs 0x04 4) c with
        | some code => s.finish ctx q f (some done) 1 code
        | none =>
          if k.table.isNone then s.finish ctx q f (some done) 3 0
          else if (leaseRanges k.hdr bs).any fun r => (c.rangePages r.1 r.2).isEmpty then s.finish ctx q f (some done) 2 0
          else
            let pages := launchPages s c k.hdr bs
            let l : Launch :=
              { id := s.freshId, ctx := ctx, q := q, index := f.index, kernel := k.base, prio := entryNum bs 0x01 1, dynScr := entryNum bs 0x04 4
                gx := entryNum bs 0x10 4, gy := entryNum bs 0x14 2, gz := entryNum bs 0x16 2, args := BitVec.ofNat 64 (entryNum bs 0x18 8)
                argLen := entryNum bs 0x20 4, seed := BitVec.ofNat 64 (entryNum bs 0x28 8), done := BitVec.ofNat 64 done
                pages := pages.map Prod.fst, waiting := pages, since := s.now, seq := c.launches }
            let s := (s.setKernel { k with uses := k.uses + 1 }).setCtx { c with launches := c.launches + 1 }
            let s := { s with freshId := s.freshId + 1, launches := s.launches ++ [l] }
            (s.setQueueOf ctx q fun x => { x with fetched := none }).leaseWaiting l.id

/-- LAUNCH_ENTRY (R316). -/
def execLaunchEntry (ctx q : Nat) (s : State) : Host.Outcome State Fault Refusal := .next (s.launchEntry ctx q)

/-! ### Waits and signals (R313) -/

/-- n bytes at an address translate with RD (R194, R313). -/
def readable (c : Ctx) (va n : Nat) : Bool :=
  match c.translate va with
  | some (_, w, _) => w.rd && (va + n - 1) / 65536 ≤ w.vlast
  | none => false

/-- WAIT_ENTRY: the wait starts and holds the queue. Bytes that R313 names no field for are not looked at, here and in the entries below (DEDUCED,
log 110). -/
def State.waitEntry (s : State) (ctx q : Nat) : State :=
  match s.fetchedOf ctx q 2 with
  | none => s
  | some (c, f) =>
    if f.started then s
    else
      let va := entryNum f.bytes 0x08 8
      if !readable c va 8 then s.finish ctx q f none 7 0
      else s.setQueueOf ctx q fun x => { x with fetched := some { f with started := true } }

/-- WAIT_ENTRY (R313). -/
def execWaitEntry (ctx q : Nat) (s : State) : Host.Outcome State Fault Refusal := .next (s.waitEntry ctx q)

/-- WAIT_SATISFIED: a wait ends when its value is at least the threshold. -/
def State.waitSatisfied (s : State) (ctx q : Nat) : State :=
  match s.fetchedOf ctx q 2 with
  | none => s
  | some (c, f) =>
    if !f.started then s
    else
      match s.vtouch c (entryNum f.bytes 0x08 8) 8 with
      | (s', false, lack, pref) => s'.noteLack ctx pref lack
      | (s', true, _, _) =>
        match s'.vread c (entryNum f.bytes 0x08 8) 8 with
        | none => s'.finish ctx q f none 7 0
        | some bs => if entryNum f.bytes 0x10 8 ≤ natLE bs then s'.finish ctx q f none 0 0 else s'

/-- WAIT_SATISFIED (R313). -/
def execWaitSatisfied (ctx q : Nat) (s : State) : Host.Outcome State Fault Refusal := .next (s.waitSatisfied ctx q)

/-- SIGNAL_ENTRY: the signal starts and waits for the earlier entries. -/
def State.signalEntry (s : State) (ctx q : Nat) : State :=
  match s.fetchedOf ctx q 3 with
  | none => s
  | some (c, f) =>
    if f.started then s
    else if !writable c (entryNum f.bytes 0x08 8) 8 then s.finish ctx q f none 7 0
    else s.setQueueOf ctx q fun x => { x with fetched := some { f with started := true } }

/-- SIGNAL_ENTRY (R313). -/
def execSignalEntry (ctx q : Nat) (s : State) : Host.Outcome State Fault Refusal := .next (s.signalEntry ctx q)

/-- SIGNAL_WRITE: once every earlier entry of the queue has completed, the value is written as a system-scope release; it waits while its page has
no frame or moves (R202, R203), and where it reaches no place it is discarded (R489, R490). -/
def State.signalWrite (s : State) (ctx q : Nat) : State :=
  match s.fetchedOf ctx q 3 with
  | none => s
  | some (c, f) =>
    if !f.started || (c.queue q).running.any (fun i => i != f.index) then s
    else match s.vtouch c (entryNum f.bytes 0x08 8) 8 with
      | (s, false, lack, pref) => s.noteLack ctx pref lack
      | (s, true, _, _) =>
        match s.vput c (entryNum f.bytes 0x08 8) (bytesLE 8 (entryNum f.bytes 0x10 8)) with
        | none => s.finish ctx q f none 7 0
        | some s => s.finish ctx q f none 0 0

/-- SIGNAL_WRITE (R313). -/
def execSignalWrite (ctx q : Nat) (s : State) : Host.Outcome State Fault Refusal := .next (s.signalWrite ctx q)

/-! ### Mapping changes (R191, R192, R203, R206) -/

/-- A window descriptor from its 32 bytes (R191). -/
def Window.ofBits (x : Nat) : Window :=
  { vbase := bitsOf x 63 16, vlast := bitsOf x 127 80, iabase := bitsOf x 199 164, rd := bitsOf x 128 128 = 1, w := bitsOf x 129 129 = 1
    at' := bitsOf x 130 130 = 1, x := bitsOf x 131 131 = 1, kind := BitVec.ofNat 2 (bitsOf x 133 132), hostvis := bitsOf x 134 134 = 1
    valid := bitsOf x 135 135 = 1, prefhost := bitsOf x 136 136 = 1 }

/-- The reserved bits of a descriptor are 0 (R191). -/
def windowReservedZero (x : Nat) : Bool :=
  bitsOf x 15 0 = 0 && bitsOf x 79 64 = 0 && bitsOf x 163 137 = 0 && bitsOf x 255 200 = 0

/-- The first condition of R192 that holds for a new descriptor; `map'` is the map page's number, where there is one. -/
def windowRefused (x : Nat) (map' : Option Nat) : Option Nat :=
  let w := Window.ofBits x
  let lo := w.iabase * 65536
  let hi := lo + (w.vlast + 1 - w.vbase) * 65536
  if !windowReservedZero x || w.kind == 3 then some 1
  else if !w.valid then none
  else if w.vlast < w.vbase then some 2
  else if 2 ^ 52 < hi then some 3
  else if homeOf lo != homeOf (hi - 1) || 5 ≤ homeOf lo then some 4
  else if (match map' with | some p => pageOf lo ≤ p && p ≤ pageOf (hi - 1) | none => false) && (w.w || w.at' || w.x) then some 5
  else none

/-- Some sector that a continuation tracks or has buffered lies in an IA range (R206 step 2). -/
def Cont.meetsRange (c : Cont) (lo hi : Nat) : Bool :=
  let inside : Sector → Bool := fun s => match s with | .global n => lo / 32 ≤ n && n ≤ hi / 32 | .scratch _ _ => false
  (c.tracked.any fun t => inside t.sector) || (c.buffer.any fun e => e.sectors.any inside)

/-- Forks of a context, or of every context, whose continuations meet an IA range are squashed (R206 step 2, R293). -/
def State.squashRange (s : State) (ctx : Option Nat) (lo hi : Nat) : State :=
  s.squashWhere fun st =>
    (match ctx with | some c => (s.env? st).map (·.ctx) == some c | none => true) &&
      match st.cont with | some k => k.meetsRange lo hi | none => false

/-- A mapping change that has started (R206). -/
def State.startChange (s : State) (ctx q index : Nat) (change : Change) : State :=
  let s := { s with freshId := s.freshId + 1, changes := s.changes ++ [({ id := s.freshId, ctx := ctx, q := q, index := index, change := change } : MapChange)] }
  s.setQueueOf ctx q fun x => { x with fetched := none }

/-- WINDOW_UPDATE_ENTRY: the descriptor is checked by R192, and the sequence of R206 starts. A window of a confidential context that passes these
checks maps home 4 only with HOSTVIS (R436). -/
def State.windowUpdateEntry (s : State) (ctx q : Nat) : State :=
  match s.fetchedOf ctx q 4 with
  | none => s
  | some (c, f) =>
    let n := entryNum f.bytes 0x08 1
    let x := entryNum f.bytes 0x20 32
    let w := Window.ofBits x
    let map' := if s.dev.map.version == 0 then none else some (pageOf s.dev.mapPage)
    if 15 < n then s.finish ctx q f none 7 0
    else match windowRefused x map' with
      | some r => s.finish ctx q f none 5 r
      | none =>
        if c.conf && w.valid && homeOf (w.iabase * 65536) = 4 && !w.hostvis then s.finish ctx q f none 7 0
        else
        let old := c.window n
        let s := if old.valid then s.squashRange (some ctx) old.iaRange.1 old.iaRange.2 else s
        s.startChange ctx q f.index (.window n w)

/-- WINDOW_UPDATE_ENTRY (R206). -/
def execWindowUpdateEntry (ctx q : Nat) (s : State) : Host.Outcome State Fault Refusal := .next (s.windowUpdateEntry ctx q)

/-- The 64 KiB frames of a die's HBM: eight stacks of 64 GiB (R3). -/
def hbmFrames : Nat := 2 ^ 23

/-- An entry's page IA is that of a page of homes 0 to 3 (R200, R203). -/
def goodPage (ia : Nat) : Bool := ia % 65536 = 0 && homeOf ia < 4

/-- A frame of a die is one of host memory: it lies beyond the die's HBM, or the die's host list alone holds it (R3, R202). -/
def State.hostFrame (s : State) (die frame : Nat) : Bool :=
  hbmFrames ≤ frame ||
    ((s.frames.any fun x => x.die == die && x.host && x.frame == frame) && !(s.frames.any fun x => x.die == die && !x.host && x.frame == frame))

/-- A context's save pool or save area lies on a page (R427). -/
def Ctx.savesOn (c : Ctx) (page : Nat) : Bool :=
  areasMeet (65536 * page, 65536) c.savePool || areasMeet (65536 * page, 65536) (c.ctxSave, 4096)

/-- A page is one of a confidential context: its windows reach it, or it saves on it (R436). -/
def State.confPage (s : State) (page : Nat) : Bool := s.ctxs.any fun c => c.conf && (c.mapsPage page || c.savesOn page)

/-- REMAP_ENTRY: a placed page starts to move; a leased one stays, and one at that frame already is done (R203). The entry waits while the page is
moving (DESIGN CHOICE, log 111), the map page moves as any other does (DESIGN CHOICE, log 112), and a confidential page stays out of host frames (R436,
DESIGN CHOICE, log 113). -/
def State.remapEntry (s : State) (ctx q : Nat) : State :=
  match s.fetchedOf ctx q 5 with
  | none => s
  | some (_, f) =>
    let ia := entryNum f.bytes 0x08 8
    let frame := entryNum f.bytes 0x10 8
    if !goodPage ia || 2 ^ 36 ≤ frame then s.finish ctx q f none 7 0
    else match s.pte? (pageOf ia) with
      | none => s.finish ctx q f none 0 0
      | some p =>
        if p.state = 2 then s.finish ctx q f none 6 0
        else if p.state = 3 then s
        else
          let die := homeOf ia
          let host := s.hostFrame die frame
          if p.frame == frame && (p.host == host || !(s.frames.any fun x => x.die == die && x.frame == frame)) then s.finish ctx q f none 0 0
          else if host && s.confPage (pageOf ia) then s.finish ctx q f none 7 0
          else
            let s := (s.setPte { p with state := 3 }).squashRange none ia (ia + 65535)
            s.startChange ctx q f.index (.remap (pageOf ia) frame host)

/-- REMAP_ENTRY (R203). -/
def execRemapEntry (ctx q : Nat) (s : State) : Host.Outcome State Fault Refusal := .next (s.remapEntry ctx q)

/-- UNPLACE_ENTRY: a placed page starts to give its frame back (R203); the entry waits while the page is moving (DESIGN CHOICE, log 111). Until what
used it has drained, the page shows STATE 3 (DESIGN CHOICE, log 119). -/
def State.unplaceEntry (s : State) (ctx q : Nat) : State :=
  match s.fetchedOf ctx q 6 with
  | none => s
  | some (_, f) =>
    let ia := entryNum f.bytes 0x08 8
    if !goodPage ia then s.finish ctx q f none 7 0
    else match s.pte? (pageOf ia) with
      | none => s.finish ctx q f none 0 0
      | some p =>
        if p.state = 2 then s.finish ctx q f none 6 0
        else if p.state = 3 then s
        else
          let s := (s.setPte { p with state := 3 }).squashRange none ia (ia + 65535)
          s.startChange ctx q f.index (.unplace (pageOf ia))

/-- UNPLACE_ENTRY (R203). -/
def execUnplaceEntry (ctx q : Nat) (s : State) : Host.Outcome State Fault Refusal := .next (s.unplaceEntry ctx q)

/-- Frames added to a die's lists: waits of the kinds they serve may report again (R202). -/
def State.addFrames (s : State) (die : Nat) (host : Bool) (first count : Nat) : State :=
  let s := { s with
             frames := s.frames ++ (List.range count).map fun i => ({ die := die, host := host, frame := first + i } : Frame)
             ctxs := s.ctxs.map fun (c : Ctx) => { c with oof := c.oof.filter fun (o : Nat × Nat) => !(o.1 == die && (o.2 == 2 || o.2 == (if host then 1 else 0))) } }
  s.leaseAll

/-- FRAME_ENTRY: frames join a die's free lists (R202, R313). -/
def State.frameEntry (s : State) (ctx q : Nat) : State :=
  match s.fetchedOf ctx q 7 with
  | none => s
  | some (_, f) =>
    let first := entryNum f.bytes 0x08 8
    let count := entryNum f.bytes 0x10 8
    let kind := entryNum f.bytes 0x18 1
    let die := entryNum f.bytes 0x19 1
    if count = 0 || 1 < kind || 3 < die || (if kind = 0 then hbmFrames else 2 ^ 36) < first + count then
      s.finish ctx q f none 7 0
    else (s.addFrames die (kind = 1) first count).finish ctx q f none 0 0

/-- FRAME_ENTRY (R202). -/
def execFrameEntry (ctx q : Nat) (s : State) : Host.Outcome State Fault Refusal := .next (s.frameEntry ctx q)

/-- An access meets an IA range. -/
def Access.inRange (a : Access) (lo hi : Nat) : Bool := a.scratch?.isNone && a.elems.any fun e => e.addr ≤ hi && lo < e.addr + e.width

/-- A copy has words in an IA range, through the windows it started with (R204). -/
def Copy.inRange (k : Copy) (c : Ctx) (lo hi : Nat) : Bool :=
  (k.globals c).any fun sec => lo / 32 ≤ sec && sec ≤ hi / 32

/-- Accesses and copies that issued before a change and use the old mapping are still under way (R204, R206 step 3). -/
def State.changeWaits (s : State) (ch : MapChange) : Bool :=
  match s.ctx? ch.ctx with
  | none => false
  | some c =>
    match ch.change with
    | .window n _ =>
      let old := c.window n
      old.valid && ((s.flight.any fun a => a.ctx == ch.ctx && a.id < ch.id && a.inRange old.iaRange.1 old.iaRange.2) ||
        s.copies.any fun k => k.ctx == ch.ctx && k.id < ch.id && k.inRange c old.iaRange.1 old.iaRange.2)
    | .remap page _ _ | .unplace page =>
      let lo := 65536 * page
      (s.flight.any fun a => a.id < ch.id && a.inRange lo (lo + 65535)) ||
        s.copies.any fun k => match s.ctx? k.ctx with | some c => k.inRange c lo (lo + 65535) | none => false

/-- The lines of an IA range written back and dropped from every L1, zero lines among them (R205, R206 step 4). -/
def State.flushRange (s : State) (lo hi : Nat) : State :=
  let s := s.l1FlushRange lo hi
  { s with zeroLines := s.zeroLines.filter fun l => !(lineOf lo ≤ l && l ≤ lineOf hi) }

/-- The pages named by IA that a window newly maps join the lease sets of the context's launches: for their placed groups, and for those to come
(R201, R441). -/
def State.leaseNamed (s : State) (ctx : Nat) : State :=
  match s.ctx? ctx with
  | none => s
  | some c =>
    (s.namedPages c).foldl (fun s page =>
      (s.launches.filter fun l => l.ctx == ctx && !l.pages.contains page).foldl (fun (s : State) l =>
        let s := s.setLaunch { l with pages := l.pages ++ [page]
                                      waiting := if l.started.length < l.teamCount then l.waiting ++ [(page, false)] else l.waiting }
        ((s.teams.filter fun t => t.launch == l.id).flatMap (·.groups)).foldl (fun s g => s.leaseGroup c page g) s) s) s

/-- MAPPING_DRAIN_COMPLETE: the old mapping has drained; its lines are written back, and the new one is installed (R206). -/
def State.mappingDrain (s : State) (id : Nat) : State :=
  match s.changes.find? fun ch => ch.id == id with
  | none => s
  | some ch =>
    if s.changeWaits ch then s
    else
      let s := match ch.change with
        | .window n w =>
          match s.ctx? ch.ctx with
          | none => s
          | some c =>
            let old := c.window n
            let s := if old.valid then s.l1FlushRange old.iaRange.1 old.iaRange.2 else s
            (s.setCtx { c with windows := vset c.windows n w }).leaseNamed c.id
        | .remap page frame host =>
          let s := s.flushRange (65536 * page) (65536 * page + 65535)
          let die := homeOf (65536 * page)
          let s := { s with frames := s.frames.filter fun f => !(f.die == die && f.frame == frame && f.host == host) }
          match s.pte? page with
          | some p => s.setPte { p with frame := frame, host := host, state := 1 }
          | none => s
        | .unplace page =>
          let lo := 65536 * page
          let s := s.flushRange lo (lo + 65535)
          match s.pte? page with
          | some p =>
            { s with
              pages := s.pages.filter fun x => x.page != page
              frames := s.frames ++ [({ die := homeOf lo, host := p.host, frame := p.frame } : Frame)]
              mem := s.mem.filter fun c => !(lo ≤ c.1 && c.1 < lo + 65536)
              poison := s.poison.filter fun x => !(2048 * page ≤ x && x < 2048 * page + 2048) }
          | none => s
      let s := { s with changes := s.changes.filter fun x => x.id != id }
      (s.leaseAll).complete ch.ctx ch.q ch.index none 0 0 0

/-- MAPPING_DRAIN_COMPLETE (R206). -/
def execMappingDrainComplete (change : Nat) (s : State) : Host.Outcome State Fault Refusal := .next (s.mappingDrain change)

/-! ### FIRST_TOUCH (R202) -/

/-- A range of IAs lies in a HOSTVIS window of a context that satisfies `p` (R195). -/
def State.visible (s : State) (p : Ctx → Bool) (ia n : Nat) : Option (Ctx × Window) :=
  (s.ctxs.filter p).findSome? fun c =>
    ((List.range 16).map c.window).findSome? fun w =>
      if w.valid && w.hostvis && w.iaRange.1 ≤ ia && ia + n ≤ w.iaRange.2 + 1 && 0 < n then some (c, w) else none

/-- A held transfer of the host or a peer with the IAs that it reaches and the window through which it does, of a context (R195, R491). -/
def State.transferRange (s : State) (t : Transfer) : Option (Nat × Nat × Ctx × Window) :=
  let at' := fun (ia n : Nat) => (s.visible (fun c => 10 ≤ t.link || c.func == t.func) ia n).map fun v => (ia, n, v.1, v.2)
  match t.op with
  | .write ia bytes => at' ia bytes.length
  | .read ia n => at' ia n
  | _ => none

/-- A page through the windows of a context, with its PREFHOST, is one that a range of virtual addresses reaches. -/
def Ctx.reaches (c : Ctx) (page : Nat) (pref : Bool) (va len : Nat) : Bool :=
  len != 0 && (List.range 16).any fun n =>
    let w := c.window n
    let v := w.vbase + page - w.iabase
    w.valid && w.prefhost == pref && w.iabase ≤ page && v ≤ w.vlast && va < 65536 * (v + 1) && 65536 * v < va + len &&
      (c.translate (65536 * v)).map (·.1) == some n

/-- A page lies in one of some areas, each a start and a length. -/
def pageInAreas (page : Nat) (areas : List (Nat × Nat)) : Bool := areas.any (areasMeet (65536 * page, 65536))

/-- A write of the hub that waits for a page of that number and PREFHOST. -/
def HubWrite.wants (w : HubWrite) (c : Ctx) (page : Nat) (pref : Bool) : Bool :=
  match w with
  | .bytes ia _ p data => p == pref && pageInAreas page [(ia, data.length)]
  | .event _ _ => c.reaches page pref (c.eqBase.toNat + 128 * (c.eqTail.toNat % 2 ^ c.eqSize)) 128
  | .record q index done _ =>
    (match done with | some d => c.reaches page pref d 16 | none => false) ||
      c.reaches page pref ((c.queue q).cdone.toNat + 16 * (index % 2 ^ (c.queue q).qsize)) 16

/-- A queue waits for a page: that of the entry to fetch, or of the value that a wait reads or a signal writes. -/
def Queue.wants (x : Queue) (c : Ctx) (page : Nat) (pref : Bool) : Bool :=
  match x.fetched with
  | some f => ((f.bytes.headD 0).toNat == 2 || (f.bytes.headD 0).toNat == 3) && c.reaches page pref (entryNum f.bytes 0x08 8) 8
  | none => x.head != x.tail && c.reaches page pref (x.slotAddr x.head) 64

/-- A team waits for a page of its save areas, to be saved or restored, or for a lease that it is owed. -/
def State.teamWants (s : State) (t : Team) (page : Nat) : Bool :=
  (t.owed.any fun o => o.2 == page) || (t.state == .saved && pageInAreas page (s.restoreAreas t)) ||
    (t.state == .preempting && (s.groupsOf t.id).any fun g =>
      pageInAreas page ((if g.state == .faulted then [] else [(g.saveAt, saveSize g.scratchLen)]) ++
        ((s.strands.filter fun x => x.group == g.id && !x.tile && x.state != .exited).map fun x => (x.ssa, 0x3000)) ++
        (if g.gi = 0 && g.state != .faulted && s.tileLives t then [(t.tileSave, tileSaveSize)] else [])))

/-- A strand waits for a page: for an access of its instruction, or to tag the output range of the region that it unwinds (R461). -/
def State.strandWants (s : State) (st : Strand) (c : Ctx) (page : Nat) (pref : Bool) : Bool :=
  match st.state with
  | .blocked b => b == .page page pref
  | .trapped t =>
    (t.cause = 0x20 || t.cause = 0x21) && st.rets.any RetEntry.isRegion &&
      (match (s.env? st).bind fun e => s.region? st e with
        | some (_, _, _, _, base, len) => c.reaches page pref base len
        | none => false)
  | _ => false

/-- Something of a context waits to touch a page, through a window with that PREFHOST (R202): an access or a copy in flight, a strand, a lease, the
stack of a team that is yet to be placed, a queue, a write of the hub, a save area, or a transfer of the host. -/
def State.touchPending (s : State) (c : Ctx) (page : Nat) (pref : Bool) : Bool :=
  (s.flight.any fun a => a.ctx == c.id && a.scratch?.isNone && a.elems.any fun e => pageOf e.addr == page && e.pref == pref) ||
  (s.copies.any fun k => k.ctx == c.id && !k.moved && (k.pages c).contains (page, pref)) ||
  (s.launches.any fun l => l.ctx == c.id && (l.waiting.contains (page, pref) ||
    (l.started.length < l.teamCount && (match s.kernel? l.ctx l.kernel with | some k => 0 < k.hdr.stack | none => false) &&
      c.reaches page pref c.stackPool.1 c.stackPool.2))) ||
  (s.dev.waits.any fun w => w.ctx == c.id && w.write.wants c page pref) ||
  (c.queues.any fun q => q.wants c page pref) ||
  (s.strands.any fun x => (s.env? x).map (·.ctx) == some c.id && s.strandWants x c page pref) ||
  (!pref && ((s.teamsOf c.id).any fun t => s.teamWants t page) ||
    (!pref && (c.resumeWaits || c.state == .saved) && pageInAreas page [(c.ctxSave, 128)])) ||
  s.dev.held.any fun t => match s.transferRange t with
    | some (ia, n, x, w) => x.id == c.id && w.prefhost == pref && pageInAreas page [(ia, n)]
    | none => false

/-- Something waits to touch a page that can use a frame: a confidential context an HBM frame, a touch that prefers host memory a host frame, and any
other an HBM frame as long as one is free (R202). -/
def State.frameFits (s : State) (page : Nat) (f : Frame) : Bool :=
  let fits := fun (c : Ctx) (pref : Bool) =>
    if c.conf then !f.host else if pref then f.host else !f.host || !(s.frames.any fun g => g.die == f.die && !g.host)
  s.ctxs.any fun c => [false, true].any fun pref => fits c pref && s.touchPending c page pref

/-- FIRST_TOUCH: an unplaced page that something waits to touch is placed in a free frame of its home die, filled with zeros (R202). An HBM
frame is taken when one is free, unless the touching window prefers host memory. -/
def State.firstTouch (s : State) (ia frame : Nat) : State :=
  let page := pageOf ia
  if 4 ≤ homeOf ia || (s.pte? page).isSome then s
  else match s.frames.find? fun f => f.die == homeOf ia && f.frame == frame && s.frameFits page f with
    | some f => (s.place page f).leaseAll
    | none => s

/-- FIRST_TOUCH (R202). -/
def execFirstTouch (ia frame : Nat) (s : State) : Host.Outcome State Fault Refusal := .next (s.firstTouch ia frame)

end Sys2Proof.Machine
end

