-- ==== Sys2Proof/Machine/Hub.lean ====
section
/-!
DEFINITION. The hub: new map versions and what follows from them (R441, R445, R447, R452, R317), retirements (R462, R465, R490), links
(R482-R491), errors and self-tests (R456-R459, R462), bring-up (R463, R464), the shadow switch and attestation (R464, R466).
-/

namespace Sys2Proof.Machine

/-! ### New versions (R441, R445, R452) -/

/-- The published fields of a link taken from the link (R444, R485). -/
def Link.publish (l : Link) : Link :=
  let code := match l.state with | .down => 0 | .training => 1 | .up => 2 | .degraded => 3 | .failed => 4
  { l with pubState := code, pubWidth := l.width, pubSpeed := l.speed }

/-- CHANGED of a version (R442). -/
def changedBits (old new : SMap) (links moved : Bool) : BitVec 64 :=
  let bit := fun (n : Nat) (b : Bool) => if b then 2 ^ n else 0
  BitVec.ofNat 64 (
    bit 0 (old.liveCore != new.liveCore) +
    bit 1 (old.liveCl != new.liveCl || old.liveMcc != new.liveMcc || old.bandLive != new.bandLive) +
    bit 2 (old.mccFeat != new.mccFeat || old.coreFeat != new.coreFeat) +
    bit 3 (old.liveSlice != new.liveSlice) +
    bit 4 (old.liveStack != new.liveStack || old.pcRet != new.pcRet) +
    bit 5 links +
    bit 6 (old.islands != new.islands) +
    bit 7 (old.full != new.full || old.shadow != new.shadow || old.aclk != new.aclk || old.fclk != new.fclk) +
    bit 8 moved)

/-- The map page's home: home 0 while CD0 is live, else the lowest-numbered live compute die (R441). -/
def SMap.pageHome (m : SMap) : Nat := ((List.range 4).find? fun d => m.liveDie.getLsbD d).getD 0

/-- A launch checked again under a new version (R317): its teams that were never placed are dropped when it fails. -/
def State.recheckLaunch (s : State) (lid : Nat) : State :=
  match s.launch? lid with
  | none => s
  | some l =>
    match s.kernel? l.ctx l.kernel, s.ctx? l.ctx with
    | some k, some c =>
      let waiting := l.teamCount - l.started.length
      if waiting = 0 || l.failed.isSome then s
      else match s.exceeds k.hdr l.dynScr c with
        | none => s
        | some code => (s.setLaunch { l with failed := some code, faulted := l.faulted + waiting * k.hdr.team }).settleLaunch lid
    | _, _ => s

/-- A running team cannot stay where it is under the current version: a core has lost a feature of FEATURES, or a band or the MCC of its tile
strand is gone (R333, R420, R452). -/
def State.teamUprooted (s : State) (t : Team) : Bool :=
  match s.teamShape t with
  | none => false
  | some (_, h, _) =>
    ((s.groupsOf t.id).any fun g => !g.ended && !g.away && !(s.fitCores h (clusterOfCore g.core)).contains g.core) ||
      match t.tile.bind s.strand? with
      | some x => x.state != .exited && (!s.dev.map.liveMcc.getLsbD x.core ||
          x.bands.any fun b => !s.dev.map.bandLive.getLsbD (4 * x.core + b.physical))
      | none => false

/-- An island whose limit has changed keeps its operating point until a moment that R341 allows. -/
def Device.keepPoints (d : Device) (old new : SMap) : List Heat :=
  (List.range 704).foldl (fun (hs : List Heat) n =>
    let a := (old.islands.getD n {}).fmax
    let b := (new.islands.getD n {}).fmax
    if a = b || a = 0 then hs
    else
      let h := (hs.find? fun x => x.island == n).getD { island := n }
      if h.point = 0 then { h with point := a } :: hs.filter fun x => x.island != n else hs) d.heats

/-- What a version does to running work (R317, R333, R420, R452), to kernels (R306), to grace clocks (R451) and to contexts that had part of
their save pool or save area on a die that is gone (R434). -/
def State.afterVersion (s : State) (deadDies : List Nat) : State :=
  let s : State := { s with
                     kernels := s.kernels.map fun (k : Kernel) => { k with table := s.buildTable k.hdr }
                     ctxs := s.ctxs.map fun (c : Ctx) => s.regrace c }
  let s : State := (s.launches.map (·.id)).foldl State.recheckLaunch s
  let s : State := ((s.teams.filter s.teamUprooted).map (·.id)).foldl State.preempt s
  let hurt := s.ctxs.filter fun c => deadDies.any fun d =>
    d == homeOf c.ctxSave || d == homeOf (c.ctxSave + 4095) || (c.savePool.2 != 0 && homeOf c.savePool.1 ≤ d && d ≤ homeOf (c.savePool.1 + c.savePool.2 - 1))
  (hurt.map (·.id)).foldl (fun s c => s.faultCtx c 3) s

/-- The map page as the hub writes to it (R440): it is placed, in a frame of the hub's choice (log 13), and registered L1 copies of it go
before the writes count as performed (R244). -/
def State.writeMapPage (s : State) : State :=
  let page := pageOf s.dev.mapPage
  let s := if (s.pte? page).isSome then s else s.setPte { page := page, frame := Config.mapFrame (homeOf s.dev.mapPage) % 2 ^ 23 }
  let lines := ((s.l1.filter fun l => pageOf (128 * l.line) == page).map (·.line)).eraseDups
  (lines.foldl (fun (s : State) l => s.dropOthers 1000 l) s).lose .home (Sector.meets s.dev.mapPage 0x3000) 0

/-- A link with the published fields that it had among some links. -/
def Link.unpublished (old : List Link) (l : Link) : Link :=
  match old.find? fun o => o.n == l.n with
  | some o => { l with pubState := o.pubState, pubWidth := o.pubWidth, pubSpeed := o.pubSpeed }
  | none => l

/-- A new version published (R445), when any field differs: the map page moves first where its die is gone (R441). It is current from the first of
the hub's ordered writes of the image on, the rest of which follow as moves of their own (R440, DESIGN CHOICE, log 128); the first version, and one
whose page moves, is written whole before it is current (R441, R464). A device that has halted publishes nothing more (R465), but its links go on. -/
def State.publish (s : State) (new : SMap) (links : List Link) : State :=
  let old := s.dev.map
  let linksChanged := links.map Link.record != s.dev.links.map Link.record
  if s.dev.state == .halted then { s with dev := { s.dev with links := links.map (Link.unpublished s.dev.links) } }
  else if { new with version := old.version, changed := old.changed } == old && !linksChanged then { s with dev := { s.dev with links := links } }
  else
    let home := new.pageHome
    let moved := old.version != 0 && home != homeOf s.dev.mapPage
    let page := if old.version == 0 || moved then Config.mapPageOn home else s.dev.mapPage
    let dead := (List.range 4).filter fun d => old.liveDie.getLsbD d && !new.liveDie.getLsbD d
    let m := { new with version := old.version + 1, changed := changedBits old new linksChanged moved }
    let s := { s with dev := { s.dev with
                               map := m, links := links, mapPage := page
                               writing := if old.version == 0 || moved then none else some { map := old, links := s.dev.links }
                               published := s.dev.published ++ [s.now]
                               heats := s.dev.keepPoints old new } }
    s.writeMapPage.afterVersion dead

/-- The hub makes the next of its ordered writes of the map image: after VERSION the changed fields, and after those VERTAIL (R440). -/
def State.mapWriteStep (s : State) : State :=
  match s.dev.writing with
  | none => s
  | some w => { s with dev := { s.dev with writing := if w.fields then none else some { w with fields := true } } }.writeMapPage

/-! ### Retirements (R462, R465, R490) -/

/-- The feature masks of cores and MCCs (R446, R447): `base` for the live, and at full service what they do not lack. -/
def SMap.withFeatures (m : SMap) (coreLacks mccLacks : List (Nat × DWord)) : SMap :=
  let all : DWord := if m.full then 0xF else 1
  let mcc := fun (c : Nat) => if m.liveMcc.getLsbD c then (all &&& ~~~(pairVal mccLacks c)) ||| 1 else 0
  let core := fun (n : Nat) =>
    let c := clusterOfCore n
    if m.liveCore.getLsbD n then
      let pipes := (all &&& 0x7 &&& ~~~(pairVal coreLacks n)) ||| 1
      if m.liveMcc.getLsbD c then (pipes &&& (mcc c ||| 1)) ||| (mcc c &&& 8) else pipes
    else 0
  { m with
    mccFeat := ((List.range 48).map fun c => (c, mcc c)).filter fun p => p.2 != 0
    coreFeat := ((List.range 384).map fun n => (n, core n)).filter fun p => p.2 != 0 }

/-- A bit cleared in a mask. -/
def clearBit {w : Nat} (x : BitVec w) (i : Nat) : BitVec w := x &&& ~~~(BitVec.ofNat w (2 ^ i))

/-- An island record retired: every field reads 0 (R444). -/
def SMap.dropIsland (m : SMap) (n : Nat) : SMap := { m with islands := m.islands.set n {} }

/-- The map without a cluster (R477, R490): its cores, its MCC and its bands go with it, and the islands of all of them. -/
def SMap.dropCluster (m : SMap) (c : Nat) : SMap :=
  { (List.range 13).foldl (fun (m : SMap) k => m.dropIsland (13 * c + k)) m with
    liveCl := clearBit m.liveCl c, liveMcc := clearBit m.liveMcc c
    liveCore := (List.range 8).foldl (fun x i => clearBit x (8 * c + i)) m.liveCore
    bandLive := (List.range 4).foldl (fun x i => clearBit x (4 * c + i)) m.bandLive }

/-- The stack bit of a pseudo-channel of a die (R214, R442). -/
def stackOf (die q : Nat) : Nat := 8 * die + q / 512

/-- The map without a unit (R442, R462, R465). -/
def SMap.retire (m : SMap) (u : UnitId) : SMap :=
  match u with
  | .core n => ({ m with liveCore := clearBit m.liveCore n }).dropIsland (13 * clusterOfCore n + n % 8)
  | .mcc c => { m with liveMcc := clearBit m.liveMcc c }
  | .band c b => ({ m with bandLive := clearBit m.bandLive (4 * c + b) }).dropIsland (13 * c + 9 + b)
  | .slice d n => { m with liveSlice := clearBit m.liveSlice (16 * d + n) }
  | .pchannel d q =>
    let second := m.pcRet.any fun p => p / 4096 == d && p % 4096 / 512 == q / 512
    if m.pcRet.contains (4096 * d + q) then m
    else { m with pcRet := (4096 * d + q) :: m.pcRet, liveStack := if second then clearBit m.liveStack (stackOf d q) else m.liveStack }
  | .island n =>
    if 624 ≤ n then m.dropIsland n
    else
      let c := n / 13
      let k := n % 13
      let m := if k < 8 then { m with liveCore := clearBit m.liveCore (8 * c + k) }
        else if k = 8 then m.dropCluster c
        else { m with bandLive := clearBit m.bandLive (4 * c + (k - 9)) }
      m.dropIsland n

/-- The map without a compute die (R490): its clusters, slices, stacks and islands go with it. -/
def SMap.dropDie (m : SMap) (d : Nat) : SMap :=
  let m := (List.range 12).foldl (fun (m : SMap) i => m.dropCluster (12 * d + i)) m
  let m := (List.range 16).foldl (fun (m : SMap) i => m.dropIsland (624 + 16 * d + i)) m
  { m with
    liveDie := clearBit m.liveDie d
    liveSlice := (List.range 16).foldl (fun x i => clearBit x (16 * d + i)) m.liveSlice
    liveStack := (List.range 8).foldl (fun x i => clearBit x (8 * d + i)) m.liveStack }

/-- The frames of a stack: those whose lines map to it (R214, R462). -/
def onStack (frame q : Nat) : Bool := channelOf (65536 * frame) / 512 == q / 512

/-- A retired stack's frames leave the free lists, and the pages placed on them read as poisoned data (R462). -/
def State.loseStack (s : State) (die q : Nat) : State :=
  let pages := (s.pages.filter fun p => homeOf (65536 * p.page) == die && !p.host && onStack p.frame q).map (·.page)
  let secs := pages.flatMap fun p => (List.range 2048).map fun i => 2048 * p + i
  { s with
    frames := s.frames.filter fun f => !(f.die == die && !f.host && onStack f.frame q)
    poison := s.poison ++ secs.filter fun x => !s.poison.contains x }

/-- The stacks that a map no longer has on a live die lose their frames and their data (R462). -/
def State.loseStacks (s : State) (old new : SMap) : State :=
  ((List.range 32).filter fun n => old.liveStack.getLsbD n && !new.liveStack.getLsbD n && new.liveDie.getLsbD (n / 8)).foldl
    (fun (s : State) n => s.loseStack (n / 8) (512 * (n % 8))) s

/-- Both islands of a pair of the hub are retired (R465). -/
def SMap.pairDead (m : SMap) (k : Nat) : Bool := !(m.islands.getD (688 + 2 * k) {}).live && !(m.islands.getD (689 + 2 * k) {}).live

/-- The device halts (R465): a last version with no service and no live cluster, every context faulted. -/
def State.halt (s : State) (m : SMap) (links : List Link) : State :=
  let s := s.publish ({ m with full := false, shadow := false, liveCl := 0 }) links
  let s := { s with dev := { s.dev with state := .halted } }
  (s.ctxs.map (·.id)).foldl (fun s c => s.faultCtx c 5) s

/-- A link that leaves service for a state: what it carries is published with it (R485). -/
def setLink (links : List Link) (l : Link) : List Link := links.map fun x => if x.n == l.n then l else x

/-- A version in which units have been retired published (R462, R465): stacks that are gone lose their frames, a host link whose pair of islands
has gone fails, and the device halts where another pair has gone. -/
def State.publishUnits (s : State) (m : SMap) (links : List Link) : State :=
  let gone := fun (k : Nat) => m.pairDead k && (s.dev.map.version == 0 || !s.dev.map.pairDead k)
  let links := links.map fun l => if l.n < 2 && gone (l.n + 2) then { l with state := .failed, width := 0, speed := 0 : Link }.publish else l
  if s.dev.state == .halted then s
  else
    let s := s.loseStacks s.dev.map m
    if [0, 1, 4, 5, 6, 7].any gone then s.halt m links else s.publish m links

/-- A unit retired, with the version that says so (R462, R465). -/
def State.retire (s : State) (u : UnitId) : State :=
  s.publishUnits ((s.dev.map.retire u).withFeatures s.dev.coreLacks s.dev.mccLacks) s.dev.links

/-! ### Links (R482-R491) -/

/-- Nominal width and speed of a link, and its lowest usable ones. -/
def linkLimits (n : Nat) : (Nat × Nat) × (Nat × Nat) :=
  if n < 2 then ((16, 128000), (1, 2500))
  else if n < 10 then ((128, 40000), (32, 0))
  else ((8, 224000), (2, 112000))

/-- A link by number. -/
def Device.link? (d : Device) (n : Nat) : Option Link := d.links.find? fun l => l.n == n

/-- The dies that reach the hub over links that carry traffic (R490). -/
def connected (links : List Link) : List Nat := reachedFrom (dieLinks links Link.carries) 4

/-- The map without the live dies that no longer reach the hub (R490). -/
def SMap.dropLost (m : SMap) (links : List Link) : SMap :=
  let ds := connected links
  (List.range 4).foldl (fun (m : SMap) d => if m.liveDie.getLsbD d && !ds.contains d then m.dropDie d else m) m

/-- Links changed and the change published; before version 1 nothing is (R485, R490). -/
def State.publishLinks (s : State) (links : List Link) : State :=
  if s.dev.map.version == 0 then { s with dev := { s.dev with links := links } }
  else s.publish ((s.dev.map.dropLost links).withFeatures s.dev.coreLacks s.dev.mccLacks) links

/-- Links changed without a version: on entry to training nothing is published (R485). -/
def State.putLink (s : State) (l : Link) : State := { s with dev := { s.dev with links := setLink s.dev.links l } }

/-- HOST_LINK_INIT: host link initialisation trains a link that is down; a hot reset brings a failed one down, which a later initialisation then
trains (R482). -/
def execHostLinkInit (link : Nat) (hot : Bool) (s : State) : Host.Outcome State Fault Refusal :=
  .next (match s.dev.link? link with
    | some l =>
      if link < 2 && l.state == .down then s.putLink { l with state := .training, since := s.now, retraining := false }
      else if link < 2 && hot && l.state == .failed then s.putLink { l with state := .down, width := 0, speed := 0, retraining := false }
      else s
    | none => s)

/-- PEER_ENABLE: a peer port that is down trains (R482, R491). -/
def execPeerEnable (func port : Nat) (s : State) : Host.Outcome State Fault Refusal :=
  .next (match s.dev.link? (10 + port) with
    | some l =>
      if func = 0 && s.hostServed && l.state == .down then s.putLink { l with state := .training, since := s.now, retraining := false } else s
    | none => s)

/-- PEER_DISABLE: a peer port that is up or degraded goes down, and the change is published (R482, R485, R491). -/
def execPeerDisable (func port : Nat) (s : State) : Host.Outcome State Fault Refusal :=
  .next (match s.dev.link? (10 + port) with
    | some l =>
      if func = 0 && s.hostServed && (l.state == .up || l.state == .degraded) then
        s.publishLinks (setLink s.dev.links ({ l with state := .down, width := 0, speed := 0 : Link }.publish))
      else s
    | none => s)

/-- A width and a rate, in Mb/s, that PCI Express 7.0 defines, at which alone the host links train (R486; the values are PRESUMED, log 129). -/
def pcieDefines (width speed : Nat) : Bool :=
  [1, 2, 4, 8, 16].contains width && [2500, 5000, 8000, 16000, 32000, 64000, 128000].contains speed

/-- LINK_TRAINED: training ends up, degraded or failed; retraining never raises width or speed (R482, R483, R485). -/
def State.linkTrained (s : State) (n width speed : Nat) : State :=
  match s.dev.link? n with
  | none => s
  | some l =>
    let lim := linkLimits n
    if l.state != .training || lim.1.1 < width || lim.1.2 < speed || (l.retraining && (l.width < width || l.speed < speed)) then s
    else
      let usable := lim.2.1 ≤ width && lim.2.2 ≤ speed
      if n < 2 && usable && !pcieDefines width speed then s
      else
      let new : Link :=
        if width = lim.1.1 && speed = lim.1.2 then { l with state := .up, width := width, speed := speed, retraining := false }
        else if usable then { l with state := .degraded, width := width, speed := speed, retraining := false }
        else { l with state := .failed, width := 0, speed := 0, retraining := false }
      s.publishLinks (setLink s.dev.links new.publish)

/-- LINK_TRAINED (R485). -/
def execLinkTrained (link width speed : Nat) (s : State) : Host.Outcome State Fault Refusal := .next (s.linkTrained link width speed)

/-- LINK_TRAIN_TIMEOUT: 1 s of training without result fails the link (R482). -/
def execLinkTrainTimeout (link : Nat) (s : State) : Host.Outcome State Fault Refusal :=
  .next (match s.dev.link? link with
    | some l =>
      if l.state == .training && l.since + 1000000000 ≤ s.now then
        s.publishLinks (setLink s.dev.links ({ l with state := .failed, width := 0, speed := 0, retraining := false : Link }.publish))
      else s
    | none => s)

/-- 24 hours in ns. -/
def dayNs : Nat := 86400000000000

/-- LINK_RETRAIN: a link that is up or degraded trains again; the third time within 24 hours it fails (R482, R483). -/
def State.linkRetrain (s : State) (n : Nat) : State :=
  match s.dev.link? n with
  | none => s
  | some l =>
    if l.state == .up || l.state == .degraded then
      let recent := l.retrains.filter fun t => s.now < t + dayNs
      if 2 ≤ recent.length then
        s.publishLinks (setLink s.dev.links ({ l with state := .failed, width := 0, speed := 0, retrains := s.now :: recent : Link }.publish))
      else s.putLink { l with state := .training, since := s.now, retraining := true, retrains := s.now :: recent }
    else s

/-- A flit or beat of a link that a replay corrects is counted, and causes nothing else (R456, R483). -/
def State.linkCorrected (s : State) (n : Nat) : State :=
  match s.dev.link? n with
  | some l => if l.serves then s.putLink { l with corrected := l.corrected + 1 } else s
  | none => s

/-- LINK_RETRAIN (R483). -/
def execLinkRetrain (link : Nat) (s : State) : Host.Outcome State Fault Refusal := .next (s.linkRetrain link)

/-! ### Errors and self-tests (R456-R459, R462) -/

/-- A register of a strand poisoned (R457). -/
def Strand.poisonReg (st : Strand) (n : Nat) : Strand := st.setReg n { st.reg n with poison := true }

/-- Sectors tagged as poisoned at their home slice (R457). -/
def State.poisonSectors (s : State) (ias : List Nat) : State :=
  ias.foldl (fun (s : State) ia => if s.poison.contains (sectorOf ia) then s else { s with poison := sectorOf ia :: s.poison }) s

/-- A register of a strand on a unit spoilt (R457): the strand's number and the register's. -/
def State.poisonRegister (s : State) (agent : Nat) (reg : Option (Nat × Nat)) : State :=
  match reg with
  | none => s
  | some (id, n) => match s.strand? id with
    | some st => if st.agentCore == agent then s.setStrand (st.poisonReg n) else s
    | none => s

/-- Sectors of an agent's L1 spoilt: the tags are at the home slices, and the copy that the L1 holds is poisoned (R457). -/
def State.poisonL1 (s : State) (agent : Nat) (ias : List Nat) : State :=
  let s := s.poisonSectors ias
  { s with l1 := s.l1.map fun l =>
      if l.core == agent then { l with poison := (ias.filter fun ia => lineOf ia == l.line).foldl (fun p ia => setBit p (ia % 128 / 32)) l.poison }
      else l }

/-- Sectors of the scratchpads of groups on a core spoilt (R457). -/
def State.poisonScratch (s : State) (core : Nat) (secs : List (Nat × Nat)) : State :=
  { s with groups := s.groups.map fun g =>
      if g.core == core && !g.away then
        { g with poison := (secs.filter fun x => x.1 == g.id && 32 * x.2 < g.scratchLen).foldl (fun p x => if p.contains x.2 then p else x.2 :: p) g.poison }
      else g }

/-- ERROR_DETECTED: an uncorrectable error is charged to its unit (R456), and the data it spoils is poisoned (R457). An error of an FP32 unit
strikes at the strand's next check point, where the shadow shows it (R458). -/
def State.errorDetected (s : State) (e : ErrorSource) : State :=
  match e with
  | .shadow strand lane bits =>
    if s.dev.map.shadow then
      match s.strand? strand with
      | some st => s.setStrand { st with shadowHit := st.shadowHit ++ [(lane, bits)] }
      | none => s
    else s
  | .coreStorage core reg scratch secs => (((s.poisonRegister core reg).poisonScratch core scratch).poisonL1 core secs).chargeUnit (.core core)
  | .mccStorage c reg secs => ((s.poisonRegister (mccAgent c) reg).poisonL1 (mccAgent c) secs).chargeUnit (.mcc c)
  | .band c b => s.chargeUnit (.band c b)
  | .l2 d n secs => (s.poisonSectors secs).chargeUnit (.slice d n)
  | .hbm d q secs => (s.poisonSectors secs).chargeUnit (.pchannel d q)
  | .hubIsland n => s.chargeUnit (.island n)

/-- ERROR_DETECTED (R462). -/
def execErrorDetected (e : ErrorSource) (s : State) : Host.Outcome State Fault Refusal := .next (s.errorDetected e)

/-- No work is left on a unit under test (R462 step 1): its teams are saved or have ended, and no tile strand holds the band. -/
def State.unitQuiet (s : State) (u : UnitId) : Bool :=
  match u with
  | .core n => !(s.groups.any fun g => g.core == n && !g.ended && !g.away)
  | .mcc c => !(s.strands.any fun x => x.tile && x.core == c && x.state != .exited)
  | .band c b => !((s.cluster c).pbands.any fun p => p.n == b)
  | _ => true

/-- SELF_TEST_COMPLETE: a pass counts a transient, and the third within 24 hours retires the unit; a failure retires it (R462). -/
def State.selfTestComplete (s : State) (u : UnitId) (pass : Bool) : State :=
  if !s.underTest u || !s.unitQuiet u then s
  else
    let recent := s.dev.transients.filter fun t => s.now < t.2 + dayNs
    let count := (recent.filter fun t => t.1 == u).length
    let s := { s with dev := { s.dev with
                               tests := s.dev.tests.filter fun t => t.unit != u
                               transients := if pass then (u, s.now) :: recent else recent } }
    if pass && count < 2 then s else s.retire u

/-- SELF_TEST_COMPLETE (R462). -/
def execSelfTestComplete (u : UnitId) (pass : Bool) (s : State) : Host.Outcome State Fault Refusal := .next (s.selfTestComplete u pass)

/-- A group that has not ended faults with REPLAY-MISMATCH, for an instruction of a strand that runs, has exited or lies in its save area; saved, it
faults at once (R459, DESIGN CHOICE, log 131). -/
def State.replayFault (s : State) (r : Replay) : State :=
  match s.group? r.group with
  | none => s
  | some g =>
    if g.ended then s
    else
      let kept := ((s.team? g.team).map (·.kept)).getD []
      let st := match s.strand? r.strand, kept.find? fun x => x.id == r.strand with
        | some st, _ => st
        | none, some st => st
        | none, none => startStrand r.strand g.id 0 g.core 0 0 0 0 0 0 0 []
      let s := s.groupFault st 2 0x85 r.addr.toNat 0 r.addr.lo 0 0
      match s.team? g.team with
      | some t => s.setTeam { t with kept := t.kept.map fun x => if x.group == g.id && !x.tile then { x with state := .exited } else x }
      | none => s

/-- REPLAY_CHECK: a queued instruction is run again on its recorded sources and compared (R459). Its result is a function of these alone, so that a
sound unit gives what it gave before: `mismatch` says that an error struck (log 78). It is charged to the core, and unwinds the strand where the region
that was open at the issue is open still, or else faults its group. -/
def State.replayCheck (s : State) (core quadrant index : Nat) (mismatch : Bool) : State :=
  let k := s.core core
  let q := vget k.replay quadrant []
  match q[index]? with
  | none => s
  | some r =>
    let s := s.setCore { k with replay := vset k.replay quadrant (q.eraseIdx index) }
    if !mismatch then s
    else
      let s := s.chargeUnit (.core core)
      match s.strand? r.strand with
      | none => s.replayFault r
      | some st =>
        if st.state != .exited && (st.rets.any fun e => e.isRegion && r.region == some e.opened) then
          s.raise st { cause := 0x21, addr := r.addr, lanes := st.path, detail := 0x100 }
        else s.replayFault r

/-- REPLAY_CHECK (R459). -/
def execReplayCheck (core quadrant index : Nat) (mismatch : Bool) (s : State) : Host.Outcome State Fault Refusal :=
  .next (s.replayCheck core quadrant index mismatch)

/-! ### Bring-up (R463, R464) -/

/-- DEVICE_RESET: the device is as at reset; time goes on, and host memory is the host's (R463). -/
def execDeviceReset (s : State) : Host.Outcome State Fault Refusal :=
  .next { State.reset with
          agenda := s.agenda, now := s.now, freshId := s.freshId, freeCtr := s.freeCtr
          mem := s.mem.filter fun c => homeOf c.1 == 4 }

/-- The limits of an island that is live (R444): the part's own, at an arithmetic clock. -/
def islandAt (aclk n : Nat) : Island :=
  let vmin := 1 + Config.vmin n % 65535
  let cut := Config.fmaxCut n
  { live := true, vmin := vmin, vmax := vmin + Config.vmax n % (65536 - vmin)
    fmax := if 624 ≤ n then 1600 else if 0 < cut && cut < aclk then cut else aclk }

/-- The map of version 1, reduced service, before failed units are taken out (R464). -/
def SMap.first : SMap :=
  { full := false, shadow := true, aclk := 525, fclk := 1600, liveCl := BitVec.allOnes 48, liveMcc := BitVec.allOnes 48, liveDie := 0x1F
    liveCore := BitVec.allOnes 384, liveSlice := BitVec.allOnes 64, liveStack := BitVec.allOnes 32
    bandLive := BitVec.ofNat 192 ((List.range 48).foldl (fun (acc : Nat) c => acc + 3 * 16 ^ c) 0)
    islands := (List.range 704).map (islandAt 525) }

/-- The last stage of bring-up: version 1 is published, and the device runs (R463, R464). A link that retrains shows what it was before (R485). -/
def State.publishFirst (s : State) (t : TestOutcome) : State :=
  let m := t.failed.foldl SMap.retire SMap.first
  let links := s.dev.links.map fun l => if l.state == .training && l.retraining then l else l.publish
  let s := { s with dev := { s.dev with state := .running, tested := false } }
  s.publishUnits ((m.dropLost links).withFeatures [] []) links

/-- BRINGUP_STAGE_COMPLETE: a stage passes and the next begins; links 2 to 9 train in stage 3 and must have left training when it ends; a failed
signature or stage stops bring-up (R463, R482). -/
def State.bringupStage (s : State) (pass sigFail : Bool) (t : TestOutcome) : State :=
  match s.dev.state with
  | .bringup n =>
    let put := fun (d : DState) => ({ s with dev := { s.dev with state := d } } : State)
    if !pass || sigFail then put (.failed n sigFail)
    else if n = 2 then
      let s := put (.bringup 3)
      { s with dev := { s.dev with links := s.dev.links.map fun l =>
          if 2 ≤ l.n && l.n < 10 && l.state == .down then { l with state := .training, since := s.now } else l } }
    else if n = 3 && (s.dev.links.any fun l => 2 ≤ l.n && l.n < 10 && l.state == .training) then s
    else if n = 5 then s.publishFirst t
    else put (.bringup (n + 1))
  | _ => s

/-- BRINGUP_STAGE_COMPLETE (R463). -/
def execBringupStageComplete (pass sigFail : Bool) (t : TestOutcome) (s : State) : Host.Outcome State Fault Refusal :=
  .next (s.bringupStage pass sigFail t)

/-- BRINGUP_SELF_TEST_COMPLETE: full service in one version, every failed unit retired (R464). Bands B2 and B3 become live where their islands are:
one that failed its training stays retired. -/
def State.bringupSelfTest (s : State) (t : TestOutcome) : State :=
  if s.dev.state != .running || s.dev.tested then s
  else
    let old := s.dev.map
    let islands := (List.range 704).map fun n => if (old.islands.getD n {}).live then islandAt 1050 n else {}
    let bands := (List.range 96).foldl (fun (x : BitVec 192) i =>
      let c := i / 2
      let b := 2 + i % 2
      if old.liveCl.getLsbD c && (old.islands.getD (13 * c + 9 + b) {}).live then setBit x (4 * c + b) else x) old.bandLive
    let m := t.failed.foldl SMap.retire { old with full := true, aclk := 1050, bandLive := bands, islands := islands }
    let s := { s with dev := { s.dev with tested := true, coreLacks := t.coreLacks, mccLacks := t.mccLacks } }
    s.publishUnits (m.withFeatures t.coreLacks t.mccLacks) s.dev.links

/-- BRINGUP_SELF_TEST_COMPLETE (R464). -/
def execBringupSelfTestComplete (t : TestOutcome) (s : State) : Host.Outcome State Fault Refusal := .next (s.bringupSelfTest t)

/-! ### The shadow switch and attestation (R464, R466) -/

/-- A reply to the host. -/
def State.reply (s : State) (r : Reply) : State := { s with dev := { s.dev with replies := s.dev.replies ++ [r] } }

/-- SHADOW_SET: at full service the host sets or clears SERVICE.SHADOW, each change a version; before that it is refused (R464). -/
def execShadowSet (_func : Nat) (on : Bool) (s : State) : Host.Outcome State Fault Refusal :=
  .next (if !s.hostServed then s
    else if !s.dev.map.full then s.reply .refused
    else s.publish { s.dev.map with shadow := on } s.dev.links)

/-- The bytes of an attestation report before its signature (R466). -/
def State.reportBody (s : State) (nonce : List Byte) : List Byte :=
  packFields [(4, 1), (4, 0)] ++ nonce ++ bytesLE 8 s.version.toNat ++
    bytesBE 64 (sha512 ((List.range 0x3000).map s.dev.imageByte)).toNat ++
    ((List.range 8).flatMap fun n => bytesLE 64 (Config.measurement n).toNat) ++ bytesLE 512 Config.keyModulus.toNat

/-- ATTESTATION_REPORT: a report over a nonce of 64 bytes, signed with a salt of 64 bytes, with the certificate chain of the attestation key
(R466; signature, salt and chain are free values, log 12). -/
def execAttestationReport (_func : Nat) (nonce : List Byte) (s : State) : Host.Outcome State Fault Refusal :=
  .next (if s.hostServed && nonce.length = 64 then
      let body := s.reportBody nonce
      ({ s with freeCtr := s.freeCtr + 1 }).reply
        (.report (body ++ bytesLE 512 (Config.attestSign (Config.attestSalt s.freeCtr) body).toNat) Config.certChain)
    else s)

end Sys2Proof.Machine
end

