-- ==== Sys2Proof/Machine/Context.lean ====
section
/-!
DEFINITION. The context object: the commands create, enable, suspend, resume, destroy and acknowledge (R427-R433, R437, R449), the expiry of a
slice (R432) and of the grace period (R451), counter claims (R473), trace (R478, R480), and what settles after every move.
-/

namespace Sys2Proof.Machine

/-! ### Create (R427-R429) -/

/-- The fields of a descriptor within their limits (R427, R428). -/
def descriptorOk (d : List Byte) (map' : Option Nat) : Bool :=
  let n := entryNum d
  let flags := n 0x003 1
  let sliced := flags / 2 % 2 = 1
  let pool := n 0x020 8
  let windowOk := fun (i : Nat) =>
    let x := n (0x200 + 32 * i) 32
    let w := Window.ofBits x
    (windowRefused x map').isNone && !(flags % 2 = 1 && w.valid && 4 ≤ homeOf (w.iabase * 65536) && !w.hostvis)
  d.length = 1024 && n 0x000 2 < 4096 && n 0x002 1 < 64 && flags < 4 &&
    (if sliced then 100 ≤ n 0x004 4 && n 0x004 4 ≤ 100000 else n 0x004 4 = 0) && n 0x008 1 ≤ 10 && 4 ≤ n 0x009 1 && n 0x009 1 ≤ 16 &&
    entryZero d 0x00A 6 && n 0x010 8 % 128 = 0 && homeOf (n 0x018 8) = 4 && n 0x018 8 % 8 = 0 &&
    pool % 4096 = 0 && n 0x028 8 % 4096 = 0 && pool + n 0x028 8 ≤ 2 ^ 51 && n 0x040 8 + 4096 ≤ 2 ^ 51 &&
    entryZero d 0x048 440 && (List.range 16).all windowOk

/-- The lowest slot of a function that none of its contexts holds (R429). -/
def State.freeSlot (s : State) (func : Nat) : Nat :=
  ((List.range 4097).find? fun n => !(s.ctxs.any fun c => c.func == func && c.slot == n)).getD 0

/-- A context as a create command leaves it: built, counters 0, queues disabled, acknowledged (R430, R449). -/
def Ctx.ofDescriptor (d wrappedKey : List Byte) (slot : Nat) (version : DWord) : Ctx :=
  let n := entryNum d
  { id := n 0x000 2, func := n 0x002 1, slot := slot, conf := n 0x003 1 % 2 = 1, sliced := n 0x003 1 / 2 % 2 = 1, slice := n 0x004 4
    prioCap := n 0x008 1, eqSize := n 0x009 1, eqBase := BitVec.ofNat 64 (n 0x010 8), pubCtr := n 0x018 8
    savePool := (n 0x020 8, n 0x028 8), stackPool := (n 0x030 8, n 0x038 8), ctxSave := n 0x040 8
    windows := vtab 16 fun i => Window.ofBits (n (0x200 + 32 * i) 32)
    ack := version, wrappedKey := wrappedKey, counters := vtab 16 fun _ => 0, select := vtab 16 fun _ => 0 }

/-- CONTEXT_CREATE: the command is refused with no effect, or the context is built and its slot returned. -/
def State.contextCreate (s : State) (func : Nat) (d key : List Byte) : State :=
  if !s.hostServed then s
  else
    let f := entryNum d 0x002 1
    let map' := if s.dev.map.version == 0 then none else some (pageOf s.dev.mapPage)
    let slot := s.freeSlot f
    if !descriptorOk d map' || (func != 0 && func != f) || (s.ctx? (entryNum d 0 2)).isSome || (f != 0 && 64 ≤ slot) then s.reply .refused
    else
      let c := Ctx.ofDescriptor d key slot s.version
      ({ s with ctxs := s.ctxs ++ [c] }).reply (.created func c.id slot)

/-- CONTEXT_CREATE (R428). -/
def execContextCreate (func : Nat) (desc key : List Byte) (s : State) : Host.Outcome State Fault Refusal :=
  .next (s.contextCreate func desc key)

/-! ### Enable, suspend, resume (R430, R431, R437) -/

/-- CONTEXT_ENABLE: a built context becomes runnable; a confidential one's key is unwrapped first, and it faults where that fails. -/
def State.contextEnable (s : State) (func ctx : Nat) : State :=
  match s.ctxFor func ctx with
  | none => s
  | some c =>
    if c.state != .built || c.destroyWaits then s
    else if c.conf then
      match Config.unwrapKey c.wrappedKey with
      | some k => (s.setCtx { c with key := some k }).ctxTo ctx .runnable 1
      | none => s.faultCtx ctx 4
    else s.ctxTo ctx .runnable 1

/-- CONTEXT_ENABLE (R430). -/
def execContextEnable (func ctx : Nat) (s : State) : Host.Outcome State Fault Refusal := .next (s.contextEnable func ctx)

/-- A suspension with a cause, at once, or where a world switch is under way once that has saved the last team (R431). -/
def State.suspend (s : State) (c : Ctx) (cause : Nat) : State :=
  if s.dev.switching then s.setCtx { c with suspendWaits := some (c.suspendWaits.getD cause) } else s.suspendNow c.id cause

/-- CONTEXT_SUSPEND; a resumption that still waits is taken back. -/
def State.contextSuspend (s : State) (func ctx : Nat) : State :=
  match s.ctxFor func ctx with
  | none => s
  | some c =>
    if c.state.suspendable && !c.destroyWaits then s.suspend c 1 else s.setCtx { c with resumeWaits := false }

/-- CONTEXT_SUSPEND (R431). -/
def execContextSuspend (func ctx : Nat) (s : State) : Host.Outcome State Fault Refusal := .next (s.contextSuspend func ctx)

/-- A suspended context becomes runnable and its counters are restored (R430, R435), as soon as they may be read (R202); where its teams still run on,
they are in place and have counted further. -/
def State.resumeNow (s : State) (ctx : Nat) : State :=
  match s.ctx? ctx with
  | none => s
  | some c =>
    if c.state != .suspended || c.destroyWaits then s.setCtx { c with resumeWaits := false }
    else if c.saveDue then (s.setCtx { c with saveDue := false, resumeWaits := false }).ctxTo ctx .runnable 1
    else match s.countersReady c with
      | (s, ok) => match s.ctx? ctx with
        | none => s
        | some c => if ok then (s.setCtx { s.loadCounters c with resumeWaits := false }).ctxTo ctx .runnable 1 else s.setCtx { c with resumeWaits := true }

/-- CONTEXT_RESUME. -/
def State.contextResume (s : State) (func ctx : Nat) : State :=
  match s.ctxFor func ctx with
  | none => s
  | some _ => s.resumeNow ctx

/-- CONTEXT_RESUME (R430). -/
def execContextResume (func ctx : Nat) (s : State) : Host.Outcome State Fault Refusal := .next (s.contextResume func ctx)

/-! ### Destroy (R433) -/

/-- A page of a confidential context is unplaced when the context goes, where no lease and no move holds it (R203, R433). -/
def State.unplaceNow (s : State) (page : Nat) : State :=
  match s.pte? page with
  | some p =>
    if p.state != 1 then s
    else
      let lo := 65536 * page
      let s := s.flushRange lo (lo + 65535)
      { s with
        pages := s.pages.filter fun x => x.page != page
        frames := s.frames ++ [({ die := homeOf lo, host := p.host, frame := p.frame } : Frame)]
        mem := s.mem.filter fun c => !(lo ≤ c.1 && c.1 < lo + 65536)
        poison := s.poison.filter fun x => !(2048 * page ≤ x && x < 2048 * page + 2048) }
  | none => s

/-- The pages placed now that a confidential context's windows reach, the map page apart, which is the hub's (R440, DESIGN CHOICE, log 112). -/
def State.reachedPages (s : State) (c : Ctx) : List Pte :=
  if c.conf then s.pages.filter fun p => c.mapsPage p.page && !s.inMapPage (65536 * p.page) else []

/-- The leases that a context's launches and groups hold (R201). -/
def State.heldLeases (s : State) (ctx : Nat) : List Nat :=
  ((s.launches.filter fun l => l.ctx == ctx).flatMap (·.owns)) ++ (s.teamsOf ctx).flatMap fun t => t.leases.flatMap (·.2)

/-- The leases of a context's launches and teams released, with the launches, teams, groups and strands themselves, and its kernels. -/
def State.dropWork (s : State) (ctx : Nat) : State :=
  let tids := (s.teamsOf ctx).map (·.id)
  let s := (s.heldLeases ctx).foldl State.unlease s
  let gids := (s.groups.filter fun g => tids.contains g.team).map (·.id)
  { s with
    launches := s.launches.filter fun l => l.ctx != ctx
    teams := s.teams.filter fun t => !tids.contains t.id
    groups := s.groups.filter fun g => !gids.contains g.id
    strands := s.strands.filter fun x => !gids.contains x.group
    kernels := s.kernels.filter fun k => k.ctx != ctx }

/-- R433, once no member of the context's teams is placed and nothing of it is in flight. A block of its trace that was being filled is sealed first
(R480). -/
def State.destroyNow (s : State) (ctx : Nat) : State :=
  match s.ctx? ctx with
  | none => s
  | some c =>
    let s := (s.traceSeal ctx).ctxTo ctx .destroyed 1
    let s := s.dropWork ctx
    let s := (List.range 16).foldl (fun (s : State) n =>
      let w := c.window n
      if w.valid then s.l1FlushRange w.iaRange.1 w.iaRange.2 else s) s
    let s := ((s.reachedPages c).map (·.page)).foldl State.unplaceNow s
    { s with ctxs := s.ctxs.filter fun x => x.id != ctx, dev := { s.dev with waits := s.dev.waits.filter fun w => w.ctx != ctx } }

/-- Nothing of a context is placed or in flight, no mapping change of it is under way, and the pages that it is to unplace neither move nor are leased
by others (R203, R206, R433). -/
def State.ctxQuiet (s : State) (c : Ctx) : Bool :=
  !s.anyPlaced c.id && !(s.flight.any fun a => a.ctx == c.id) && !(s.copies.any fun k => k.ctx == c.id) && !(s.changes.any fun ch => ch.ctx == c.id) &&
    (s.reachedPages c).all fun p => p.state != 3 && p.leases ≤ (s.heldLeases c.id).count p.page

/-- A destruction that waited goes on once the context is quiet. -/
def State.settleDestroy (s : State) (ctx : Nat) : State :=
  match s.ctx? ctx with
  | none => s
  | some c => if c.destroyWaits && s.ctxQuiet c then s.destroyNow ctx else s

/-- The counters of a suspended or faulted context go to CTXSAVE once more, when the last of its teams is saved or has ended (R431, R435). -/
def State.settleCounters (s : State) (ctx : Nat) : State :=
  match s.ctx? ctx with
  | none => s
  | some c => if c.saveDue && !s.anyPlaced ctx then (s.setCtx { c with saveDue := false }).storeCounters ctx else s

/-- What settles after every move: writes of the hub that waited for a page (R202), teams whose last access has been performed (R331), counters to be
stored (R431) or restored (R435), destructions that waited (R433) and world switches (R432). -/
def State.settled (s : State) : State :=
  let s := s.drainWaits
  let s := (s.teams.map (·.id)).foldl State.settleTeam s
  let s := ((s.ctxs.filter fun c => c.saveDue).map (·.id)).foldl State.settleCounters s
  let s := ((s.ctxs.filter fun c => c.resumeWaits).map (·.id)).foldl State.resumeNow s
  (((s.ctxs.filter fun c => c.destroyWaits).map (·.id)).foldl State.settleDestroy s).settleWorld

/-- CONTEXT_DESTROY: a running or saved context is suspended first; the rest follows once its last team is saved or has ended. -/
def State.contextDestroy (s : State) (func ctx : Nat) : State :=
  match s.ctxFor func ctx with
  | none => s
  | some c =>
    let c' := { c.disableQueues with destroyWaits := true }
    let s := s.setCtx c'
    if c.state == .running || c.state == .saved then s.suspend c' 1 else s

/-- CONTEXT_DESTROY (R433). -/
def execContextDestroy (func ctx : Nat) (s : State) : Host.Outcome State Fault Refusal :=
  .next ((s.contextDestroy func ctx).settleDestroy ctx)

/-! ### Acknowledgement, slices and grace (R432, R449, R451) -/

/-- MAP_ACKNOWLEDGE: the host's acknowledge command, by the rule of MAPACK (R449, R455). -/
def execMapAcknowledge (func ctx : Nat) (n : DWord) (s : State) : Host.Outcome State Fault Refusal :=
  .next (match s.ctxFor func ctx with
    | some _ => (s.acknowledge ctx n).1
    | none => s)

/-- SLICE_EXPIRY: with another member in the rotation a world switch begins, else the slice is renewed (R432). -/
def State.sliceExpiry (s : State) : State :=
  match s.dev.current.bind s.ctx? with
  | none => s
  | some c =>
    let rot := s.rotation
    if s.dev.switching || s.now < s.dev.sliceFrom + 1000 * c.slice || !rot.contains c.id then s
    else if rot.length < 2 then { s with dev := { s.dev with sliceFrom := s.now } }
    else (s.startSwitch c.id).quiesce c.id

/-- SLICE_EXPIRY (R432). -/
def execSliceExpiry (s : State) : Host.Outcome State Fault Refusal := .next s.sliceExpiry.settleWorld

/-- GRACE_EXPIRY: a running context whose grace clock has reached 10 ms is suspended, with cause 2 (R451); during a world switch that waits as a
suspend command does (R431). -/
def execGraceExpiry (ctx : Nat) (s : State) : Host.Outcome State Fault Refusal :=
  .next (match s.ctx? ctx with
    | none => s
    | some c => match c.grace with
      | some t => if c.state == .running && t + 10000000 ≤ s.now then s.suspend c 2 else s
      | none => s)

/-! ### Counters and trace (R473, R478, R480) -/

/-- COUNTER_CLAIM: the host function claims one of counters 11 to 15. -/
def execCounterClaim (func ctx n : Nat) (s : State) : Host.Outcome State Fault Refusal :=
  .next (match s.ctxFor func ctx with
    | some c => if 11 ≤ n && n ≤ 15 && !c.claimed.contains n then s.setCtx { c with claimed := n :: c.claimed } else s
    | none => s)

/-- COUNTER_RELEASE: a claim ends. -/
def execCounterRelease (func ctx n : Nat) (s : State) : Host.Outcome State Fault Refusal :=
  .next (match s.ctxFor func ctx with
    | some c => s.setCtx { c with claimed := c.claimed.filter fun x => x != n }
    | none => s)

/-- TRACE_ENABLE: trace is on, into a ring in host memory; a block that was being filled is sealed first. -/
def State.traceEnable (s : State) (func ctx ring slots : Nat) : State :=
  match s.ctxFor func ctx with
  | none => s
  | some c =>
    if homeOf ring != 4 || slots = 0 || 2 ^ 64 ≤ c.trace.blockSeq then s
    else
      let s := s.traceSeal ctx
      match s.ctx? ctx with
      | some c => s.setCtx { c with trace := { c.trace with on := decide (c.trace.blockSeq < 2 ^ 64), ring := ring, slots := slots, head := 0, tail := 0 } }
      | none => s

/-- TRACE_ENABLE (R478). -/
def execTraceEnable (func ctx ring slots : Nat) (s : State) : Host.Outcome State Fault Refusal := .next (s.traceEnable func ctx ring slots)

/-- TRACE_STOP: the partial block is sealed, and the block sequence number goes on (R480). -/
def State.traceStop (s : State) (func ctx : Nat) : State :=
  match s.ctxFor func ctx with
  | none => s
  | some _ =>
    let s := s.traceSeal ctx
    match s.ctx? ctx with
    | some c => s.setCtx { c with trace := { c.trace with on := false } }
    | none => s

/-- TRACE_STOP (R480). -/
def execTraceStop (func ctx : Nat) (s : State) : Host.Outcome State Fault Refusal := .next (s.traceStop func ctx)

end Sys2Proof.Machine
end

