-- ==== Sys2Proof/Machine/Power.lean ====
section
/-!
DEFINITION. Time, charge, heat and observation: the passing of time and the cycle counters (R477), RATE and RT (R467), thermal states (R471), the
commands of the physical function (R467, R468, R471, R472), page-table reads (R200, R436), and Lull trials (R481).
-/

namespace Sys2Proof.Machine

/-! ### Cycles (R344, R477) -/

/-- A cluster's cycle counter after some ns: it counts what island 13c + 8 delivers while the cluster is live (R477). -/
def State.tick (s : State) (n : Nat) (c : Nat) : State :=
  if s.dev.map.liveCl.getLsbD c then
    let k := s.cluster c
    let x := k.cycleFrac + n * s.pointOf (13 * c + 8)
    s.setCluster { k with cycles := k.cycles + x / 1000, cycleFrac := x % 1000 }
  else s

/-! ### Charge and the passing of time (R322, R467, R468) -/

/-- RMAX in CU per us, and the most that RATE moves in 1 us (R467). -/
def rmax : Nat := 65536

/-- An island's thermal state lowers RT: it is throttled or critical, or has left critical and waits for R341 (R471). -/
def Heat.lowers (h : Heat) : Bool := h.state != .normal || h.restoring

/-- An island acts on a cluster: its own, those of its die, or all for the hub (R471). -/
def islandActs (n cl : Nat) : Bool := if n < 624 then n / 13 = cl else if n < 688 then dieOfCluster cl = (n - 624) / 16 else true

/-- RT without the trial: the target set, halved by each island that lowers it (R467, R471). -/
def State.plainRt (s : State) (cl : Nat) : Nat :=
  ((s.dev.heats.filter fun h => h.lowers && islandActs h.island cl).foldl (fun (x : Nat) _ => x / 2) (s.cluster cl).target)

/-- RT: during a Lull trial, so many sixty-fourths of its value without it (R481). -/
def State.rt (s : State) (cl : Nat) : Nat :=
  match s.dev.lull with
  | some t => if t.clusters.contains cl then s.plainRt cl * t.fractions.getD t.step 64 / 64 else s.plainRt cl
  | none => s.plainRt cl

/-- RATE after one more microsecond: it moves toward RT by at most RMAX / 64. -/
def stepRate (rate rt : Nat) : Nat := if rate < rt then min rt (rate + rmax / 64) else max rt (rate - rmax / 64)

/-- The bucket after some microseconds at one RT: each refills at RATE, what passes 2^20 is lost, and RATE steps toward RT until it has reached it. -/
def Cluster.refill (c : Cluster) (rt us : Nat) : Cluster :=
  let steps := ((rt - c.rate) + (c.rate - rt) + 1023) / 1024
  let c := (List.range (min us steps)).foldl (fun (c : Cluster) _ =>
    { c with level := min 1048576 (c.level + c.rate), rate := stepRate c.rate rt }) c
  { c with level := min 1048576 (c.level + (us - steps) * c.rate) }

/-- CHARGE_REFILL: the refill of every whole microsecond that has passed since the last one. -/
def State.chargeRefill (s : State) (cl : Nat) : State :=
  let c := s.cluster cl
  if 48 ≤ cl || s.now < c.refilled + 1000 then s
  else s.setCluster { c.refill (s.rt cl) (s.now / 1000 - c.refilled / 1000) with refilled := s.now / 1000 * 1000 }

/-- The clusters on which a group of a context is placed. -/
def State.clustersOf (s : State) (ctx : Nat) : List Nat :=
  (s.teamsOf ctx).flatMap fun t => ((s.groupsOf t.id).filter fun g => !g.ended && !g.away).map fun g => clusterOfCore g.core

/-- Something of a context waits for charge: a strand, a copy or a task (R468, R469). -/
def State.chargeWaits (s : State) (ctx : Nat) : Bool :=
  let mine := fun (x : Strand) => (s.env? x).map (·.ctx) == some ctx
  (s.strands.any fun x => x.state == .blocked .charge && mine x) || (s.copies.any fun k => k.ctx == ctx && k.bursts != 0) ||
    s.clusters.any fun c => c.tasks.any fun t => t.state == .issued && !t.charged && (s.strand? t.strand).any mine

/-- The cycles of a context counted while time passes (R473): arithmetic cycles only with a group placed, charge-wait cycles only while something waits
for charge, and throttled cycles only where a throttled or critical island acts on a cluster of the context. How many they are is a free value (DESIGN CHOICE,
log 16). -/
def State.countCycles (s : State) (ctx : Nat) : State :=
  let cls := s.clustersOf ctx
  s.countFree ctx ((if cls.isEmpty then [] else [2]) ++ (if s.chargeWaits ctx then [3] else []) ++
    (if s.dev.heats.any fun h => h.lowers && cls.any (islandActs h.island) then [9] else []))

/-- Time passes: the cycle counters and the events that are a matter of timing count on, and the buckets refill at the RT that holds meanwhile. -/
def State.elapse (s : State) (n : Nat) : State :=
  let s := s.noteAbove
  let s := (List.range 48).foldl (fun s c => s.tick n c) s
  let s := (s.ctxs.map (·.id)).foldl (fun (s : State) c => (s.countCycles c).countTraffic c) s
  (List.range 48).foldl State.chargeRefill { s with now := s.now + n }

/-- CHARGE_REFILL (R467). -/
def execChargeRefill (cluster : Nat) (s : State) : Host.Outcome State Fault Refusal := .next (s.chargeRefill cluster)

/-- CHARGE_TARGET_SET: the physical function sets RT from 0 to RMAX. -/
def execChargeTargetSet (func cluster rt : Nat) (s : State) : Host.Outcome State Fault Refusal :=
  .next (if func = 0 && s.hostServed && cluster < 48 && rt ≤ rmax then s.setCluster { s.cluster cluster with target := rt } else s)

/-- CLASS_WEIGHT_SET: the physical function writes a class weight; the reserved classes stay 0 (R468). -/
def execClassWeightSet (func cluster cls weight : Nat) (s : State) : Host.Outcome State Fault Refusal :=
  .next (if func = 0 && s.hostServed && cluster < 48 && cls < 8 then
      let c := s.cluster cluster
      s.setCluster { c with weights := c.weights.set cls weight }
    else s)

/-! ### Heat (R471) -/

/-- 2 ms have passed since an island entered its thermal state. -/
def State.dwelt (s : State) (h : Heat) : Bool := h.since + 2000000 ≤ s.now

/-- The teams with a group on a core, or a tile strand on an MCC or band, that an island feeds (R341). -/
def State.teamsOn (s : State) (n : Nat) : List Nat :=
  let cl := n / 13
  let k := n % 13
  if 624 ≤ n then []
  else if k < 8 then ((s.groups.filter fun g => g.core == 8 * cl + k && !g.ended && !g.away).map (·.team)).eraseDups
  else
    let tiles := s.strands.filter fun x => x.tile && x.core == cl && x.state != .exited &&
      (k = 8 || (s.cluster cl).pbands.any fun p => p.n == k - 9 && p.owner == x.id)
    ((tiles.filterMap fun x => s.group? x.group).map (·.team)).eraseDups

/-- THERMAL_THROTTLE: a reading at or over TH throttles a normal island after its dwell. Readings and TH are in tenths of a degree. -/
def State.thermalThrottle (s : State) (n : Nat) (reading : Int) : State :=
  let h := s.heat n
  match h.th with
  | some th => if h.state == .normal && th ≤ reading && s.dwelt h && n < 704 then s.setHeat { h with state := .throttled, since := s.now } else s
  | none => s

/-- THERMAL_THROTTLE (R471). -/
def execThermalThrottle (island : Nat) (reading : Int) (s : State) : Host.Outcome State Fault Refusal := .next (s.thermalThrottle island reading)

/-- THERMAL_RELEASE: at TH - 3 or below an island returns to normal; from critical its operating point and RT wait for R341. -/
def State.thermalRelease (s : State) (n : Nat) (reading : Int) : State :=
  let h := s.heat n
  match h.th with
  | some th =>
    if reading ≤ th - 30 && s.dwelt h then
      match h.state with
      | .throttled => s.setHeat { h with state := .normal, since := s.now }
      | .critical => s.setHeat { h with state := .normal, since := s.now, want := 0, restoring := true }
      | .normal => s
    else s
  | none => s

/-- THERMAL_RELEASE (R471). -/
def execThermalRelease (island : Nat) (reading : Int) (s : State) : Host.Outcome State Fault Refusal := .next (s.thermalRelease island reading)

/-- The lower operating point that a critical island requests: below the present one (R471, DESIGN CHOICE, log 17). -/
def State.lowerPoint (s : State) (n : Nat) : Nat :=
  let p := s.pointOf n
  if p ≤ 1 then p else 1 + Config.lowPoint n % (p - 1)

/-- THERMAL_CRITICAL: at TH + 5 or above a throttled island requests a lower operating point, a change that cannot wait: the teams it feeds
are pre-empted (R341, R471). -/
def State.thermalCritical (s : State) (n : Nat) (reading : Int) : State :=
  let h := s.heat n
  match h.th with
  | some th =>
    if h.state == .throttled && th + 50 ≤ reading && s.dwelt h then
      let s' := s.setHeat { h with state := .critical, since := s.now, want := s.lowerPoint n }
      (s'.teamsOn n).foldl State.preempt s'
    else s
  | none => s

/-- THERMAL_CRITICAL (R471). -/
def execThermalCritical (island : Nat) (reading : Int) (s : State) : Host.Outcome State Fault Refusal := .next (s.thermalCritical island reading)

/-- THERMAL_THRESHOLD_SET: the physical function sets an island's TH, here in tenths of a degree. -/
def execThermalThresholdSet (func island : Nat) (th : Int) (s : State) : Host.Outcome State Fault Refusal :=
  .next (if func = 0 && s.hostServed && island < 704 then s.setHeat { s.heat island with th := some th } else s)

/-! ### Fabric counters (R472) -/

/-- The owner tag of a fabric counter. -/
def State.fabricOwner (s : State) (n : Nat) : Nat := match s.dev.fabric.find? fun f => f.n == n with | some f => f.owner | none => 65535

/-- FABRIC_COUNTER_OWNER_SET: the physical function sets a counter's owner, a context or 0xFFFF for device-internal work. -/
def execFabricCounterOwnerSet (func counter owner : Nat) (s : State) : Host.Outcome State Fault Refusal :=
  .next (if func = 0 && s.hostServed && owner < 65536 then
      { s with dev := { s.dev with fabric := { n := counter, owner := owner } :: s.dev.fabric.filter fun f => f.n != counter } }
    else s)

/-- The function that reads a fabric counter: that of the owning context; the physical function for device-internal work. -/
def State.fabricReader (s : State) (n : Nat) : Nat := match s.ctx? (s.fabricOwner n) with | some c => c.func | none => 0

/-- FABRIC_COUNTER_READ: the counter's value, which the spec leaves open (DESIGN CHOICE, log 15), for its reader; 0 for any other function. -/
def State.fabricRead (s : State) (func n : Nat) : State :=
  if !s.hostServed then s
  else if func = s.fabricReader n then
    ({ s with freeCtr := s.freeCtr + 1 }).reply (.data (bytesLE 8 (Config.fabricCount s.freeCtr).toNat))
  else s.reply (.data (bytesLE 8 0))

/-- FABRIC_COUNTER_READ (R472). -/
def execFabricCounterRead (func counter : Nat) (s : State) : Host.Outcome State Fault Refusal := .next (s.fabricRead func counter)

/-! ### Page-table reads (R200, R436) -/

/-- A page-table entry as a number (R200). -/
def Pte.bits (p : Pte) : Nat := p.state % 4 + 4 * (if p.host then 1 else 0) + 16 * (p.leases % 65536) + 2 ^ 24 * (p.frame % 2 ^ 36)

/-- The entry of a page as the host reads it: of a confidential context's page only STATE (R436). -/
def State.pteRead (s : State) (page : Nat) : Nat :=
  match s.pte? page with
  | some p => if s.confPage page then p.state % 4 else p.bits
  | none => 0

/-- PAGE_TABLE_READ: home 4 has no entries. -/
def execPageTableRead (_func ia : Nat) (s : State) : Host.Outcome State Fault Refusal :=
  .next (if !s.hostServed then s
    else if homeOf ia < 4 then s.reply (.data (bytesLE 8 (s.pteRead (pageOf ia))))
    else s.reply .refused)

/-! ### Lull trials (R481) -/

/-- PROG points of a cluster for a function; all of them for the physical function. -/
def progCount (progs : List (Nat × Nat)) (func : Nat) : Nat :=
  (progs.filter fun p => func = 0 || p.1 = func).foldl (fun (acc : Nat) p => acc + p.2) 0

/-- Counts of the clusters of a trial as a step begins. -/
def State.lullBase (s : State) (clusters : List Nat) : List (Nat × Nat × List (Nat × Nat)) :=
  clusters.map fun c => (c, (s.cluster c).cycles, (s.cluster c).progs)

/-- LULL_TRIAL: the physical function starts a trial over clusters, fractions and a step length, when none is under way (log 80). -/
def State.lullTrial (s : State) (func : Nat) (clusters fractions : List Nat) (ms : Nat) : State :=
  if func = 0 && s.hostServed && s.dev.lull.isNone && (clusters.all fun c => c < 48) && 1 ≤ fractions.length && fractions.length ≤ 8 &&
      (fractions.all fun f => 1 ≤ f && f ≤ 64) && 1 ≤ ms && ms ≤ 100 then
    { s with dev := { s.dev with lull := some { func := func, clusters := clusters, fractions := fractions, ms := ms, step := 0, since := s.now
                                                base := s.lullBase clusters } } }
  else s

/-- LULL_TRIAL (R481). -/
def execLullTrial (func : Nat) (clusters fractions : List Nat) (ms : Nat) (s : State) : Host.Outcome State Fault Refusal :=
  .next (s.lullTrial func clusters fractions ms)

/-- LULL_STEP_EXPIRY: a step ends, and the next fraction begins; after the last, RT is as without the trial and the hub writes a record of each
step. -/
def State.lullStep (s : State) : State :=
  match s.dev.lull with
  | none => s
  | some t =>
    if s.now < t.since + 1000000 * t.ms then s
    else
      let rows := t.base.map fun b =>
        let c := s.cluster b.1
        (b.1, c.cycles - b.2.1, progCount c.progs t.func - progCount b.2.2 t.func)
      let steps := t.steps ++ [(t.fractions.getD t.step 0, rows)]
      if t.step + 1 < t.fractions.length then
        { s with dev := { s.dev with lull := some { t with step := t.step + 1, since := s.now, base := s.lullBase t.clusters, steps := steps } } }
      else
        { s with dev := { s.dev with lull := none, replies := s.dev.replies ++ steps.map fun r => .lull r.1 r.2 } }

/-- LULL_STEP_EXPIRY (R481). -/
def execLullStepExpiry (s : State) : Host.Outcome State Fault Refusal := .next s.lullStep

/-! ### The host aperture and peer ports (R195, R267, R268, R487, R491) -/

/-- The pages of a range touched, and whether all of them are ready (R202, R203, R462). -/
def State.readyBytes (s : State) (c : Ctx) (w : Window) (ia n : Nat) : State × Bool :=
  match s.touchRange c.conf w.prefhost ia n with
  | (s, true, _) => (s, true)
  | (s, false, lack) => (s.noteLack c.id w.prefhost lack, false)

/-- Bytes of home 4 written by the host in its own memory: what slices and L1s hold of them stays, and only a continuation that read host memory
itself loses them (R267, R284). -/
def State.hostPut (s : State) (ia : Nat) (bytes : List Byte) : State :=
  let s := ({ s with mem := s.mem.fill ia bytes }).clearTags ia bytes.length
  s.lose .home (fun x => Sector.meets ia bytes.length x && !(s.h4.any fun l => Sector.inLine l.line x)) 0

/-- Bytes written by the host: at their home slice for homes 0 to 3, where registered L1 copies go (R244), and in its own memory for home 4 (R267). -/
def State.hostWrite (s : State) (ia : Nat) (bytes : List Byte) : State :=
  if homeOf ia < 4 then s.homeWrite 1000 0 true ia bytes else s.hostPut ia bytes

/-- The host writes its own memory, which takes no link (R267). -/
def State.hostStore (s : State) (ia : Nat) (bytes : List Byte) : State :=
  if homeOf ia = 4 && homeOf (ia + bytes.length) = 4 then s.hostPut ia bytes else s

/-- Bytes as the host reads them, and whether a sector is poisoned (R267, R457). -/
def State.hostRead (s : State) (ia n : Nat) : Reply :=
  if homeOf ia < 4 then
    (if (List.range ((ia + n - 1) / 32 - ia / 32 + 1)).any fun i => s.homePoison (32 * (ia / 32 + i)) then .poisoned
     else .data ((List.range n).map fun i => s.homeByte true (ia + i)))
  else .data (s.mem.getList ia n)

/-! ### Transfers that arrive over a link (R484, R488, R489, R491) -/

/-- A transfer can be served over its link now. Number 2 stands for whichever host link serves, and a held transfer whose host link has failed goes over
the other one (R484, R489). -/
def State.linkTakes (s : State) (n : Nat) (held : Bool) : Bool :=
  let on := fun (n : Nat) => (s.dev.link? n).any Link.serves
  if n = 2 then on 0 || on 1
  else on n || (n < 2 && held && !(s.dev.link? n).any Link.carries && on (1 - n))

/-- A transfer that arrives is held at its sender: its link retrains, or a peer port trains (R484). -/
def State.linkHolds (s : State) (n : Nat) : Bool :=
  if n = 2 then s.hostHeld else (s.dev.link? n).any fun l => l.state == .training && (l.retraining || 10 ≤ n)

/-- An earlier transfer of the same requester over the same link is held: later ones keep their order behind it (R484, R488). -/
def State.heldBefore (s : State) (t : Transfer) : Bool := s.dev.held.any fun x => x.link == t.link && x.func == t.func

/-- A transfer held behind those that are. -/
def State.hold (s : State) (t : Transfer) : State := { s with dev := { s.dev with held := s.dev.held ++ [t] } }

/-- A transfer that nothing can serve ends: a peer's with an error status (R491). -/
def State.refuseTransfer (s : State) (t : Transfer) : State := if 10 ≤ t.link then s.reply (.dmaError (t.link - 10)) else s

/-- A function is there for the host: the physical one, and the virtual ones that are enabled (R487). -/
def State.funcOn (s : State) (func : Nat) : Bool := func ≤ s.dev.vfs

/-- A transfer arrives: it is served, or held while it must wait. `serve` does what it asks for and says whether it could. -/
def State.arrive (s : State) (t : Transfer) (serve : State → State × Bool) : State :=
  if !s.funcOn t.func then s
  else if s.heldBefore t then s.hold t
  else if s.linkTakes t.link false then
    match serve s with
    | (s, true) => s
    | (s, false) => s.hold t
  else if s.linkHolds t.link then s.hold t
  else s.refuseTransfer t

/-- A held transfer tried again; the second result says that it is done. -/
def State.retryHeld (s : State) (t : Transfer) (serve : State → State × Bool) : State × Bool :=
  if s.linkTakes t.link true then serve s
  else if 10 ≤ t.link && !s.linkHolds t.link then (s.refuseTransfer t, true)
  else (s, false)

/-- The held transfers tried again in their order; one stays while an earlier one of its requester on its link does. -/
def State.drainHeld (s : State) (serve : Transfer → State → State × Bool) : State :=
  let r := s.dev.held.foldl (fun (acc : State × List Transfer) t =>
    if acc.2.any fun x => x.link == t.link && x.func == t.func then (acc.1, acc.2 ++ [t])
    else match acc.1.retryHeld t (serve t) with
      | (s, true) => (s, acc.2)
      | (s, false) => (s, acc.2 ++ [t])) (s, [])
  { r.1 with dev := { r.1.dev with held := r.2 } }

/-- An access of the host aperture or of a peer served: performed at the home slice, or in host memory (R267); it waits for its pages (R202, R203). A
device that does not run serves none. -/
def State.serveAccess (s : State) (t : Transfer) (write : Bool) (ia n : Nat) (bytes : List Byte) : State × Bool :=
  let peer := 10 ≤ t.link
  if s.dev.state != .running then (s, true)
  else match s.visible (fun c => peer || c.func == t.func) ia n with
    | none => (if peer then s.reply (.dmaError (t.link - 10)) else if write then s else s.reply .refused, true)
    | some (c, w) => match s.readyBytes c w ia n with
      | (s, true) => (if write then s.hostWrite ia bytes else s.reply (s.hostRead ia n), true)
      | (s, false) => (s, false)

/-- HOST_APERTURE_WRITE: performed at the home slice, in the order of delivery of its requester's writes over the link (R268, R488). -/
def State.apertureWrite (s : State) (func link ia : Nat) (bytes : List Byte) : State :=
  if 2 ≤ link then s
  else
    let t : Transfer := { link := link, func := func, op := .write ia bytes }
    s.arrive t fun s => s.serveAccess t true ia bytes.length bytes

/-- HOST_APERTURE_WRITE (R268). -/
def execHostApertureWrite (func link ia : Nat) (bytes : List Byte) (s : State) : Host.Outcome State Fault Refusal :=
  .next (s.apertureWrite func link ia bytes)

/-- HOST_APERTURE_READ: served at the home slice (R267), behind the writes that its requester has posted over the link (R488). -/
def State.apertureRead (s : State) (func link ia n : Nat) : State :=
  if 2 ≤ link then s
  else
    let t : Transfer := { link := link, func := func, op := .read ia n }
    s.arrive t fun s => s.serveAccess t false ia n []

/-- HOST_APERTURE_READ (R267). -/
def execHostApertureRead (func link ia n : Nat) (s : State) : Host.Outcome State Fault Refusal := .next (s.apertureRead func link ia n)

/-- PEER_DMA_TRANSFER: a port that is down or failed refuses it with an error status; one in training holds it; else it is served as a host
access is (R484, R491). -/
def State.peerDma (s : State) (port : Nat) (write : Bool) (ia n : Nat) (bytes : List Byte) : State :=
  if 16 ≤ port then s
  else
    let t : Transfer := { link := 10 + port, func := 0, op := if write then .write ia bytes else .read ia n }
    s.arrive t fun s => s.serveAccess t write ia (if write then bytes.length else n) bytes

/-- PEER_DMA_TRANSFER (R491). -/
def execPeerDmaTransfer (port : Nat) (write : Bool) (ia n : Nat) (bytes : List Byte) (s : State) : Host.Outcome State Fault Refusal :=
  .next (s.peerDma port write ia n bytes)

end Sys2Proof.Machine
end

