-- ==== Sys2Proof/Machine/Loader.lean ====
section
/-!
DEFINITION. The loader thxld: the header and the side table (R298-R303), the checks of R307, placement in the ranges the caller gives (R296),
relocation (R308), and the kernel's life (R306).
-/

namespace Sys2Proof.Machine

/-! ### Headers (R298-R301, R303) -/

/-- A ring entry (R300). -/
def RingDecl.ofBits (x : Nat) : RingDecl := { off := bitsOf x 31 16, lsz := bitsOf x 12 8, cnt := bitsOf x 6 0 }

/-- The header of an image (R298). -/
def Header.ofImage (b : List Byte) : Header :=
  let n := entryNum b
  { flags := n 0x06 2, strands := n 0x08 1, feed := n 0x09 1, team := n 0x0A 1, floorF := n 0x0C 1, ceilF := n 0x0D 1, floorW := n 0x0E 1
    ceilW := n 0x0F 1, scratch := n 0x10 4, stack := n 0x14 4, entry := n 0x18 4, tileEntry := n 0x1C 4, trapEntry := n 0x20 4
    mapEntry := n 0x24 4, codeSize := n 0x28 4, sideOff := n 0x2C 4, sideCount := n 0x30 4, vcl := n 0x34 1, vspan := n 0x35 1
    features := BitVec.ofNat 64 (n 0x38 8)
    rings := (List.range 16).map fun q => RingDecl.ofBits (n (0x40 + 4 * q) 4)
    leases := (List.range (n 0x80 1)).map fun i => (n (0xA0 + 16 * i) 8, n (0xA8 + 16 * i) 8) }

/-- The side table of an image (R303). -/
def sideTable (b : List Byte) : List SideEntry :=
  (List.range (entryNum b 0x30 4)).map fun i =>
    let at' := entryNum b 0x2C 4 + 16 * i
    { off := entryNum b at' 4, blive := BitVec.ofNat 16 (entryNum b (at' + 4) 2), klive := BitVec.ofNat 8 (entryNum b (at' + 6) 1)
      jlive := BitVec.ofNat 8 (entryNum b (at' + 7) 1), vlive := BitVec.ofNat 64 (entryNum b (at' + 8) 8) }

/-! ### The checks of R307 -/

/-- A slab floor or ceiling of a role: 0 without strands, else from the least value to 64 (R298). -/
def roleOk (strands least x : Nat) : Bool := if strands = 0 then x = 0 else least ≤ x && x ≤ 64

/-- An entry offset (R298); `none'` allows 0xFFFFFFFF. -/
def offsetOk (h : Header) (none' : Bool) (x : Nat) : Bool :=
  (none' && x == 0xFFFFFFFF) ||
    (x != 0xFFFFFFFF && x % 64 = 0 && 0x100 ≤ x && x < (if h.sideCount = 0 then h.codeSize else h.sideOff))

/-- The header fields with their limits, in the order of R298 (check 2). Reserved bytes and FLAGS [15:3] are held to 0 (DESIGN CHOICE, log 115). -/
def fieldChecks (b : List Byte) (h : Header) : List (Nat × Bool) :=
  [ (0x06, h.flags < 8), (0x08, 1 ≤ h.strands && h.strands ≤ 32), (0x09, h.feed ≤ h.strands), (0x0A, 1 ≤ h.team && h.team ≤ 8)
  , (0x0B, entryZero b 0x0B 1), (0x0C, roleOk h.feed 4 h.floorF), (0x0D, roleOk h.feed h.floorF h.ceilF)
  , (0x0E, roleOk (h.strands - h.feed) 4 h.floorW), (0x0F, roleOk (h.strands - h.feed) h.floorW h.ceilW)
  , (0x10, h.scratch ≤ 393216 && h.scratch % 128 = 0), (0x14, h.stack % 64 = 0 && h.stack ≤ 1048576)
  , (0x18, offsetOk h false h.entry), (0x1C, offsetOk h true h.tileEntry), (0x20, offsetOk h true h.trapEntry)
  , (0x24, offsetOk h true h.mapEntry), (0x28, h.codeSize % 64 = 0 && h.codeSize ≤ 0xFFFFFFC0 && h.codeSize = b.length && 0x100 ≤ h.codeSize)
  , (0x2C, h.sideCount != 0 || h.sideOff = 0), (0x34, h.vcl ≤ 48)
  , (0x35, if h.vcl = 0 then h.vspan = 0 else 1 ≤ h.vspan && h.vspan ≤ 12 && h.vcl % h.vspan = 0), (0x36, entryZero b 0x36 2)
  , (0x38, h.features.toNat < 16), (0x80, entryNum b 0x80 1 ≤ 6), (0x81, entryZero b 0x81 31) ]

/-- A ring entry within its limits (R300, check 3). -/
def ringOk (scratch x : Nat) : Bool :=
  let r := RingDecl.ofBits x
  bitsOf x 15 13 = 0 && bitsOf x 7 7 = 0 &&
    (if r.cnt = 0 then r.off = 0 && r.lsz = 0
     else 7 ≤ r.lsz && r.lsz ≤ 16 && r.cnt ≤ 64 && 128 * r.off % 2 ^ r.lsz = 0 && 128 * r.off + r.cnt * 2 ^ r.lsz ≤ scratch)

/-- A lease descriptor within its limits (R301, check 4). -/
def leaseOk (b : List Byte) (i : Nat) : Bool :=
  if i < entryNum b 0x80 1 then 1 ≤ entryNum b (0xA8 + 16 * i) 8 && entryNum b (0xA8 + 16 * i) 8 ≤ 2 ^ 40 else entryZero b (0xA0 + 16 * i) 16

/-- Areas of declared rings, each a start and a length. -/
def Header.ringAreas (h : Header) : List (Nat × Nat) := (h.rings.filter fun r => r.cnt != 0).map fun r => (128 * r.off, r.cnt * 2 ^ r.lsz)

/-- No two areas of a list meet. -/
def apart : List (Nat × Nat) → Bool
  | [] => true
  | a :: as => !(as.any (areasMeet a)) && apart as

/-- Entries in strictly ascending OFF order, each with bit 0 of KLIVE 0 (R303). -/
def sideOrdered (es : List SideEntry) : Bool :=
  (es.all fun e => !e.klive.getLsbD 0) && ((es.zip (es.drop 1)).all fun p => p.1.off < p.2.off)

/-- The first check that holds false, in the order of R307. -/
def firstFailed (cs : List (LoadCheck × Bool)) : Option LoadCheck := (cs.find? fun c => !c.2).map Prod.fst

/-- The checks of one kernel image, in the order of R307; `stack` is the value that the caller asks for (R302). -/
def State.loadChecks (s : State) (b : List Byte) (stack : Option Nat) : List (LoadCheck × Bool) :=
  let h := Header.ofImage b
  [(LoadCheck.ident, entryNum b 0 4 == 0x314B4847), (LoadCheck.hver, entryNum b 4 2 == 1)] ++
    ((fieldChecks b h).map fun f => (LoadCheck.field f.1, f.2)) ++
    ((List.range 16).map fun q => (LoadCheck.ring q, ringOk h.scratch (entryNum b (0x40 + 4 * q) 4))) ++
    ((List.range 6).map fun i => (LoadCheck.lease i, leaseOk b i)) ++
    [ (LoadCheck.stack, match stack with | some n => n % 64 = 0 && n ≤ 1048576 | none => true)
    , (LoadCheck.sideOffset, h.sideCount == 0 || (h.sideOff % 64 = 0 && 0x100 ≤ h.sideOff))
    , (LoadCheck.sideBounds, h.sideOff + 16 * h.sideCount ≤ h.codeSize)
    , (LoadCheck.sideOrder, sideOrdered (sideTable b))
    , (LoadCheck.ringOverlap, apart h.ringAreas)
    , (LoadCheck.slabSum, h.floors ≤ 2048)
    , (LoadCheck.scratch, h.scratch ≤ 393216)
    , (LoadCheck.mapCores, (List.range 48).any (s.clusterFits h))
    , (LoadCheck.mapMcc, !h.hasTile || (List.range 48).any (s.eligible h))
    , (LoadCheck.mapTable, (s.buildTable h).isSome) ]

/-- The first kernel of an object that is refused, and the check it fails. -/
def State.objectRefused (s : State) (obj : CodeObject) : Option (Nat × LoadCheck) :=
  obj.kernels.zipIdx.findSome? fun p => (firstFailed (s.loadChecks p.1 obj.stack)).map fun c => (p.2, c)

/-! ### Placement and relocation (R296, R299, R302, R308) -/

/-- Areas for sizes in order, each at the lowest free aligned address of a range (R296). -/
def placeAll (range : Nat × Nat) (align : Nat) : List (Nat × Nat) → List Nat → Option (List Nat)
  | _, [] => some []
  | used, n :: ns =>
    match firstFit range align (max n 1) used with
    | none => none
    | some a => (placeAll range align ((a, max n 1) :: used) ns).map fun as => a :: as

/-- The ranges that earlier loads of a context hold: images, and data blocks. -/
def State.loadedAreas (s : State) (c : Ctx) : List (Nat × Nat) :=
  c.blocks ++ (s.kernels.filter fun k => k.ctx == c.id).flatMap fun k => (k.base, k.hdr.codeSize) :: k.datas

/-- Bytes replaced in a sequence. -/
def patch (b : List Byte) (off : Nat) (bs : List Byte) : List Byte := b.take off ++ bs ++ b.drop (off + bs.length)

/-- What the loader writes into a header: SPILLTRAP and DEBUG (R299), and STACK (R302). -/
def stamp (obj : CodeObject) (b : List Byte) : List Byte :=
  let f := entryNum b 0x06 2
  let f' := f / 4 * 4 + (if obj.debug then 1 else 0) + (if obj.spillTrap then 2 else 0)
  let b := patch b 0x06 (bytesLE 2 f')
  match obj.stack with
  | some n => patch b 0x14 (bytesLE 4 n)
  | none => b

/-- The symbols that the objects loaded for a context export, with their addresses (R24). -/
def State.exported (s : State) (c : Ctx) : List (List Byte × Nat) :=
  c.exports ++ (s.kernels.filter fun k => k.ctx == c.id).flatMap (·.exports)

/-- The virtual address of a symbol: in the object itself, or where another object that exports it has it (R24, R308). -/
def symbolAddr (known : List (List Byte × Nat)) (bases dataBases : List Nat) : Symbol → Option Nat
  | .own inKernel object offset => ((if inKernel then bases else dataBases)[object]?).map fun a => a + offset
  | .foreign name => (known.find? fun x => x.1 == name).map Prod.snd

/-- The site of a relocation record (R308). -/
def relocSite (r : Reloc) : Nat := entryNum r.bytes 0 8
/-- The index of its symbol. -/
def relocSymbol (r : Reloc) : Nat := entryNum r.bytes 8 4
/-- Its kind. -/
def relocKind (r : Reloc) : Nat := entryNum r.bytes 12 4
/-- Its addend. -/
def relocAddend (r : Reloc) : Int := (BitVec.ofNat 64 (entryNum r.bytes 16 8)).toInt

/-- A relocated value: the symbol's address plus the addend, mod 2^64; none where the record names no symbol that has an address. -/
def relocValue (obj : CodeObject) (known : List (List Byte × Nat)) (bases dataBases : List Nat) (r : Reloc) : Option Nat :=
  ((obj.symbols[relocSymbol r]?).bind (symbolAddr known bases dataBases)).map fun a => (((a : Nat) : Int) + relocAddend r).emod (2 ^ 64) |>.toNat

/-- A relocation record names a site of 64 bits and kind 1 (R308). -/
def relocOk (obj : CodeObject) (r : Reloc) : Bool :=
  r.bytes.length == 24 && relocKind r == 1 && relocSite r + 8 ≤ (((if r.inKernel then obj.kernels else obj.datas).getD r.object []).length)

/-- One list of images or data blocks with a relocation applied (R308). -/
def relocate (inKernel : Bool) (bs : List (List Byte)) (r : Reloc) (v : Nat) : List (List Byte) :=
  if r.inKernel == inKernel then bs.set r.object (patch (bs.getD r.object []) (relocSite r) (bytesLE 8 v)) else bs

/-- Every page of a range lies in a window of the context; with X where the range holds code (R296). -/
def rangeMapped (c : Ctx) (code : Bool) (va n : Nat) : Bool :=
  (List.range ((va + n - 1) / 65536 - va / 65536 + 1)).all fun i =>
    match c.translate (65536 * (va / 65536 + i)) with
    | some (_, w, _) => w.x || !code
    | none => false

/-- Bytes that the loader writes at a virtual address, page by page; false where a page waits for a frame. -/
def State.loadBytes (s : State) (c : Ctx) (va : Nat) (bs : List Byte) : State × Bool :=
  let last := va + bs.length
  (List.range (if bs.isEmpty then 0 else (last - 1) / 65536 - va / 65536 + 1)).foldl (fun (acc : State × Bool) i =>
    let lo := max va (65536 * (va / 65536 + i))
    let hi := min last (65536 * (va / 65536 + i + 1))
    match c.translate lo with
    | some (_, w, ia) =>
      let s := acc.1.touch (pageOf ia) c.conf w.prefhost
      if s.pageReady (pageOf ia) then (s.homeWrite 1000 0 true ia ((bs.drop (lo - va)).take (hi - lo)), acc.2) else (s, false)
    | none => (acc.1, false)) (s, true)

/-- KERNEL_LOAD: the checks, placement, the patches of header and relocations, and the kernels with their tables and exports (R24, R306). Where a page waits for
a frame (R202), no kernel is created yet, and the load is asked for again. -/
def State.kernelLoad (s : State) (ctx : Nat) (obj : CodeObject) : State :=
  match s.ctx? ctx with
  | none => s
  | some c =>
    if s.dev.state != .running then s
    else match s.objectRefused obj with
      | some r => s.reply (.loadRefused r.1 r.2)
      | none =>
        match placeAll obj.codeRange 4096 (s.loadedAreas c) (obj.kernels.map List.length) with
        | none => s.reply (.loadRefused 0 .codeRange)
        | some bases =>
          let images := bases.zip (obj.kernels.map List.length)
          match placeAll obj.dataRange 64 (images ++ s.loadedAreas c) (obj.datas.map List.length) with
          | none => s.reply (.loadRefused 0 .dataRange)
          | some dataBases =>
            let blocks := dataBases.zip (obj.datas.map List.length)
            if !(images.all fun a => rangeMapped c true a.1 a.2) then s.reply (.loadRefused 0 .codeRange)
            else if !(blocks.all fun a => a.2 = 0 || rangeMapped c false a.1 a.2) then s.reply (.loadRefused 0 .dataRange)
            else
              let value := relocValue obj (s.exported c) bases dataBases
              match obj.relocs.zipIdx.find? fun p => !relocOk obj p.1 || (value p.1).isNone with
              | some b => s.reply (.loadRefused 0 (.relocation b.2))
              | none =>
                let value := fun (r : Reloc) => (value r).getD 0
                let exports := obj.exports.filterMap fun x =>
                  ((obj.symbols[x.2]?).bind (symbolAddr [] bases dataBases)).map fun a => (x.1, a)
                let kernels := obj.relocs.foldl (fun bs r => relocate true bs r (value r)) (obj.kernels.map (stamp obj))
                let datas := obj.relocs.foldl (fun bs r => relocate false bs r (value r)) obj.datas
                let r := ((bases.zip kernels) ++ (dataBases.zip datas)).foldl (fun (acc : State × Bool) a =>
                  let x := acc.1.loadBytes c a.1 a.2
                  (x.1, acc.2 && x.2)) (s, true)
                if !r.2 then r.1
                else
                  let new := (bases.zip kernels).map fun a =>
                    ({ ctx := ctx, base := a.1, hdr := Header.ofImage a.2, side := sideTable a.2, table := s.buildTable (Header.ofImage a.2)
                       datas := blocks, exports := exports } : Kernel)
                  let s := { r.1 with kernels := r.1.kernels ++ new }
                  let s := if new.isEmpty then s.setCtx { c with blocks := c.blocks ++ blocks, exports := c.exports ++ exports } else s
                  s.reply (.loaded bases)

/-- KERNEL_LOAD (R307). -/
def execKernelLoad (ctx : Nat) (obj : CodeObject) (s : State) : Host.Outcome State Fault Refusal := .next (s.kernelLoad ctx obj)

/-- KERNEL_UNLOAD: a kernel that no launch uses is retired; one in use takes no later launch and goes when its last launch ends (R306). -/
def execKernelUnload (ctx base : Nat) (s : State) : Host.Outcome State Fault Refusal :=
  .next (match s.kernel? ctx base with
    | some k => (s.setKernel { k with unloading := true }).dropKernel ctx base
    | none => s)

end Sys2Proof.Machine
end

