-- ==== Sys2Proof/Machine/Issue.lean ====
section
/-!
DEFINITION. What stands before an instruction's own effect: the MAP trap (R450), listed points while a team is pre-empted (R334, R457), and the
fetch (R50, R56); the events MAP_TRAP_DELIVERY and CONTAINMENT_UNWIND; and the model's default order, which serves when no agenda is given.
-/

namespace Sys2Proof.Machine

/-! ### The MAP trap (R450) -/

/-- The strand stands at one of the blocks that keep what they have done, so that its instruction has issued already; a sleeper does until its SLEEP
completes (R344). -/
def Strand.midway (st : Strand) : Bool :=
  st.held.isSome || st.sleepFrom.isSome || st.restored || match st.state with
    | .blocked (.bar _) | .blocked .sleep | .blocked .charge => true
    | _ => false

/-- A MAP trap is due before the strand's next instruction. -/
def State.mapTrapDue (s : State) (st : Strand) (e : Env) (g : Group) : Bool :=
  match s.ctx? e.ctx with
  | none => false
  | some c =>
    c.ack < s.version && g.mapSeen < s.version && e.hdr.mapEntry != 0xFFFFFFFF && st.handler.isNone && st.cont.isNone && !st.tile &&
      g.state == .running && st.mayIssue && !st.midway

/-- MAP_TRAP_DELIVERY. -/
def State.mapTrap (s : State) (id : Nat) : State :=
  match s.strand? id with
  | none => s
  | some st => match s.env? st, s.group? st.group with
    | some e, some g => if s.mapTrapDue st e g then s.deliverMap { st with state := .ready } g else s
    | _, _ => s

/-- MAP_TRAP_DELIVERY (R450). -/
def execMapTrapDelivery (strand : Nat) (s : State) : Host.Outcome State Fault Refusal := .next (s.mapTrap strand)

/-- CONTAINMENT_UNWIND: a strand that stands at POISON or SHADOW inside a region, its earlier producers complete, unwinds (R461). -/
def execContainmentUnwind (strand : Nat) (s : State) : Host.Outcome State Fault Refusal :=
  .next (match s.strand? strand with
    | none => s
    | some st => match st.state with
      | .trapped t =>
        if (t.cause = 0x20 || t.cause = 0x21) && st.handler.isNone && (st.rets.any RetEntry.isRegion) && !(s.prods.any fun p => p.strand == strand)
        then s.deliver strand else s
      | _ => s)

/-! ### Issue (R154, R334, R457) -/

/-- The team of a strand is being pre-empted. -/
def State.runsOut (s : State) (st : Strand) : Bool :=
  match (s.group? st.group).bind fun g => s.team? g.team with
  | some t => t.state == .preempting
  | none => false

/-- The strand as it issues: its place in the order of R323, its count of R334, and the detector's view of a listed point (R311). -/
def State.issuing (s : State) (st : Strand) (e : Env) (out : Bool) : State :=
  let dead := match if e.debug then s.sideOf st else none with | some x => x.deadSet | none => st.dead
  let st' := { st with lastIssue := s.freshId, runOn := if out && st.state == .ready then st.runOn + 1 else st.runOn, dead := dead }
  { (s.setStrand st') with cur := st.id, freshId := s.freshId + 1 }

/-- The instruction that a strand issues next; none when the move is no issue of an instruction: the strand may not issue, stands at its listed
point or has passed the bound of R334 while its team is pre-empted, takes a MAP trap, a POISON trap of R457 or a trap of its fetch, or waits for a
page. -/
def State.nextInstr (s : State) (id : Nat) : State × Option Instr :=
  match s.strand? id with
  | none => (s, none)
  | some st =>
    match s.env? st, s.group? st.group with
    | some e, some g =>
      if !st.mayIssue then (s, none)
      else
        let out := s.runsOut st
        if out && st.cont.isNone && st.overran then (s, none)
        else if out && st.cont.isNone && s.atPoint st e then
          match s.pointPoison st with
          | some n => (s.raise st { cause := 0x20, addr := st.pc, lanes := st.path, detail := BitVec.ofNat 32 (n + 0x100) }, none)
          | none => (s, none)
        else if s.mapTrapDue st e g then (s.deliverMap { st with state := .ready } g, none)
        else
          let s := s.issuing st e out
          match s.fetch st e with
          | (s, .trap t) => ((s.strand? id).elim s fun st => s.raise st t, none)
          | (s, .wait b) => ((s.strand? id).elim s fun st => s.setStrand { st with state := .blocked b }, none)
          | (s, .words ws) => (s, some ((decode ws).getD (.nonInstruction (ws.headD 0))))
    | _, _ => (s, none)

/-! ### The default order -/

/-- The events of the machine that need no choice from outside, in the order in which the default takes them. -/
def State.attempts (s : State) : List (State → State) :=
  (s.flight.map fun a => fun (t : State) => t.performIf a.id fun _ => true) ++
  (s.prods.map fun p => fun (t : State) => t.completeProducer p.id Producer.shaped) ++
  (s.strands.map fun x => fun (t : State) => if t.prods.any fun p => p.strand == x.id then t else t.deliver x.id) ++
  (s.strands.map fun x => fun (t : State) => t.strandExit x.id) ++
  (s.strands.map fun x => fun (t : State) => t.resolve x.id) ++
  (s.copies.map fun k => fun (t : State) => t.copyStep k.id) ++
  (s.clusters.flatMap fun c => c.tasks.flatMap fun k => [fun (t : State) => t.taskRetire c.n k.entry, fun (t : State) => t.taskIssue c.n k.entry]) ++
  (s.clusters.map fun c => fun (t : State) => match (t.cluster c.n).nextRequest with
    | some r => if (t.cluster c.n).canGrant r.cost then t.grant c.n r else t
    | none => t) ++
  (s.ctxs.flatMap fun c => c.queues.flatMap fun q =>
    [fun (t : State) => t.launchEntry c.id q.q, fun (t : State) => t.waitEntry c.id q.q, fun (t : State) => t.waitSatisfied c.id q.q, fun (t : State) => t.signalEntry c.id q.q
    , fun (t : State) => t.signalWrite c.id q.q, fun (t : State) => t.windowUpdateEntry c.id q.q, fun (t : State) => t.remapEntry c.id q.q
    , fun (t : State) => t.unplaceEntry c.id q.q, fun (t : State) => t.frameEntry c.id q.q, fun (t : State) => t.queueFetch c.id q.q]) ++
  (s.changes.map fun ch => fun (t : State) => t.mappingDrain ch.id) ++
  [State.mapWriteStep] ++
  [State.leaseAll] ++
  (s.pending.map fun p => fun (t : State) => match t.defaultPlacement p with | some w => t.teamPlace p.launch p.index w | none => t) ++
  (s.groups.map fun g => fun (t : State) => t.groupSave g.id)

/-- The events that time brings. -/
def State.timed (s : State) : List (State → State) :=
  let next := fun (o : Host.Outcome State Fault Refusal) (t : State) => match o with | .next u => u | _ => t
  (s.clusters.map fun c => fun (t : State) => if c.level < 1048576 || c.rate != t.rt c.n then t.chargeRefill c.n else t) ++
  (s.clusters.flatMap fun c => c.pbands.map fun b => fun (t : State) => next (execBandPowerUp c.n b.n t) t) ++
  (s.strands.map fun x => fun (t : State) => next (execSleepWake x.id t) t) ++
  (s.strands.map fun x => fun (t : State) => t.setStrand (t.wakeWait x)) ++
  (s.strands.map fun x => fun (t : State) => next (execPreemptTimeout x.id t) t) ++
  (s.pending.map fun p => fun (t : State) => next (execLevelRise p.launch p.index t) t) ++
  (s.preemptors.flatMap fun p => s.groups.map fun g => fun (t : State) => t.priorityPreempt p.launch p.index g.id) ++
  [State.sliceExpiry, State.lullStep] ++
  (s.ctxs.map fun c => fun (t : State) => next (execGraceExpiry c.id t) t) ++
  (s.dev.links.map fun l => fun (t : State) => next (execLinkTrainTimeout l.n t) t) ++
  (s.dev.heats.map fun h => fun (t : State) => next (execOperatingPointChange h.island t) t)

/-- The first attempt that changes the state. -/
def State.firstOf (s : State) (fs : List (State → State)) : Option State :=
  fs.findSome? fun f => let t := f s; if t = s then none else some t

/-- The issue quadrant of a strand (R324); the tile strands of an MCC are taken as one. -/
def Strand.quadrant (st : Strand) : Nat := 4 * st.agentCore + (if st.tile then 0 else st.slot % 4)

/-- R323's preference within a quadrant: the highest level, strands before continuations, feed before work, the least recently issued. -/
def Strand.issueKey (st : Strand) (e : Env) : Nat × Nat × Nat × Nat :=
  (11 - e.level, if e.feed then 0 else 1, if st.cont.isSome then 1 else 0, st.lastIssue)

/-- One key comes before another. -/
def keyBefore (a b : Nat × Nat × Nat × Nat) : Bool :=
  a.1 < b.1 || (a.1 == b.1 && (a.2.1 < b.2.1 || (a.2.1 == b.2.1 && (a.2.2.1 < b.2.2.1 || (a.2.2.1 == b.2.2.1 && a.2.2.2 < b.2.2.2)))))

/-- When a quadrant last issued. -/
def State.quadrantLast (s : State) (q : Nat) : Nat :=
  (s.strands.filter fun x => x.quadrant == q).foldl (fun (acc : Nat) x => max acc x.lastIssue) 0

/-- Strands in the order in which the default tries them: the quadrants take turns, the one that issued least recently first, and each picks by R323. -/
def State.issueOrder (s : State) : List Nat :=
  let ks := s.strands.filterMap fun st =>
    if st.mayIssue then (s.env? st).map fun e => (s.quadrantLast st.quadrant, st.issueKey e, st.id) else none
  (ks.mergeSort fun a b => a.1 < b.1 || (a.1 == b.1 && !keyBefore b.2.1 a.2.1)).map fun k => k.2.2

/-- A strand's move has led somewhere: it has issued an instruction, and is not blocked as it was. -/
def State.moved (s : State) (id : Nat) (t : State) : Bool :=
  match s.strand? id, t.strand? id with
  | some a, some b => a.pc != b.pc || a.state != b.state || (b.state == .ready && a.lastIssue != b.lastIssue)
  | _, _ => true

end Sys2Proof.Machine
end

