-- ==== Sys2Proof/Machine/Bench.lean ====
section
/-!
DEFINITION. The bench: the least machine in which one strand, or one tile strand, runs one kernel. It stands for bring-up, a context, a loaded
kernel and a placed launch (DESIGN CHOICE, log 19), for State.withFetchWord and for tests. It is no state of State.reset.
-/

namespace Sys2Proof.Machine

/-- Cluster 0 with its MCC and every feature, at full service, version 1. -/
def benchMap : SMap :=
  { version := 1, full := true, aclk := 1050, fclk := 1600, liveCl := 1, liveMcc := 1, liveDie := 0x1F, liveCore := 0xFF
    liveSlice := BitVec.allOnes 64, liveStack := BitVec.allOnes 32, bandLive := 0xF
    mccFeat := [(0, 0xF)], coreFeat := (List.range 8).map fun n => (n, 0xF) }

/-- One window over 16 MiB of home 0 with every permission, of kind rc. -/
def benchWindow : Window :=
  { vbase := 0, vlast := 0xFF, iabase := 0, rd := true, w := true, at' := true, x := true, kind := 1, valid := true }

/-- A running context with that window. -/
def benchCtx : Ctx :=
  { id := 1, func := 0, slot := 0, state := .running, ack := 1, eqBase := 0x8000, ctxSave := 0xA000
    windows := vtab 16 fun n => if n = 0 then benchWindow else {}
    counters := vtab 16 fun _ => 0, select := vtab 16 fun _ => 0, launches := 1 }

/-- The code base of the bench's kernel, and its entry. -/
def benchBase : Nat := 0x1000

/-- A kernel of one work strand and one tile strand that declares every feature. -/
def benchHeader : Header :=
  { flags := 0, strands := 1, feed := 0, team := 1, floorF := 0, ceilF := 0, floorW := 8, ceilW := 64, scratch := 4096, stack := 0
    entry := 0x100, tileEntry := 0x100, trapEntry := 0x200, mapEntry := 0xFFFFFFFF, codeSize := 0x400, sideOff := 0, sideCount := 0
    vcl := 0, vspan := 0, features := 0xF, rings := List.replicate 16 {}, leases := [] }

/-- The strand of the bench, identity 3, on core 0. -/
def benchStrand : Strand := startStrand 3 2 0 0 0 (BitVec.ofNat 64 (benchBase + 0x100)) 0 0 0 (BitVec.allOnes 32) 0x20000 []

/-- The tile strand of the bench, identity 4, on the MCC of cluster 0. -/
def benchTile : Strand := { startStrand 4 2 0 0 0 (BitVec.ofNat 64 (benchBase + 0x100)) 0 0 0 1 0x24000 [] with tile := true }

/-- The bench with bytes at its entry and one move to come: the issue of the strand or of the tile strand. -/
def State.bench (s : State) (tile : Bool) (bytes : List Byte) : State :=
  { s with
    agenda := [.issue (if tile then 4 else 3)], freshId := max s.freshId 16
    dev := { s.dev with state := .running, map := benchMap, mapPage := 0xFF0000, published := [s.now] }
    mem := s.mem.putList (benchBase + 0x100) bytes
    pages := (List.range 5).map fun n => { page := n, frame := n + 1 }
    poison := [], flight := [], prods := [], copies := []
    strands := [benchStrand, benchTile]
    groups := [{ startGroup 2 1 0 0 0 5 4096 0x30000 with mapSeen := 1 }]
    teams := [{ id := 1, launch := 6, index := 0, state := .running, cluster := 0, level := 5, since := s.now, groups := [2], tile := some 4
                tileSave := 0x40000, leases := [(2, [0])], ssas := [0x20000] }]
    launches := [{ id := 6, ctx := 1, q := 0, index := 0, kernel := benchBase, prio := 5, dynScr := 0, gx := 1, gy := 1, gz := 1, args := 0
                   argLen := 0, seed := 0, done := 0, pages := [0], started := [0], since := s.now, seq := 0 }]
    kernels := [{ ctx := 1, base := benchBase, hdr := benchHeader, side := [], table := some [], uses := 1 }]
    ctxs := [benchCtx], cores := [], clusters := [] }

/-- Where the strand that the agenda names next would fetch from plain memory, when it would fetch at once: the IA of its pc. -/
def State.fetchPlace? (s : State) : Option Nat :=
  match s.agenda with
  | .issue id :: _ => do
    let st ← s.strand? id
    let e ← s.env? st
    let g ← s.group? st.group
    let c ← s.ctx? e.ctx
    let (_, w, ia) ← c.translate st.pc.toNat
    if st.mayIssue && g.state == .running && w.x && homeOf ia < 4 && !s.inMapPage ia && s.pageReady (pageOf ia) && !s.mapTrapDue st e g &&
        st.pc.toNat % 64 ≤ 44 then some ia else none
  | _ => none

/-- The major of an instruction's word 0 is the tile group. -/
def tileWord (w : Nat) : Bool := w / 4 % 128 = 0x7C

/-- The state with an instruction's bytes where the next step fetches: at the pc of the strand the agenda names, else on the bench. -/
def State.withCode (s : State) (tile : Bool) (bytes : List Byte) : State :=
  match s.fetchPlace? with
  | some ia => { s with mem := s.mem.putList ia bytes }
  | none => s.bench tile bytes

end Sys2Proof.Machine
end

