-- ==== Sys2Proof/Machine/Bar.lean ====
section
/-!
DEFINITION. What the host reaches directly: BAR 0 of a function, with its status region (R487, R493) and the control blocks of its contexts (R312,
R429, R438), and the steps of rings that host and peer DMA make as class H (R363).
-/

namespace Sys2Proof.Machine

/-! ### The status region (R493) -/

/-- DEVSTATE. -/
def DState.code : DState → Nat
  | .bringup _ => 0
  | .running => 1
  | .halted => 2
  | .failed _ _ => 3

/-- BOOT: the failed stage, and whether a signature check failed. -/
def DState.boot : DState → Nat
  | .failed stage sig => stage + (if sig then 256 else 0)
  | _ => 0

/-- The fault word of a context. -/
def Ctx.faultWord (c : Ctx) : Nat :=
  match c.fault with
  | some cause => if c.state == .faulted then 2 ^ 31 + cause else 0
  | none => 0

/-- The context whose control block or fault word a function has at a number: a CTXID for the physical function, a slot for a virtual one. -/
def State.ctxAt (s : State) (func n : Nat) : Option Ctx :=
  if func = 0 then s.ctx? n else s.ctxs.find? fun c => c.func == func && c.slot == n

/-- A byte of the status region of a function. -/
def State.statusByte (s : State) (func off : Nat) : Byte :=
  if off < 0x1000 then fieldByte [(0, 4, 1), (4, 4, s.dev.state.code), (8, 4, s.dev.state.boot), (0x10, 8, s.dev.mapPage)] off
  else match s.ctxAt func ((off - 0x1000) / 4) with
    | some c => BitVec.ofNat 8 (c.faultWord / 256 ^ (off % 4))
    | none => 0

/-! ### Control blocks (R429) -/

/-- CTRL as it reads: resume and reset act once and read 0 (R312). -/
def Queue.ctrl (x : Queue) : Nat := (if x.enable then 1 else 0) + (if x.devsub then 8 else 0)

/-- A byte of a control block. -/
def Ctx.blockByte (c : Ctx) (off : Nat) : Byte :=
  if off < 0x40 then fieldByte [(0, 4, c.eqHead.toNat), (4, 4, c.eqTail.toNat)] off
  else if off < 0x1040 then
    let x := c.queue ((off - 0x40) / 64)
    fieldByte [(0, 8, x.qbase.toNat), (8, 8, x.cdone.toNat), (0x10, 4, x.head.toNat), (0x14, 4, x.tail.toNat), (0x18, 1, x.qsize), (0x19, 1, x.ctrl)]
      ((off - 0x40) % 64)
  else 0

/-- Bytes written at an offset, laid over the n bytes of a field at another; none where they do not meet it. -/
def laidOver (off : Nat) (bytes : List Byte) (at' n old : Nat) : Option Nat :=
  if off < at' + n && at' < off + bytes.length then
    some (natLE ((List.range n).map fun i =>
      if off ≤ at' + i && at' + i < off + bytes.length then bytes.getD (at' + i - off) 0 else BitVec.ofNat 8 (old / 256 ^ i)))
  else none

/-- A write of CTRL: DEVSUB, then enable, then reset and resume (R312, R318; their order is a DESIGN CHOICE, log 114). -/
def Queue.hostCtrl (x : Queue) (v : Nat) : Queue :=
  let x := x.hostDevsub (v / 8 % 2 = 1)
  let x := if v % 2 = 1 then x.hostEnable else if x.enable then x.hostDisable else x
  let x := if v / 4 % 2 = 1 then x.hostReset else x
  if v / 2 % 2 = 1 then x.hostResume else x

/-- Bytes written to a queue's part of a control block, field by field in the order of their offsets; HEAD is the front end's (R312). -/
def Queue.hostWrite (x : Queue) (off : Nat) (bytes : List Byte) : Queue :=
  let put := fun (x : Queue) (at' n old : Nat) (f : Queue → Nat → Queue) => (laidOver off bytes at' n old).elim x (f x)
  let x := put x 0 8 x.qbase.toNat fun x v => x.hostField .qbase (BitVec.ofNat 64 v)
  let x := put x 8 8 x.cdone.toNat fun x v => x.hostField .cdone (BitVec.ofNat 64 v)
  let x := put x 0x14 4 x.tail.toNat fun x v => x.hostTail (BitVec.ofNat 32 v)
  let x := put x 0x18 1 x.qsize fun x v => x.hostField .qsize (BitVec.ofNat 64 v)
  put x 0x19 1 x.ctrl Queue.hostCtrl

/-- Bytes written to a control block; those that name no field the host writes are ignored. -/
def Ctx.hostWrite (c : Ctx) (off : Nat) (bytes : List Byte) : Ctx :=
  let c := match laidOver off bytes 0 4 c.eqHead.toNat with
    | some v => c.hostEqHead (BitVec.ofNat 32 v)
    | none => c
  ((List.range 64).filter fun q => off < 0x80 + 64 * q && 0x40 + 64 * q < off + bytes.length).foldl (fun (c : Ctx) q =>
    let base := 0x40 + 64 * q
    c.setQueue ((c.queue q).hostWrite (off - base) (bytes.drop (base - off)))) c

/-! ### BAR 0 (R429, R487) -/

/-- Where the control blocks of a function start, and how many there are. -/
def blocksAt (func : Nat) : Nat × Nat := if func = 0 then (0x2000000, 4096) else (0x80000, 64)

/-- A byte of a function's BAR 0 as the host reads it. The commands between the status region and the control blocks are events of their own, and
read 0 (R493, DESIGN CHOICE, log 114). -/
def State.barByte (s : State) (func off : Nat) : Byte :=
  let b := blocksAt func
  if off < 0x1000 + 4 * b.2 then s.statusByte func off
  else if b.1 ≤ off then
    match s.ctxAt func ((off - b.1) / 0x2000) with
    | some c => c.blockByte ((off - b.1) % 0x2000)
    | none => 0
  else 0

/-- A read of BAR 0 served, within the function's BAR; the status region is there in every state of the device. -/
def State.barReadNow (s : State) (func off n : Nat) : State :=
  let b := blocksAt func
  if off + n ≤ b.1 + 0x2000 * b.2 && func < 64 then s.reply (.data ((List.range n).map fun i => s.barByte func (off + i))) else s

/-- A write to BAR 0 served: to a control block while the device runs; the status region is read-only, a write crosses no block, and the block of a
context under destruction is no longer written (R433). -/
def State.barWriteNow (s : State) (func off : Nat) (bytes : List Byte) : State :=
  let b := blocksAt func
  if !s.hostServed || off < b.1 || 64 ≤ func || 0x2000 < (off - b.1) % 0x2000 + bytes.length then s
  else match s.ctxAt func ((off - b.1) / 0x2000) with
    | some c => if c.destroyWaits then s else s.setCtx (c.hostWrite ((off - b.1) % 0x2000) bytes)
    | none => s

/-- A read of BAR 0 arrives over a host link. -/
def State.barRead (s : State) (func off n : Nat) : State :=
  s.arrive { link := 2, func := func, op := .barRead off n } fun s => (s.barReadNow func off n, true)

/-- A write to BAR 0 arrives over a host link. -/
def State.barWrite (s : State) (func off : Nat) (bytes : List Byte) : State :=
  s.arrive { link := 2, func := func, op := .barWrite off bytes } fun s => (s.barWriteNow func off bytes, true)

/-! ### BAR 2 (R195, R487) -/

/-- Bytes of a function's BAR 2. -/
def bar2Size (func : Nat) : Nat := if func = 0 then 2 ^ 49 else 2 ^ 36

/-- A read at an offset of BAR 2: one of the host aperture, at the IA that the offset stands for (a free choice, DESIGN CHOICE, log 132). -/
def State.bar2Read (s : State) (func link off n : Nat) : State :=
  if off + n ≤ bar2Size func && func < 64 then s.apertureRead func link (Config.apertureIa func off) n else s

/-- A write at an offset of BAR 2. -/
def State.bar2Write (s : State) (func link off : Nat) (bytes : List Byte) : State :=
  if off + bytes.length ≤ bar2Size func && func < 64 then s.apertureWrite func link (Config.apertureIa func off) bytes else s

/-- The host enables virtual functions, up to 63 (R486). -/
def State.sriov (s : State) (n : Nat) : State := if n ≤ 63 then { s with dev := { s.dev with vfs := n } } else s

/-! ### Ring steps of class H (R363, R366) -/

/-- The step of a ring and the slot it takes; none where the ring instruction of its kind would trap or block. -/
def Ring.classH (r : Ring) (step : RingStep) : Option (Ring × Option Nat) :=
  let producer := match step with | .acquire | .publish => true | _ => false
  if !r.defd || !(if producer then r.pcls else r.ccls).getLsbD 3 then none
  else match step with
    | .acquire => if r.free = 0 then none else some (r.acquire.1, some r.acquire.2)
    | .publish => if r.heldP = 0 then none else some (r.publish, none)
    | .get => if r.filled = 0 then none else some (r.take.1, some r.take.2)
    | .release => if r.heldC = 0 then none else some (r.release, none)

/-- The host or a peer makes a step of a group's ring, and learns the byte at which the slot that it takes starts. Its accesses are performed as they
happen, so that the fence of the step has nothing of class H to wait for; the detector sees it (R311, R366). -/
def State.hostRing (s : State) (gid q : Nat) (step : RingStep) : State :=
  match s.group? gid with
  | none => s
  | some g =>
    if g.away || g.ended || 16 ≤ q || s.dev.state != .running then s
    else match (g.ring q).classH step with
      | none => s
      | some (r, slot) =>
        let s := s.setRing gid q r
        let s := match (s.strands.find? fun x => x.group == gid).bind s.env? with
          | some e => s.fenceClasses e (8 ||| (match step with | .acquire | .publish => r.ccls | _ => r.pcls).toNat)
          | none => s
        match slot with
        | some n => s.reply (.data (bytesLE 4 (r.slotAddr n)))
        | none => s

end Sys2Proof.Machine
end

