-- ==== Sys2Proof/Machine/Atomic.lean ====
section
/-!
DEFINITION. Atomics, fences and publication: ATOM, RED, ACAS, FENCE and PUBLISH (R257-R270).
-/

namespace Sys2Proof.Machine

/-- Registers of one element (R260). -/
def Form.atomRegs (f : Form) (n : Nat) : List Nat := (List.range (if f.x.ty = .b64 then 2 else 1)).map fun i => n + i

/-- The element width of an atomic. -/
def Form.atomWidth (f : Form) : Nat := if f.x.ty = .b64 then 8 else 4

/-- The lanes that act: the lowest of M when everything is uniform, else every lane of M (R259). -/
def actingLanes (m : Mask) (uniform : Bool) : List Nat := if uniform then [m.lowest] else m.lanes

/-- The elements of the acting lanes, in ascending lane order; a single lane's old value is the result of every lane (R261). -/
def atomElems (ps : List Piece) (ls : List Nat) (w : Nat) (data data2 : Nat → Nat) : List (WKind × Elem) :=
  let one := ls.length = 1
  (ps.filter fun p => ls.contains p.lane).map fun p =>
    (p.window.wkind, { addr := p.ia, width := w, lane := if one then 0 else p.lane, slot := 0, data := data p.lane, data2 := data2 p.lane
                       pref := p.window.prefhost })

/-- One access for each element (R257). -/
def issueAtoms (i : Issue) (es : List (WKind × Elem)) : M Unit := do
  noteStores (es.map fun w => .global (sectorOf w.2.addr))
  es.forM fun w => do
    let id ← launchAccess i w.1 [w.2]
    match i.prod with
    | some pid => updProd pid fun p => { p with waiting := p.waiting ++ [id] }
    | none => pure ()

/-- ATOM and ACAS: `n` elements of operand registers from v[C]. -/
def atomBody (kind : X96 → AccKind) (n : Nat) : M Unit := do
  let f ← form
  let x := f.x
  let k := if x.ty = .b64 then 2 else 1
  readyB
  readyRun f.c (n * k) x.wc
  let m ← effMask
  if m = 0 then pure ()
  else
    let idx ← srcB
    let base ← getB f.a
    let w := f.atomWidth
    let ps ← checkGlobal .atomic w w (globalLanes f base idx m 1)
    let vs ← readRun ((List.range (n * k)).map fun i => f.c + i)
    let ls := actingLanes m (idx.isU && vs.all Val.isU)
    let uniform := ls.length = 1
    let regs := f.atomRegs f.d
    regs.forM fun r => prepLong r uniform m
    let ins ← freshIns
    let pid ← startProducer regs m uniform (x.ty = .b64)
    let ty : Ty := if x.ty = .b64 then .b64 else .b32
    issueAtoms { kind := kind x, scope := x.scope, ord := x.ord, prod := some pid, ins := ins }
      (atomElems ps ls w (fun i => runData ty vs 0 i) fun i => if n = 2 then runData ty vs 1 i else 0)

/-- RED: the data run is the operand, and nothing returns (R263). -/
def redBody : M Unit := do
  let f ← form
  let x := f.x
  let regs := f.atomRegs f.d
  readyB
  regs.forM readyWait
  let m ← effMask
  if m = 0 then pure ()
  else
    let idx ← srcB
    let base ← getB f.a
    let w := f.atomWidth
    let ps ← checkGlobal .write w w (globalLanes f base idx m 1)
    let vs ← readRun regs
    let ls := actingLanes m (idx.isU && vs.all Val.isU)
    let ins ← freshIns
    let ty : Ty := if x.ty = .b64 then .b64 else .b32
    issueAtoms { kind := .atom x.func.toNat x.ty, scope := x.scope, ord := x.ord, ins := ins }
      (atomElems ps ls w (fun i => runData ty vs 0 i) fun _ => 0)

/-- FENCE (R265). -/
def fenceBody : M Unit := do
  let f ← form
  let m ← effMask
  if m = 0 then pure ()
  else
    let _ ← launchAccess { kind := .fence f.x.func.toNat, scope := f.x.scope, ord := .relaxed } .rc []
    pure ()

/-- PUBLISH (R270). -/
def publishBody : M Unit := do
  let f ← form
  let m ← effMask
  if m = 0 then pure ()
  else
    let base ← getB f.a
    let a := baseAddr f base
    let ps ← checkGlobal .write 8 8 [(m.lowest, a)] (some m)
    let j ← get
    match ps, j.s.ctx? j.e.ctx with
    | p :: _, some c =>
      if !p.window.hostvis || p.ia != c.pubCtr then windowTrap p.win 6 m a
      else
        updS fun s => s.bump c.id 8 1
        let _ ← launchAccess { kind := .publish c.id, scope := .system, ord := .release } p.window.wkind
          [{ addr := p.ia, width := 8, lane := 0, slot := 0 }]
        pure ()
    | _, _ => pure ()

/-! ### The instructions -/

/-- ATOM (R261). -/
def execAtom (o : X96) (s : State) : Host.Outcome State Fault Refusal :=
  run (Form.x96 Enc.atom' o) (atomBody (fun x => .atom x.func.toNat x.ty) 1) s

/-- RED, B32 (R263). -/
def execRed (o : W0) (s : State) : Host.Outcome State Fault Refusal :=
  run (Form.b32 Enc.red' o) redBody s

/-- RED, X96 (R263). -/
def execRedX96 (o : X96) (s : State) : Host.Outcome State Fault Refusal :=
  run (Form.x96 Enc.red' o) redBody s

/-- ACAS (R264). -/
def execAcas (o : X96) (s : State) : Host.Outcome State Fault Refusal :=
  run (Form.x96 Enc.acas' o) (atomBody (fun _ => .cas) 2) s

/-- FENCE, B32 (R265). -/
def execFence (o : W0) (s : State) : Host.Outcome State Fault Refusal :=
  run (Form.b32 Enc.fence' o) fenceBody s

/-- FENCE, X96 (R265). -/
def execFenceX96 (o : X96) (s : State) : Host.Outcome State Fault Refusal :=
  run (Form.x96 Enc.fence' o) fenceBody s

/-- PUBLISH, B32 (R270). -/
def execPublish (o : W0) (s : State) : Host.Outcome State Fault Refusal :=
  run (Form.b32 Enc.publish' o) publishBody s

/-- PUBLISH, X96 (R270). -/
def execPublishX96 (o : X96) (s : State) : Host.Outcome State Fault Refusal :=
  run (Form.x96 Enc.publish' o) publishBody s

end Sys2Proof.Machine
end

