-- ==== Sys2Proof/Machine/Approx.lean ====
section
/-!
DEFINITION. FRCP to FTANH (R144): each returns an FP32 value within its error bound of the exact function, the same for one operand
everywhere; which one is a free function of the operand (Config, DESIGN CHOICE, log 10). The exact functions are taken to about 2^-90 in
fixed point, and on the right side of the values that they only tend to (1 for tanh and cos, the operand for tanh), so that no choice
passes a bound.
-/

namespace Sys2Proof.Machine

/-- Fraction bits of the fixed-point values. -/
def fixP : Nat := 192

/-- ln 2 in fixed point. -/
def fixLn2 : Nat := 4350955369971217654477563090224794165364344896676135745069
/-- 1 / ln 2 in fixed point. -/
def fixInvLn2 : Nat := 9055943544797870567083544809312461607371518589544137143473
/-- π / 2 in fixed point. -/
def fixHalfPi : Nat := 9860048348863269281198066682114134445731725432595044866280
/-- 2 / π with 384 fraction bits. -/
def fixTwoOverPi : Nat := 25084096215574682935721059181227628242930837640303794067822625648239635411884578211128146927372608820164208964506140

/-- m × 2^e rounded down to a multiple of 2^-p, as that multiple. -/
def toFix (p m : Nat) (e : Int) : Nat := if 0 ≤ e + p then m * 2 ^ (e + p).toNat else m / 2 ^ (-(e + p)).toNat

/-- The series of exp at y, 0 ≤ y < 1 in fixed point: terms k, k+1, … from a term. -/
def expSeries (y : Nat) : Nat → Nat → Nat → Nat
  | 0, _, _ => 0
  | fuel + 1, k, term => term + expSeries y fuel (k + 1) (term * y / 2 ^ fixP / (k + 1))

/-- 2^(X / 2^P) as a value, for X at most 2^P × 2^12 in magnitude. -/
def exp2Fix (x : Int) : FVal :=
  let n := x / (2 ^ fixP : Nat)
  let f := (x % (2 ^ fixP : Nat)).toNat
  .fin false (expSeries (f * fixLn2 / 2 ^ fixP) 60 0 (2 ^ fixP)) (n - fixP)

/-- The fraction bits of log2 of a fixed-point value in [1, 2), most significant first. -/
def log2Bits : Nat → Nat → Nat → Nat
  | 0, _, acc => acc
  | n + 1, x, acc =>
    let sq := x * x / 2 ^ fixP
    if 2 ^ (fixP + 1) ≤ sq then log2Bits n (sq / 2) (2 * acc + 1) else log2Bits n sq (2 * acc)

/-- log2 of m × 2^e, m not 0. -/
def log2Val (m : Nat) (e : Int) : FVal :=
  let k := Nat.log2 m
  let whole : Int := e + k
  let frac := log2Bits 90 (toFix fixP m (-(k : Int))) 0
  let t : Int := whole * (2 ^ 90 : Nat) + frac
  .fin (t < 0) t.natAbs (-90)

/-- The alternating series of sine or cosine at y in fixed point: terms of degree k, k+2, … with alternate signs. -/
def trigSeries (y : Nat) : Nat → Nat → Int → Int
  | 0, _, _ => 0
  | fuel + 1, k, term =>
    term + trigSeries y fuel (k + 2) (-(term * (y * y / 2 ^ fixP : Nat) / (2 ^ fixP : Nat) / ((k + 1) * (k + 2) : Nat)))

/-- Sine of m × 2^e plus `quarter` quarter turns (cosine is a quarter turn on). -/
def sinVal (neg : Bool) (m : Nat) (e : Int) (quarter : Nat) : FVal :=
  let t := toFix 384 (m * fixTwoOverPi) (e - 384)
  let n := t / 2 ^ 384
  let y := t % 2 ^ 384 / 2 ^ (384 - fixP) * fixHalfPi / 2 ^ fixP
  -- sin(-x) = -sin x, cos(-x) = cos x
  let q := (n + quarter) % 4
  -- both are below 1 but at 0, which is no operand here: the bound is taken from there
  let s := min (trigSeries y 40 1 (y : Int)) (2 ^ fixP - 1 : Nat)
  let c := min (trigSeries y 40 0 (2 ^ fixP : Nat)) (2 ^ fixP - 1 : Nat)
  let r : Int := match q with | 0 => s | 1 => c | 2 => -s | _ => -c
  let r := if neg && quarter = 0 then -r else r
  .fin (r < 0) r.natAbs (-(fixP : Int))

/-- tanh of the magnitude m × 2^e, m not 0: always below 1, and below its operand. -/
def tanhVal (neg : Bool) (m : Nat) (e : Int) : FVal :=
  let top := e + Nat.log2 m
  if 7 ≤ top then .fin neg (2 ^ fixP - 1) (-(fixP : Int))
  else if top < -10 then
    -- x (1 - x²/3 + 2x⁴/15)
    let x2 := toFix fixP (m * m) (2 * e)
    let g := 2 ^ fixP - max 1 (x2 / 3 - 2 * (x2 * x2 / 2 ^ fixP) / 15)
    .fin neg (m * g) (e - fixP)
  else
    let y := toFix fixP m (e + 1) * fixInvLn2 / 2 ^ fixP
    match exp2Fix y with
    | .fin _ k q =>
      let big := toFix fixP k q
      .fin neg ((big - 2 ^ fixP) * 2 ^ fixP / (big + 2 ^ fixP)) (-(fixP : Int))
    | v => v

/-- Magnitude of the difference of two finite values. -/
def absDiff (a b : FVal) : FVal :=
  match FVal.add false a b.negate with
  | .fin _ m e => .fin false m e
  | v => v

/-- One unit in the last place of an FP32 encoding (R144). -/
def ulpExp (x : Word) : Int := (max 1 ((x.extractLsb' 23 8).toNat) : Nat) - 150

/-- The FP32 value that a free choice takes near `v`: at most a bound away, and of the sign of `v` where `keep` asks so. The bound is
`n` ulp at the result, or 2^q when `abs` gives q. -/
def near (v : FVal) (n : Nat) (abs : Option Int) (keep : Bool) (choice : Nat) : Word :=
  let c0 := toF32 v
  let boundAt : Word → FVal := fun x => match abs with | some q => .fin false 1 q | none => .fin false n (ulpExp x)
  match boundAt c0 with
  | .fin _ bm be =>
    let k : Int := (choice % (2 ^ 41 + 1) : Nat) - (2 ^ 40 : Nat)
    let c := toF32 (FVal.add false v (.fin (k < 0) (k.natAbs * bm) (be - 40)))
    let ok := !(f32 c).isInf && !(FVal.lt (boundAt c) (absDiff (f32 c) v)) && (!keep || c.getLsbD 31 == v.neg)
    if ok && !(f32 c0).isInf then c else c0
  | _ => c0

/-- Canonical NaN of FP32 (R72). -/
def nan32 : Word := 0x7FC00000
/-- An infinity of FP32. -/
def inf32 (neg : Bool) : Word := if neg then 0xFF800000 else 0x7F800000
/-- A zero of FP32. -/
def zero32 (neg : Bool) : Word := if neg then 0x80000000 else 0

/-- FRCP (R144). -/
def frcp (x : Word) : Word :=
  match f32 x with
  | .nan => nan32
  | .inf n => zero32 n
  | .fin n m e =>
    if m = 0 then inf32 n
    else near (.fin n (2 ^ (120 + Nat.log2 m) / m) (-e - (120 + Nat.log2 m : Nat))) 1 none true (Config.frcpChoice x)

/-- FRSQ (R144). -/
def frsq (x : Word) : Word :=
  match f32 x with
  | .nan => nan32
  | .inf n => if n then nan32 else 0
  | .fin n m e =>
    if m = 0 then inf32 n
    else if n then nan32
    else
      -- 1/√(m 2^e) = √(2^(240 + p) / m) × 2^-((e + 240 + p) / 2), with e + p even
      let p : Nat := if e % 2 = 0 then 0 else 1
      let r := isqrt (2 ^ (240 + p) / m) 130 0
      near (.fin false r (-((e + 240 + p) / 2))) 2 none true (Config.frsqChoice x)

/-- FEXP2 (R144). -/
def fexp2 (x : Word) : Word :=
  match f32 x with
  | .nan => nan32
  | .inf n => if n then 0 else inf32 false
  | .fin n m e =>
    if m = 0 then 0x3F800000
    else
      let big := 10 < e + Nat.log2 m
      let v := if big then exp2Fix (if n then -(1024 * 2 ^ fixP : Nat) else (1024 * 2 ^ fixP : Nat))
               else exp2Fix (if n then -(toFix fixP m e : Nat) else (toFix fixP m e : Nat))
      near v 2 none true (Config.fexp2Choice x)

/-- FLOG2 (R144): inside [0.5, 2] the bound is absolute. -/
def flog2 (x : Word) : Word :=
  match f32 x with
  | .nan => nan32
  | .inf n => if n then nan32 else inf32 false
  | .fin n m e =>
    if m = 0 then inf32 true
    else if n then nan32
    else
      let inside := 0x3F000000 ≤ x.toNat && x.toNat ≤ 0x40000000
      near (log2Val m e) 2 (if inside then some (-22) else none) false (Config.flog2Choice x)

/-- FSIN (R144). -/
def fsin (x : Word) : Word :=
  match f32 x with
  | .nan | .inf _ => nan32
  | .fin n m e => if m = 0 then zero32 n else near (sinVal n m e 0) 0 (some (-21)) false (Config.fsinChoice x)

/-- FCOS (R144). -/
def fcos (x : Word) : Word :=
  match f32 x with
  | .nan | .inf _ => nan32
  | .fin n m e => if m = 0 then 0x3F800000 else near (sinVal n m e 1) 0 (some (-21)) false (Config.fcosChoice x)

/-- FTANH (R144). -/
def ftanh (x : Word) : Word :=
  match f32 x with
  | .nan => nan32
  | .inf n => if n then 0xBF800000 else 0x3F800000
  | .fin n m e => if m = 0 then zero32 n else near (tanhVal n m e) 2 none true (Config.ftanhChoice x)

end Sys2Proof.Machine
end

