-- ==== Sys2Proof/Machine/Float.lean ====
section
/-!
DEFINITION. Floating point and conversions, majors 0x38 to 0x44 (R140-R151), with their shadow check points (R152).
-/

namespace Sys2Proof.Machine

/-! ### Lanes -/

/-- The rounding of an exact result of FP arithmetic: an infinite one is exactly representable and stays infinite in every mode, but for SAT
(R70, R71, DEDUCED, log 24). -/
def arithRnd (r : Rnd) : FVal → Rnd
  | .inf _ => .rne
  | _ => r

/-- One lane of FADD, FSUB, FMUL or FFMA: each element formed exactly and rounded once (R140). -/
def fpLane (x : X96) (sr : DWord) (op : List FVal → FVal) (i : Nat) (ws : List Word) : Word :=
  BitVec.ofNat 32 ((List.range x.ty.count).foldl (fun acc e =>
    let v := op (ws.map fun w => elemValue x.ty w.toNat e)
    acc + 2 ^ (Ty.elemBits x.ty * e) * toElem x.ty (arithRnd x.rnd v) x.sat (srDraw sr i e) v) 0)

/-- The sign an exact zero of operands of opposite sign takes: negative under RD (R70). -/
def zeroNeg (x : X96) : Bool := x.rnd = .rd

/-- x + y. -/
def addOp (x : X96) : List FVal → FVal
  | [a, b] => FVal.add (zeroNeg x) a b
  | _ => .nan

/-- x − y. -/
def subOp (x : X96) : List FVal → FVal
  | [a, b] => FVal.add (zeroNeg x) a b.negate
  | _ => .nan

/-- x × y. -/
def mulOp : List FVal → FVal
  | [a, b] => FVal.mul a b
  | _ => .nan

/-- x × y + z. -/
def fmaOp (x : X96) : List FVal → FVal
  | [a, b, c] => FVal.add (zeroNeg x) (FVal.mul a b) c
  | _ => .nan

/-- A function of the encodings of each element of a lane (R69). -/
def elemFn (ty : Ty) (f : Fmt → Nat → Nat) (w : Word) : Word :=
  match Ty.fmt? ty with
  | none => w
  | some m => BitVec.ofNat 32 ((List.range ty.count).foldl (fun acc e =>
      acc + 2 ^ (m.width * e) * f m (w.toNat / 2 ^ (m.width * e) % 2 ^ m.width)) 0)

/-- FMIN or FMAX of a lane (R141). -/
def fminmaxLane (isMax : Bool) (ty : Ty) (a b : Word) : Word :=
  match Ty.fmt? ty with
  | none => a
  | some m => BitVec.ofNat 32 ((List.range ty.count).foldl (fun acc e =>
      let el := fun (w : Word) => w.toNat / 2 ^ (m.width * e) % 2 ^ m.width
      acc + 2 ^ (m.width * e) * fminmax m isMax (el a) (el b)) 0)

/-! ### Bodies -/

/-- FADD, FSUB, FMUL and FFMA: `three` when v[C] is a source. -/
def fpBody (three : Bool) (op : X96 → List FVal → FVal) : M Unit := do
  let f ← form
  readyA
  readyB
  if three then readyC else pure ()
  let m ← effMask
  if m = 0 then pure ()
  else
    let a ← srcA
    let b ← srcB
    let vs ← if three then do
        let c ← srcC
        pure [a, b, c]
      else pure [a, b]
    let sr ← srState
    let t := compute m.lowest vs (fpLane f.x sr (op f.x))
    checkedWrite f.d t m (vs.all Val.isU) f.x.ty

/-- FADD. -/
def faddBody : M Unit := fpBody false addOp
/-- FSUB. -/
def fsubBody : M Unit := fpBody false subOp
/-- FMUL. -/
def fmulBody : M Unit := fpBody false fun _ => mulOp
/-- FFMA. -/
def ffmaBody : M Unit := fpBody true fmaOp

/-- FMIN and FMAX (R141). -/
def fminmaxBody (isMax : Bool) : M Unit := do
  let f ← form
  readyA
  readyB
  let m ← effMask
  if m = 0 then pure ()
  else
    let a ← srcA
    let b ← srcB
    checkedWrite f.d (Val.map2 (fminmaxLane isMax f.x.ty) a b) m (a.isU && b.isU) f.x.ty

/-- FCMP (R142): each lane's condition bit is a check point. -/
def fcmpBody : M Unit := do
  let f ← form
  readyA
  readyB
  let m ← effMask
  if m = 0 then pure ()
  else
    let a ← srcA
    let b ← srcB
    let r := condMask m (fcond f.x.func.toNat) a b
    let bit := fun (i : Nat) => if r.has i then (1 : Word) else 0
    match ← shadowCheck m (a.isU && b.isU) 1 (fun unit shadow => unit == shadow) bit with
    | none => kwrite f.d r m
    | some wrong => kwrite f.d (r ^^^ Mask.of fun i => (wrong i).getLsbD 0) m

/-- FNEG (R143). -/
def fnegBody : M Unit := do
  let f ← form
  unaryBody (Val.map1 (elemFn f.x.ty fun m x => fsignOp m false x))

/-- FABS (R143). -/
def fabsBody : M Unit := do
  let f ← form
  unaryBody (Val.map1 (elemFn f.x.ty fun m x => fsignOp m true x))

/-- FRCP to FCLASS (R143-R145): a function of each f32 lane. -/
def funaryBody (g : Word → Word) : M Unit := unaryBody (Val.map1 g)

/-! ### Conversions (R146-R149) -/

/-- A floating-point destination: its rounded elements are check points (R152). -/
def floatDest (ty : Ty) : Bool := (Ty.fmt? ty).isSome

/-- One lane of CVT whose old destination lane is `old` (R147). -/
def cvtLane (x : X96) (sr : DWord) (i : Nat) (w old : Word) : Word :=
  let src := (srcTy? x.func).getD .f32
  let conv := fun (e j : Nat) => toElem x.ty x.rnd x.sat (srDraw sr i e) (elemValue src w.toNat j)
  if src.count = 1 && x.ty.count = 1 then BitVec.ofNat 32 (conv 0 0)
  else if x.ty.count = 1 then BitVec.ofNat 32 (conv 0 x.sel)
  else if src.count = 1 then BitVec.ofNat 32 (putElem (Ty.elemBits x.ty) old.toNat x.sel (conv x.sel 0))
  else BitVec.ofNat 32 ((List.range x.ty.count).foldl (fun acc e => acc + 2 ^ (Ty.elemBits x.ty * e) * conv e e) 0)

/-- The bits of a lane that one element of a conversion takes. -/
def elemField (ty : Ty) (e : Nat) : Word := BitVec.ofNat 32 ((2 ^ Ty.elemBits ty - 1) * 2 ^ (Ty.elemBits ty * e))

/-- The old value of v[D], which a conversion into one of its elements reads; it waits while v[D] is empty (R112, R147, R149). -/
def oldD : M Val := do
  let f ← form
  readV f.d

/-- CVT. -/
def cvtBody : M Unit := do
  let f ← form
  let x := f.x
  let into := ((srcTy? x.func).getD .f32).count = 1 && x.ty.count != 1
  readyA
  if into then readyWait f.d else pure ()
  let m ← effMask
  if m = 0 then pure ()
  else
    let a ← srcA
    let vs ← if into then do
        let d ← oldD
        pure [a, d]
      else pure [a]
    let sr ← srState
    let t := compute m.lowest vs fun i ws => cvtLane x sr i (ws.getD 0 0) (ws.getD 1 0)
    if floatDest x.ty then
      checkedWrite f.d t m (vs.all Val.isU) x.ty (if into then elemField x.ty x.sel else if x.ty.count = 1 then elemField x.ty 0 else BitVec.allOnes 32)
    else writeV f.d t m

/-- CVTD (R148). -/
def cvtdBody : M Unit := do
  let f ← form
  let x := f.x
  readyA
  readyB
  let m ← effMask
  if m = 0 then pure ()
  else
    let a ← srcA
    let b ← srcB
    let sr ← srState
    let src := (srcTy? x.func).getD .f32
    let t := compute m.lowest [a, b] fun i ws =>
      BitVec.ofNat 32 (toElem x.ty x.rnd x.sat (srDraw sr i 0)
        (FVal.mul (elemValue src (ws.getD 0 0).toNat x.sel) (f32 (ws.getD 1 0))))
    if floatDest x.ty then checkedWrite f.d t m (a.isU && b.isU) x.ty (elemField x.ty 0) else writeV f.d t m

/-- CVTQ (R149). -/
def cvtqBody : M Unit := do
  let f ← form
  let x := f.x
  readyA
  readyB
  readyWait f.d
  let m ← effMask
  if m = 0 then pure ()
  else
    let a ← srcA
    let b ← srcB
    let d ← oldD
    let sr ← srState
    let e := x.func.toNat % 8
    let t := compute m.lowest [a, b, d] fun i ws =>
      let q := toElem x.ty x.rnd x.sat (srDraw sr i e) (FVal.mul (f32 (ws.getD 0 0)) (f32 (ws.getD 1 0)))
      BitVec.ofNat 32 (putElem (Ty.elemBits x.ty) (ws.getD 2 0).toNat e q)
    if floatDest x.ty then checkedWrite f.d t m (a.isU && b.isU && d.isU) x.ty (elemField x.ty e) else writeV f.d t m
    if x.x1 then amaxUpdate f.c x.ty.code (amaxValues m a fun w => [f32 w]) else pure ()

/-! ### amax (R150, R151) -/

/-- AMAX: every decoded element of every lane of M. -/
def amaxBody : M Unit := do
  let f ← form
  let ty := f.x.ty
  readyA
  let m ← effMask
  if m = 0 then pure ()
  else
    let a ← srcA
    amaxUpdate f.d ty.code (amaxValues m a fun w => (List.range ty.count).map fun e => elemValue ty w.toNat e)

/-- AMGET: read, clear, or both as one step. -/
def amgetBody : M Unit := do
  let f ← form
  let m ← effMask
  if m = 0 then pure ()
  else
    let j ← get
    match j.s.group? j.e.group with
    | none => pure ()
    | some g =>
      let r := vget g.amax f.a {}
      if f.b != 1 then writePair f.d r.bits m else pure ()
      if f.b != 0 then updS fun s => s.setGroup { g with amax := vset g.amax f.a {} } else pure ()

/-! ### The instructions -/

/-- FADD, B32 (R140). -/
def execFadd (o : W0) (s : State) : Host.Outcome State Fault Refusal :=
  run (Form.b32 Enc.fadd' o) faddBody s

/-- FADD, X96 (R140). -/
def execFaddX96 (o : X96) (s : State) : Host.Outcome State Fault Refusal :=
  run (Form.x96 Enc.fadd' o) faddBody s

/-- FSUB, B32 (R140). -/
def execFsub (o : W0) (s : State) : Host.Outcome State Fault Refusal :=
  run (Form.b32 Enc.fsub' o) fsubBody s

/-- FSUB, X96 (R140). -/
def execFsubX96 (o : X96) (s : State) : Host.Outcome State Fault Refusal :=
  run (Form.x96 Enc.fsub' o) fsubBody s

/-- FMUL, B32 (R140). -/
def execFmul (o : W0) (s : State) : Host.Outcome State Fault Refusal :=
  run (Form.b32 Enc.fmul' o) fmulBody s

/-- FMUL, X96 (R140). -/
def execFmulX96 (o : X96) (s : State) : Host.Outcome State Fault Refusal :=
  run (Form.x96 Enc.fmul' o) fmulBody s

/-- FFMA, B32 (R140): C = D with its wait bit set. -/
def execFfma (o : W0) (s : State) : Host.Outcome State Fault Refusal :=
  run { Form.b32 Enc.ffma' o with x := o.ffma } ffmaBody s

/-- FFMA, X96 (R140). -/
def execFfmaX96 (o : X96) (s : State) : Host.Outcome State Fault Refusal :=
  run (Form.x96 Enc.ffma' o) ffmaBody s

/-- FMIN, B32 (R141). -/
def execFmin (o : W0) (s : State) : Host.Outcome State Fault Refusal :=
  run (Form.b32 Enc.fmin' o) (fminmaxBody false) s

/-- FMIN, X96 (R141). -/
def execFminX96 (o : X96) (s : State) : Host.Outcome State Fault Refusal :=
  run (Form.x96 Enc.fmin' o) (fminmaxBody false) s

/-- FMAX, B32 (R141). -/
def execFmax (o : W0) (s : State) : Host.Outcome State Fault Refusal :=
  run (Form.b32 Enc.fmax' o) (fminmaxBody true) s

/-- FMAX, X96 (R141). -/
def execFmaxX96 (o : X96) (s : State) : Host.Outcome State Fault Refusal :=
  run (Form.x96 Enc.fmax' o) (fminmaxBody true) s

/-- FCMP, B32 (R142). -/
def execFcmp (o : W0) (s : State) : Host.Outcome State Fault Refusal :=
  run (Form.b32 Enc.fcmp' o) fcmpBody s

/-- FCMP, X96 (R142). -/
def execFcmpX96 (o : X96) (s : State) : Host.Outcome State Fault Refusal :=
  run (Form.x96 Enc.fcmp' o) fcmpBody s

/-- FNEG, B32 (R143). -/
def execFneg (o : W0) (s : State) : Host.Outcome State Fault Refusal :=
  run (Form.b32 Enc.fneg' o) fnegBody s

/-- FNEG, X96 (R143). -/
def execFnegX96 (o : X96) (s : State) : Host.Outcome State Fault Refusal :=
  run (Form.x96 Enc.fneg' o) fnegBody s

/-- FABS, B32 (R143). -/
def execFabs (o : W0) (s : State) : Host.Outcome State Fault Refusal :=
  run (Form.b32 Enc.fabs' o) fabsBody s

/-- FABS, X96 (R143). -/
def execFabsX96 (o : X96) (s : State) : Host.Outcome State Fault Refusal :=
  run (Form.x96 Enc.fabs' o) fabsBody s

/-- FRCP, B32 (R144). -/
def execFrcp (o : W0) (s : State) : Host.Outcome State Fault Refusal :=
  run (Form.b32 Enc.frcp' o) (funaryBody frcp) s

/-- FRCP, X96 (R144). -/
def execFrcpX96 (o : X96) (s : State) : Host.Outcome State Fault Refusal :=
  run (Form.x96 Enc.frcp' o) (funaryBody frcp) s

/-- FRSQ, B32 (R144). -/
def execFrsq (o : W0) (s : State) : Host.Outcome State Fault Refusal :=
  run (Form.b32 Enc.frsq' o) (funaryBody frsq) s

/-- FRSQ, X96 (R144). -/
def execFrsqX96 (o : X96) (s : State) : Host.Outcome State Fault Refusal :=
  run (Form.x96 Enc.frsq' o) (funaryBody frsq) s

/-- FSQRT, B32 (R144). -/
def execFsqrt (o : W0) (s : State) : Host.Outcome State Fault Refusal :=
  run (Form.b32 Enc.fsqrt' o) (funaryBody fsqrt) s

/-- FSQRT, X96 (R144). -/
def execFsqrtX96 (o : X96) (s : State) : Host.Outcome State Fault Refusal :=
  run (Form.x96 Enc.fsqrt' o) (funaryBody fsqrt) s

/-- FEXP2, B32 (R144). -/
def execFexp2 (o : W0) (s : State) : Host.Outcome State Fault Refusal :=
  run (Form.b32 Enc.fexp2' o) (funaryBody fexp2) s

/-- FEXP2, X96 (R144). -/
def execFexp2X96 (o : X96) (s : State) : Host.Outcome State Fault Refusal :=
  run (Form.x96 Enc.fexp2' o) (funaryBody fexp2) s

/-- FLOG2, B32 (R144). -/
def execFlog2 (o : W0) (s : State) : Host.Outcome State Fault Refusal :=
  run (Form.b32 Enc.flog2' o) (funaryBody flog2) s

/-- FLOG2, X96 (R144). -/
def execFlog2X96 (o : X96) (s : State) : Host.Outcome State Fault Refusal :=
  run (Form.x96 Enc.flog2' o) (funaryBody flog2) s

/-- FSIN, B32 (R144). -/
def execFsin (o : W0) (s : State) : Host.Outcome State Fault Refusal :=
  run (Form.b32 Enc.fsin' o) (funaryBody fsin) s

/-- FSIN, X96 (R144). -/
def execFsinX96 (o : X96) (s : State) : Host.Outcome State Fault Refusal :=
  run (Form.x96 Enc.fsin' o) (funaryBody fsin) s

/-- FCOS, B32 (R144). -/
def execFcos (o : W0) (s : State) : Host.Outcome State Fault Refusal :=
  run (Form.b32 Enc.fcos' o) (funaryBody fcos) s

/-- FCOS, X96 (R144). -/
def execFcosX96 (o : X96) (s : State) : Host.Outcome State Fault Refusal :=
  run (Form.x96 Enc.fcos' o) (funaryBody fcos) s

/-- FTANH, B32 (R144). -/
def execFtanh (o : W0) (s : State) : Host.Outcome State Fault Refusal :=
  run (Form.b32 Enc.ftanh' o) (funaryBody ftanh) s

/-- FTANH, X96 (R144). -/
def execFtanhX96 (o : X96) (s : State) : Host.Outcome State Fault Refusal :=
  run (Form.x96 Enc.ftanh' o) (funaryBody ftanh) s

/-- FCLASS, B32 (R145). -/
def execFclass (o : W0) (s : State) : Host.Outcome State Fault Refusal :=
  run (Form.b32 Enc.fclass' o) (funaryBody fclass) s

/-- FCLASS, X96 (R145). -/
def execFclassX96 (o : X96) (s : State) : Host.Outcome State Fault Refusal :=
  run (Form.x96 Enc.fclass' o) (funaryBody fclass) s

/-- CVT, B32 (R147). -/
def execCvt (o : W0) (s : State) : Host.Outcome State Fault Refusal :=
  run (Form.b32 Enc.cvt' o) cvtBody s

/-- CVT, X96 (R147). -/
def execCvtX96 (o : X96) (s : State) : Host.Outcome State Fault Refusal :=
  run (Form.x96 Enc.cvt' o) cvtBody s

/-- CVTQ (R149). -/
def execCvtq (o : X96) (s : State) : Host.Outcome State Fault Refusal :=
  run (Form.x96 Enc.cvtq' o) cvtqBody s

/-- CVTD, B32 (R148). -/
def execCvtd (o : W0) (s : State) : Host.Outcome State Fault Refusal :=
  run (Form.b32 Enc.cvtd' o) cvtdBody s

/-- CVTD, X96 (R148). -/
def execCvtdX96 (o : X96) (s : State) : Host.Outcome State Fault Refusal :=
  run (Form.x96 Enc.cvtd' o) cvtdBody s

/-- AMAX, B32 (R150). -/
def execAmax (o : W0) (s : State) : Host.Outcome State Fault Refusal :=
  run (Form.b32 Enc.amax' o) amaxBody s

/-- AMAX, X96 (R150). -/
def execAmaxX96 (o : X96) (s : State) : Host.Outcome State Fault Refusal :=
  run (Form.x96 Enc.amax' o) amaxBody s

/-- AMGET, B32 (R151). -/
def execAmget (o : W0) (s : State) : Host.Outcome State Fault Refusal :=
  run (Form.b32 Enc.amget' o) amgetBody s

/-- AMGET, X96 (R151). -/
def execAmgetX96 (o : X96) (s : State) : Host.Outcome State Fault Refusal :=
  run (Form.x96 Enc.amget' o) amgetBody s

end Sys2Proof.Machine
end

