-- ==== Sys2Proof/Machine/Dispatch.lean ====
section
/-!
DEFINITION. exec: one direct call of its meaning for each instruction and each event.
-/

namespace Sys2Proof.Machine

/-- The meaning of each constructor. -/
def exec (i : Instr) (s : State) : Host.Outcome State Fault Refusal :=
  match i with
  | .iadd o => Sys2Proof.Machine.execIadd o s
  | .iaddX96 o => Sys2Proof.Machine.execIaddX96 o s
  | .isub o => Sys2Proof.Machine.execIsub o s
  | .isubX96 o => Sys2Proof.Machine.execIsubX96 o s
  | .imul o => Sys2Proof.Machine.execImul o s
  | .imulX96 o => Sys2Proof.Machine.execImulX96 o s
  | .imulh o => Sys2Proof.Machine.execImulh o s
  | .imulhX96 o => Sys2Proof.Machine.execImulhX96 o s
  | .imad o => Sys2Proof.Machine.execImad o s
  | .imin o => Sys2Proof.Machine.execImin o s
  | .iminX96 o => Sys2Proof.Machine.execIminX96 o s
  | .imax o => Sys2Proof.Machine.execImax o s
  | .imaxX96 o => Sys2Proof.Machine.execImaxX96 o s
  | .and o => Sys2Proof.Machine.execAnd o s
  | .andX96 o => Sys2Proof.Machine.execAndX96 o s
  | .or o => Sys2Proof.Machine.execOr o s
  | .orX96 o => Sys2Proof.Machine.execOrX96 o s
  | .xor o => Sys2Proof.Machine.execXor o s
  | .xorX96 o => Sys2Proof.Machine.execXorX96 o s
  | .andn o => Sys2Proof.Machine.execAndn o s
  | .andnX96 o => Sys2Proof.Machine.execAndnX96 o s
  | .shl o => Sys2Proof.Machine.execShl o s
  | .shlX96 o => Sys2Proof.Machine.execShlX96 o s
  | .shr o => Sys2Proof.Machine.execShr o s
  | .shrX96 o => Sys2Proof.Machine.execShrX96 o s
  | .sar o => Sys2Proof.Machine.execSar o s
  | .sarX96 o => Sys2Proof.Machine.execSarX96 o s
  | .ineg o => Sys2Proof.Machine.execIneg o s
  | .inegX96 o => Sys2Proof.Machine.execInegX96 o s
  | .iabs o => Sys2Proof.Machine.execIabs o s
  | .iabsX96 o => Sys2Proof.Machine.execIabsX96 o s
  | .not o => Sys2Proof.Machine.execNot o s
  | .notX96 o => Sys2Proof.Machine.execNotX96 o s
  | .popc o => Sys2Proof.Machine.execPopc o s
  | .popcX96 o => Sys2Proof.Machine.execPopcX96 o s
  | .clz o => Sys2Proof.Machine.execClz o s
  | .clzX96 o => Sys2Proof.Machine.execClzX96 o s
  | .brev o => Sys2Proof.Machine.execBrev o s
  | .brevX96 o => Sys2Proof.Machine.execBrevX96 o s
  | .bfe o => Sys2Proof.Machine.execBfe o s
  | .bfeX96 o => Sys2Proof.Machine.execBfeX96 o s
  | .bfi o => Sys2Proof.Machine.execBfi o s
  | .icmp o => Sys2Proof.Machine.execIcmp o s
  | .icmpX96 o => Sys2Proof.Machine.execIcmpX96 o s
  | .isel o => Sys2Proof.Machine.execIsel o s
  | .iselX96 o => Sys2Proof.Machine.execIselX96 o s
  | .badd o => Sys2Proof.Machine.execBadd o s
  | .baddX96 o => Sys2Proof.Machine.execBaddX96 o s
  | .bmov o => Sys2Proof.Machine.execBmov o s
  | .bmovX96 o => Sys2Proof.Machine.execBmovX96 o s
  | .bget o => Sys2Proof.Machine.execBget o s
  | .bgetX96 o => Sys2Proof.Machine.execBgetX96 o s
  | .blit o => Sys2Proof.Machine.execBlit o s
  | .mov o => Sys2Proof.Machine.execMov o s
  | .movX96 o => Sys2Proof.Machine.execMovX96 o s
  | .movi o => Sys2Proof.Machine.execMovi o s
  | .lane o => Sys2Proof.Machine.execLane o s
  | .laneX96 o => Sys2Proof.Machine.execLaneX96 o s
  | .shape o => Sys2Proof.Machine.execShape o s
  | .shapeX96 o => Sys2Proof.Machine.execShapeX96 o s
  | .shapea o => Sys2Proof.Machine.execShapea o s
  | .shapeaX96 o => Sys2Proof.Machine.execShapeaX96 o s
  | .shapef o => Sys2Proof.Machine.execShapef o s
  | .shapefX96 o => Sys2Proof.Machine.execShapefX96 o s
  | .sqz o => Sys2Proof.Machine.execSqz o s
  | .sqzX96 o => Sys2Proof.Machine.execSqzX96 o s
  | .bcast o => Sys2Proof.Machine.execBcast o s
  | .bcastX96 o => Sys2Proof.Machine.execBcastX96 o s
  | .shfl o => Sys2Proof.Machine.execShfl o s
  | .shflX96 o => Sys2Proof.Machine.execShflX96 o s
  | .vote o => Sys2Proof.Machine.execVote o s
  | .voteX96 o => Sys2Proof.Machine.execVoteX96 o s
  | .lred o => Sys2Proof.Machine.execLred o s
  | .lredX96 o => Sys2Proof.Machine.execLredX96 o s
  | .gid o => Sys2Proof.Machine.execGid o s
  | .gidX96 o => Sys2Proof.Machine.execGidX96 o s
  | .kand o => Sys2Proof.Machine.execKand o s
  | .kandX96 o => Sys2Proof.Machine.execKandX96 o s
  | .kor o => Sys2Proof.Machine.execKor o s
  | .korX96 o => Sys2Proof.Machine.execKorX96 o s
  | .kxor o => Sys2Proof.Machine.execKxor o s
  | .kxorX96 o => Sys2Proof.Machine.execKxorX96 o s
  | .kandn o => Sys2Proof.Machine.execKandn o s
  | .kandnX96 o => Sys2Proof.Machine.execKandnX96 o s
  | .knot o => Sys2Proof.Machine.execKnot o s
  | .knotX96 o => Sys2Proof.Machine.execKnotX96 o s
  | .kmov o => Sys2Proof.Machine.execKmov o s
  | .kmovX96 o => Sys2Proof.Machine.execKmovX96 o s
  | .kset o => Sys2Proof.Machine.execKset o s
  | .ksetX96 o => Sys2Proof.Machine.execKsetX96 o s
  | .kpop o => Sys2Proof.Machine.execKpop o s
  | .kpopX96 o => Sys2Proof.Machine.execKpopX96 o s
  | .kget o => Sys2Proof.Machine.execKget o s
  | .kgetX96 o => Sys2Proof.Machine.execKgetX96 o s
  | .fadd o => Sys2Proof.Machine.execFadd o s
  | .faddX96 o => Sys2Proof.Machine.execFaddX96 o s
  | .fsub o => Sys2Proof.Machine.execFsub o s
  | .fsubX96 o => Sys2Proof.Machine.execFsubX96 o s
  | .fmul o => Sys2Proof.Machine.execFmul o s
  | .fmulX96 o => Sys2Proof.Machine.execFmulX96 o s
  | .ffma o => Sys2Proof.Machine.execFfma o s
  | .ffmaX96 o => Sys2Proof.Machine.execFfmaX96 o s
  | .fmin o => Sys2Proof.Machine.execFmin o s
  | .fminX96 o => Sys2Proof.Machine.execFminX96 o s
  | .fmax o => Sys2Proof.Machine.execFmax o s
  | .fmaxX96 o => Sys2Proof.Machine.execFmaxX96 o s
  | .fcmp o => Sys2Proof.Machine.execFcmp o s
  | .fcmpX96 o => Sys2Proof.Machine.execFcmpX96 o s
  | .fneg o => Sys2Proof.Machine.execFneg o s
  | .fnegX96 o => Sys2Proof.Machine.execFnegX96 o s
  | .fabs o => Sys2Proof.Machine.execFabs o s
  | .fabsX96 o => Sys2Proof.Machine.execFabsX96 o s
  | .frcp o => Sys2Proof.Machine.execFrcp o s
  | .frcpX96 o => Sys2Proof.Machine.execFrcpX96 o s
  | .frsq o => Sys2Proof.Machine.execFrsq o s
  | .frsqX96 o => Sys2Proof.Machine.execFrsqX96 o s
  | .fsqrt o => Sys2Proof.Machine.execFsqrt o s
  | .fsqrtX96 o => Sys2Proof.Machine.execFsqrtX96 o s
  | .fexp2 o => Sys2Proof.Machine.execFexp2 o s
  | .fexp2X96 o => Sys2Proof.Machine.execFexp2X96 o s
  | .flog2 o => Sys2Proof.Machine.execFlog2 o s
  | .flog2X96 o => Sys2Proof.Machine.execFlog2X96 o s
  | .fsin o => Sys2Proof.Machine.execFsin o s
  | .fsinX96 o => Sys2Proof.Machine.execFsinX96 o s
  | .fcos o => Sys2Proof.Machine.execFcos o s
  | .fcosX96 o => Sys2Proof.Machine.execFcosX96 o s
  | .ftanh o => Sys2Proof.Machine.execFtanh o s
  | .ftanhX96 o => Sys2Proof.Machine.execFtanhX96 o s
  | .fclass o => Sys2Proof.Machine.execFclass o s
  | .fclassX96 o => Sys2Proof.Machine.execFclassX96 o s
  | .cvt o => Sys2Proof.Machine.execCvt o s
  | .cvtX96 o => Sys2Proof.Machine.execCvtX96 o s
  | .cvtq o => Sys2Proof.Machine.execCvtq o s
  | .cvtd o => Sys2Proof.Machine.execCvtd o s
  | .cvtdX96 o => Sys2Proof.Machine.execCvtdX96 o s
  | .amax o => Sys2Proof.Machine.execAmax o s
  | .amaxX96 o => Sys2Proof.Machine.execAmaxX96 o s
  | .amget o => Sys2Proof.Machine.execAmget o s
  | .amgetX96 o => Sys2Proof.Machine.execAmgetX96 o s
  | .jmp o => Sys2Proof.Machine.execJmp o s
  | .call o => Sys2Proof.Machine.execCall o s
  | .br o => Sys2Proof.Machine.execBr o s
  | .bru o => Sys2Proof.Machine.execBru o s
  | .join o => Sys2Proof.Machine.execJoin o s
  | .joinX96 o => Sys2Proof.Machine.execJoinX96 o s
  | .yieldp => Sys2Proof.Machine.execYieldp s
  | .yieldpX96 => Sys2Proof.Machine.execYieldpX96 s
  | .ret o => Sys2Proof.Machine.execRet o s
  | .retX96 o => Sys2Proof.Machine.execRetX96 o s
  | .jmpi o => Sys2Proof.Machine.execJmpi o s
  | .jmpiX96 o => Sys2Proof.Machine.execJmpiX96 o s
  | .calli o => Sys2Proof.Machine.execCalli o s
  | .calliX96 o => Sys2Proof.Machine.execCalliX96 o s
  | .fcall o => Sys2Proof.Machine.execFcall o s
  | .exit o => Sys2Proof.Machine.execExit o s
  | .exitX96 o => Sys2Proof.Machine.execExitX96 o s
  | .jget o => Sys2Proof.Machine.execJget o s
  | .jgetX96 o => Sys2Proof.Machine.execJgetX96 o s
  | .jput o => Sys2Proof.Machine.execJput o s
  | .trap o => Sys2Proof.Machine.execTrap o s
  | .trapX96 o => Sys2Proof.Machine.execTrapX96 o s
  | .thret o => Sys2Proof.Machine.execThret o s
  | .thretX96 o => Sys2Proof.Machine.execThretX96 o s
  | .ld o => Sys2Proof.Machine.execLd o s
  | .ldX96 o => Sys2Proof.Machine.execLdX96 o s
  | .st o => Sys2Proof.Machine.execSt o s
  | .stX96 o => Sys2Proof.Machine.execStX96 o s
  | .lds o => Sys2Proof.Machine.execLds o s
  | .ldsX96 o => Sys2Proof.Machine.execLdsX96 o s
  | .sts o => Sys2Proof.Machine.execSts o s
  | .stsX96 o => Sys2Proof.Machine.execStsX96 o s
  | .ldp o => Sys2Proof.Machine.execLdp o s
  | .ldpX96 o => Sys2Proof.Machine.execLdpX96 o s
  | .stp o => Sys2Proof.Machine.execStp o s
  | .stpX96 o => Sys2Proof.Machine.execStpX96 o s
  | .ldf o => Sys2Proof.Machine.execLdf o s
  | .ldfX96 o => Sys2Proof.Machine.execLdfX96 o s
  | .ldfk o => Sys2Proof.Machine.execLdfk o s
  | .ldfkX96 o => Sys2Proof.Machine.execLdfkX96 o s
  | .stf o => Sys2Proof.Machine.execStf o s
  | .stfX96 o => Sys2Proof.Machine.execStfX96 o s
  | .feset o => Sys2Proof.Machine.execFeset o s
  | .fesetX96 o => Sys2Proof.Machine.execFesetX96 o s
  | .ldt o => Sys2Proof.Machine.execLdt o s
  | .ldtX96 o => Sys2Proof.Machine.execLdtX96 o s
  | .stct o => Sys2Proof.Machine.execStct o s
  | .stz o => Sys2Proof.Machine.execStz o s
  | .stzX96 o => Sys2Proof.Machine.execStzX96 o s
  | .ldz o => Sys2Proof.Machine.execLdz o s
  | .ldzX96 o => Sys2Proof.Machine.execLdzX96 o s
  | .pref o => Sys2Proof.Machine.execPref o s
  | .prefX96 o => Sys2Proof.Machine.execPrefX96 o s
  | .cwb o => Sys2Proof.Machine.execCwb o s
  | .cwbX96 o => Sys2Proof.Machine.execCwbX96 o s
  | .atom o => Sys2Proof.Machine.execAtom o s
  | .red o => Sys2Proof.Machine.execRed o s
  | .redX96 o => Sys2Proof.Machine.execRedX96 o s
  | .acas o => Sys2Proof.Machine.execAcas o s
  | .fence o => Sys2Proof.Machine.execFence o s
  | .fenceX96 o => Sys2Proof.Machine.execFenceX96 o s
  | .xfence o => Sys2Proof.Machine.execXfence o s
  | .publish o => Sys2Proof.Machine.execPublish o s
  | .publishX96 o => Sys2Proof.Machine.execPublishX96 o s
  | .chunk o => Sys2Proof.Machine.execChunk o s
  | .chunkX96 o => Sys2Proof.Machine.execChunkX96 o s
  | .launch o => Sys2Proof.Machine.execLaunch o s
  | .launchX96 o => Sys2Proof.Machine.execLaunchX96 o s
  | .bar o => Sys2Proof.Machine.execBar o s
  | .barX96 o => Sys2Proof.Machine.execBarX96 o s
  | .phreg o => Sys2Proof.Machine.execPhreg o s
  | .phdrop o => Sys2Proof.Machine.execPhdrop o s
  | .phsig o => Sys2Proof.Machine.execPhsig o s
  | .phwait o => Sys2Proof.Machine.execPhwait o s
  | .phsw o => Sys2Proof.Machine.execPhsw o s
  | .phq o => Sys2Proof.Machine.execPhq o s
  | .rdef o => Sys2Proof.Machine.execRdef o s
  | .racq o => Sys2Proof.Machine.execRacq o s
  | .rpub o => Sys2Proof.Machine.execRpub o s
  | .rget o => Sys2Proof.Machine.execRget o s
  | .rrel o => Sys2Proof.Machine.execRrel o s
  | .cpy o => Sys2Proof.Machine.execCpy o s
  | .cpyw o => Sys2Proof.Machine.execCpyw o s
  | .wld o => Sys2Proof.Machine.execWld o s
  | .wldX96 o => Sys2Proof.Machine.execWldX96 o s
  | .wswap o => Sys2Proof.Machine.execWswap o s
  | .mma o => Sys2Proof.Machine.execMma o s
  | .mdrain o => Sys2Proof.Machine.execMdrain o s
  | .ashape o => Sys2Proof.Machine.execAshape o s
  | .twait o => Sys2Proof.Machine.execTwait o s
  | .tqry o => Sys2Proof.Machine.execTqry o s
  | .yield o => Sys2Proof.Machine.execYield o s
  | .yieldX96 o => Sys2Proof.Machine.execYieldX96 o s
  | .sleep o => Sys2Proof.Machine.execSleep o s
  | .cropen o => Sys2Proof.Machine.execCropen o s
  | .crclose o => Sys2Proof.Machine.execCrclose o s
  | .mapv o => Sys2Proof.Machine.execMapv o s
  | .mapack o => Sys2Proof.Machine.execMapack o s
  | .feat o => Sys2Proof.Machine.execFeat o s
  | .clk o => Sys2Proof.Machine.execClk o s
  | .pmrd o => Sys2Proof.Machine.execPmrd o s
  | .pmcfg o => Sys2Proof.Machine.execPmcfg o s
  | .prog o => Sys2Proof.Machine.execProg o s
  | .udf w => Sys2Proof.Machine.execUdf w s
  | .nonInstruction w => Sys2Proof.Machine.execNonInstruction w s
  | .nop o => Sys2Proof.Machine.execNop o s
  | .nopX96 o => Sys2Proof.Machine.execNopX96 o s
  | .producerComplete producer => Sys2Proof.Machine.execProducerComplete producer s
  | .trapDelivery strand => Sys2Proof.Machine.execTrapDelivery strand s
  | .mapTrapDelivery strand => Sys2Proof.Machine.execMapTrapDelivery strand s
  | .containmentUnwind strand => Sys2Proof.Machine.execContainmentUnwind strand s
  | .strandExited strand => Sys2Proof.Machine.execStrandExited strand s
  | .forkResolution strand => Sys2Proof.Machine.execForkResolution strand s
  | .teamPlace launch team p => Sys2Proof.Machine.execTeamPlace launch team p s
  | .levelRise launch team => Sys2Proof.Machine.execLevelRise launch team s
  | .priorityPreempt launch team victim => Sys2Proof.Machine.execPriorityPreempt launch team victim s
  | .preemptTimeout strand => Sys2Proof.Machine.execPreemptTimeout strand s
  | .groupSave group => Sys2Proof.Machine.execGroupSave group s
  | .sleepWake strand => Sys2Proof.Machine.execSleepWake strand s
  | .operatingPointChange island => Sys2Proof.Machine.execOperatingPointChange island s
  | .phaserPoll strand => Sys2Proof.Machine.execPhaserPoll strand s
  | .accessPerformed access => Sys2Proof.Machine.execAccessPerformed access s
  | .releaseWritePerformed access => Sys2Proof.Machine.execReleaseWritePerformed access s
  | .publishIncrement access => Sys2Proof.Machine.execPublishIncrement access s
  | .firstTouch ia frame => Sys2Proof.Machine.execFirstTouch ia frame s
  | .hostApertureWrite func link ia bytes => Sys2Proof.Machine.execHostApertureWrite func link ia bytes s
  | .hostApertureRead func link ia n => Sys2Proof.Machine.execHostApertureRead func link ia n s
  | .peerDmaTransfer port write ia n bytes => Sys2Proof.Machine.execPeerDmaTransfer port write ia n bytes s
  | .queueDoorbell func ctx q tail => Sys2Proof.Machine.execQueueDoorbell func ctx q tail s
  | .queueCtrlEnable func ctx q => Sys2Proof.Machine.execQueueCtrlEnable func ctx q s
  | .queueCtrlDisable func ctx q => Sys2Proof.Machine.execQueueCtrlDisable func ctx q s
  | .queueCtrlResume func ctx q => Sys2Proof.Machine.execQueueCtrlResume func ctx q s
  | .queueCtrlReset func ctx q => Sys2Proof.Machine.execQueueCtrlReset func ctx q s
  | .queueCtrlDevsub func ctx q devsub => Sys2Proof.Machine.execQueueCtrlDevsub func ctx q devsub s
  | .registerWrite func ctx q field value => Sys2Proof.Machine.execRegisterWrite func ctx q field value s
  | .eqheadWrite func ctx value => Sys2Proof.Machine.execEqheadWrite func ctx value s
  | .queueFetch ctx q => Sys2Proof.Machine.execQueueFetch ctx q s
  | .launchEntry ctx q => Sys2Proof.Machine.execLaunchEntry ctx q s
  | .waitEntry ctx q => Sys2Proof.Machine.execWaitEntry ctx q s
  | .waitSatisfied ctx q => Sys2Proof.Machine.execWaitSatisfied ctx q s
  | .signalEntry ctx q => Sys2Proof.Machine.execSignalEntry ctx q s
  | .signalWrite ctx q => Sys2Proof.Machine.execSignalWrite ctx q s
  | .windowUpdateEntry ctx q => Sys2Proof.Machine.execWindowUpdateEntry ctx q s
  | .remapEntry ctx q => Sys2Proof.Machine.execRemapEntry ctx q s
  | .unplaceEntry ctx q => Sys2Proof.Machine.execUnplaceEntry ctx q s
  | .frameEntry ctx q => Sys2Proof.Machine.execFrameEntry ctx q s
  | .mappingDrainComplete change => Sys2Proof.Machine.execMappingDrainComplete change s
  | .copyComplete copy => Sys2Proof.Machine.execCopyComplete copy s
  | .taskIssue cluster entry => Sys2Proof.Machine.execTaskIssue cluster entry s
  | .taskRetire cluster entry => Sys2Proof.Machine.execTaskRetire cluster entry s
  | .bandPowerUp cluster band => Sys2Proof.Machine.execBandPowerUp cluster band s
  | .chargeGrant cluster => Sys2Proof.Machine.execChargeGrant cluster s
  | .chargeRefill cluster => Sys2Proof.Machine.execChargeRefill cluster s
  | .thermalThrottle island reading => Sys2Proof.Machine.execThermalThrottle island reading s
  | .thermalRelease island reading => Sys2Proof.Machine.execThermalRelease island reading s
  | .thermalCritical island reading => Sys2Proof.Machine.execThermalCritical island reading s
  | .contextCreate func desc wrappedKey => Sys2Proof.Machine.execContextCreate func desc wrappedKey s
  | .contextEnable func ctx => Sys2Proof.Machine.execContextEnable func ctx s
  | .contextSuspend func ctx => Sys2Proof.Machine.execContextSuspend func ctx s
  | .contextResume func ctx => Sys2Proof.Machine.execContextResume func ctx s
  | .contextDestroy func ctx => Sys2Proof.Machine.execContextDestroy func ctx s
  | .mapAcknowledge func ctx version => Sys2Proof.Machine.execMapAcknowledge func ctx version s
  | .sliceExpiry => Sys2Proof.Machine.execSliceExpiry s
  | .graceExpiry ctx => Sys2Proof.Machine.execGraceExpiry ctx s
  | .counterClaim func ctx n => Sys2Proof.Machine.execCounterClaim func ctx n s
  | .counterRelease func ctx n => Sys2Proof.Machine.execCounterRelease func ctx n s
  | .traceEnable func ctx ring slots => Sys2Proof.Machine.execTraceEnable func ctx ring slots s
  | .kernelLoad ctx obj => Sys2Proof.Machine.execKernelLoad ctx obj s
  | .kernelUnload ctx base => Sys2Proof.Machine.execKernelUnload ctx base s
  | .errorDetected e => Sys2Proof.Machine.execErrorDetected e s
  | .selfTestComplete u pass => Sys2Proof.Machine.execSelfTestComplete u pass s
  | .replayCheck core quadrant index mismatch => Sys2Proof.Machine.execReplayCheck core quadrant index mismatch s
  | .shadowSet func on => Sys2Proof.Machine.execShadowSet func on s
  | .attestationReport func nonce => Sys2Proof.Machine.execAttestationReport func nonce s
  | .deviceReset => Sys2Proof.Machine.execDeviceReset s
  | .bringupStageComplete pass sigFail t => Sys2Proof.Machine.execBringupStageComplete pass sigFail t s
  | .bringupSelfTestComplete t => Sys2Proof.Machine.execBringupSelfTestComplete t s
  | .hostLinkInit link hot => Sys2Proof.Machine.execHostLinkInit link hot s
  | .peerEnable func port => Sys2Proof.Machine.execPeerEnable func port s
  | .peerDisable func port => Sys2Proof.Machine.execPeerDisable func port s
  | .linkTrained link width speed => Sys2Proof.Machine.execLinkTrained link width speed s
  | .linkTrainTimeout link => Sys2Proof.Machine.execLinkTrainTimeout link s
  | .linkRetrain link => Sys2Proof.Machine.execLinkRetrain link s
  | .chargeTargetSet func cluster rt => Sys2Proof.Machine.execChargeTargetSet func cluster rt s
  | .classWeightSet func cluster cls weight => Sys2Proof.Machine.execClassWeightSet func cluster cls weight s
  | .thermalThresholdSet func island th => Sys2Proof.Machine.execThermalThresholdSet func island th s
  | .fabricCounterOwnerSet func counter owner => Sys2Proof.Machine.execFabricCounterOwnerSet func counter owner s
  | .fabricCounterRead func counter => Sys2Proof.Machine.execFabricCounterRead func counter s
  | .pageTableRead func ia => Sys2Proof.Machine.execPageTableRead func ia s
  | .lullTrial func clusters fractions ms => Sys2Proof.Machine.execLullTrial func clusters fractions ms s
  | .lullStepExpiry => Sys2Proof.Machine.execLullStepExpiry s
  | .traceStop func ctx => Sys2Proof.Machine.execTraceStop func ctx s

end Sys2Proof.Machine
end

