-- ==== Sys2Proof/Machine/Run.lean ====
section
/-!
DEFINITION. The moves of the machine: the issue of a strand's next instruction, an event, the passing of time, a cache line given up,
what the host does directly, and the default order for a machine without an agenda.
-/

namespace Sys2Proof.Machine

/-- The function that gives a command of the host, which takes a host link to reach the device; none for the other events, for the transfers that name
their link, and for instructions. -/
def hostCommand? (i : Instr) : Option Nat :=
  match i with
  | .queueDoorbell func _ _ _ | .queueCtrlEnable func _ _ | .queueCtrlDisable func _ _ | .queueCtrlResume func _ _ | .queueCtrlReset func _ _
  | .queueCtrlDevsub func _ _ _ | .registerWrite func _ _ _ _ | .eqheadWrite func _ _ => some func
  | .contextCreate func _ _ | .contextEnable func _ | .contextSuspend func _ | .contextResume func _ | .contextDestroy func _
  | .mapAcknowledge func _ _ | .counterClaim func _ _ | .counterRelease func _ _ | .traceEnable func _ _ _ | .traceStop func _ => some func
  | .shadowSet func _ | .attestationReport func _ | .peerEnable func _ | .peerDisable func _ => some func
  | .chargeTargetSet func _ _ | .classWeightSet func _ _ _ | .thermalThresholdSet func _ _ | .fabricCounterOwnerSet func _ _
  | .fabricCounterRead func _ | .pageTableRead func _ | .lullTrial func _ _ _ => some func
  | _ => none

/-- A held transfer served: what it asks for, and whether it could be done. -/
def State.serve (t : Transfer) (s : State) : State × Bool :=
  match t.op with
  | .write ia bytes => s.serveAccess t true ia bytes.length bytes
  | .read ia n => s.serveAccess t false ia n []
  | .barWrite off bytes => (s.barWriteNow t.func off bytes, true)
  | .barRead off n => (s.barReadNow t.func off n, true)
  | .command i => (match exec i s with | .next u => u | _ => s, true)

/-- What settles after every move: held transfers that can go on (R484), and then the rest (R432, R433). -/
def State.settledAll (s : State) : State := (if s.dev.held.isEmpty then s else s.drainHeld State.serve).settled

/-- A move's outcome with what settles after it. -/
def settleOut (o : Host.Outcome State Fault Refusal) : Host.Outcome State Fault Refusal :=
  match o with
  | .next s => .next s.settledAll
  | o => o

/-- The next instruction of a strand issues (R154). -/
def State.issueMove (s : State) (id : Nat) : Host.Outcome State Fault Refusal :=
  match s.nextInstr id with
  | (t, some i) => settleOut (exec i t)
  | (t, none) => .next t.settledAll

/-- An event happens; an instruction is no event, and comes only from a strand's fetch. A command of the host is held while the host links retrain (R484,
log 130), and one of a function that is not enabled does not reach the device (R487). -/
def State.eventMove (s : State) (i : Instr) : Host.Outcome State Fault Refusal :=
  if !(encode i).isEmpty then .next s
  else match hostCommand? i with
    | some func =>
      let t : Transfer := { link := 2, func := func, op := .command i }
      if !s.funcOn func then .next s
      else if s.linkHolds 2 || s.heldBefore t then .next (s.hold t) else settleOut (exec i s)
    | none => settleOut (exec i s)

/-- A move of the agenda. -/
def State.move (s : State) (m : Move) : Host.Outcome State Fault Refusal :=
  match m with
  | .issue id => s.issueMove id
  | .event i => s.eventMove i
  | .elapse n => .next (s.elapse n).settledAll
  | .evict core line => .next (s.l1Flush core line).settledAll
  | .giveUp line => .next (s.sliceEvict line).settledAll
  | .hostRing group q step => .next (s.hostRing group q step).settledAll
  | .barRead func off n => .next (s.barRead func off n).settledAll
  | .barWrite func off bytes => .next (s.barWrite func off bytes).settledAll
  | .bar2Read func link off n => .next (s.bar2Read func link off n).settledAll
  | .bar2Write func link off bytes => .next (s.bar2Write func link off bytes).settledAll
  | .sriov n => .next (s.sriov n).settledAll
  | .hostStore ia bytes => .next (s.hostStore ia bytes).settledAll
  | .mapWrite => .next s.mapWriteStep.settledAll
  | .corrected link => .next (s.linkCorrected link).settledAll

/-- The default order (DESIGN CHOICE, log 2): an event that needs no choice, one that time brings, a strand by R323 with 1 ns, or the passing of 1 us. -/
def State.defaultMove (s : State) : Host.Outcome State Fault Refusal :=
  match s.firstOf s.attempts with
  | some t => .next t.settledAll
  | none => match s.firstOf s.timed with
    | some t => .next t.settledAll
    | none =>
      match s.issueOrder.findSome? fun id => match s.issueMove id with
        | .next t => if s.moved id t then some (.next (t.elapse 1).settledAll) else none
        | o => some o with
      | some o => o
      | none => .next (s.elapse 1000).settledAll

end Sys2Proof.Machine
end

