-- ==== Sys2Proof/Machine/Step.lean ====
section
/-!
DEFINITION. One step: the next move of the agenda, or of the default order.
-/

namespace Sys2Proof.Machine

/-- One step of the machine. -/
def step (s : State) : Host.Outcome State Fault Refusal :=
  match s.agenda with
  | m :: rest => ({ s with agenda := rest }).move m
  | [] => s.defaultMove

/-- The state with an instruction of the opcode table stored where the next step fetches it, on the bench (DESIGN CHOICE, log 19) where no strand is about to
issue. -/
def State.withFetchWord (s : State) (nbits w : Nat) : State := s.withCode (tileWord w) (tableBytes nbits w)

end Sys2Proof.Machine
end

