-- ==== Sys2Proof/Safety.lean ====
section
/-!
DEFINITION. What counts as a safe state and a safe step, and the terms in which statements speak of one instruction: the state it issues in
when nothing stands in its way (Calm), what it reads (Srcs), and how a next state differs from it (OnlyStrand, Writes).
-/

namespace Sys2Proof

/-- A state is sound: its memory is in canonical form, so that equal memories are equal data. -/
def Safety.Sound (s : Machine.State) : Prop := Machine.Memory.wf s.mem = true

/-- A step is safe: it answers a next state, so that ordinary data ends no run. -/
def Safety.Goes (s : Machine.State) : Prop := ∃ t, Machine.step s = .next t

namespace Machine

/-! ### Registers -/

/-- Lane `i` of v[n] (R90). -/
def Strand.lane (st : Strand) (n i : Nat) : Word := (st.val n).lanes.get i

/-- v[n] is uniform (R90). -/
def Strand.uniform (st : Strand) (n : Nat) : Bool := (st.val n).isU

/-- A v register that neither holds a reader up nor traps: full, resident, without poison and with no slab held for a merge. -/
def VReg.plain (r : VReg) : Bool := r.full && !r.poison && r.held.isNone && r.shape != .spilled

/-! ### Where an instruction issues -/

/-- The strand `st` of environment `e` is about to issue an instruction of form `f`, and nothing stands in the way of its doing so: the encoding is
legal on its unit and the unit has its features (R56, R448); the strand runs no fork and is no continuation (R272, R283); a tile strand
has its one lane (R394); the quadrant holds a cycle of its burst (R468); no error of the FP32 unit stands (R458); the hazard detector is off (R310); no counter counts instructions and the context's
trace is off (R473, R478). -/
structure Quiet (s : State) (st : Strand) (e : Env) (f : Form) : Prop where
  cur : s.strand? s.cur = some st
  env : s.env? st = some e
  ready : st.state = .ready
  live : st.live ≠ 0
  legal : (f.enc.legal f.x && f.litOk) = true
  unit : f.foreign st.tile = false
  declared : BitVec.ofNat 64 f.needs &&& ~~~e.hdr.features = 0
  present : BitVec.ofNat 64 f.needs &&& ~~~(s.unitFeatures st) = 0
  noCont : st.cont = none
  noForks : st.forks = []
  oneLane : st.tile = true → st.live = 1
  burst : st.tile = false → 0 < s.burstLeft st.core (st.slot % 4)
  noShadow : st.shadowHit = []
  noDetector : e.debug = false ∧ st.dead = {}
  noCounters : ∀ c, s.ctx? e.ctx = some c → c.trace.on = false ∧ ∀ n, 11 ≤ n → n < 16 → (vget c.select n 0).extractLsb' 0 16 ≠ 1

/-- And the v registers it names are plain, and eight slabs of the role's floor are unused (R98): it neither waits nor traps for a register. -/
structure Calm (s : State) (st : Strand) (e : Env) (f : Form) : Prop extends Quiet s st e f where
  plain : ∀ n ∈ f.vregs, (st.reg n).plain = true
  room : st.slabIds.length + 8 ≤ e.floor st

/-! ### What it reads -/

/-- What an instruction finds in its sources: lanes of v[A], of v[B] or word 2 (R41), of v[C] and of v[D]; which of A, B, C and D are uniform; M;
k[K], k[A] and k[B] (R86, R132); the live lanes; and the stochastic-rounding state after its advance (R73). -/
structure Srcs where
  a : Nat → Word
  b : Nat → Word
  c : Nat → Word
  d : Nat → Word
  ua : Bool
  ub : Bool
  uc : Bool
  ud : Bool
  m : Mask
  k : Mask
  ka : Mask
  kb : Mask
  live : Mask
  sr : DWord

/-- k[n] as it is read: k0 is all ones (R86). -/
def Strand.kreg (st : Strand) (n : Nat) : Mask := if n = 0 then BitVec.allOnes 32 else vget st.k n 0

/-- The state an instruction leaves in the stochastic-rounding register: advanced once when RND is 5 and M is not empty (R73). -/
def Strand.srAfter (st : Strand) (f : Form) : DWord :=
  if f.x.rnd = .sr ∧ st.mask f.pred ≠ 0 then srAdvance st.sr else st.sr

/-- The sources of an instruction. -/
def Strand.srcs (st : Strand) (f : Form) : Srcs :=
  { a := st.lane f.a, b := if f.x.immb then fun _ => f.x.imm else st.lane f.b, c := st.lane f.c, d := st.lane f.d
    ua := st.uniform f.a, ub := f.x.immb || st.uniform f.b, uc := st.uniform f.c, ud := st.uniform f.d
    m := st.mask f.pred, k := st.kreg f.x.w0.k.toNat, ka := st.kreg f.a, kb := st.kreg (f.b % 8), live := st.live
    sr := if f.x.rnd = .sr then st.srAfter f else 0 }

/-! ### How the next state differs -/

/-- The strand at the next instruction, nothing else of it changed. -/
def Strand.past (st : Strand) (f : Form) : Strand := { st with pc := st.pc + BitVec.ofNat 64 f.size }

/-- `t` is `s` but for the strand, which is now `st'`, the burst and the replay queue of its core (R459, R468), and the number that the next
object gets. -/
structure OnlyStrand (s t : State) (st' : Strand) : Prop where
  same : t = { s.setStrand st' with cores := t.cores, freshId := t.freshId }
  others : ∀ n, n ≠ st'.core → t.core n = s.core n
  core : (t.core st'.core).predictor = (s.core st'.core).predictor ∧ (t.core st'.core).lastCtx = (s.core st'.core).lastCtx

/-- v[n] of `st'` is full and holds, of the live lanes, `r` in those of `m`, and in the others what v[n] of `st` held (R93). -/
def Wrote (st st' : Strand) (m : Mask) (n : Nat) (r : Nat → Word) : Prop :=
  (st'.reg n).full = true ∧ (st'.reg n).poison = false ∧ (st'.reg n).held = none ∧ (m = 0 → st'.reg n = st.reg n) ∧
  ∀ i, i < 32 → st.live.has i = true → st'.lane n i = if m.has i then r i else st.lane n i

/-- The next instruction is that after the form, and of the strand only the v registers listed have been written, each as Wrote says, with the
order of last writes (R98) and the stochastic-rounding state. -/
structure Writes (st st' : Strand) (f : Form) (ds : List (Nat × (Nat → Word))) : Prop where
  rest : st' = { st.past f with v := st'.v, vecArea := st'.vecArea, order := st'.order, sr := st.srAfter f }
  frame : ∀ n, n ∉ ds.map Prod.fst → st'.reg n = st.reg n ∧ st'.lane n = st.lane n
  wrote : ∀ d ∈ ds, Wrote st st' (st.mask f.pred) d.1 d.2

end Machine

end Sys2Proof
end

