-- ==== Sys2Proof/Certificates/Slice0/Obligations.lean ====
section
/-!
DEFINITION. The statements for the provers, def Obligations.<Name> : Prop, with the tables and relations that they speak of: what each instruction
computes (the ...Rule tables), what a memory, barrier or tile instruction does (Plan), and what an event leaves. Safety.lean defines the state an
instruction issues in (Quiet, Calm), what it reads (Srcs), and how a next state differs (OnlyStrand, Writes).
-/

open Sys2Proof Sys2Proof.Machine

namespace Sys2Proof.Machine

/-- A word by its bits. -/
def wordOf (f : Nat → Bool) : Word := Mask.of f

/-! ### Integer instructions (R126-R131) -/

/-- What an instruction puts into lane `i` of v[D], given its fields and its sources. -/
abbrev LaneRule := X96 → Srcs → Nat → Word

/-- A lane as an integer: unsigned under u32, two's complement under s32 (R126). -/
def intOf (t : Ty) (w : Word) : Int := if t = .u32 then (w.toNat : Int) else w.toInt

/-- An integer held to the range of its TYPE with SAT (R126); the instruction without SAT gives `wrapped`. -/
def satOr (x : X96) (exact : Int) (wrapped : Word) : Word :=
  if x.sat then
    (if x.ty = .u32 then BitVec.ofInt 32 (max 0 (min exact 0xFFFFFFFF)) else BitVec.ofInt 32 (max (-0x80000000) (min exact 0x7FFFFFFF)))
  else wrapped

/-- Position p and length l of the field that y selects; l = 0 when there is none (R129). -/
def fieldPos (y : Word) : Nat := (y.extractLsb' 0 8).toNat

/-- Its length. -/
def fieldLen (y : Word) : Nat := if 32 ≤ fieldPos y then 0 else min (y.extractLsb' 8 8).toNat (32 - fieldPos y)

/-- BFE: the field at bit 0, extended by 0 under u32 and by its top bit under s32 (R129). -/
def bfeRule (t : Ty) (x y : Word) : Word :=
  let p := fieldPos y
  let l := fieldLen y
  wordOf fun j => if l = 0 then false else if j < l then x.getLsbD (p + j) else t = .s32 && x.getLsbD (p + l - 1)

/-- BFI: z with its field replaced by the low bits of x (R129). -/
def bfiRule (x y z : Word) : Word :=
  let p := fieldPos y
  let l := fieldLen y
  wordOf fun j => if p ≤ j ∧ j < p + l then x.getLsbD (j - p) else z.getLsbD j

/-- The rules of the integer instructions. -/
def integerRule : Instr → Option (Form × LaneRule)
  | .iadd o => some (Form.b32 Enc.iadd' o, fun x q i => satOr x (intOf x.ty (q.a i) + intOf x.ty (q.b i)) (q.a i + q.b i))
  | .iaddX96 o => some (Form.x96 Enc.iadd' o, fun x q i => satOr x (intOf x.ty (q.a i) + intOf x.ty (q.b i)) (q.a i + q.b i))
  | .isub o => some (Form.b32 Enc.isub' o, fun x q i => satOr x (intOf x.ty (q.a i) - intOf x.ty (q.b i)) (q.a i - q.b i))
  | .isubX96 o => some (Form.x96 Enc.isub' o, fun x q i => satOr x (intOf x.ty (q.a i) - intOf x.ty (q.b i)) (q.a i - q.b i))
  | .imul o => some (Form.b32 Enc.imul' o, fun _ q i => q.a i * q.b i)
  | .imulX96 o => some (Form.x96 Enc.imul' o, fun _ q i => q.a i * q.b i)
  | .imulh o => some (Form.b32 Enc.imulh' o, fun x q i => BitVec.ofInt 32 (intOf x.ty (q.a i) * intOf x.ty (q.b i) / 2 ^ 32))
  | .imulhX96 o => some (Form.x96 Enc.imulh' o, fun x q i => BitVec.ofInt 32 (intOf x.ty (q.a i) * intOf x.ty (q.b i) / 2 ^ 32))
  | .imad o => some (Form.x96 Enc.imad' o, fun x q i =>
      satOr x (intOf x.ty (q.a i) * intOf x.ty (q.b i) + intOf x.ty (q.c i)) (q.a i * q.b i + q.c i))
  | .imin o => some (Form.b32 Enc.imin' o, fun x q i => if intOf x.ty (q.a i) ≤ intOf x.ty (q.b i) then q.a i else q.b i)
  | .iminX96 o => some (Form.x96 Enc.imin' o, fun x q i => if intOf x.ty (q.a i) ≤ intOf x.ty (q.b i) then q.a i else q.b i)
  | .imax o => some (Form.b32 Enc.imax' o, fun x q i => if intOf x.ty (q.a i) ≤ intOf x.ty (q.b i) then q.b i else q.a i)
  | .imaxX96 o => some (Form.x96 Enc.imax' o, fun x q i => if intOf x.ty (q.a i) ≤ intOf x.ty (q.b i) then q.b i else q.a i)
  | .and o => some (Form.b32 Enc.and' o, fun _ q i => q.a i &&& q.b i)
  | .andX96 o => some (Form.x96 Enc.and' o, fun _ q i => q.a i &&& q.b i)
  | .or o => some (Form.b32 Enc.or' o, fun _ q i => q.a i ||| q.b i)
  | .orX96 o => some (Form.x96 Enc.or' o, fun _ q i => q.a i ||| q.b i)
  | .xor o => some (Form.b32 Enc.xor' o, fun _ q i => q.a i ^^^ q.b i)
  | .xorX96 o => some (Form.x96 Enc.xor' o, fun _ q i => q.a i ^^^ q.b i)
  | .andn o => some (Form.b32 Enc.andn' o, fun _ q i => q.a i &&& ~~~(q.b i))
  | .andnX96 o => some (Form.x96 Enc.andn' o, fun _ q i => q.a i &&& ~~~(q.b i))
  | .shl o => some (Form.b32 Enc.shl' o, fun _ q i => if 32 ≤ (q.b i).toNat then 0 else q.a i <<< (q.b i).toNat)
  | .shlX96 o => some (Form.x96 Enc.shl' o, fun _ q i => if 32 ≤ (q.b i).toNat then 0 else q.a i <<< (q.b i).toNat)
  | .shr o => some (Form.b32 Enc.shr' o, fun _ q i => if 32 ≤ (q.b i).toNat then 0 else q.a i >>> (q.b i).toNat)
  | .shrX96 o => some (Form.x96 Enc.shr' o, fun _ q i => if 32 ≤ (q.b i).toNat then 0 else q.a i >>> (q.b i).toNat)
  | .sar o => some (Form.b32 Enc.sar' o, fun _ q i => (q.a i).sshiftRight (min (q.b i).toNat 31))
  | .sarX96 o => some (Form.x96 Enc.sar' o, fun _ q i => (q.a i).sshiftRight (min (q.b i).toNat 31))
  | .ineg o => some (Form.b32 Enc.ineg' o, fun _ q i => -q.a i)
  | .inegX96 o => some (Form.x96 Enc.ineg' o, fun _ q i => -q.a i)
  | .iabs o => some (Form.b32 Enc.iabs' o, fun x q i => BitVec.ofNat 32 (intOf x.ty (q.a i)).natAbs)
  | .iabsX96 o => some (Form.x96 Enc.iabs' o, fun x q i => BitVec.ofNat 32 (intOf x.ty (q.a i)).natAbs)
  | .not o => some (Form.b32 Enc.not' o, fun _ q i => ~~~(q.a i))
  | .notX96 o => some (Form.x96 Enc.not' o, fun _ q i => ~~~(q.a i))
  | .popc o => some (Form.b32 Enc.popc' o, fun _ q i => BitVec.ofNat 32 ((List.range 32).countP fun j => (q.a i).getLsbD j))
  | .popcX96 o => some (Form.x96 Enc.popc' o, fun _ q i => BitVec.ofNat 32 ((List.range 32).countP fun j => (q.a i).getLsbD j))
  | .clz o => some (Form.b32 Enc.clz' o, fun _ q i => BitVec.ofNat 32 ((List.range 32).takeWhile fun j => !(q.a i).getLsbD (31 - j)).length)
  | .clzX96 o =>
    some (Form.x96 Enc.clz' o, fun _ q i => BitVec.ofNat 32 ((List.range 32).takeWhile fun j => !(q.a i).getLsbD (31 - j)).length)
  | .brev o => some (Form.b32 Enc.brev' o, fun _ q i => (q.a i).reverse)
  | .brevX96 o => some (Form.x96 Enc.brev' o, fun _ q i => (q.a i).reverse)
  | .bfe o => some (Form.b32 Enc.bfe' o, fun x q i => bfeRule x.ty (q.a i) (q.b i))
  | .bfeX96 o => some (Form.x96 Enc.bfe' o, fun x q i => bfeRule x.ty (q.a i) (q.b i))
  | .bfi o => some (Form.x96 Enc.bfi' o, fun _ q i => bfiRule (q.a i) (q.b i) (q.c i))
  | .isel o => some (Form.b32 Enc.isel' o, fun _ q i => if q.k.has i then q.a i else q.b i)
  | .iselX96 o => some (Form.x96 Enc.isel' o, fun _ q i => if q.k.has i then q.a i else q.b i)
  | _ => none

end Sys2Proof.Machine

/-- For every form of the integer instructions (add, subtract, multiply, minimum, maximum, logic, shifts, the unary group, bit fields, select), in
every state in which the instruction issues with nothing in its way (Calm) exec answers a next state; v[D] is full and holds, in each live lane of
M, the function of the lane's sources that the spec gives, and in the other live lanes what it held; the strand is at the next instruction and
nothing else has changed, all of memory included. (R126, R128, R129.) -/
def Obligations.IntegerResultPerLane : Prop :=
  ∀ i f g, integerRule i = some (f, g) → ∀ s st e, Calm s st e f →
    ∃ t st', exec i s = .next t ∧ OnlyStrand s t st' ∧ Writes st st' f [(f.d, g f.x (st.srcs f))]

namespace Sys2Proof.Machine

/-! ### Moves, lane exchange and identity (R113-R121, R134-R139) -/

/-- SHFL: the lane that lane `i` takes, by FUNC and the value n of the index in lane `i` (R136). -/
def shuffleFrom (fn : Nat) (n : Word) (i : Nat) : Nat :=
  if fn = 0 then n.toNat % 32
  else if fn = 1 then (i + n.toNat) % 32
  else if fn = 2 then
    (let g := n.toNat % 8
     if 5 < g then i else i - i % 2 ^ g + n.toNat / 256 % 32 % 2 ^ g)
  else i ^^^ n.toNat % 32

/-- LRED: two subtrees combined, where either may hold no lane of M (R79). -/
def joinLanes (g : Word → Word → Word) : Option Word → Option Word → Option Word
  | some x, some y => some (g x y)
  | some x, none => some x
  | none, y => y

/-- LRED: the fixed tree over the 2^k lanes from lane `i` on (R79). -/
def laneTree (g : Word → Word → Word) (m : Mask) (x : Nat → Word) : Nat → Nat → Option Word
  | 0, i => if m.has i then some (x i) else none
  | k + 1, i => joinLanes g (laneTree g m x k i) (laneTree g m x k (i + 2 ^ k))

/-- LRED: its function of two values, by FUNC and TYPE (R138). -/
def combineRule (fn : Nat) (t : Ty) (x y : Word) : Word :=
  if t = .f32 then
    (if fn = 0 then BitVec.ofNat 32 (fp32.round .rne false 0 (FVal.add false (f32 x) (f32 y)))
     else BitVec.ofNat 32 (fminmax fp32 (fn = 2) x.toNat y.toNat))
  else if fn = 0 then x + y
  else if fn = 1 then (if intOf t x ≤ intOf t y then x else y)
  else if fn = 2 then (if intOf t x ≤ intOf t y then y else x)
  else if fn = 3 then x &&& y
  else if fn = 4 then x ||| y
  else x ^^^ y

/-- The instructions that copy, permute or reduce lanes, and the reads of k registers. -/
def moveRule : Instr → Option (Form × LaneRule)
  | .mov o => some (Form.b32 Enc.mov' o, fun _ q i => q.a i)
  | .movX96 o => some (Form.x96 Enc.mov' o, fun _ q i => q.a i)
  | .movi o => some (Form.bl Enc.movi' o (o.lit.hi == 0), fun _ _ _ => o.lit.lo)
  | .lane o => some (Form.b32 Enc.lane' o, fun _ q i => q.a i + BitVec.ofNat 32 i * q.b i)
  | .laneX96 o => some (Form.x96 Enc.lane' o, fun _ q i => q.a i + BitVec.ofNat 32 i * q.b i)
  | .shapef o => if o.b = 3 then none else some (Form.b32 Enc.shapef' o, fun _ q i => q.a i)
  | .shapefX96 o => if o.w0.b = 3 then none else some (Form.x96 Enc.shapef' o, fun _ q i => q.a i)
  | .sqz o => some (Form.b32 Enc.sqz' o, fun _ q i => q.a i)
  | .sqzX96 o => some (Form.x96 Enc.sqz' o, fun _ q i => q.a i)
  | .bcast o => some (Form.b32 Enc.bcast' o, fun x q _ => q.a x.w0.b.toNat)
  | .bcastX96 o => some (Form.x96 Enc.bcast' o, fun x q _ => q.a x.w0.b.toNat)
  | .shfl o => some (Form.b32 Enc.shfl' o, fun x q i => q.a (shuffleFrom x.func.toNat (q.b i) i))
  | .shflX96 o => some (Form.x96 Enc.shfl' o, fun x q i => q.a (shuffleFrom x.func.toNat (q.b i) i))
  | .lred o => some (Form.b32 Enc.lred' o, fun x q _ => (laneTree (combineRule x.func.toNat x.ty) q.m q.a 5 0).getD 0)
  | .lredX96 o => some (Form.x96 Enc.lred' o, fun x q _ => (laneTree (combineRule x.func.toNat x.ty) q.m q.a 5 0).getD 0)
  | .kpop o => some (Form.b32 Enc.kpop' o, fun _ q _ => BitVec.ofNat 32 ((List.range 32).countP q.ka.has))
  | .kpopX96 o => some (Form.x96 Enc.kpop' o, fun _ q _ => BitVec.ofNat 32 ((List.range 32).countP q.ka.has))
  | .kget o => some (Form.b32 Enc.kget' o, fun _ q _ => q.ka)
  | .kgetX96 o => some (Form.x96 Enc.kget' o, fun _ q _ => q.ka)
  | .voteX96 o =>
    if o.func = 2 then some (Form.x96 Enc.vote' o, fun _ q _ => wordOf fun j => q.m.has j && q.a j != 0) else none
  | _ => none

/-- SHAPEF that leaves its copy V-spilled, B = 3 (R119). -/
def spilledCopyForm : Instr → Option Form
  | .shapef o => if o.b = 3 then some (Form.b32 Enc.shapef' o) else none
  | .shapefX96 o => if o.w0.b = 3 then some (Form.x96 Enc.shapef' o) else none
  | _ => none

/-- The 128 bytes of a register's slot in the vector area (R106). -/
def slotBytesOf (l : Lanes) : List Byte := (List.range 32).flatMap fun i => bytesLE 4 (l.get i).toNat

end Sys2Proof.Machine

/-- MOV, MOVI, LANE, SHAPEF, SQZ, BCAST, SHFL, LRED, KPOP, KGET and VOTE ballot, in every form: from every Calm state exec answers a next state; v[D]
is full and holds, in each live lane of M, the value of the table moveRule and in the other live lanes what it held; the strand is at the next
instruction and nothing else has changed, memory included. An LRED under an empty M writes nothing. SHAPEF with B = 3, the page of v[D]'s slot being
in place: as well, on a core v[D] is V-spilled and its 128 bytes stand in the slot, unless M is empty; on an MCC it stays U. (04_register.md
R114-R121, R106, 05_arith.md R134-R138, 03_numbers.md R79.) -/
def Obligations.MoveResultPerLane : Prop :=
  (∀ i f g, moveRule i = some (f, g) → ∀ s st e, Calm s st e f →
    ∃ t st', exec i s = .next t ∧ OnlyStrand s t st' ∧ Writes st st' f [(f.d, g f.x (st.srcs f))]) ∧
  ∀ i f, spilledCopyForm i = some f → ∀ s st e, Calm s st e f → s.pageReady (pageOf (st.ssa + 128 * f.d)) = true →
    ∃ t st' l, exec i s = .next t ∧ Writes st st' f [(f.d, (st.srcs f).a)] ∧
      if st.mask f.pred = 0 ∨ st.tile = true then OnlyStrand s t st'
      else OnlyStrand (s.saveBytes (st.ssa + 128 * f.d) (slotBytesOf l)) t st' ∧ (st'.reg f.d).shape = .spilled ∧ st'.val f.d = .v l

namespace Sys2Proof.Machine

/-! ### Floating point (R140-R145) -/

/-- A word by its elements, from the low end (R68). -/
def packed (t : Ty) (f : Nat → Nat) : Word := BitVec.ofNat 32 ((List.range t.count).map fun e => f e * 2 ^ (Ty.elemBits t * e)).sum

/-- The encoding of element `e` of a lane (R68). -/
def elemBitsOf (t : Ty) (w : Word) (e : Nat) : Nat := w.toNat / 2 ^ (Ty.elemBits t * e) % 2 ^ Ty.elemBits t

/-- The lane whose draws lane `i` takes: with every source uniform the result is computed once, in the lowest lane of M (R74). -/
def drawLane (once : Bool) (m : Mask) (i : Nat) : Nat := if once then m.lowest else i

/-- Each element formed exactly and rounded once (R140); an infinite result is representable, and stays as it is but for SAT (R70, R71, log 24). -/
def roundedRule (x : X96) (sr : DWord) (lane : Nat) (exact : Nat → FVal) : Word :=
  packed x.ty fun e => toElem x.ty (match exact e with | .inf _ => .rne | _ => x.rnd) x.sat (srDraw sr lane e) (exact e)

/-- FADD and FSUB (R140). -/
def sumRule (x : X96) (neg : Bool) (q : Srcs) (i : Nat) : Word :=
  roundedRule x q.sr (drawLane (q.ua && q.ub) q.m i) fun e =>
    let b := elemValue x.ty (q.b i).toNat e
    FVal.add (x.rnd = .rd) (elemValue x.ty (q.a i).toNat e) (if neg then b.negate else b)

/-- FMUL (R140). -/
def productRule (x : X96) (q : Srcs) (i : Nat) : Word :=
  roundedRule x q.sr (drawLane (q.ua && q.ub) q.m i) fun e =>
    FVal.mul (elemValue x.ty (q.a i).toNat e) (elemValue x.ty (q.b i).toNat e)

/-- FFMA (R140). -/
def fusedRule (x : X96) (q : Srcs) (i : Nat) : Word :=
  roundedRule x q.sr (drawLane (q.ua && q.ub && q.uc) q.m i) fun e =>
    FVal.add (x.rnd = .rd) (FVal.mul (elemValue x.ty (q.a i).toNat e) (elemValue x.ty (q.b i).toNat e)) (elemValue x.ty (q.c i).toNat e)

/-- A function of the encodings of two elements, in the elements' format (R141). -/
def pairRule (t : Ty) (g : Fmt → Nat → Nat → Nat) (a b : Word) : Word :=
  match Ty.fmt? t with
  | some m => packed t fun e => g m (elemBitsOf t a e) (elemBitsOf t b e)
  | none => 0

/-- FNEG and FABS: the sign bit of each element flipped or cleared, a NaN made canonical (R143). -/
def signRule (t : Ty) (clear : Bool) (a : Word) : Word :=
  match Ty.fmt? t with
  | some m => packed t fun e =>
      let y := elemBitsOf t a e
      let low := y % 2 ^ (m.width - 1)
      if (m.decode y).isNan then m.nanEnc else if clear || low != y then low else low + 2 ^ (m.width - 1)
  | none => 0

/-- FCLASS: one bit for the class of the operand (R145). -/
def classRule (x : Word) : Word :=
  let n := (f32 x).neg
  BitVec.ofNat 32 (2 ^ (
    match f32 x with
    | .nan => if x.getLsbD 22 then 9 else 8
    | .inf _ => if n then 0 else 7
    | .fin _ m _ => if m = 0 then (if n then 3 else 4) else if m < 2 ^ 23 then (if n then 2 else 5) else if n then 1 else 6))

/-- The rules of the floating-point instructions. FRCP to FTANH are what the implementation chose within the bounds of R144. -/
def floatRule : Instr → Option (Form × LaneRule)
  | .fadd o => some (Form.b32 Enc.fadd' o, fun x q i => sumRule x false q i)
  | .faddX96 o => some (Form.x96 Enc.fadd' o, fun x q i => sumRule x false q i)
  | .fsub o => some (Form.b32 Enc.fsub' o, fun x q i => sumRule x true q i)
  | .fsubX96 o => some (Form.x96 Enc.fsub' o, fun x q i => sumRule x true q i)
  | .fmul o => some (Form.b32 Enc.fmul' o, fun x q i => productRule x q i)
  | .fmulX96 o => some (Form.x96 Enc.fmul' o, fun x q i => productRule x q i)
  | .ffma o => some ({ Form.b32 Enc.ffma' o with x := o.ffma }, fun x q i => fusedRule x q i)
  | .ffmaX96 o => some (Form.x96 Enc.ffma' o, fun x q i => fusedRule x q i)
  | .fmin o => some (Form.b32 Enc.fmin' o, fun x q i => pairRule x.ty (fminmax · false) (q.a i) (q.b i))
  | .fminX96 o => some (Form.x96 Enc.fmin' o, fun x q i => pairRule x.ty (fminmax · false) (q.a i) (q.b i))
  | .fmax o => some (Form.b32 Enc.fmax' o, fun x q i => pairRule x.ty (fminmax · true) (q.a i) (q.b i))
  | .fmaxX96 o => some (Form.x96 Enc.fmax' o, fun x q i => pairRule x.ty (fminmax · true) (q.a i) (q.b i))
  | .fneg o => some (Form.b32 Enc.fneg' o, fun x q i => signRule x.ty false (q.a i))
  | .fnegX96 o => some (Form.x96 Enc.fneg' o, fun x q i => signRule x.ty false (q.a i))
  | .fabs o => some (Form.b32 Enc.fabs' o, fun x q i => signRule x.ty true (q.a i))
  | .fabsX96 o => some (Form.x96 Enc.fabs' o, fun x q i => signRule x.ty true (q.a i))
  | .frcp o => some (Form.b32 Enc.frcp' o, fun _ q i => frcp (q.a i))
  | .frcpX96 o => some (Form.x96 Enc.frcp' o, fun _ q i => frcp (q.a i))
  | .frsq o => some (Form.b32 Enc.frsq' o, fun _ q i => frsq (q.a i))
  | .frsqX96 o => some (Form.x96 Enc.frsq' o, fun _ q i => frsq (q.a i))
  | .fsqrt o => some (Form.b32 Enc.fsqrt' o, fun _ q i => fsqrt (q.a i))
  | .fsqrtX96 o => some (Form.x96 Enc.fsqrt' o, fun _ q i => fsqrt (q.a i))
  | .fexp2 o => some (Form.b32 Enc.fexp2' o, fun _ q i => fexp2 (q.a i))
  | .fexp2X96 o => some (Form.x96 Enc.fexp2' o, fun _ q i => fexp2 (q.a i))
  | .flog2 o => some (Form.b32 Enc.flog2' o, fun _ q i => flog2 (q.a i))
  | .flog2X96 o => some (Form.x96 Enc.flog2' o, fun _ q i => flog2 (q.a i))
  | .fsin o => some (Form.b32 Enc.fsin' o, fun _ q i => fsin (q.a i))
  | .fsinX96 o => some (Form.x96 Enc.fsin' o, fun _ q i => fsin (q.a i))
  | .fcos o => some (Form.b32 Enc.fcos' o, fun _ q i => fcos (q.a i))
  | .fcosX96 o => some (Form.x96 Enc.fcos' o, fun _ q i => fcos (q.a i))
  | .ftanh o => some (Form.b32 Enc.ftanh' o, fun _ q i => ftanh (q.a i))
  | .ftanhX96 o => some (Form.x96 Enc.ftanh' o, fun _ q i => ftanh (q.a i))
  | .fclass o => some (Form.b32 Enc.fclass' o, fun _ q i => classRule (q.a i))
  | .fclassX96 o => some (Form.x96 Enc.fclass' o, fun _ q i => classRule (q.a i))
  | _ => none

/-! ### Conversions (R146-R149) -/

/-- A lane with element `s` of width `w` replaced (R147). -/
def inserted (w s : Nat) (old : Word) (y : Nat) : Word := wordOf fun j => if j / w = s then y.testBit (j % w) else old.getLsbD j

/-- CVT: element to element where both types have as many, element sel to a lane, or a lane into element sel of the old lane (R147). -/
def convertRule (x : X96) (q : Srcs) (i : Nat) : Word :=
  let src := (srcTy? x.func).getD .f32
  let from' := fun j => elemValue src (q.a i).toNat j
  let el := fun lane e j => toElem x.ty x.rnd x.sat (srDraw q.sr lane e) (from' j)
  if x.ty.count = 1 then BitVec.ofNat 32 (el (drawLane q.ua q.m i) 0 (if src.count = 1 then 0 else x.sel))
  else if src.count = 1 then inserted (Ty.elemBits x.ty) x.sel (q.d i) (el (drawLane (q.ua && q.ud) q.m i) x.sel 0)
  else packed x.ty fun e => el (drawLane q.ua q.m i) e e

/-- CVTD: element sel times the FP32 scale, rounded once (R148). -/
def dequantRule (x : X96) (q : Srcs) (i : Nat) : Word :=
  BitVec.ofNat 32 (toElem x.ty x.rnd x.sat (srDraw q.sr (drawLane (q.ua && q.ub) q.m i) 0)
    (FVal.mul (elemValue ((srcTy? x.func).getD .f32) (q.a i).toNat x.sel) (f32 (q.b i))))

/-- CVTQ: the FP32 product rounded once into element FUNC[2:0] of the old lane (R149). -/
def quantRule (x : X96) (q : Srcs) (i : Nat) : Word :=
  let e := x.func.toNat % 8
  inserted (Ty.elemBits x.ty) e (q.d i)
    (toElem x.ty x.rnd x.sat (srDraw q.sr (drawLane (q.ua && q.ub && q.ud) q.m i) e) (FVal.mul (f32 (q.a i)) (f32 (q.b i))))

/-- The rules of the conversions that leave the amax registers. -/
def conversionRule : Instr → Option (Form × LaneRule)
  | .cvt o => some (Form.b32 Enc.cvt' o, fun x q i => convertRule x q i)
  | .cvtX96 o => some (Form.x96 Enc.cvt' o, fun x q i => convertRule x q i)
  | .cvtd o => some (Form.b32 Enc.cvtd' o, fun x q i => dequantRule x q i)
  | .cvtdX96 o => some (Form.x96 Enc.cvtd' o, fun x q i => dequantRule x q i)
  | .cvtq o => if o.x1 then none else some (Form.x96 Enc.cvtq' o, fun x q i => quantRule x q i)
  | _ => none

end Sys2Proof.Machine

/-- FADD, FSUB, FMUL, FFMA, FMIN, FMAX and the unary group, in every form: from every Calm state exec answers a next state; v[D] is full and holds in
each live lane of M the value of the table floatRule (the exact result of each element rounded once by TYPE, RND and SAT, with the stochastic-
rounding draws of R73) and in the other live lanes what it held; the stochastic-rounding state is advanced once when RND is 5 and M is not empty;
nothing else has changed. For FRCP to FTANH the value is the function that the implementation chose within the bounds of R144: a free value of the
model (log entry 10). An exact result that is infinite stays so under every RND where SAT is 0, which is the model's reading (log entry 24).
(05_arith.md R140-R145, 03_numbers.md R70-R76.) -/
def Obligations.FloatResultPerLane : Prop :=
  ∀ i f g, floatRule i = some (f, g) → ∀ s st e, Calm s st e f →
    ∃ t st', exec i s = .next t ∧ OnlyStrand s t st' ∧ Writes st st' f [(f.d, g f.x (st.srcs f))]

/-- CVT, CVTD and CVTQ without an amax update, in every form and for every pair of formats: from every Calm state exec answers a next state; v[D] is
full and holds in each live lane of M the converted element, elements, or the old lane with one element replaced, and in the other live lanes what
it held; nothing else has changed. (05_arith.md R146-R149, 03_numbers.md R61-R75.) -/
def Obligations.ConversionResultPerLane : Prop :=
  ∀ i f g, conversionRule i = some (f, g) → ∀ s st e, Calm s st e f →
    ∃ t st', exec i s = .next t ∧ OnlyStrand s t st' ∧ Writes st st' f [(f.d, g f.x (st.srcs f))]

namespace Sys2Proof.Machine

/-! ### Masks, and b registers (R86, R87, R122, R130-R137, R142) -/

/-- The condition of a code, on integers read by TYPE (R54, R130). -/
def intCond (c : Nat) (t : Ty) (x y : Word) : Bool :=
  let a := intOf t x
  let b := intOf t y
  if c = 0 then a = b else if c = 1 then a ≠ b else if c = 2 then a < b else if c = 3 then a ≤ b else if c = 4 then b < a else b ≤ a

/-- The condition of a code, on FP32 values: a NaN is unordered, and -0 equals +0 (R142). -/
def floatCond (c : Nat) (x y : Word) : Bool :=
  let a := f32 x
  let b := f32 y
  let un := a.isNan || b.isNan
  let eq := !un && !FVal.lt a b && !FVal.lt b a
  if c = 0 then eq else if c = 1 then !eq else if c = 2 then FVal.lt a b else if c = 3 then FVal.lt a b || eq
  else if c = 4 then FVal.lt b a else if c = 5 then FVal.lt b a || eq else if c = 6 then !un else un

/-- All ones or 0, as a condition holds (R137). -/
def everyLane (c : Bool) : Mask := if c then BitVec.allOnes 32 else 0

/-- VOTE but for the ballot: all, any, and whether the lanes of M hold one value (R137). -/
def voteRule (fn : Nat) (q : Srcs) : Mask :=
  let ls := (List.range 32).filter q.m.has
  everyLane (if fn = 0 then ls.all fun j => q.a j != 0 else if fn = 1 then ls.any fun j => q.a j != 0
             else ls.all fun j => ls.all fun l => q.a j == q.a l)

/-- What each instruction with a k result puts into the lanes of M; the last part says whether v[A] must be uniform (R133). -/
def maskRule : Instr → Option (Form × (X96 → Srcs → Mask) × Bool)
  | .icmp o => some (Form.b32 Enc.icmp' o, fun x q => wordOf fun i => intCond x.func.toNat x.ty (q.a i) (q.b i), false)
  | .icmpX96 o => some (Form.x96 Enc.icmp' o, fun x q => wordOf fun i => intCond x.func.toNat x.ty (q.a i) (q.b i), false)
  | .fcmp o => some (Form.b32 Enc.fcmp' o, fun x q => wordOf fun i => floatCond x.func.toNat (q.a i) (q.b i), false)
  | .fcmpX96 o => some (Form.x96 Enc.fcmp' o, fun x q => wordOf fun i => floatCond x.func.toNat (q.a i) (q.b i), false)
  | .kand o => some (Form.b32 Enc.kand' o, fun _ q => q.ka &&& q.kb, false)
  | .kandX96 o => some (Form.x96 Enc.kand' o, fun _ q => q.ka &&& q.kb, false)
  | .kor o => some (Form.b32 Enc.kor' o, fun _ q => q.ka ||| q.kb, false)
  | .korX96 o => some (Form.x96 Enc.kor' o, fun _ q => q.ka ||| q.kb, false)
  | .kxor o => some (Form.b32 Enc.kxor' o, fun _ q => q.ka ^^^ q.kb, false)
  | .kxorX96 o => some (Form.x96 Enc.kxor' o, fun _ q => q.ka ^^^ q.kb, false)
  | .kandn o => some (Form.b32 Enc.kandn' o, fun _ q => q.ka &&& ~~~q.kb, false)
  | .kandnX96 o => some (Form.x96 Enc.kandn' o, fun _ q => q.ka &&& ~~~q.kb, false)
  | .knot o => some (Form.b32 Enc.knot' o, fun _ q => ~~~q.ka, false)
  | .knotX96 o => some (Form.x96 Enc.knot' o, fun _ q => ~~~q.ka, false)
  | .kmov o => some (Form.b32 Enc.kmov' o, fun _ q => q.ka, false)
  | .kmovX96 o => some (Form.x96 Enc.kmov' o, fun _ q => q.ka, false)
  | .kset o => some (Form.b32 Enc.kset' o, fun _ q => q.a 0, true)
  | .ksetX96 o => some (Form.x96 Enc.kset' o, fun x q => if x.x1 then wordOf fun i => q.a i != 0 else q.a 0, !o.x1)
  | .vote o => some (Form.b32 Enc.vote' o, fun x q => voteRule x.func.toNat q, false)
  | .voteX96 o => if o.func = 2 then none else some (Form.x96 Enc.vote' o, fun x q => voteRule x.func.toNat q, false)
  | _ => none

/-- What each instruction with a b result puts into b[D], and which v registers must be uniform (R122). -/
def baseRule : Instr → Option (Form × (Strand → Form → DWord) × List Nat)
  | .badd o => let f := Form.b32 Enc.badd' o
               some (f, fun st f => vget st.b f.a 0 + ((st.srcs f).b 0).signExtend 64, [f.b])
  | .baddX96 o => let f := Form.x96 Enc.badd' o
                  some (f, fun st f => vget st.b f.a 0 + ((st.srcs f).b 0).signExtend 64, if o.immb then [] else [f.b])
  | .bmov o => let f := Form.b32 Enc.bmov' o
               some (f, fun st f => st.lane (f.a + 1) 0 ++ st.lane f.a 0, [f.a, f.a + 1])
  | .bmovX96 o => let f := Form.x96 Enc.bmov' o
                  some (f, fun st f => st.lane (f.a + 1) 0 ++ st.lane f.a 0, [f.a, f.a + 1])
  | .blit o => some (Form.bl Enc.blit' o true, fun _ _ => o.lit, [])
  | _ => none

end Sys2Proof.Machine

/-- ICMP, FCMP, the KOP group, KSET and VOTE all, any and eq, in every form: from every Calm state (and, for KSET that takes the value itself, a
uniform v[A]) exec answers a next state in which k[D] holds the result in the bits of M and what it held in the others; the strand is at the next
instruction and nothing else has changed. (R130, R132, R142.) -/
def Obligations.MaskResultUnderM : Prop :=
  ∀ i f g u, maskRule i = some (f, g, u) → ∀ s st e, Calm s st e f → (u = true → st.uniform f.a = true) →
    let m := st.mask f.pred
    ∃ t, exec i s = .next t ∧
      OnlyStrand s t { st.past f with k := vset st.k f.d ((vget st.k f.d 0 &&& ~~~m) ||| (g f.x (st.srcs f) &&& m)) }

/-- From every Calm state in which the v registers that BADD or BMOV read are uniform, exec answers a next state in which b[D] holds the sum mod 2^64,
the pair, or the literal, unless M is empty; the strand is at the next instruction and nothing else has changed. (04_register.md R122.) -/
def Obligations.BaseResult : Prop :=
  ∀ i f g us, baseRule i = some (f, g, us) → ∀ s st e, Calm s st e f → (∀ n ∈ us, st.uniform n = true) →
    ∃ t, exec i s = .next t ∧
      OnlyStrand s t { st.past f with b := if st.mask f.pred = 0 then st.b else vset st.b f.d (g st f) }

namespace Sys2Proof.Machine

/-! ### amax registers (R81-R85, R149-R151) -/

/-- A value without its sign. -/
def magnitude : FVal → FVal
  | .nan => .nan
  | .inf _ => .inf false
  | .fin _ k e => .fin false k e

/-- An update of an amax register with the code of a format and the values it sees (R83). -/
def amaxRule (r : Amax) (c : Nat) (xs : List FVal) : Amax :=
  if xs = [] then r else
    { mixed := r.mixed || (r.fmt != 0 && r.fmt.toNat != c), fmt := BitVec.ofNat 4 c, nanSeen := r.nanSeen || xs.any FVal.isNan
      max := xs.foldl (fun m x => if FVal.lt (f32 m) (magnitude x) then toF32 (magnitude x) else m) r.max }

/-- The lanes of v[A] in M; one of them stands for all where v[A] is uniform. -/
def lanesOfA (q : Srcs) : List Nat :=
  let ls := (List.range 32).filter q.m.has
  if q.ua then ls.take 1 else ls

/-- The group with m[n] replaced. -/
def withAmax (g : Group) (n : Nat) (r : Amax) : Group := { g with amax := vset g.amax n r }

/-- The 64 bits of an amax register: MAX, then FMT, NANSEEN and MIXED (R81). -/
def amaxBits (r : Amax) : DWord :=
  (BitVec.ofNat 26 0 ++ (if r.mixed then 1#1 else 0#1) ++ (if r.nanSeen then 1#1 else 0#1) ++ r.fmt) ++ r.max

/-- AMAX. -/
def amaxForm : Instr → Option Form
  | .amax o => some (Form.b32 Enc.amax' o)
  | .amaxX96 o => some (Form.x96 Enc.amax' o)
  | _ => none

/-- AMGET. -/
def amgetForm : Instr → Option Form
  | .amget o => some (Form.b32 Enc.amget' o)
  | .amgetX96 o => some (Form.x96 Enc.amget' o)
  | _ => none

/-! ### Identity, shape, and no effect (R55, R117, R118, R139) -/

/-- What GID reads, in lane `i`, by FUNC (R55, R139); the trap state reads 0 outside the handler (R182). -/
def identityRule (st : Strand) (e : Env) (g : Group) (t : Team) (l : Launch) (fn i : Nat) : Word :=
  let n := fun (k : Nat) => BitVec.ofNat 32 k
  let trap := match st.handler with | some h => h.trap | none => { cause := 0, addr := 0, lanes := 0, detail := 0 }
  if fn = 0 then (if st.tile then 0 else n i)
  else if fn = 1 then n st.idx
  else if fn = 2 then (if st.tile then 8 else n g.gi)
  else if fn = 3 then n (t.index % l.gx)
  else if fn = 4 then n (t.index / l.gx % l.gy)
  else if fn = 5 then n (t.index / l.gx / l.gy)
  else if fn = 6 then n l.gx
  else if fn = 7 then n l.gy
  else if fn = 8 then n l.gz
  else if fn = 9 then (if st.tile then n (0x1000 + st.core) else n st.core)
  else if fn = 10 then (if e.feed then 0 else 1)
  else if fn = 11 then n trap.cause
  else if fn = 12 then trap.addr.lo
  else if fn = 13 then trap.addr.hi
  else if fn = 14 then trap.lanes
  else trap.detail

/-- GID. -/
def gidForm : Instr → Option Form
  | .gid o => some (Form.b32 Enc.gid' o)
  | .gidX96 o => some (Form.x96 Enc.gid' o)
  | _ => none

/-- SHAPE. -/
def shapeForm : Instr → Option Form
  | .shape o => some (Form.b32 Enc.shape' o)
  | .shapeX96 o => some (Form.x96 Enc.shape' o)
  | _ => none

/-- The shape code of a register: U, A and V, and 3 for one that waits for its producer (R117). -/
def shapeRule (r : VReg) : Nat :=
  if r.full then (match r.shape with | .u _ => 0 | .a _ _ => 1 | _ => 2) else 3

/-- SHAPEA. -/
def shapeaForm : Instr → Option Form
  | .shapea o => some (Form.b32 Enc.shapea' o)
  | .shapeaX96 o => some (Form.x96 Enc.shapea' o)
  | _ => none

/-- BGET. -/
def bgetForm : Instr → Option Form
  | .bget o => some (Form.b32 Enc.bget' o)
  | .bgetX96 o => some (Form.x96 Enc.bget' o)
  | _ => none

/-- NOP. -/
def nopForm : Instr → Option Form
  | .nop o => some (Form.b32 Enc.nop' o)
  | .nopX96 o => some (Form.x96 Enc.nop' o)
  | _ => none

end Sys2Proof.Machine

/-- From every Calm state exec of GID answers a next state in which v[D] holds, in the live lanes of M, the value that FUNC names (lane, strand,
group, team and grid indices, core, role, or the trap state, which reads 0 outside the handler), with the values of tile strands as R139 gives
them; nothing else has changed. (05_arith.md R139, 02_encoding.md R55.) -/
def Obligations.IdentityReads : Prop :=
  ∀ i f, gidForm i = some f → ∀ s st e g t l, Calm s st e f → s.group? e.group = some g → s.team? e.team = some t →
    s.launch? e.launch = some l →
    ∃ u st', exec i s = .next u ∧ OnlyStrand s u st' ∧ Writes st st' f [(f.d, identityRule st e g t l f.x.func.toNat)]

/-- From every Calm state exec of BGET answers a next state in which v[D] and v[D+1] hold the low and the high word of b[A] in the live lanes of M;
nothing else has changed. (04_register.md R122.) -/
def Obligations.BasePairReads : Prop :=
  ∀ i f, bgetForm i = some f → ∀ s st e, Calm s st e f →
    ∃ u st', exec i s = .next u ∧ OnlyStrand s u st' ∧
      Writes st st' f [(f.d, fun _ => (vget st.b f.a 0).lo), (f.d + 1, fun _ => (vget st.b f.a 0).hi)]

/-- From every state in which SHAPE issues, whatever v[A] is (empty and spilled registers too), exec answers a next state in which v[D] holds in the
live lanes of M 0 for U, 1 for A, 2 for V or V-spilled and 3 for an empty register; nothing else has changed. (04_register.md R117.) -/
def Obligations.ShapeReads : Prop :=
  ∀ i f, shapeForm i = some f → ∀ s st e, Quiet s st e f → (st.reg f.d).plain = true → st.slabIds.length + 8 ≤ e.floor st →
    ∃ u st', exec i s = .next u ∧ OnlyStrand s u st' ∧ Writes st st' f [(f.d, fun _ => BitVec.ofNat 32 (shapeRule (st.reg f.a)))]

/-- exec of NOP, and of SHAPEA with M empty or with the shape of v[A] allowed, answers the state with the strand at the next instruction and nothing
else changed. That a NOP with a predicate is a NOP is read from R55 and R121 (log entry 21). (04_register.md R118, R121, 02_encoding.md R55.) -/
def Obligations.NoEffect : Prop :=
  ∀ i f s st e, (nopForm i = some f ∧ Quiet s st e f) ∨
      (shapeaForm i = some f ∧ Calm s st e f ∧ (st.mask f.pred = 0 ∨ f.x.w0.b.getLsbD (shapeRule (st.reg f.a)) = true)) →
    ∃ t, exec i s = .next t ∧ OnlyStrand s t (st.past f)

/-- AMAX: from every Calm state exec answers a next state in which m[D] is updated by R83 with TYPE's code and the elements of the lanes of M (one
lane for all where v[A] is uniform), and no v register is written. AMGET: v[D] and v[D+1] receive the 64 bits of m[A] unless B is 1, and m[A] is
cleared unless B is 0 or M is empty. Nothing else changes. (05_arith.md R150, R151, 03_numbers.md R81-R84.) -/
def Obligations.AmaxRegisters : Prop :=
  (∀ i f, amaxForm i = some f → ∀ s st e g, Calm s st e f → s.group? e.group = some g →
    let q := st.srcs f
    let xs := (lanesOfA q).flatMap fun l => (List.range f.x.ty.count).map fun k => elemValue f.x.ty (q.a l).toNat k
    ∃ t, exec i s = .next t ∧
      OnlyStrand (s.setGroup (withAmax g f.d (amaxRule (vget g.amax f.d {}) f.x.ty.code xs))) t (st.past f)) ∧
  ∀ i f, amgetForm i = some f → ∀ s st e g, Calm s st e f → s.group? e.group = some g →
    let r := amaxBits (vget g.amax f.a {})
    ∃ t st', exec i s = .next t ∧
      OnlyStrand (if f.b = 0 ∨ st.mask f.pred = 0 then s else s.setGroup (withAmax g f.a {})) t st' ∧
      Writes st st' f (if f.b = 1 then [] else [(f.d, fun _ => r.lo), (f.d + 1, fun _ => r.hi)])

/-- From every Calm state exec of CVTQ with XMOD[1] = 1 answers a next state in which v[D] holds the old lanes with one element replaced by the
rounded product, in the live lanes of M, and m[C] is updated by R83 with the values of v[A] in the lanes of M; nothing else has changed.
(05_arith.md R149, 03_numbers.md R83.) -/
def Obligations.QuantizeWithAmax : Prop :=
  ∀ (o : X96) s st e g, let f := Form.x96 Enc.cvtq' o
    o.x1 = true → Calm s st e f → s.group? e.group = some g →
    let q := st.srcs f
    ∃ t st', exec (.cvtq o) s = .next t ∧
      OnlyStrand (s.setGroup (withAmax g f.c (amaxRule (vget g.amax f.c {}) f.x.ty.code ((lanesOfA q).map fun l => f32 (q.a l))))) t st' ∧
      Writes st st' f [(f.d, quantRule f.x q)]

namespace Sys2Proof.Machine

/-! ### Taking a trap (R179-R183) -/

/-- The strand in its handler (R180): the pending paths and the call depth are those it had, and the trap is its trap state. A phaser wait that it
was taken out of is kept for a retry (log entry 98), and so is a SLEEP (R344). -/
def inHandler (st : Strand) (t : TrapInfo) (pc : Nat) : Strand :=
  { st with pc := BitVec.ofNat 64 pc, state := .ready, held := none, sleepFrom := none, restored := false
            handler := some { floor := st.pends.length, depth := st.rets.length, trap := t, held := st.held, sleep := st.sleepFrom
                              slept := st.restored } }

/-- The strand at its kernel's trap entry, in handler mode, with the trap state set (R180-R182); an access that traps gives its address (R208). -/
def Strand.trapped (st : Strand) (e : Env) (cause : Nat) (detail : Word) (lanes : Mask) (va : Nat := 0) : Strand :=
  inHandler st { cause := cause, addr := st.pc, lanes := lanes, detail := detail, va := va } (e.base + e.hdr.trapEntry)

/-- The strand may take a trap at once: its kernel has a trap entry, it is not in its handler, no producer of it is in flight, it is no
continuation, and the context's trace is off (R180, R183). -/
structure TakesTraps (s : State) (st : Strand) (e : Env) : Prop where
  cur : s.strand? s.cur = some st
  env : s.env? st = some e
  ready : st.state = .ready
  live : st.live ≠ 0
  entry : e.hdr.trapEntry ≠ 0xFFFFFFFF
  free : st.handler = none
  quiet : ∀ p ∈ s.prods, p.strand ≠ st.id
  noCont : st.cont = none
  untraced : ∀ c, s.ctx? e.ctx = some c → c.trace.on = false

/-- The lanes of a trap: M, or the path mask where M is empty (R181). -/
def Strand.trapLanes (st : Strand) (f : Form) : Mask := if st.mask f.pred = 0 then st.path else st.mask f.pred

/-! ### Control transfer (R51, R52, R160-R178) -/

/-- The first byte of the fetch block that holds the pc (R51). -/
def blockStart (pc : DWord) : DWord := pc - BitVec.ofNat 64 (pc.toNat % 64)

/-- The target of a branch by a count of blocks (R51). -/
def blockAway (pc : DWord) (n : Int) : DWord := blockStart pc + BitVec.ofInt 64 (64 * n)

/-- The strand at an address. -/
def Strand.goes (st : Strand) (pc : DWord) : Strand := { st with pc := pc }

/-- The strand with a call open: the return address is the next fetch block, and the call mask is the path mask (R160). Eight entries keep
their training records (R162). -/
def Strand.called (st : Strand) (train : Option TrainRec) (wset : Option DWord) : Strand :=
  { st with rets := { ra := blockStart st.pc + 64, cm := st.path, train := train, wset := wset } ::
      (st.rets.take 7 ++ (st.rets.drop 7).map fun r => { r with train := none }) }

/-- The pending paths that the strand may take: those above the floor of its handler (R180). -/
def Strand.pendsAbove (st : Strand) : Nat := st.pends.length - (match st.handler with | some h => h.floor | none => 0)

/-- JOIN at a register that has been armed at this call depth, where the path is the last to arrive (R164, R173). -/
def joinRule (st : Strand) (d : Nat) (next : DWord) : Option Strand :=
  let r := vget st.j d {}
  let arr := r.arr ||| st.path
  if r.exp &&& st.live &&& ~~~arr = 0 then some ({ st with j := vset st.j d {}, path := arr &&& st.live }.goes next) else none

/-- RET where the path's arrival completes the call, which neither forks nor trains (R175). -/
def returnRule (st : Strand) : Option Strand :=
  match st.rets with
  | top :: rest =>
    let arr := top.arr ||| st.path
    if top.isRegion = false ∧ top.ra.toNat % 64 = 0 ∧ top.train = none ∧ top.cm &&& st.live &&& ~~~arr = 0 ∧ arr &&& st.live ≠ 0 then
      some ({ st with rets := rest, path := arr &&& st.live }.goes top.ra)
    else none
  | [] => none

/-- The strand after a transfer of control, where the instruction neither traps nor ends the path. -/
def transferRule (s : State) (st : Strand) (e : Env) : Instr → Option (Form × Strand)
  | .jmp o => some (Form.j Enc.jmp' o, st.goes (blockAway st.pc o.off.toInt))
  | .call o => if st.rets.length < 128 then some (Form.j Enc.call' o, (st.called none none).goes (blockAway st.pc o.off.toInt)) else none
  | .jmpi o => let f := Form.b32 Enc.jmpi' o; jumpTo f
  | .jmpiX96 o => let f := Form.x96 Enc.jmpi' o; jumpTo f
  | .calli o => let f := Form.b32 Enc.calli' o; callTo' f
  | .calliX96 o => let f := Form.x96 Enc.calli' o; callTo' f
  | .br o =>
    let f := Form.x96 Enc.br' o
    let t := st.path &&& st.kreg o.w0.k.toNat
    let n := st.path &&& ~~~st.kreg o.w0.k.toNat
    let st' := { st with j := vset st.j f.d { exp := st.path, arr := 0, depth := BitVec.ofNat 8 st.rets.length, armed := true, jpc := 0 } }
    let there := blockAway st.pc o.imm.toInt
    let next := st.pc + BitVec.ofNat 64 f.size
    some (f, if t = 0 then st'.goes next else if n = 0 then st'.goes there
             else { st' with pends := { pc := there, mask := t, depth := st.rets.length } :: st.pends, path := n }.goes next)
  | .bru o =>
    let f := Form.x96 Enc.bru' o
    let t := st.path &&& st.kreg o.w0.k.toNat
    if t = st.path then some (f, st.goes (blockAway st.pc o.imm.toInt)) else if t = 0 then some (f, st.past f) else none
  | .join o => let f := Form.b32 Enc.join' o; joins f
  | .joinX96 o => let f := Form.x96 Enc.join' o; joins f
  | .yieldp => let f := Form.b32 Enc.yieldp' {}; yields f
  | .yieldpX96 => let f := Form.x96 Enc.yieldp' {}; yields f
  | .ret o => (returnRule st).map fun x => (Form.b32 Enc.ret' o, x)
  | .retX96 o => (returnRule st).map fun x => (Form.x96 Enc.ret' o, x)
  | .exit o => let f := Form.b32 Enc.exit' o; exits f
  | .exitX96 o => let f := Form.x96 Enc.exit' o; exits f
  | .thret o => let f := Form.b32 Enc.thret' o; returns f
  | .thretX96 o => let f := Form.x96 Enc.thret' o; returns f
  | _ => none
where
  /-- JMPI to an aligned target (R176). -/
  jumpTo (f : Form) : Option (Form × Strand) :=
    let t := vget st.b f.a 0
    if t.toNat % 64 = 0 then some (f, st.goes t) else none
  /-- CALLI (R176). -/
  callTo' (f : Form) : Option (Form × Strand) :=
    let t := vget st.b f.a 0
    if t.toNat % 64 = 0 ∧ st.rets.length < 128 then some (f, (st.called none none).goes t) else none
  /-- JOIN: one that is not armed does nothing (R173). -/
  joins (f : Form) : Option (Form × Strand) :=
    let next := st.pc + BitVec.ofNat 64 f.size
    let r := vget st.j f.d {}
    if e.base ≤ next.toNat ∧ next.toNat < e.base + 2 ^ 32 then
      if r.armed = false then some (f, st.past f)
      else if r.depth.toNat = st.rets.length then (joinRule st f.d next).map fun x => (f, x)
      else none
    else none
  /-- YIELDP: the path and the newest pending path change places (R174). -/
  yields (f : Form) : Option (Form × Strand) :=
    if st.pendsAbove = 0 then some (f, st.past f)
    else
      match st.pends with
      | p :: ps =>
        if p.depth = st.rets.length ∧ p.mask &&& st.live ≠ 0 then
          some (f, { st with pends := { pc := st.pc + BitVec.ofNat 64 f.size, mask := st.path, depth := st.rets.length } :: ps
                             path := p.mask &&& st.live }.goes p.pc)
        else none
      | [] => none
  /-- EXIT where lanes of the path stay, and no task of a tile strand has faulted (R177, R404). -/
  exits (f : Form) : Option (Form × Strand) :=
    let m := st.mask f.pred
    let faulted := st.tile && (s.cluster st.core).tasks.any fun k => k.strand == st.id && (match k.state with | .faulted _ => true | _ => false)
    if faulted = false ∧ st.path &&& ~~~m ≠ 0 ∧ st.live &&& ~~~m ≠ 0 then some (f, { st with live := st.live &&& ~~~m, path := st.path &&& ~~~m }.past f)
    else none
  /-- THRET at the call depth of the trap: back to the trapped instruction, or past it with B = 1, but for MAP (R179). -/
  returns (f : Form) : Option (Form × Strand) :=
    match st.handler with
    | some h =>
      let a := h.trap.addr
      -- a retry takes up the phaser wait that the trap interrupted (R356, DEDUCED, log 98), and the SLEEP (R344)
      if st.rets.length ≠ h.depth then none
      else if f.b = 1 ∧ h.trap.cause ≠ 0x22 then
        some (f, { st with handler := none, held := none, sleepFrom := none, restored := false }.goes
          (a + BitVec.ofNat 64 (s.formSizeAt e.ctx a.toNat)))
      else some (f, { st with handler := none, held := h.held, sleepFrom := h.sleep, restored := h.slept }.goes a)
    | none => none

/-! ### Ends of paths (R165, R166) -/

/-- How a strand goes on when a path of it has ended: a path runs, the strand waits at the pop of a return entry, it exits, or its group faults with
JOIN-STALL. The state is that of the device around it. -/
inductive Next where
  | runs (s : State) (st : Strand)
  | waits (s : State) (st : Strand)
  | exits (s : State) (st : Strand)
  | stalls

/-- The newest pending path, where path selection reaches it: above the handler's floor, and of the present call depth (R165 step 1). -/
def Strand.pendHere (st : Strand) : Option (PendEntry × List PendEntry) :=
  match st.pends with
  | p :: ps => if 0 < st.pendsAbove ∧ p.depth = st.rets.length then some (p, ps) else none
  | [] => none

/-- j[n] is armed at the present call depth, and all its arrivals are in (R164, R165 step 2). -/
def Strand.joinHere (st : Strand) (n : Nat) : Bool :=
  let r := vget st.j n {}
  r.armed && r.depth.toNat == st.rets.length && (r.exp &&& st.live &&& ~~~r.arr) == 0

/-- The lowest such register. -/
def Strand.firstJoin (st : Strand) : Option Nat := (List.range 8).find? st.joinHere

/-- The return entry of the present call depth, where all its arrivals are in (R165 step 3). -/
def Strand.retHere (st : Strand) : Option (RetEntry × List RetEntry) :=
  match st.rets with
  | top :: rest => if top.cm &&& st.live &&& ~~~top.arr = 0 then some (top, rest) else none
  | [] => none

/-- The return registers of an entry's training record are full; an entry without one waits for none (R280). -/
def Strand.trains (st : Strand) (top : RetEntry) : Bool := match top.train with | some r => st.returnFull r.ret | none => true

/-- Path selection, as the loop of R165 has it, for a strand that runs no fork: a pending path of this depth; in handler mode the handler ends, or the
strand stalls; the lowest join of this depth that is complete; the return of this depth, complete; and else the strand exits, or stalls. An entry
whose lanes have all exited is taken off, and the loop goes on. -/
inductive Selects (base : Nat) (byExit : Bool) : State → Strand → Next → Prop where
  | pending {s st p ps} : st.pendHere = some (p, ps) → p.mask &&& st.live ≠ 0 →
      Selects base byExit s st (.runs s ({ st with pends := ps, path := p.mask &&& st.live }.goes p.pc))
  | pendingGone {s st p ps n} : st.pendHere = some (p, ps) → p.mask &&& st.live = 0 → Selects base byExit s { st with pends := ps } n →
      Selects base byExit s st n
  | handlerEnds {s st n} : st.pendHere = none → st.handler ≠ none → byExit = true → Selects base byExit s { st with handler := none } n →
      Selects base byExit s st n
  | handlerStalls {s st} : st.pendHere = none → st.handler ≠ none → byExit = false → Selects base byExit s st .stalls
  | joined {s st k} : st.pendHere = none → st.handler = none → st.firstJoin = some k → (vget st.j k {}).arr &&& st.live ≠ 0 →
      Selects base byExit s st (.runs s ({ st with j := vset st.j k {}, path := (vget st.j k {}).arr &&& st.live }.goes
        (BitVec.ofNat 64 base + (vget st.j k {}).jpc.setWidth 64)))
  | joinedGone {s st k n} : st.pendHere = none → st.handler = none → st.firstJoin = some k → (vget st.j k {}).arr &&& st.live = 0 →
      Selects base byExit s { st with j := vset st.j k {} } n → Selects base byExit s st n
  | returnWaits {s st top rest} : st.pendHere = none → st.handler = none → st.firstJoin = none → st.retHere = some (top, rest) →
      st.trains top = false → Selects base byExit s st (.waits s st)
  | returns {s st top rest} : st.pendHere = none → st.handler = none → st.firstJoin = none → st.retHere = some (top, rest) → st.trains top = true →
      top.arr &&& st.live ≠ 0 →
      Selects base byExit s st (.runs (s.trainWith st top.train) ({ st with rets := rest, path := top.arr &&& st.live }.goes top.ra))
  | returnsGone {s st top rest n} : st.pendHere = none → st.handler = none → st.firstJoin = none → st.retHere = some (top, rest) →
      st.trains top = true → top.arr &&& st.live = 0 → Selects base byExit (s.trainWith st top.train) { st with rets := rest } n →
      Selects base byExit s st n
  | exits {s st} : st.pendHere = none → st.handler = none → st.firstJoin = none → st.retHere = none → st.live = 0 →
      Selects base byExit s st (.exits s st)
  | stalls {s st} : st.pendHere = none → st.handler = none → st.firstJoin = none → st.retHere = none → st.live ≠ 0 →
      Selects base byExit s st .stalls

/-- An instruction that ends its path (R165, R173-R177): whether the path ended by EXIT, the lanes of a JOIN-STALL that may follow, and the strand from
which the next path is selected. -/
structure Ending where
  form : Form
  byExit : Bool
  lanes : Mask
  strand : Strand

/-- The instructions that end their path: a JOIN and a RET that park, EXIT of the whole path and RET at depth 0, and YIELDP to a path whose lanes have
all exited. -/
def endRule (s : State) (st : Strand) (e : Env) : Instr → Option Ending
  | .join o => parks (Form.b32 Enc.join' o)
  | .joinX96 o => parks (Form.x96 Enc.join' o)
  | .ret o => leaves (Form.b32 Enc.ret' o)
  | .retX96 o => leaves (Form.x96 Enc.ret' o)
  | .exit o => let f := Form.b32 Enc.exit' o; ends f (st.mask f.pred)
  | .exitX96 o => let f := Form.x96 Enc.exit' o; ends f (st.mask f.pred)
  | .yieldp => yields (Form.b32 Enc.yieldp' {})
  | .yieldpX96 => yields (Form.x96 Enc.yieldp' {})
  | _ => none
where
  /-- JOIN before the last arrival: the register keeps the arrivals and the address behind the JOIN (R173). -/
  parks (f : Form) : Option Ending :=
    let next := st.pc + BitVec.ofNat 64 f.size
    let r := vget st.j f.d {}
    let arr := r.arr ||| st.path
    if e.base ≤ next.toNat ∧ next.toNat < e.base + 2 ^ 32 ∧ r.armed = true ∧ r.depth.toNat = st.rets.length ∧ r.exp &&& st.live &&& ~~~arr ≠ 0 then
      some { form := f, byExit := false, lanes := st.path
             strand := { st with j := vset st.j f.d { r with arr := arr, jpc := (next - BitVec.ofNat 64 e.base).lo } } }
    else none
  /-- RET before the last arrival; at depth 0 it ends the lanes of the path (R175). -/
  leaves (f : Form) : Option Ending :=
    match st.rets with
    | [] => ends f st.path
    | top :: rest =>
      let arr := top.arr ||| st.path
      if top.isRegion = false ∧ top.ra.toNat % 64 = 0 ∧ top.cm &&& st.live &&& ~~~arr ≠ 0 then
        some { form := f, byExit := false, lanes := st.path, strand := { st with rets := { top with arr := arr } :: rest } }
      else none
  /-- EXIT of every lane of the path; no task of a tile strand has faulted (R177, R404). -/
  ends (f : Form) (m : Mask) : Option Ending :=
    let faulted := st.tile && (s.cluster st.core).tasks.any fun k => k.strand == st.id && (match k.state with | .faulted _ => true | _ => false)
    if faulted = false ∧ m ≠ 0 ∧ st.path &&& ~~~m = 0 then
      some { form := f, byExit := true, lanes := 0, strand := { st with live := st.live &&& ~~~m, path := 0 } }
    else none
  /-- YIELDP: the pending path has no lane left, so that the next one is selected, the yielding path among them (R174). -/
  yields (f : Form) : Option Ending :=
    match st.pends with
    | p :: ps =>
      if 0 < st.pendsAbove ∧ p.depth = st.rets.length ∧ p.mask &&& st.live = 0 then
        some { form := f, byExit := false, lanes := 0
               strand := { st with pends := { pc := st.pc + BitVec.ofNat 64 f.size, mask := st.path, depth := st.rets.length } :: ps, path := 0 } }
      else none
    | [] => none

/-- What a selection leaves of the machine, for an instruction at the strand `st` (R165, R166, R177): the strand runs or waits; it exits, as the event
STRAND_EXITED has it; or its group faults with JOIN-STALL at the instruction's address. -/
def Next.Leaves (n : Next) (i : Instr) (s : State) (st : Strand) (lanes : Mask) : Prop :=
  match n with
  | .runs u st' => ∃ t, exec i s = .next t ∧ OnlyStrand u t st'
  | .waits u st' => ∃ t, exec i s = .next t ∧ OnlyStrand u t { st' with state := .blocked .resolve }
  | .exits u st' => ∃ t, OnlyStrand u t { st' with path := 0 } ∧ exec i s = exec (.strandExited st.id) t
  | .stalls => exec i s = .next (s.groupFault st 2 0x81 st.pc.toNat lanes 0 0 0)

/-- RET where the path's arrival completes a call that has a training record (R175, R280): the predictor is trained and the entry popped once the
return registers are full, and the strand waits before that. -/
def trainedReturn (s : State) (st : Strand) : Option Next :=
  match st.rets with
  | top :: rest =>
    let arr := top.arr ||| st.path
    if top.isRegion = false ∧ top.ra.toNat % 64 = 0 ∧ top.train ≠ none ∧ top.cm &&& st.live &&& ~~~arr = 0 ∧ arr &&& st.live ≠ 0 then
      some (if st.trains top then .runs (s.trainWith st top.train) ({ st with rets := rest, path := arr &&& st.live }.goes top.ra)
            else .waits s { st with rets := { top with arr := arr } :: rest })
    else none
  | [] => none

/-- RET. -/
def retForm : Instr → Option Form
  | .ret o => some (Form.b32 Enc.ret' o)
  | .retX96 o => some (Form.x96 Enc.ret' o)
  | _ => none

/-- The traps of control transfer (R52, R172-R176, R179): the cause, the detail word, and the lanes where they are not M. -/
def transferTrap (st : Strand) (e : Env) : Instr → Option (Form × Nat × Word × Option Mask)
  | .jmpi o => astray (Form.b32 Enc.jmpi' o)
  | .jmpiX96 o => astray (Form.x96 Enc.jmpi' o)
  | .calli o => astray (Form.b32 Enc.calli' o)
  | .calliX96 o => astray (Form.x96 Enc.calli' o)
  | .ret o => retrap (Form.b32 Enc.ret' o)
  | .retX96 o => retrap (Form.x96 Enc.ret' o)
  | .bru o =>
    let t := st.path &&& st.kreg o.w0.k.toNat
    if t ≠ 0 ∧ t ≠ st.path then some (Form.x96 Enc.bru' o, 0x08, t, some t) else none
  | .join o => joinTrap (Form.b32 Enc.join' o)
  | .joinX96 o => joinTrap (Form.x96 Enc.join' o)
  | .yieldp => yieldTrap (Form.b32 Enc.yieldp' {})
  | .yieldpX96 => yieldTrap (Form.x96 Enc.yieldp' {})
  | .thret o => let f := Form.b32 Enc.thret' o; if st.handler = none then some (f, 0x01, f.word, none) else none
  | .thretX96 o => let f := Form.x96 Enc.thret' o; if st.handler = none then some (f, 0x01, f.word, none) else none
  | _ => none
where
  /-- ALIGN: the target in b[A] is no fetch block's address (R52, R176). -/
  astray (f : Form) : Option (Form × Nat × Word × Option Mask) :=
    let t := vget st.b f.a 0
    if t.toNat % 64 ≠ 0 then some (f, 0x03, t.extractLsb' 0 32, none) else none
  /-- RET: ILLEGAL at a region's entry (R460), and ALIGN for a return address that is no fetch block's (R175). -/
  retrap (f : Form) : Option (Form × Nat × Word × Option Mask) :=
    match st.rets with
    | top :: _ =>
      if top.isRegion then some (f, 0x01, f.word, none)
      else if top.ra.toNat % 64 ≠ 0 then some (f, 0x03, top.ra.extractLsb' 0 32, none) else none
    | [] => none
  /-- JOIN: ILLEGAL where the address behind it does not fit JPC (R297), and JOIN-DEPTH (R173, R181). -/
  joinTrap (f : Form) : Option (Form × Nat × Word × Option Mask) :=
    let next := (st.pc + BitVec.ofNat 64 f.size).toNat
    let r := vget st.j f.d {}
    if next < e.base ∨ e.base + 2 ^ 32 ≤ next then some (f, 0x01, f.word, none)
    else if r.armed = true ∧ r.depth.toNat ≠ st.rets.length then
      some (f, 0x09, BitVec.ofNat 32 (r.depth.toNat + 256 * st.rets.length + 65536 * f.d), none)
    else none
  /-- YIELD-DEPTH (R174, R181). -/
  yieldTrap (f : Form) : Option (Form × Nat × Word × Option Mask) :=
    match st.pends with
    | p :: _ =>
      if 0 < st.pendsAbove ∧ p.depth ≠ st.rets.length then some (f, 0x0A, BitVec.ofNat 32 (p.depth + 256 * st.rets.length), none) else none
    | [] => none

/-- The group faults of control transfer: CALL-DEPTH at 128 open calls (R160, R460), and JOIN-STALL of a THRET at another call depth than its trap's
(R179). -/
def transferFault (st : Strand) : Instr → Option (Form × Nat)
  | .call o => deep (Form.j Enc.call' o)
  | .fcall o => deep (Form.xl Enc.fcall' o true)
  | .calli o => let f := Form.b32 Enc.calli' o; if (vget st.b f.a 0).toNat % 64 = 0 then deep f else none
  | .calliX96 o => let f := Form.x96 Enc.calli' o; if (vget st.b f.a 0).toNat % 64 = 0 then deep f else none
  | .cropen o =>
    let f := Form.x96 Enc.cropen' o
    if st.mask f.pred ≠ 0 ∧ st.handler = none ∧ (vget st.b f.a 0).toNat % 64 = 0 then deep f else none
  | .thret o => astray (Form.b32 Enc.thret' o)
  | .thretX96 o => astray (Form.x96 Enc.thret' o)
  | _ => none
where
  /-- 128 calls are open. -/
  deep (f : Form) : Option (Form × Nat) := if 128 ≤ st.rets.length then some (f, 0x80) else none
  /-- The handler has another call depth than its trap. -/
  astray (f : Form) : Option (Form × Nat) :=
    match st.handler with | some h => if st.rets.length ≠ h.depth then some (f, 0x81) else none | none => none

/-- JGET: the four words of j[A] (R163, R178). -/
def jgetForm : Instr → Option Form
  | .jget o => some (Form.b32 Enc.jget' o)
  | .jgetX96 o => some (Form.x96 Enc.jget' o)
  | _ => none

/-- The words of a j register: EXP, ARR, the depth with ARMED on top, and JPC (R163). -/
def joinWord (r : JReg) (n : Nat) : Word :=
  if n = 0 then r.exp else if n = 1 then r.arr
  else if n = 2 then (if r.armed then 1#1 else 0#1) ++ (0 : BitVec 23) ++ r.depth else r.jpc

/-- The training record of an FCALL: the index and tag of its fetch block, and its return set (R277, R280). An MCC has none. -/
def trainRule (st : Strand) (f : Form) : Option TrainRec :=
  if st.tile then none
  else some { index := ((st.pc.extractLsb' 6 8) ^^^ (st.pc.extractLsb' 14 8)).toNat, tag := (st.pc.extractLsb' 22 16).toNat
              ret := BitVec.ofNat 5 f.b }

end Sys2Proof.Machine

/-- JMP, JMPI, CALL, CALLI, BR, BRU, JOIN, YIELDP, RET, EXIT and THRET, in every form. Where the instruction neither traps nor ends its path
(transferRule), exec answers a next state that differs in the strand alone: its pc, its path and live masks, its return stack, its pending paths, its
j registers and its handler mode are those the spec gives. Where it ends its path (endRule: a JOIN or RET that parks, EXIT of the whole path, RET at
depth 0, YIELDP to a path with no lane left), the next path is selected as R165 says (Selects): it runs, the strand waits at a pop, it exits, or its
group faults with JOIN-STALL. A RET that completes a call with a training record trains the predictor first, and waits for its return registers.
Where the instruction traps (transferTrap: ALIGN, DIVERGE, JOIN-DEPTH, YIELD-DEPTH, ILLEGAL) and the strand may take a trap at once, it is at its
trap entry with that cause and detail word; and CALL-DEPTH and the JOIN-STALL of a THRET fault the group. That a retry takes up a phaser wait that
the trap interrupted is the model's reading (log entry 98); an instruction that cannot be fetched any more is skipped as 4 bytes, which is its
choice (log entry 44). (06_strand.md R160-R179, 22_map.md R460.) -/
def Obligations.TransfersOfControl : Prop :=
  (∀ s st e i f st', Quiet s st e f → transferRule s st e i = some (f, st') → ∃ t, exec i s = .next t ∧ OnlyStrand s t st') ∧
  (∀ s st e i x n, endRule s st e i = some x → Quiet s st e x.form → Selects e.base x.byExit s x.strand n → n.Leaves i s st x.lanes) ∧
  (∀ s st e i f n, retForm i = some f → Quiet s st e f → trainedReturn s st = some n → n.Leaves i s st 0) ∧
  (∀ s st e i f cause detail m, transferTrap st e i = some (f, cause, detail, m) → Quiet s st e f → TakesTraps s st e →
    exec i s = .next (s.setStrand (st.trapped e cause detail (m.getD (st.trapLanes f))))) ∧
  ∀ s st e i f code, transferFault st i = some (f, code) → Quiet s st e f →
    exec i s = .next (s.groupFault st 2 code st.pc.toNat st.path 0 0 0)

/-- From every Calm state exec of JGET answers a next state in which v[D] to v[D+3] hold the four words of j[A] in the live lanes of M, and exec of
JPUT with uniform sources answers one in which j[D] holds the four words of v[A] to v[A+3], bits 94 to 72 ignored, unless M is empty; nothing else
has changed. (06_strand.md R163, R178.) -/
def Obligations.JoinRegisters : Prop :=
  (∀ i f, jgetForm i = some f → ∀ s st e, Calm s st e f →
    ∃ t st', exec i s = .next t ∧ OnlyStrand s t st' ∧
      Writes st st' f ((List.range 4).map fun n => (f.d + n, fun _ => joinWord (vget st.j f.a {}) n))) ∧
  ∀ (o : X96) s st e, let f := Form.x96 Enc.jput' o
    let w := fun n => st.lane (f.a + n) 0
    Calm s st e f → (∀ n, n < 4 → st.uniform (f.a + n) = true) →
    ∃ t, exec (.jput o) s = .next t ∧
      OnlyStrand s t { st.past f with
        j := if st.mask f.pred = 0 then st.j
             else vset st.j f.d { exp := w 0, arr := w 1, depth := (w 2).extractLsb' 0 8, armed := (w 2).getLsbD 31, jpc := w 3 } }

/-- From every Quiet state with call depth below 128 and no predictor entry to fork by, exec of FCALL answers a next state in which the strand is at
the target with a return entry pushed that holds the training record and the write set, and counter 5 of the context is one higher; nothing else
has changed. (11_fork.md R271-R280, 21_context.md R435.) -/
def Obligations.ForkableCallDeclined : Prop :=
  ∀ (o : XL) s st e c, let f := Form.xl Enc.fcall' o true
    Quiet s st e f → s.ctx? e.ctx = some c → st.rets.length < 128 → forkEntry? s st e (BitVec.ofNat 5 f.b) = none →
    ∃ t, exec (.fcall o) s = .next t ∧
      OnlyStrand (s.setCtx { c with counters := vset c.counters 5 (vget c.counters 5 0 + 1) }) t
        ((st.called (trainRule st f) (some o.lit)).goes (blockAway st.pc o.x.imm.toInt))

/-- From every Quiet state with call depth below 128, every v register full, a predictor entry to fork by, and the pages of the continuation's slots of
V-spilled registers in place, exec of FCALL answers a next state in which the strand is at the target with one fork, and a new strand, the
continuation, is at the return address with the live lanes of the owner, its v registers those of the owner but for the predicted return registers;
memory but for those slots, and the accesses in flight, are unchanged. (11_fork.md R274-R283.) -/
def Obligations.ForkableCallTaken : Prop :=
  ∀ (o : XL) s st e p, let f := Form.xl Enc.fcall' o true
    let ret := BitVec.ofNat 5 f.b
    Quiet s st e f → st.rets.length < 128 → forkEntry? s st e ret = some p → (∀ n, n < 64 → (st.reg n).full = true) →
    s.strand? s.freshId = none → Safety.Sound s →
    (∀ n, n < 64 → (st.reg n).shape = .spilled →
      let a := st.forkSaves.headD 0 + 128 * n
      a % 128 = 0 ∧ s.pageReady (pageOf a) = true ∧ s.unitHeld a = false ∧ s.transferHeld (agentDie st.agentCore) true a = false) →
    ∃ t st' c, exec (.fcall o) s = .next t ∧ t.strand? st.id = some st' ∧ t.strand? s.freshId = some c ∧
      st'.pc = blockAway st.pc o.x.imm.toInt ∧ st'.path = st.path ∧ st'.v = st.v ∧ st'.b = st.b ∧ st'.forks.map (·.cont) = [s.freshId] ∧
      c.pc = blockStart st.pc + 64 ∧ c.path = st.live ∧ c.live = st.live ∧ c.core = st.core ∧
      c.cont.map (fun x => (x.owner, x.wset, x.ret)) = some (st.id, o.lit, ret) ∧
      (∀ n, n < 64 → c.reg n = if n < 4 ∧ ret.getLsbD n = true then { shape := (vget p.slots n {}).predictV } else st.reg n) ∧
      ((∀ n, n < 64 → (st.reg n).shape ≠ .spilled) → t.mem = s.mem) ∧
      (∀ a, ¬(st.forkSaves.headD 0 ≤ a ∧ a < st.forkSaves.headD 0 + 8192) → t.mem.get a = s.mem.get a) ∧ t.flight = s.flight

namespace Sys2Proof.Machine

/-! ### Traps (R56-R59, R118, R122, R181, R196-R199, R448) -/

/-- The instructions whose effect is a trap: the cause and the detail word (R56, R179). -/
def trapRule : Instr → Option (Form × Nat × Word)
  | .trap o => some (Form.b32 Enc.trap' o, 0x14, o.b.setWidth 32)
  | .trapX96 o => some (Form.x96 Enc.trap' o, 0x14, o.w0.b.setWidth 32)
  | _ => none

/-- The form of every instruction: the shape of its words and what its encoding allows (R36-R56). -/
def formOf : Instr → Option Form
  | .iadd o => some (Form.b32 Enc.iadd' o)
  | .iaddX96 o => some (Form.x96 Enc.iadd' o)
  | .isub o => some (Form.b32 Enc.isub' o)
  | .isubX96 o => some (Form.x96 Enc.isub' o)
  | .imul o => some (Form.b32 Enc.imul' o)
  | .imulX96 o => some (Form.x96 Enc.imul' o)
  | .imulh o => some (Form.b32 Enc.imulh' o)
  | .imulhX96 o => some (Form.x96 Enc.imulh' o)
  | .imad o => some (Form.x96 Enc.imad' o)
  | .imin o => some (Form.b32 Enc.imin' o)
  | .iminX96 o => some (Form.x96 Enc.imin' o)
  | .imax o => some (Form.b32 Enc.imax' o)
  | .imaxX96 o => some (Form.x96 Enc.imax' o)
  | .and o => some (Form.b32 Enc.and' o)
  | .andX96 o => some (Form.x96 Enc.and' o)
  | .or o => some (Form.b32 Enc.or' o)
  | .orX96 o => some (Form.x96 Enc.or' o)
  | .xor o => some (Form.b32 Enc.xor' o)
  | .xorX96 o => some (Form.x96 Enc.xor' o)
  | .andn o => some (Form.b32 Enc.andn' o)
  | .andnX96 o => some (Form.x96 Enc.andn' o)
  | .shl o => some (Form.b32 Enc.shl' o)
  | .shlX96 o => some (Form.x96 Enc.shl' o)
  | .shr o => some (Form.b32 Enc.shr' o)
  | .shrX96 o => some (Form.x96 Enc.shr' o)
  | .sar o => some (Form.b32 Enc.sar' o)
  | .sarX96 o => some (Form.x96 Enc.sar' o)
  | .ineg o => some (Form.b32 Enc.ineg' o)
  | .inegX96 o => some (Form.x96 Enc.ineg' o)
  | .iabs o => some (Form.b32 Enc.iabs' o)
  | .iabsX96 o => some (Form.x96 Enc.iabs' o)
  | .not o => some (Form.b32 Enc.not' o)
  | .notX96 o => some (Form.x96 Enc.not' o)
  | .popc o => some (Form.b32 Enc.popc' o)
  | .popcX96 o => some (Form.x96 Enc.popc' o)
  | .clz o => some (Form.b32 Enc.clz' o)
  | .clzX96 o => some (Form.x96 Enc.clz' o)
  | .brev o => some (Form.b32 Enc.brev' o)
  | .brevX96 o => some (Form.x96 Enc.brev' o)
  | .bfe o => some (Form.b32 Enc.bfe' o)
  | .bfeX96 o => some (Form.x96 Enc.bfe' o)
  | .bfi o => some (Form.x96 Enc.bfi' o)
  | .icmp o => some (Form.b32 Enc.icmp' o)
  | .icmpX96 o => some (Form.x96 Enc.icmp' o)
  | .isel o => some (Form.b32 Enc.isel' o)
  | .iselX96 o => some (Form.x96 Enc.isel' o)
  | .badd o => some (Form.b32 Enc.badd' o)
  | .baddX96 o => some (Form.x96 Enc.badd' o)
  | .bmov o => some (Form.b32 Enc.bmov' o)
  | .bmovX96 o => some (Form.x96 Enc.bmov' o)
  | .bget o => some (Form.b32 Enc.bget' o)
  | .bgetX96 o => some (Form.x96 Enc.bget' o)
  | .blit o => some (Form.bl Enc.blit' o true)
  | .mov o => some (Form.b32 Enc.mov' o)
  | .movX96 o => some (Form.x96 Enc.mov' o)
  | .movi o => some (Form.bl Enc.movi' o (o.lit.hi == 0))
  | .lane o => some (Form.b32 Enc.lane' o)
  | .laneX96 o => some (Form.x96 Enc.lane' o)
  | .shape o => some (Form.b32 Enc.shape' o)
  | .shapeX96 o => some (Form.x96 Enc.shape' o)
  | .shapea o => some (Form.b32 Enc.shapea' o)
  | .shapeaX96 o => some (Form.x96 Enc.shapea' o)
  | .shapef o => some (Form.b32 Enc.shapef' o)
  | .shapefX96 o => some (Form.x96 Enc.shapef' o)
  | .sqz o => some (Form.b32 Enc.sqz' o)
  | .sqzX96 o => some (Form.x96 Enc.sqz' o)
  | .bcast o => some (Form.b32 Enc.bcast' o)
  | .bcastX96 o => some (Form.x96 Enc.bcast' o)
  | .shfl o => some (Form.b32 Enc.shfl' o)
  | .shflX96 o => some (Form.x96 Enc.shfl' o)
  | .vote o => some (Form.b32 Enc.vote' o)
  | .voteX96 o => some (Form.x96 Enc.vote' o)
  | .lred o => some (Form.b32 Enc.lred' o)
  | .lredX96 o => some (Form.x96 Enc.lred' o)
  | .gid o => some (Form.b32 Enc.gid' o)
  | .gidX96 o => some (Form.x96 Enc.gid' o)
  | .kand o => some (Form.b32 Enc.kand' o)
  | .kandX96 o => some (Form.x96 Enc.kand' o)
  | .kor o => some (Form.b32 Enc.kor' o)
  | .korX96 o => some (Form.x96 Enc.kor' o)
  | .kxor o => some (Form.b32 Enc.kxor' o)
  | .kxorX96 o => some (Form.x96 Enc.kxor' o)
  | .kandn o => some (Form.b32 Enc.kandn' o)
  | .kandnX96 o => some (Form.x96 Enc.kandn' o)
  | .knot o => some (Form.b32 Enc.knot' o)
  | .knotX96 o => some (Form.x96 Enc.knot' o)
  | .kmov o => some (Form.b32 Enc.kmov' o)
  | .kmovX96 o => some (Form.x96 Enc.kmov' o)
  | .kset o => some (Form.b32 Enc.kset' o)
  | .ksetX96 o => some (Form.x96 Enc.kset' o)
  | .kpop o => some (Form.b32 Enc.kpop' o)
  | .kpopX96 o => some (Form.x96 Enc.kpop' o)
  | .kget o => some (Form.b32 Enc.kget' o)
  | .kgetX96 o => some (Form.x96 Enc.kget' o)
  | .fadd o => some (Form.b32 Enc.fadd' o)
  | .faddX96 o => some (Form.x96 Enc.fadd' o)
  | .fsub o => some (Form.b32 Enc.fsub' o)
  | .fsubX96 o => some (Form.x96 Enc.fsub' o)
  | .fmul o => some (Form.b32 Enc.fmul' o)
  | .fmulX96 o => some (Form.x96 Enc.fmul' o)
  | .ffma o => some { Form.b32 Enc.ffma' o with x := o.ffma }
  | .ffmaX96 o => some (Form.x96 Enc.ffma' o)
  | .fmin o => some (Form.b32 Enc.fmin' o)
  | .fminX96 o => some (Form.x96 Enc.fmin' o)
  | .fmax o => some (Form.b32 Enc.fmax' o)
  | .fmaxX96 o => some (Form.x96 Enc.fmax' o)
  | .fcmp o => some (Form.b32 Enc.fcmp' o)
  | .fcmpX96 o => some (Form.x96 Enc.fcmp' o)
  | .fneg o => some (Form.b32 Enc.fneg' o)
  | .fnegX96 o => some (Form.x96 Enc.fneg' o)
  | .fabs o => some (Form.b32 Enc.fabs' o)
  | .fabsX96 o => some (Form.x96 Enc.fabs' o)
  | .frcp o => some (Form.b32 Enc.frcp' o)
  | .frcpX96 o => some (Form.x96 Enc.frcp' o)
  | .frsq o => some (Form.b32 Enc.frsq' o)
  | .frsqX96 o => some (Form.x96 Enc.frsq' o)
  | .fsqrt o => some (Form.b32 Enc.fsqrt' o)
  | .fsqrtX96 o => some (Form.x96 Enc.fsqrt' o)
  | .fexp2 o => some (Form.b32 Enc.fexp2' o)
  | .fexp2X96 o => some (Form.x96 Enc.fexp2' o)
  | .flog2 o => some (Form.b32 Enc.flog2' o)
  | .flog2X96 o => some (Form.x96 Enc.flog2' o)
  | .fsin o => some (Form.b32 Enc.fsin' o)
  | .fsinX96 o => some (Form.x96 Enc.fsin' o)
  | .fcos o => some (Form.b32 Enc.fcos' o)
  | .fcosX96 o => some (Form.x96 Enc.fcos' o)
  | .ftanh o => some (Form.b32 Enc.ftanh' o)
  | .ftanhX96 o => some (Form.x96 Enc.ftanh' o)
  | .fclass o => some (Form.b32 Enc.fclass' o)
  | .fclassX96 o => some (Form.x96 Enc.fclass' o)
  | .cvt o => some (Form.b32 Enc.cvt' o)
  | .cvtX96 o => some (Form.x96 Enc.cvt' o)
  | .cvtq o => some (Form.x96 Enc.cvtq' o)
  | .cvtd o => some (Form.b32 Enc.cvtd' o)
  | .cvtdX96 o => some (Form.x96 Enc.cvtd' o)
  | .amax o => some (Form.b32 Enc.amax' o)
  | .amaxX96 o => some (Form.x96 Enc.amax' o)
  | .amget o => some (Form.b32 Enc.amget' o)
  | .amgetX96 o => some (Form.x96 Enc.amget' o)
  | .jmp o => some (Form.j Enc.jmp' o)
  | .call o => some (Form.j Enc.call' o)
  | .br o => some (Form.x96 Enc.br' o)
  | .bru o => some (Form.x96 Enc.bru' o)
  | .join o => some (Form.b32 Enc.join' o)
  | .joinX96 o => some (Form.x96 Enc.join' o)
  | .yieldp => some (Form.b32 Enc.yieldp' {})
  | .yieldpX96 => some (Form.x96 Enc.yieldp' {})
  | .ret o => some (Form.b32 Enc.ret' o)
  | .retX96 o => some (Form.x96 Enc.ret' o)
  | .jmpi o => some (Form.b32 Enc.jmpi' o)
  | .jmpiX96 o => some (Form.x96 Enc.jmpi' o)
  | .calli o => some (Form.b32 Enc.calli' o)
  | .calliX96 o => some (Form.x96 Enc.calli' o)
  | .fcall o => some (Form.xl Enc.fcall' o true)
  | .exit o => some (Form.b32 Enc.exit' o)
  | .exitX96 o => some (Form.x96 Enc.exit' o)
  | .jget o => some (Form.b32 Enc.jget' o)
  | .jgetX96 o => some (Form.x96 Enc.jget' o)
  | .jput o => some (Form.x96 Enc.jput' o)
  | .trap o => some (Form.b32 Enc.trap' o)
  | .trapX96 o => some (Form.x96 Enc.trap' o)
  | .thret o => some (Form.b32 Enc.thret' o)
  | .thretX96 o => some (Form.x96 Enc.thret' o)
  | .ld o => some (Form.b32 Enc.ld' o)
  | .ldX96 o => some (Form.x96 Enc.ld' o)
  | .st o => some (Form.b32 Enc.st' o)
  | .stX96 o => some (Form.x96 Enc.st' o)
  | .lds o => some (Form.b32 Enc.lds' o)
  | .ldsX96 o => some (Form.x96 Enc.lds' o)
  | .sts o => some (Form.b32 Enc.sts' o)
  | .stsX96 o => some (Form.x96 Enc.sts' o)
  | .ldp o => some (Form.b32 Enc.ldp' o)
  | .ldpX96 o => some (Form.x96 Enc.ldp' o)
  | .stp o => some (Form.b32 Enc.stp' o)
  | .stpX96 o => some (Form.x96 Enc.stp' o)
  | .ldf o => some (Form.b32 Enc.ldf' o)
  | .ldfX96 o => some (Form.x96 Enc.ldf' o)
  | .ldfk o => some (Form.b32 Enc.ldfk' o)
  | .ldfkX96 o => some (Form.x96 Enc.ldfk' o)
  | .stf o => some (Form.b32 Enc.stf' o)
  | .stfX96 o => some (Form.x96 Enc.stf' o)
  | .feset o => some (Form.b32 Enc.feset' o)
  | .fesetX96 o => some (Form.x96 Enc.feset' o)
  | .ldt o => some (Form.b32 Enc.ldt' o)
  | .ldtX96 o => some (Form.x96 Enc.ldt' o)
  | .stct o => some (Form.x96 Enc.stct' o)
  | .stz o => some (Form.b32 Enc.stz' o)
  | .stzX96 o => some (Form.x96 Enc.stz' o)
  | .ldz o => some (Form.b32 Enc.ldz' o)
  | .ldzX96 o => some (Form.x96 Enc.ldz' o)
  | .pref o => some (Form.b32 Enc.pref' o)
  | .prefX96 o => some (Form.x96 Enc.pref' o)
  | .cwb o => some (Form.b32 Enc.cwb' o)
  | .cwbX96 o => some (Form.x96 Enc.cwb' o)
  | .atom o => some (Form.x96 Enc.atom' o)
  | .red o => some (Form.b32 Enc.red' o)
  | .redX96 o => some (Form.x96 Enc.red' o)
  | .acas o => some (Form.x96 Enc.acas' o)
  | .fence o => some (Form.b32 Enc.fence' o)
  | .fenceX96 o => some (Form.x96 Enc.fence' o)
  | .xfence o => some (Form.x96 Enc.xfence' o)
  | .publish o => some (Form.b32 Enc.publish' o)
  | .publishX96 o => some (Form.x96 Enc.publish' o)
  | .chunk o => some (Form.b32 Enc.chunk' o)
  | .chunkX96 o => some (Form.x96 Enc.chunk' o)
  | .launch o => some (Form.b32 Enc.launch' o)
  | .launchX96 o => some (Form.x96 Enc.launch' o)
  | .bar o => some (Form.b32 Enc.bar' o)
  | .barX96 o => some (Form.x96 Enc.bar' o)
  | .phreg o => some (Form.x96 Enc.phreg' o)
  | .phdrop o => some (Form.x96 Enc.phdrop' o)
  | .phsig o => some (Form.x96 Enc.phsig' o)
  | .phwait o => some (Form.x96 Enc.phwait' o)
  | .phsw o => some (Form.x96 Enc.phsw' o)
  | .phq o => some (Form.x96 Enc.phq' o)
  | .rdef o => some (Form.x96 Enc.rdef' o)
  | .racq o => some (Form.x96 Enc.racq' o)
  | .rpub o => some (Form.x96 Enc.rpub' o)
  | .rget o => some (Form.x96 Enc.rget' o)
  | .rrel o => some (Form.x96 Enc.rrel' o)
  | .cpy o => some (Form.x96 Enc.cpy' o)
  | .cpyw o => some (Form.x96 Enc.cpyw' o)
  | .wld o => some (Form.b32 Enc.wld' o)
  | .wldX96 o => some (Form.x96 Enc.wld' o)
  | .wswap o => some (Form.x96 Enc.wswap' o)
  | .mma o => some (Form.xl Enc.mma' o (mmaOk o.lit))
  | .mdrain o => some (Form.x96 Enc.mdrain' o)
  | .ashape o => some (Form.x96 Enc.ashape' o)
  | .twait o => some (Form.x96 Enc.twait' o)
  | .tqry o => some (Form.x96 Enc.tqry' o)
  | .yield o => some (Form.b32 Enc.yield' o)
  | .yieldX96 o => some (Form.x96 Enc.yield' o)
  | .sleep o => some (Form.x96 Enc.sleep' o)
  | .cropen o => some (Form.x96 Enc.cropen' o)
  | .crclose o => some (Form.x96 Enc.crclose' o)
  | .mapv o => some (Form.x96 Enc.mapv' o)
  | .mapack o => some (Form.x96 Enc.mapack' o)
  | .feat o => some (Form.x96 Enc.feat' o)
  | .clk o => some (Form.x96 Enc.clk' o)
  | .pmrd o => some (Form.x96 Enc.pmrd' o)
  | .pmcfg o => some (Form.x96 Enc.pmcfg' o)
  | .prog o => some (Form.x96 Enc.prog' o)
  | .nop o => some (Form.b32 Enc.nop' o)
  | .nopX96 o => some (Form.x96 Enc.nop' o)
  | _ => none

/-- The v registers that a form of the integer, floating-point and conversion instructions and of the comparisons reads, in A, B, C order, each with
its wait bit (R28, R124). -/
def sourcesOf (f : Form) : List (Nat × Bool) :=
  let src := fun (u : Use) (n : Nat) (w : Bool) => if u = .vs then [(n, w)] else []
  src f.enc.a f.a f.x.w0.wa ++ (if f.x.immb then [] else src f.enc.b f.b f.x.w0.wb) ++ src f.enc.c f.c f.x.wc

/-- The instructions that read such sources and then compute. -/
def computeForm (i : Instr) : Option Form :=
  match i with
  | .icmp o => some (Form.b32 Enc.icmp' o)
  | .icmpX96 o => some (Form.x96 Enc.icmp' o)
  | .fcmp o => some (Form.b32 Enc.fcmp' o)
  | .fcmpX96 o => some (Form.x96 Enc.fcmp' o)
  | i => ((integerRule i).map Prod.fst).or (((floatRule i).map Prod.fst).or ((conversionRule i).map Prod.fst))

/-- The instructions that access global memory lane by lane: the permission they need, their element width, the bytes that each lane accesses, and
the scale of their index (R215, R219, R234, R235, R258). -/
def laneAccess : Instr → Option (Form × Need × Nat × Nat × Nat)
  | .ld o => let f := Form.b32 Enc.ld' o; runs f .read
  | .ldX96 o => let f := Form.x96 Enc.ld' o; runs f .read
  | .st o => let f := Form.b32 Enc.st' o; runs f .write
  | .stX96 o => let f := Form.x96 Enc.st' o; runs f .write
  | .pref o => let f := Form.b32 Enc.pref' o; prefs f
  | .prefX96 o => let f := Form.x96 Enc.pref' o; prefs f
  | .cwb o => some (Form.b32 Enc.cwb' o, .read, 1, 1, 1)
  | .cwbX96 o => some (Form.x96 Enc.cwb' o, .read, 1, 1, 1)
  | .atom o => let f := Form.x96 Enc.atom' o; atoms f .atomic
  | .acas o => let f := Form.x96 Enc.acas' o; atoms f .atomic
  | .red o => let f := Form.b32 Enc.red' o; atoms f .write
  | .redX96 o => let f := Form.x96 Enc.red' o; atoms f .write
  | _ => none
where
  /-- LD and ST of a run of registers. -/
  runs (f : Form) (need : Need) : Option (Form × Need × Nat × Nat × Nat) :=
    let w := if f.x.ty = .b64 then 8 else if f.x.ty = .f16 ∨ f.x.ty = .bf16 then 2 else 4
    some (f, need, w, w * f.x.count, 2 ^ (f.x.func.toNat % 8))
  /-- PREF: of a whole line, for zeros. -/
  prefs (f : Form) : Option (Form × Need × Nat × Nat × Nat) :=
    if f.x.func = 2 then some (f, .write, 128, 128, 1) else some (f, .read, 1, 1, 1)
  /-- An atomic of one element. -/
  atoms (f : Form) (need : Need) : Option (Form × Need × Nat × Nat × Nat) :=
    let w := if f.x.ty = .b64 then 8 else 4
    some (f, need, w, w, 1)

/-- The address of lane `i`: base, index by scale, and offset, mod 2^64 (R217). -/
def laneAddr (st : Strand) (f : Form) (scale i : Nat) : Nat :=
  let x := (st.srcs f).b i
  (vget st.b f.a 0 + (if f.x.x1 then x.setWidth 64 else x.signExtend 64) * BitVec.ofNat 64 scale + f.x.imm.signExtend 64).toNat

/-- The first condition of R196 that an access of `span` bytes at `a` meets; 0 for none. -/
def firstMet (s : State) (e : Env) (c : Ctx) (need : Need) (width span a : Nat) : Nat :=
  if a % width ≠ 0 then 1
  else match c.translate a with
    | none => 2
    | some (_, w, ia) =>
      if w.grants need = false then 3
      else if w.vlast < (a + span - 1) / 65536 then 4
      else if (List.range ((ia + span - 1) / 65536 - ia / 65536 + 1)).all fun k => (s.leaseSet e).contains (ia / 65536 + k) then 0 else 5

/-- What R196 and R197 give for an instruction: the lowest-ordered condition that any lane meets, the lanes that meet it, the address of the lowest of
them, and the detail word: LANE, REASON and WIN. None where no lane meets any. -/
def accessFault (s : State) (st : Strand) (e : Env) (c : Ctx) (f : Form) (need : Need) (width span scale : Nat) : Option (Nat × Mask × Nat × Word) :=
  let met := fun i => firstMet s e c need width span (laneAddr st f scale i)
  let lanes := (List.range 32).filter (st.srcs f).m.has
  match [1, 2, 3, 4, 5].find? fun k => lanes.any fun i => met i = k with
  | none => none
  | some k =>
    let bad := lanes.filter fun i => met i = k
    let low := bad.headD 0
    let va := laneAddr st f scale low
    let win := match c.translate va with | some t => t.1 | none => 16
    let reason := if k = 2 then 1 else if k = 3 then 2 else if k = 4 then 3 else 0
    some (k, wordOf fun i => bad.contains i, va, BitVec.ofNat 32 (low + 32 * reason + 256 * win))

/-- The feature that the activation format of an MMA needs (R446). -/
def activationNeeds : Instr → Nat
  | .mma o => let fmt := o.lit.toNat / 2 ^ 23 % 16; if fmt = 10 then 2 else if fmt = 11 then 4 else 0
  | _ => 0

/-- A word that is no instruction: UDF, and everything the tables do not give (R56). -/
def badWordRule : Instr → Option (Word × Nat)
  | .udf w => some (w, 0x02)
  | .nonInstruction w => some (w, 0x01)
  | _ => none

end Sys2Proof.Machine

/-- exec of TRAP, where the strand may take a trap at once and M is not empty, answers the state in which the strand is at its kernel's trap entry in
handler mode, with cause 0x14, its own address, M and B in the trap state. EMPTY-READ: of the forms that compute, the first source in A, B, C order
that is empty decides: without a wait bit the strand is at its trap entry with cause 0x05 and the register as detail, and with one it waits for the
register. MEM-ALIGN, WINDOW and STRADDLE: where a lane of LD, ST, PREF, CWB, ATOM, ACAS or RED meets a condition of R196, the lowest that any lane
meets is raised with its lanes and the detail word of R197; for LEASE the group faults with it (R199). Nothing else has changed. (01_notation.md
R28, 02_encoding.md R57, R59, 06_strand.md R179-R183, 08_page.md R196-R199.) -/
def Obligations.TrapsAreTaken : Prop :=
  (∀ i f c d, trapRule i = some (f, c, d) → ∀ s st e, Quiet s st e f → TakesTraps s st e → st.mask f.pred ≠ 0 →
    exec i s = .next (s.setStrand (st.trapped e c d (st.mask f.pred)))) ∧
  (∀ i f, computeForm i = some f → ∀ s st e n wait, Quiet s st e f →
    (sourcesOf f).find? (fun r => !(st.reg r.1).full) = some (n, wait) →
    (wait = true → exec i s = .next (s.setStrand { st with state := .blocked (.reg n) })) ∧
    (wait = false → TakesTraps s st e → exec i s = .next (s.setStrand (st.trapped e 0x05 (BitVec.ofNat 32 n) (st.trapLanes f))))) ∧
  ∀ i f need width span scale, laneAccess i = some (f, need, width, span, scale) → ∀ s st e c k m va detail, Calm s st e f → s.ctx? e.ctx = some c →
    (∀ ch ∈ s.changes, ch.ctx = c.id → ∀ n w, ch.change ≠ .window n w) →
    accessFault s st e c f need width span scale = some (k, m, va, detail) →
    (k < 5 → TakesTraps s st e → exec i s = .next (s.setStrand (st.trapped e (if k = 1 then 0x0C else if k = 4 then 0x0E else 0x0D) detail m va))) ∧
    (k = 5 → ∀ n w ia, c.translate va = some (n, w, ia) →
      exec i s = .next (s.groupFault st 2 0x0F st.pc.toNat m detail va ia))

/-- exec of UDF and of a word that is no instruction, where the strand may take a trap at once, answers the state in which the strand is at its
kernel's trap entry in handler mode with cause UDF or ILLEGAL, the word as detail, and nothing else changed. The lane mask of a word without a
predicate is the model's reading (log entry 22). (02_encoding.md R56, R59, 06_strand.md R180-R183.) -/
def Obligations.BadWordsTrap : Prop :=
  ∀ i w c, badWordRule i = some (w, c) → ∀ s st e, TakesTraps s st e →
    exec i s = .next (s.setStrand (st.trapped e c w (st.trapLanes (Form.bare w))))

/-- For every form of every instruction, where its fields or its literal break a rule of its encoding or its unit has no such instruction (the tile
group on a core, and what an MCC refuses) and the strand may take a trap at once, exec answers the state in which the strand is at its trap entry
with cause 0x01 and the first word as detail, whatever M is; nothing else has changed. The lane mask is the model's reading (log entry 22).
(02_encoding.md R45-R49, R56, R57, 06_strand.md R180-R183, 19_tile.md R395.) -/
def Obligations.IllegalEncodingTraps : Prop :=
  ∀ i f, formOf i = some f → ∀ s st e, TakesTraps s st e → (f.enc.legal f.x = false ∨ f.litOk = false ∨ f.foreign st.tile = true) →
    exec i s = .next (s.setStrand (st.trapped e 0x01 f.word (st.trapLanes f)))

/-- For every form of every instruction that needs a feature (by its TYPE, source type, activation format or sparse operand) which the kernel does not declare or the
unit does not have, where the encoding is legal and the strand may take a trap at once, exec answers the state in which the strand is at its trap
entry with cause 0x0B and the low word of the missing features as detail; nothing else has changed. (22_map.md R446, R448, 06_strand.md
R180-R183.) -/
def Obligations.MissingFeatureTraps : Prop :=
  ∀ i f, formOf i = some f → ∀ s st e, TakesTraps s st e → (f.enc.legal f.x && f.litOk) = true → f.foreign st.tile = false →
    let need : DWord := BitVec.ofNat 64 (f.needs ||| activationNeeds i)
    let lacks : DWord := if need &&& ~~~e.hdr.features ≠ 0 then need &&& ~~~e.hdr.features else need &&& ~~~(s.unitFeatures st)
    lacks ≠ 0 → exec i s = .next (s.setStrand (st.trapped e 0x0B lacks.lo (st.trapLanes f)))

/-- From every Calm state in which a v register that BADD or BMOV needs uniform is not, and the strand may take a trap at once, exec answers the state
in which the strand is at its trap entry with cause 0x07 and the register's number as detail; nothing else has changed. (04_register.md R122,
06_strand.md R180-R183.) -/
def Obligations.NonUniformBaseTraps : Prop :=
  ∀ i f g us, baseRule i = some (f, g, us) → ∀ s st e n, Calm s st e f → TakesTraps s st e → us.find? (fun n => !st.uniform n) = some n →
    exec i s = .next (s.setStrand (st.trapped e 0x07 (BitVec.ofNat 32 n) (st.trapLanes f)))

/-- From every Calm state in which M is not empty and the shape of v[A] is not in the allowed set, and the strand may take a trap at once, exec of
SHAPEA answers the state in which the strand is at its trap entry with cause 0x06, M as lane mask, and the register, the shape found and the set
in the detail word; nothing else has changed. (04_register.md R118, 06_strand.md R180-R183.) -/
def Obligations.ShapeAssertTraps : Prop :=
  ∀ i f, shapeaForm i = some f → ∀ s st e, Calm s st e f → TakesTraps s st e → st.mask f.pred ≠ 0 →
    f.x.w0.b.getLsbD (shapeRule (st.reg f.a)) = false →
    exec i s = .next (s.setStrand (st.trapped e 0x06 (BitVec.ofNat 32 (f.a + 256 * shapeRule (st.reg f.a) + 65536 * f.b)) (st.mask f.pred)))

namespace Sys2Proof.Machine

/-! ### The system group (R342-R344, R454, R455, R460, R473, R476) -/

/-- A 64-bit value read into a v pair, and the state of everything else. -/
def pairRead (s : State) (st : Strand) (e : Env) (c : Ctx) : Instr → Option (Form × DWord × State)
  | .mapv o => some (Form.x96 Enc.mapv' o, if o.x1 then c.ack else s.dev.map.version, s)
  | .feat o => some (Form.x96 Enc.feat' o, if o.x1 then e.hdr.features else s.unitFeatures st, s)
  | .clk o => some (Form.x96 Enc.clk' o, BitVec.ofNat 64 (s.cluster st.clusterNo).cycles, s)
  | .pmrd o =>
    if [6, 7, 8].any c.counts then none else some (Form.x96 Enc.pmrd' o, vget c.counters (Form.x96 Enc.pmrd' o).b 0, s)
  | _ => none

/-- The status of MAPACK for a version, and the context after it: 0 raises ACK, 1 finds it that high already, 2 names a version to come (R455). -/
def ackRule (s : State) (c : Ctx) (n : DWord) : Nat × Ctx :=
  if s.dev.map.version < n then (2, c)
  else if n ≤ c.ack then (1, c)
  else
    -- the grace clock runs while a running context is behind (R451)
    let start := max c.runFrom (s.dev.published.getD n.toNat s.now)
    (0, { c with ack := n, grace := if c.state = .running ∧ n < s.dev.map.version then some start else none })

/-- The status of PMCFG for a selection word, and the context after it (R473). -/
def selectRule (c : Ctx) (n : Nat) (w : Word) : Nat × Ctx :=
  let ob := (w.extractLsb' 16 6).toNat
  if n ∈ c.claimed then (2, c)
  else if (w.extractLsb' 22 10).toNat ≠ 0 ∨ (1 ≤ ob ∧ ob ≤ 15) ∨ 9 < (w.extractLsb' 0 16).toNat then (1, c)
  else (0, { c with select := vset c.select n w, counters := vset c.counters n 0 })

/-- A cluster with one more PROG point of a function (R476, R481). -/
def withProg (c : Cluster) (func : Nat) : Cluster :=
  let old := match c.progs.find? fun p => p.1 == func with | some p => p.2 | none => 0
  { c with progs := (func, old + 1) :: c.progs.filter fun p => p.1 != func }

/-- CROPEN, CRCLOSE, SLEEP and YIELD where they change no more than their strand. -/
def strandRule (s : State) (st : Strand) (e : Env) : Instr → Option (Form × Strand)
  | .cropen o =>
    let f := Form.x96 Enc.cropen' o
    let a := vget st.b f.a 0
    if st.mask f.pred = 0 then some (f, st.past f)
    else if st.handler = none ∧ a.toNat % 64 = 0 ∧ st.rets.length < 128 then
      -- the number by which the machine tells regions apart is that of the next object
      some (f, { st with rets := { ra := a + 1, cm := st.path, opened := s.freshId } :: st.rets }.past f)
    else none
  | .crclose o =>
    let f := Form.x96 Enc.crclose' o
    if st.mask f.pred = 0 then some (f, st.past f)
    else if (match st.handler with | some h => h.unwind | none => false) then some (f, { st with handler := none }.past f)
    else
      match st.rets with
      | top :: rest =>
        if top.isRegion = true ∧ st.path = top.cm &&& st.live then some (f, { st with rets := rest }.past f) else none
      | [] => none
  | .sleep o =>
    let f := Form.x96 Enc.sleep' o
    let now := (s.cluster st.clusterNo).cycles
    let n := ((st.srcs f).b 0).toNat
    let from' := st.sleepFrom.getD (now, n)
    if (st.srcs f).ub = false then none
    else if st.mask f.pred = 0 ∨ n = 0 ∨ st.restored = true ∨ from'.1 + n ≤ now then
      some (f, { st with sleepFrom := none, restored := false }.past f)
    else none
  | .yield o => let f := Form.b32 Enc.yield' o; yields f
  | .yieldX96 o => let f := Form.x96 Enc.yield' o; yields f
  | _ => none
where
  /-- YIELD has an effect only when a pending team of the level could be placed instead (R343). -/
  yields (f : Form) : Option (Form × Strand) :=
    if st.mask f.pred = 0 ∨ (s.setStrand st).yieldHelps e.team e.level = false then some (f, st.past f) else none

/-- YIELD. -/
def yieldForm : Instr → Option Form
  | .yield o => some (Form.b32 Enc.yield' o)
  | .yieldX96 o => some (Form.x96 Enc.yield' o)
  | _ => none

end Sys2Proof.Machine

/-- From every Calm state exec answers a next state in which v[D] and v[D+1] hold, in the live lanes of M, the low and high word of the map version or
the context's ACK, of the unit's or the declared features, of the cluster's cycle counter, or of counter B of the context, and nothing else has
changed. Where counters of the context count the traffic of its data (L2 sector reads, HBM bursts, die-to-die beats), PMRD counts it up to now, by
free amounts (log entry 16), and reads counter B as the next state holds it. (22_map.md R454, 23_power.md R473, R476, R477.) -/
def Obligations.PairReads : Prop :=
  (∀ s st e c i f x u, s.ctx? e.ctx = some c → pairRead s st e c i = some (f, x, u) → Calm s st e f →
    ∃ t st', exec i s = .next t ∧ OnlyStrand u t st' ∧ Writes st st' f [(f.d, fun _ => x.lo), (f.d + 1, fun _ => x.hi)]) ∧
  ∀ (o : X96) s st e c, let f := Form.x96 Enc.pmrd' o
    s.ctx? e.ctx = some c → Calm s st e f → st.mask f.pred ≠ 0 →
    ∃ t st' c', exec (.pmrd o) s = .next t ∧ t.strand? st.id = some st' ∧ t.ctx? e.ctx = some c' ∧
      Writes st st' f [(f.d, fun _ => (vget c'.counters f.b 0).lo), (f.d + 1, fun _ => (vget c'.counters f.b 0).hi)]

/-- CROPEN with a valid record address, CRCLOSE of the innermost region or after an unwind, SLEEP that has nothing to wait for, and YIELD with no team
to go ahead of it: from every Calm state exec answers a next state that differs in the strand alone, as strandRule says; under an empty M each
only goes on. Whether a team could go ahead of it is judged by the model's placement of teams in order, which R343 leaves open (log entry 28).
(22_map.md R460, 14_group.md R343, R344.) -/
def Obligations.StrandSystemInstructions : Prop :=
  ∀ s st e i f st', strandRule s st e i = some (f, st') → Calm s st e f → ∃ t, exec i s = .next t ∧ OnlyStrand s t st'

/-- From every Quiet state with M not empty in which a pending team of the level could be placed with the resources of this team counted free, and the
team runs, exec of YIELD answers a next state in which the team is being pre-empted; memory is unchanged. Whether a team could be placed is judged by the model's
placement (log entry 28). (14_group.md R333, R343.) -/
def Obligations.YieldPreempts : Prop :=
  ∀ i f, yieldForm i = some f → ∀ s st e team, Quiet s st e f → st.mask f.pred ≠ 0 → (s.setStrand st).yieldHelps e.team e.level = true →
    s.team? e.team = some team → team.state = .running →
    ∃ t, exec i s = .next t ∧ (t.team? e.team).map (·.state) = some .preempting ∧ t.mem = s.mem

/-- From every Calm state with a uniform pair in v[A], exec of MAPACK answers a next state in which v[D] holds in the live lanes of M status 2 for a
version above the current one, 1 for one already acknowledged, else 0, and in that case ACK is that version and the grace clock is stopped or
restarted; under an empty M the context is unchanged. Nothing else has changed. (22_map.md R449, R451, R455.) -/
def Obligations.MapAcknowledge : Prop :=
  ∀ (o : X96) s st e c, let f := Form.x96 Enc.mapack' o
    Calm s st e f → s.ctx? e.ctx = some c → st.uniform f.a = true → st.uniform (f.a + 1) = true →
    let r := ackRule s c (st.lane (f.a + 1) 0 ++ st.lane f.a 0)
    ∃ t st', exec (.mapack o) s = .next t ∧ OnlyStrand (if st.mask f.pred = 0 then s else s.setCtx r.2) t st' ∧
      Writes st st' f [(f.d, fun _ => BitVec.ofNat 32 r.1)]

/-- From every Calm state with a uniform v[A], exec of PMCFG answers a next state in which v[D] holds in the live lanes of M status 2 for a claimed
counter, 1 for a malformed selection, else 0, and in that case counter B has that selection and is 0; under an empty M the context is unchanged.
(Where the selection does not make a counter count this very instruction.) (23_power.md R473, R476.) -/
def Obligations.CounterSelection : Prop :=
  ∀ (o : X96) s st e c, let f := Form.x96 Enc.pmcfg' o
    Calm s st e f → s.ctx? e.ctx = some c → st.uniform f.a = true →
    let r := selectRule c f.b (st.lane f.a 0)
    (∀ n, 11 ≤ n → n < 16 → (vget r.2.select n 0).extractLsb' 0 16 ≠ 1) →
    ∃ t st', exec (.pmcfg o) s = .next t ∧ OnlyStrand (if st.mask f.pred = 0 then s else s.setCtx r.2) t st' ∧
      Writes st st' f [(f.d, fun _ => BitVec.ofNat 32 r.1)]

/-- From every Quiet state in which no counter counts PROG points, exec of PROG answers a next state in which the cluster's count for the function is
one higher, unless M is empty, and the strand is at the next instruction; nothing else has changed. (23_power.md R476, R481.) -/
def Obligations.ProgPoints : Prop :=
  ∀ (o : X96) s st e c, let f := Form.x96 Enc.prog' o
    Quiet s st e f → s.ctx? e.ctx = some c → (∀ n, 11 ≤ n → n < 16 → (vget c.select n 0).extractLsb' 0 16 ≠ 4) →
    ∃ t, exec (.prog o) s = .next t ∧
      OnlyStrand (if st.mask f.pred = 0 then s else s.setCluster (withProg (s.cluster st.clusterNo) c.func)) t (st.past f)

namespace Sys2Proof.Machine

/-! ### Memory instructions (R192-R235, R257-R270, R423) -/

/-- The access of a lane at `a` is one that R196 lets through: aligned, translated, permitted, within its window, and on pages of the launch. -/
def globalOk (s : State) (e : Env) (c : Ctx) (need : Need) (width span a : Nat) : Bool :=
  a % width = 0 &&
  match c.translate a with
  | some (_, w, ia) => w.grants need && (a + span - 1) / 65536 ≤ w.vlast &&
      (List.range (pageOf (ia + span - 1) - pageOf ia + 1)).all fun k => (s.leaseSet e).contains (pageOf ia + k)
  | none => false

/-- No window of the context is being changed (R206). -/
def windowsStill (s : State) (c : Ctx) : Bool :=
  !(s.changes.any fun ch => ch.ctx == c.id && (match ch.change with | .window _ _ => true | _ => false))

/-- The access of a lane at scratchpad address `a` of groups `gs` is one that R218 lets through. -/
def scratchOk (s : State) (e : Env) (width span a : Nat) (gs : List Nat) : Bool :=
  a % width = 0 && gs.all fun g => g < e.hdr.team && (match s.teamGroup? e g with | some t => a + span ≤ t.scratchLen | none => false)

/-- The address of a global access: base, index by scale, and offset, mod 2^64 (R217). -/
def globalAt (f : Form) (base : DWord) (scale : Nat) (index : Word) : Nat :=
  (base + (if f.x.x1 then index.setWidth 64 else index.signExtend 64) * BitVec.ofNat 64 scale + f.x.imm.signExtend 64).toNat

/-- The address of a scratchpad access: base and offset, mod 2^32 (R218). -/
def scratchAt (f : Form) (a : Word) : Nat := (a + f.x.imm).toNat

/-- The lanes of M in ascending order. -/
def lanesOf (m : Mask) : List Nat := (List.range 32).filter m.has

/-- The lanes whose accesses are made: one for all of them where every operand is uniform (R221, R259). -/
def actors (uniform : Bool) (m : Mask) : List Nat := if uniform then (lanesOf m).take 1 else lanesOf m

/-- The value of element `k` of lane `i` in a data run from v[n] on (R220). -/
def runValue (st : Strand) (t : Ty) (n k i : Nat) : Nat :=
  match t with
  | .b64 => (st.lane (n + 2 * k) i).toNat + 2 ^ 32 * (st.lane (n + 2 * k + 1) i).toNat
  | .f16 | .bf16 => (st.lane (n + k) i).toNat % 65536
  | _ => (st.lane (n + k) i).toNat

/-- An access that an instruction makes. -/
structure Made where
  kind : AccKind
  wk : WKind := .rc
  peer : Bool := false
  elems : List Elem

/-- What an instruction does to memory and to what lies beside it: the accesses it makes with their scope and order, the registers that wait for
them, and the values already known of these; the registers written at once; the state the accesses are added to; and the strand but for its
registers and its next instruction. `ok` says that no check stops it and that nothing holds it back. -/
structure Plan where
  form : Form
  ok : Bool
  made : List Made := []
  ord : Ord := .relaxed
  scope : Scope := .group
  dests : List Nat := []
  /-- Lane `i` of the k-th destination, so far as it is known at issue; else 0. -/
  known : Nat → Nat → Word := fun _ _ => 0
  uniform : Bool := false
  ldt : Option Nat := none
  writes : List (Nat × (Nat → Word)) := []
  base : State
  after : Strand
  /-- Lines may be filled into the L1. -/
  fills : Bool := false

/-- The kind and the IA of the window in which an address lies, and whether a first touch through it prefers host memory (R191, R202). -/
def placeOf (c : Ctx) (a : Nat) : WKind × Nat × Bool :=
  match c.translate a with | some (_, w, ia) => (w.wkind, ia, w.prefhost) | none => (.rc, 0, false)

/-- The elements of a run at an address: `count` of them, of `w` bytes. -/
def runOf (ia w count lane : Nat) (data : Nat → Nat) (pref : Bool := false) : List Elem :=
  (List.range count).map fun k => { addr := ia + w * k, width := w, lane := lane, slot := k, data := data k, pref := pref }

section Plans

variable (s : State) (st : Strand) (e : Env) (c : Ctx)

/-- LD: one access for each element of each lane (R220, R224). -/
def planLd (f : Form) : Plan :=
  let q := st.srcs f
  let w := tyWidth f.x.ty
  let at' := fun i => globalAt f (vget st.b f.a 0) (scaleOf f) (q.b i)
  { form := f, base := s, after := st, ord := f.x.ord, scope := f.x.scope, uniform := q.ub
    ok := windowsStill s c && (lanesOf q.m).all fun i => globalOk s e c .read w (w * f.x.count) (at' i)
    dests := if q.m = 0 then [] else (List.range f.x.runLen).map (f.d + ·)
    made := (actors q.ub q.m).flatMap fun i =>
      let p := placeOf c (at' i)
      (runOf p.2.1 w f.x.count (if q.ub then 0 else i) (fun _ => 0) p.2.2).map fun x => { kind := .load, wk := p.1, elems := [x] } }

/-- ST (R225). -/
def planSt (f : Form) : Plan :=
  let q := st.srcs f
  let w := tyWidth f.x.ty
  let at' := fun i => globalAt f (vget st.b f.a 0) (scaleOf f) (q.b i)
  let u := q.ub && (List.range f.x.runLen).all fun k => st.uniform (f.d + k)
  { form := f, base := s, after := st, ord := f.x.ord, scope := f.x.scope
    ok := windowsStill s c && (lanesOf q.m).all fun i => globalOk s e c .write w (w * f.x.count) (at' i)
    made := (actors u q.m).flatMap fun i =>
      let p := placeOf c (at' i)
      (runOf p.2.1 w f.x.count (if u then 0 else i) (fun k => runValue st f.x.ty f.d k i) p.2.2).map fun x =>
        { kind := .store, wk := p.1, elems := [x] } }

/-- The accesses of scratchpad lanes: one for each group that they name, in ascending order of its index (R226-R229). -/
def scratchMade (kind : Nat → AccKind) (own w count : Nat) (u : Bool) (m : Mask) (at' : Nat → Nat) (sendTo : Nat → List Nat) (data : Nat → Nat → Nat) :
    List Made :=
  ((List.range 8).filter fun g => (lanesOf m).any fun i => (sendTo i).contains g).map fun g =>
    let ls := (lanesOf m).filter fun i => (sendTo i).contains g
    { kind := kind ((s.teamGroup? e g).map (·.id) |>.getD 0), peer := g != own
      elems := (if u then ls.take 1 else ls).flatMap fun i => runOf (at' i) w count (if u then 0 else i) (data i) }

/-- LDS, LDP and LDT: the groups that each lane names, and whether the value is one for all lanes. -/
def planScratchLoad (f : Form) (own : Nat) (sendTo : Nat → List Nat) (u : Bool) (ldt : Bool) : Plan :=
  let q := st.srcs f
  let w := if ldt then 4 else tyWidth f.x.ty
  let at' := fun i => scratchAt f (q.a i)
  { form := f, base := s, after := st, ord := f.x.ord, scope := f.x.scope, uniform := u, ldt := if ldt then some f.x.count else none
    ok := (lanesOf q.m).all fun i => scratchOk s e w (w * f.x.count) (at' i) (sendTo i)
    dests := if q.m = 0 then [] else (List.range f.x.runLen).map (f.d + ·)
    made := scratchMade s e .scrLoad own w f.x.count u q.m at' sendTo fun _ _ => 0 }

/-- STS and STP. -/
def planScratchStore (f : Form) (own : Nat) (sendTo : Nat → List Nat) (u : Bool) : Plan :=
  let q := st.srcs f
  let w := tyWidth f.x.ty
  let at' := fun i => scratchAt f (q.a i)
  let u := u && (List.range f.x.runLen).all fun k => st.uniform (f.d + k)
  { form := f, base := s, after := st, ord := f.x.ord, scope := f.x.scope
    ok := (lanesOf q.m).all fun i => scratchOk s e w (w * f.x.count) (at' i) (sendTo i)
    made := scratchMade s e .scrStore own w f.x.count u q.m at' sendTo fun i k => runValue st f.x.ty f.d k i }

/-- STP with .mc writes to every group of a uniform mask, else each lane to the group it names (R228). -/
def stpTargets (f : Form) (i : Nat) : List Nat :=
  let q := st.srcs f
  if f.x.x1 then lanesOf (q.b 0) else [(q.b i).toNat]

/-- The lines of the lanes' addresses, each once, with their windows' kinds and preferences. -/
def linesAt (f : Form) : List (WKind × Nat × Bool) :=
  let q := st.srcs f
  ((lanesOf q.m).map fun i => let p := placeOf c (globalAt f (vget st.b f.a 0) 1 (q.b i)); (p.1, p.2.1 / 128, p.2.2)).eraseDups

/-- A whole line. -/
def wholeLine (n : Nat) (pref : Bool) : Elem := { addr := 128 * n, width := 128, lane := 0, slot := 0, pref := pref }

/-- PREF: a line of zeros with FUNC 2, a prefetch into the L1 with FUNC 1 and into the home slice with FUNC 0 (R234). -/
def planPref (f : Form) : Plan :=
  let q := st.srcs f
  let zero := f.x.func = 2
  let n := if zero then 128 else 1
  { form := f, base := s, after := st, ord := .relaxed, scope := f.x.scope
    ok := windowsStill s c && (lanesOf q.m).all fun i =>
      globalOk s e c (if zero then .write else .read) n n (globalAt f (vget st.b f.a 0) 1 (q.b i))
    made := (linesAt st c f).map fun l =>
      { kind := if zero then .prefZero else if f.x.func = 1 then .prefL1 else .prefL2, wk := l.1, elems := [wholeLine l.2.1 l.2.2] } }

/-- CWB (R235). -/
def planCwb (f : Form) : Plan :=
  let q := st.srcs f
  { form := f, base := s, after := st, ord := .relaxed, scope := f.x.scope
    ok := windowsStill s c && (lanesOf q.m).all fun i => globalOk s e c .read 1 1 (globalAt f (vget st.b f.a 0) 1 (q.b i))
    made := (linesAt st c f).map fun l => { kind := .cwb f.x.func.toNat, wk := l.1, elems := [wholeLine l.2.1 l.2.2] } }

/-- ATOM, ACAS and RED: one access for each lane, or one for all where every operand is uniform (R257-R264). `from'` is the first register of the
`n` operands. -/
def planAtomic (f : Form) (kind : AccKind) (need : Need) (from' n : Nat) (result : Bool) : Plan :=
  let q := st.srcs f
  let k := if f.x.ty = .b64 then 2 else 1
  let w := 4 * k
  let at' := fun i => globalAt f (vget st.b f.a 0) 1 (q.b i)
  let u := q.ub && (List.range (n * k)).all fun j => st.uniform (from' + j)
  let one := u || (lanesOf q.m).length = 1
  let ty : Ty := if f.x.ty = .b64 then .b64 else .b32
  { form := f, base := s, after := st, ord := f.x.ord, scope := f.x.scope, uniform := one
    ok := windowsStill s c && (lanesOf q.m).all fun i => globalOk s e c need w w (at' i)
    dests := if result ∧ q.m ≠ 0 then (List.range k).map (f.d + ·) else []
    made := (actors u q.m).map fun i =>
      let p := placeOf c (at' i)
      { kind := kind, wk := p.1
        elems := [{ addr := p.2.1, width := w, lane := if one then 0 else i, slot := 0, data := runValue st ty from' 0 i
                    data2 := if n = 2 then runValue st ty from' 1 i else 0, pref := p.2.2 }] } }

/-- FENCE (R265). -/
def planFence (f : Form) : Plan :=
  { form := f, base := s, after := st, ord := .relaxed, scope := f.x.scope, ok := true
    made := if (st.srcs f).m = 0 then [] else [{ kind := .fence f.x.func.toNat, elems := [] }] }

/-- PUBLISH: the counter of the context at b[A] and the offset, in a window that the host sees (R270); the context's counter 8 counts it. -/
def planPublish (f : Form) : Plan :=
  let q := st.srcs f
  let a := (vget st.b f.a 0 + f.x.imm.signExtend 64).toNat
  let seen := match c.translate a with | some (_, w, ia) => w.hostvis && ia == c.pubCtr | none => false
  { form := f, after := st, ord := .release, scope := .system
    base := if q.m = 0 then s else s.setCtx { c with counters := vset c.counters 8 (vget c.counters 8 0 + 1) }
    ok := q.m = 0 || windowsStill s c && globalOk s e c .write 8 8 a && seen
    made := if q.m = 0 then [] else
      [{ kind := .publish c.id, wk := (placeOf c a).1, elems := [{ addr := (placeOf c a).2.1, width := 8, lane := 0, slot := 0 }] }] }

/-- STCT: register e of the run is row e, at b[A] + e x pitch; 4-bit elements are stored by bytes, a byte wherever it holds an element of M, and the
elements outside M read 0 (R385). -/
def planStct (f : Form) (g : Group) : Plan :=
  let q := st.srcs f
  let x := f.x
  let n := x.func.toNat % 16 + 1
  let w := Ty.elemBits x.ty
  let va := fun (k : Nat) => (vget st.b f.a 0 + BitVec.ofNat 64 k * (q.b 0).signExtend 64).toNat
  let v := fun (k i : Nat) => if q.m.has i then toElem x.ty x.rnd x.sat (srDraw q.sr i k) (f32 (st.lane (f.d + k) i)) else 0
  let seen := (List.range n).flatMap fun k => (lanesOf q.m).map fun i => f32 (st.lane (f.d + k) i)
  { form := f, ord := x.ord, scope := x.scope, after := st
    base := if x.x1 ∧ q.m ≠ 0 then s.setGroup (withAmax g f.c (amaxRule (vget g.amax f.c {}) x.ty.code seen)) else s
    ok := q.ub && (q.m = 0 || windowsStill s c && (List.range n).all fun k => globalOk s e c .write (4 * w) (4 * w) (va k))
    made := if q.m = 0 then [] else (List.range n).flatMap fun k =>
      let p := placeOf c (va k)
      (if w = 4 then ((List.range 16).filter fun j => q.m.has (2 * j) || q.m.has (2 * j + 1)).map fun j =>
          ({ addr := p.2.1 + j, width := 1, lane := 2 * j, slot := 0, data := v k (2 * j) + 16 * v k (2 * j + 1), pref := p.2.2 } : Elem)
        else (lanesOf q.m).map fun i =>
          { addr := p.2.1 + i * (w / 8), width := w / 8, lane := i, slot := 0, data := v k i, pref := p.2.2 }).map fun y =>
        { kind := .store, wk := p.1, elems := [y] } }

/-- XFENCE (R375). -/
def planXfence (f : Form) : Plan :=
  { form := f, base := s, after := st, scope := f.x.scope, ok := true
    made := if (st.srcs f).m = 0 then [] else [{ kind := .xfence (f.x.func.toNat % 16) (f.x.func.toNat / 16), elems := [] }] }

/-- The memory instructions that put accesses in flight. -/
def memoryPlan (g : Group) : Instr → Option Plan
  | .ld o => some (planLd s st e c (Form.b32 Enc.ld' o))
  | .ldX96 o => some (planLd s st e c (Form.x96 Enc.ld' o))
  | .st o => some (planSt s st e c (Form.b32 Enc.st' o))
  | .stX96 o => some (planSt s st e c (Form.x96 Enc.st' o))
  | .lds o => let f := Form.b32 Enc.lds' o; some (planScratchLoad s st e f g.gi (fun _ => [g.gi]) (st.srcs f).ua false)
  | .ldsX96 o => let f := Form.x96 Enc.lds' o; some (planScratchLoad s st e f g.gi (fun _ => [g.gi]) (st.srcs f).ua false)
  | .sts o => let f := Form.b32 Enc.sts' o; some (planScratchStore s st e f g.gi (fun _ => [g.gi]) (st.srcs f).ua)
  | .stsX96 o => let f := Form.x96 Enc.sts' o; some (planScratchStore s st e f g.gi (fun _ => [g.gi]) (st.srcs f).ua)
  | .ldp o => let f := Form.b32 Enc.ldp' o; let q := st.srcs f
              some (planScratchLoad s st e f g.gi (fun i => [(q.b i).toNat]) (q.ua && q.ub) false)
  | .ldpX96 o => let f := Form.x96 Enc.ldp' o; let q := st.srcs f
                 some (planScratchLoad s st e f g.gi (fun i => [(q.b i).toNat]) (q.ua && q.ub) false)
  | .stp o => let f := Form.b32 Enc.stp' o; let q := st.srcs f
              some (planScratchStore s st e f g.gi (stpTargets st f) (q.ua && q.ub))
  | .stpX96 o => let f := Form.x96 Enc.stp' o; let q := st.srcs f
                 if o.x1 ∧ q.ub = false then none else some (planScratchStore s st e f g.gi (stpTargets st f) (q.ua && q.ub))
  | .ldt o => some (planScratchLoad s st e (Form.b32 Enc.ldt' o) g.gi (fun _ => [g.gi]) false true)
  | .ldtX96 o => some (planScratchLoad s st e (Form.x96 Enc.ldt' o) g.gi (fun _ => [g.gi]) false true)
  | .pref o => some (planPref s st e c (Form.b32 Enc.pref' o))
  | .prefX96 o => some (planPref s st e c (Form.x96 Enc.pref' o))
  | .cwb o => some (planCwb s st e c (Form.b32 Enc.cwb' o))
  | .cwbX96 o => some (planCwb s st e c (Form.x96 Enc.cwb' o))
  | .atom o => let f := Form.x96 Enc.atom' o; some (planAtomic s st e c f (.atom o.func.toNat o.ty) .atomic f.c 1 true)
  | .acas o => let f := Form.x96 Enc.acas' o; some (planAtomic s st e c f .cas .atomic f.c 2 true)
  | .red o => let f := Form.b32 Enc.red' o; some (planAtomic s st e c f (.atom 0 f.x.ty) .write f.d 1 false)
  | .redX96 o => let f := Form.x96 Enc.red' o; some (planAtomic s st e c f (.atom o.func.toNat o.ty) .write f.d 1 false)
  | .fence o => some (planFence s st (Form.b32 Enc.fence' o))
  | .fenceX96 o => some (planFence s st (Form.x96 Enc.fence' o))
  | .stct o => some (planStct s st e c (Form.x96 Enc.stct' o) g)
  | .xfence o => some (planXfence s st (Form.x96 Enc.xfence' o))
  | .publish o => some (planPublish s st e c (Form.b32 Enc.publish' o))
  | .publishX96 o => some (planPublish s st e c (Form.x96 Enc.publish' o))
  | _ => none

end Plans

/-- A store whose bytes are performed at home, at a wider scope than the group or in an SO window (R249, R253). -/
def Made.home (m : Made) (p : Plan) : Bool := m.kind == .store && (p.scope != .group || m.wk == .so)

/-- The sectors of which a plan's stores at home write all 32 bytes between them (R457, log entry 94). -/
def Plan.whole (p : Plan) : List Nat :=
  let es := (p.made.filter (·.home p)).flatMap Made.elems
  (es.map fun x => x.addr / 32).eraseDups.filter fun n =>
    (List.range 32).all fun i => es.any fun x => x.addr ≤ 32 * n + i && 32 * n + i < x.addr + x.width

/-- The access that is made of one planned, by the strand; its numbers are the machine's. A store knows which of its sectors the instruction writes
whole. -/
def Made.is (m : Made) (p : Plan) (st : Strand) (e : Env) (a : Access) : Prop :=
  a = { id := a.id, strand := st.id, core := st.agentCore, ctx := e.ctx, kind := m.kind, elems := m.elems, scope := p.scope, ord := p.ord
        wk := m.wk, prod := a.prod, ins := a.ins, peer := m.peer, team := e.team, part := a.part
        whole := if m.home p then p.whole.filter fun n => m.elems.any fun x => x.addr / 32 == n else [] }

/-- The registers of a strand after a plan: those that wait for a producer are empty and hold what they held (R109), those written are as Wrote
says, and the others as they were. -/
structure Plan.Regs (p : Plan) (st st' : Strand) : Prop where
  rest : st' = { p.after.past p.form with v := st'.v, vecArea := st'.vecArea, order := st'.order, sr := st.srAfter p.form }
  frame : ∀ n, n ∉ p.dests → n ∉ p.writes.map Prod.fst → st'.reg n = st.reg n ∧ st'.lane n = st.lane n
  empty : ∀ n ∈ p.dests, (st'.reg n).full = false ∧ (st'.reg n).poison = false ∧ st'.lane n = st.lane n
  wrote : ∀ d ∈ p.writes, Wrote st st' (st.mask p.form.pred) d.1 d.2

/-- The producer of a plan: the values it knows, and the accesses it waits for. -/
structure Plan.Waits (p : Plan) (st : Strand) (new : List Access) (r : Producer) : Prop where
  strand : r.strand = st.id ∧ r.mask = st.mask p.form.pred ∧ r.uniform = p.uniform ∧ r.poison = false ∧ r.ldt = p.ldt
  wide : r.wide = (p.form.x.ty = .b64 : Bool)
  dests : r.dests.map Prod.fst = p.dests
  known : ∀ (k : Nat) d, r.dests[k]? = some d → ∀ i, i < 32 → d.2.get i = p.known k i
  waiting : r.waiting = new.map Access.id ∧ ∀ a ∈ new, a.prod = some r.id

/-- A plan carried out: its accesses are in flight behind those that were; a producer waits for them where there are destinations; and nothing else
has happened. -/
structure Plan.Done (p : Plan) (s : State) (st : Strand) (e : Env) (t : State) : Prop where
  out : ∃ st' new ps,
    OnlyStrand { p.base with flight := s.flight ++ new, prods := s.prods ++ ps, l1 := if p.fills then t.l1 else p.base.l1 } t st' ∧
    p.Regs st st' ∧ new.length = p.made.length ∧
    (∀ (k : Nat) (m : Made) a, p.made[k]? = some m → new[k]? = some a → m.is p st e a) ∧
    (p.dests = [] → ps = []) ∧ (p.dests ≠ [] → ∃ r, ps = [r] ∧ p.Waits st new r)

end Sys2Proof.Machine

/-- For LD, ST, LDS, STS, LDP, STP, LDT, PREF, CWB, ATOM, ACAS, RED, FENCE, XFENCE, PUBLISH and STCT, in every form: from every Calm state in which no
check stops the instruction (the plan's ok) exec answers a next state in which exactly the planned accesses are in flight behind those that were,
each with its address, width, lane, data, scope, order and kind; the destinations are empty and wait for a producer of exactly these accesses, and
hold what they held; every other register, memory and everything else is unchanged. That a strand-uniform store makes one access follows R221.
(09_access.md R215-R235, 10_order.md R257-R270, 17_engines.md R375, R385.) -/
def Obligations.MemoryInstructionsIssue : Prop :=
  ∀ s st e c g i p, s.ctx? e.ctx = some c → s.group? e.group = some g → memoryPlan s st e c g i = some p → p.ok = true → Calm s st e p.form →
    ∃ t, exec i s = .next t ∧ p.Done s st e t

namespace Sys2Proof.Machine

/-! ### What acts on memory at its issue (R230-R232, R325-R327, R377-R389) -/

/-- Bytes of memory below home 4 that an access of the strand finds as they stand: every page placed and not moving, on a live die, at a unit that is
not under test, behind no link that retrains, and not the map page. -/
def plainPlace (s : State) (st : Strand) (ia n : Nat) : Bool :=
  0 < n && (List.range (pageOf (ia + n - 1) - pageOf ia + 1)).all fun k =>
    let p := pageOf ia + k
    let at' := if k = 0 then ia else 65536 * p
    homeOf (65536 * p) < 4 && s.reachable (65536 * p) && !s.inMapPage (65536 * p) && s.pageReady p &&
    !s.unitHeld at' && !s.transferHeld (agentDie st.agentCore) true at'

/-- Nothing else moves: the strand has no access in flight, no L1 holds a line, no strand is a continuation, and no sector carries poison. -/
def allStill (s : State) (st : Strand) : Bool :=
  (s.flight.all fun a => a.strand != st.id) && s.l1.isEmpty && (s.strands.all fun x => x.cont.isNone) && s.poison.isEmpty

/-- The state with bytes written at a home below 4, whose lines hold data from then on (R205). -/
def State.written (s : State) (ia : Nat) (bytes : List Byte) : State :=
  { s with mem := s.mem.putList ia bytes
           zeroLines := s.zeroLines.filter fun l => !((List.range ((ia % 128 + bytes.length + 127) / 128)).any fun i => l == ia / 128 + i) }

/-- A little-endian field of memory. -/
def State.field (s : State) (ia n : Nat) : Nat := natLE (s.mem.getList ia n)

section Plans

variable (s : State) (st : Strand) (e : Env) (c : Ctx) (g : Group)

/-! #### Full and empty words -/

/-- The words of scratchpad that lanes of M name from their addresses, `span` bytes each. -/
def namedWords (f : Form) (span : Nat) : List Nat :=
  let q := st.srcs f
  ((lanesOf q.m).flatMap fun i => (List.range ((span + 3) / 4)).map fun k => scratchAt f (q.a i) / 4 + k).eraseDups

/-- LDF and LDFK: the values at once, and for LDF the words empty (R230). -/
def planLdf (f : Form) (keep : Bool) : Plan :=
  let q := st.srcs f
  let w := tyWidth f.x.ty
  let ws := namedWords st f w
  { form := f, after := st, scope := f.x.scope, ord := f.x.ord, uniform := q.ua
    ok := allStill s st && g.poison.isEmpty && (lanesOf q.m).all (fun i => scratchOk s e w w (scratchAt f (q.a i)) [g.gi]) &&
      ws.all fun x => g.fullWords.contains x
    dests := if q.m = 0 then [] else (List.range f.x.runLen).map (f.d + ·)
    known := fun k i => if (if q.ua then i = 0 else q.m.has i = true) then
        BitVec.ofNat 32 (natLE (Memory.getList g.scratch (scratchAt f (q.a (if q.ua then q.m.lowest else i))) w) / 2 ^ (32 * k)) else 0
    base := if keep ∨ q.m = 0 then s else s.setGroup (g.mark ws false) }

/-- STF: the words written and full (R231). -/
def planStf (f : Form) : Plan :=
  let q := st.srcs f
  let w := tyWidth f.x.ty
  let ws := namedWords st f w
  let u := q.ua && (List.range f.x.runLen).all fun k => st.uniform (f.d + k)
  let es := (actors u q.m).map fun i =>
    ({ addr := scratchAt f (q.a i), width := w, lane := if u then 0 else i, slot := 0, data := runValue st f.x.ty f.d 0 i } : Elem)
  { form := f, after := st
    ok := allStill s st && (lanesOf q.m).all (fun i => scratchOk s e w w (scratchAt f (q.a i)) [g.gi]) &&
      !(ws.any fun x => g.fullWords.contains x)
    base := if q.m = 0 then s else s.setGroup ((g.store es).mark ws true) }

/-- FESET (R232). -/
def planFeset (f : Form) : Plan :=
  let q := st.srcs f
  let w := tyWidth f.x.ty
  let span := w * f.x.count
  { form := f, after := st
    ok := allStill s st && (lanesOf q.m).all (fun i => scratchOk s e w span (scratchAt f (q.a i)) [g.gi])
    base := if q.m = 0 then s else s.setGroup (g.mark (namedWords st f span) f.x.x1) }

/-! #### Packed areas -/

/-- The bytes of a value of a packed type: 4 of b32, else 2. -/
def valueBytes (t : Nat) : Nat := if t = 0 then 4 else 2

/-- The size of a record (R387). -/
def sizeOfRecord (n nv t : Nat) : Nat := 4 + 4 * n + 4 * ((nv * valueBytes t + 3) / 4)

/-- The bytes of the record of `n` registers with elements `z`, where 0 stands for absent (R387). -/
def recordBytes (n t : Nat) (z : Nat → Nat → Nat) : List Byte :=
  let vals := ((List.range (32 * n)).map fun k => z (k / 32) (k % 32)).filter (· != 0)
  let bytes := vals.flatMap (bytesLE (valueBytes t))
  bytesLE 4 (vals.length + 256 * n + 2048 * t) ++
    ((List.range n).flatMap fun k => bytesLE 4 ((List.range 32).map fun i => if z k i = 0 then 0 else 2 ^ i).sum) ++
    bytes ++ List.replicate (4 * ((bytes.length + 3) / 4) - bytes.length) 0

/-- The address of a packed area or record: base, index and offset. -/
def areaAt (f : Form) : Nat := globalAt f (vget st.b f.a 0) 1 ((st.srcs f).b 0)

/-- STZ: the header counts the record, and the words of the record are stored behind those appended before (R388). -/
def planStz (f : Form) : Plan :=
  let q := st.srcs f
  let x := f.x
  let va := areaAt st f
  let p := placeOf c va
  let n := x.count
  let z := fun (k i : Nat) => if q.m.has i then runValue st x.ty f.d k i else 0
  let r := recordBytes n x.ty.code z
  let ia := p.2.1
  let cap := s.field ia 4
  let len := s.field (ia + 4) 4
  let at' := ia + 32 + len
  { form := f, after := st, scope := x.scope
    ok := q.ub && (q.m = 0 || allStill s st && windowsStill s c && globalOk s e c .update 32 32 va && plainPlace s st ia 32 &&
      s.field (ia + 16) 16 = 0 && cap % 4 = 0 && len % 4 = 0 && len + r.length ≤ cap && globalOk s e c .update 4 (32 + cap) va &&
      globalOk s e c .update 4 r.length (va + 32 + len))
    base := if q.m = 0 then s else
      s.written (ia + 4) (bytesLE 4 (len + r.length) ++ bytesLE 4 (s.field (ia + 8) 4 + 1) ++ bytesLE 4 (s.field (ia + 12) 4 + 32 * n))
    made := if q.m = 0 then [] else (List.range (r.length / 4)).map fun j =>
      { kind := .store, wk := p.1
        elems := [{ addr := at' + 4 * j, width := 4, lane := 0, slot := 0, data := natLE ((r.drop (4 * j)).take 4), pref := p.2.2 }] } }

/-- LDZ: the values of a record, each in the next set bit of the masks (R389). -/
def planLdz (f : Form) : Plan :=
  let q := st.srcs f
  let x := f.x
  let va := areaAt st f
  let ia := (placeOf c va).2.1
  let h := s.field ia 4
  let n := x.count
  let t := x.ty.code
  let set := fun (k : Nat) => (s.field (ia + 4 + 4 * (k / 32)) 4).testBit (k % 32)
  let nv := ((List.range (32 * n)).filter set).length
  let size := sizeOfRecord n nv t
  { form := f, after := st, ord := x.ord, scope := x.scope, base := s, fills := true
    ok := q.ub && (q.m = 0 || allStill s st && windowsStill s c && globalOk s e c .read 4 size va && plainPlace s st ia size &&
      !c.counts 5 && h = nv + 256 * n + 2048 * t)
    dests := if q.m = 0 then [] else (List.range n).map (f.d + ·)
    known := fun k i => if set (32 * k + i) then
        BitVec.ofNat 32 (s.field (ia + 4 + 4 * n + valueBytes t * ((List.range (32 * k + i)).filter set).length) (valueBytes t)) else 0 }

/-! #### CHUNK and LAUNCH -/

/-- CHUNK: items handed out from the record at b[A] and the offset (R326, R327). -/
def planChunk (f : Form) : Plan :=
  let m := (st.srcs f).m
  let va := (vget st.b f.a 0 + f.x.imm.signExtend 64).toNat
  let ia := (placeOf c va).2.1
  let remain := s.field ia 4
  let next := s.field (ia + 4) 4
  let mn := s.field (ia + 8) 4
  let dv := s.field (ia + 12) 4
  let n := min remain (max mn ((remain + dv - 1) / dv))
  { form := f, after := st, uniform := true
    ok := m = 0 || allStill s st && windowsStill s c && globalOk s e c .atomic 32 32 va && plainPlace s st ia 32 && mn ≠ 0 && dv ≠ 0 &&
      s.field (ia + 16) 16 = 0
    dests := if m = 0 then [] else [f.d, f.d + 1]
    known := fun k _ => BitVec.ofNat 32 (if k = 0 then next else n)
    base := if m = 0 then s else s.written ia (bytesLE 4 (remain - n) ++ bytesLE 4 (next + n)) }

/-- LAUNCH: the 64 bytes copied to the entry at TAIL and TAIL + 1, status 0; or a status that says why not (R325). -/
def planLaunch (f : Form) : Plan :=
  let m := (st.srcs f).m
  let va := (vget st.b f.a 0 + f.x.imm.signExtend 64).toNat
  let ia := (placeOf c va).2.1
  let q := c.queue f.b
  let slot := q.qbase.toNat + 64 * (q.tail.toNat % 2 ^ q.qsize)
  let seenAt := c.translate slot
  let seen := match seenAt with | some (_, w, _) => w.w | none => false
  let status := if q.state = .disabled ∨ q.state = .halted then 2 else if q.devsub = false then 3
    else if (q.tail - q.head).toNat = 2 ^ q.qsize then 1 else if seen then 0 else 4
  let dst := (placeOf c slot).2.1
  { form := f, after := st, fills := status = 0
    ok := m = 0 || windowsStill s c && globalOk s e c .read 64 64 va &&
      (status ≠ 0 || allStill s st && plainPlace s st ia 64 && plainPlace s st dst 64 && dst % 64 = 0 && dst / 128 ≠ ia / 128)
    writes := [(f.d, fun _ => BitVec.ofNat 32 status)]
    base := if m = 0 ∨ status ≠ 0 then s else (s.written dst (s.mem.getList ia 64)).setCtx (c.setQueue { q with tail := q.tail + 1 }) }

/-! #### CPY and CPYW -/

/-- Bits of the control word of CPY (R379). -/
def ctlField (f : Form) (hi lo : Nat) : Nat := f.x.imm.toNat / 2 ^ lo % 2 ^ (hi + 1 - lo)

/-- CPY (R377-R380): the copy started, with a ring slot where it names one; or a status that says why not. One of no bytes that no copy of the strand
stands before completes at once, and a later CPYW observes it. -/
def planCpy (f : Form) : Plan :=
  let m := (st.srcs f).m
  let src := vget st.b f.a 0
  let dst := vget st.b (f.a + 1) 0
  let d2 := vget st.b (f.a + 2) 0
  let d3 := vget st.b (f.a + 3) 0
  let rows : Nat := d2.toNat / 2 ^ 32 % 2 ^ 16
  let len : Nat := d2.toNat % 2 ^ 24
  let sstr := (d3.extractLsb' 0 32).toInt
  let dstr := (d3.extractLsb' 32 32).toInt
  let mode := ctlField f 15 14
  let rq := ctlField f 13 10
  let q := g.ring rq
  let at' := fun (a : DWord) (str : Int) (r : Nat) => ((a.toNat : Int) + r * str)
  let inSlot := fun (a : DWord) (str : Int) => (List.range rows).all fun r => 0 ≤ at' a str r && at' a str r + len ≤ 2 ^ q.lsz
  let side := fun (space gi : Nat) (ring : Bool) (need : Need) (a : DWord) (str : Int) => (List.range rows).all fun r =>
    let va := (at' a str r % 2 ^ 64).toNat
    if space = 0 then globalOk s e c need 4 len va else ring || scratchOk s e 4 len va [if space = 2 then gi else g.gi]
  let busy := 16 ≤ (s.copies.filter fun k => k.strand = st.id).length
  let none' := (mode = 1 ∧ q.free = 0) ∨ (mode = 2 ∧ q.filled = 0)
  let status := if busy then 2 else if none' then 1 else 0
  let slot := if mode = 1 then (q.cidx + q.cnt - q.free) % (2 * q.cnt) % q.cnt else (q.pidx + 2 * q.cnt - q.filled) % (2 * q.cnt) % q.cnt
  let base := 128 * q.off + slot * 2 ^ q.lsz
  let s1 := if mode = 1 then s.setGroup (g.setRing rq { q with free := q.free - 1, handed := q.handed.filter fun h => h.1 != slot })
            else if mode = 2 then s.setGroup (g.setRing rq { q with filled := q.filled - 1 }) else s
  let k : Copy :=
    { id := s.freshId, strand := st.id, ctx := c.id, group := g.id, src := src.toNat + (if mode = 2 then base else 0)
      dst := dst.toNat + (if mode = 1 then base else 0), rows := rows, rowLen := len, sstr := sstr, dstr := dstr, ctl := f.x.imm, windows := c.windows
      srcGroup := if ctlField f 1 0 = 2 then (s.teamGroup? e (ctlField f 6 4)).map (·.id) |>.getD 0 else g.id
      dstGroup := if ctlField f 3 2 = 2 then (s.teamGroup? e (ctlField f 9 7)).map (·.id) |>.getD 0 else g.id
      bursts := (rows * len + 4095) / 4096 }
  let empty := rows = 0 ∨ len = 0
  { form := f, after := if m ≠ 0 ∧ empty then { st with copied := max st.copied (max (ctlField f 18 16) 1) } else st
    ok := m = 0 || windowsStill s c && d2.toNat / 2 ^ 48 = 0 && d2.toNat / 2 ^ 24 % 256 = 0 && src.toNat % 4 = 0 && dst.toNat % 4 = 0 &&
      len % 4 = 0 && sstr % 4 = 0 && dstr % 4 = 0 && (!decide empty || mode = 0 && !g.ended && s.copies.all fun k => k.strand != st.id) &&
      (mode = 0 || (s.flight.all fun a => a.strand != st.id) && q.defd && (if mode = 1 then q.pcls = 2 && inSlot dst dstr else q.ccls = 2 && inSlot src sstr)) &&
      (decide empty || side (ctlField f 1 0) (ctlField f 6 4) (mode = 2) .read src sstr && side (ctlField f 3 2) (ctlField f 9 7) (mode = 1) .write dst dstr)
    writes := [(f.d, fun _ => BitVec.ofNat 32 status)]
    base := if m = 0 ∨ status ≠ 0 ∨ empty then s else
      ({ s1 with copies := s.copies ++ [k] }).request st.clusterNo
        { level := e.level, cls := 2, cost := (s.cluster st.clusterNo).cost 2 1, who := (1, k.id, 0) } }

/-- CPYW: it waits until at most B of the strand's copies are outstanding, and has then observed those that are complete (R383). -/
def planCpyw (f : Form) : Plan :=
  let m := (st.srcs f).m
  { form := f, base := s, after := if m = 0 then st else { st with copied := 0 }
    ok := m = 0 || s.l1.isEmpty && (s.copies.filter fun k => k.strand = st.id).length ≤ f.b }

/-- The instructions that read or write memory, or start what does, at their issue. -/
def areaPlan : Instr → Option Plan
  | .ldf o => some (planLdf s st e g (Form.b32 Enc.ldf' o) false)
  | .ldfX96 o => some (planLdf s st e g (Form.x96 Enc.ldf' o) false)
  | .ldfk o => some (planLdf s st e g (Form.b32 Enc.ldfk' o) true)
  | .ldfkX96 o => some (planLdf s st e g (Form.x96 Enc.ldfk' o) true)
  | .stf o => some (planStf s st e g (Form.b32 Enc.stf' o))
  | .stfX96 o => some (planStf s st e g (Form.x96 Enc.stf' o))
  | .feset o => some (planFeset s st e g (Form.b32 Enc.feset' o))
  | .fesetX96 o => some (planFeset s st e g (Form.x96 Enc.feset' o))
  | .stz o => some (planStz s st e c (Form.b32 Enc.stz' o))
  | .stzX96 o => some (planStz s st e c (Form.x96 Enc.stz' o))
  | .ldz o => some (planLdz s st e c (Form.b32 Enc.ldz' o))
  | .ldzX96 o => some (planLdz s st e c (Form.x96 Enc.ldz' o))
  | .chunk o => some (planChunk s st e c (Form.b32 Enc.chunk' o))
  | .chunkX96 o => some (planChunk s st e c (Form.x96 Enc.chunk' o))
  | .launch o => some (planLaunch s st e c (Form.b32 Enc.launch' o))
  | .launchX96 o => some (planLaunch s st e c (Form.x96 Enc.launch' o))
  | .cpy o => some (planCpy s st e c g (Form.x96 Enc.cpy' o))
  | .cpyw o => some (planCpyw s st (Form.x96 Enc.cpyw' o))
  | _ => none

end Plans

end Sys2Proof.Machine

/-- For LDF, LDFK, STF, FESET, STZ, LDZ, CHUNK, LAUNCH, CPY and CPYW, in every form: from every Calm state in which nothing stops the instruction or
holds it back, exec answers a next state in which exactly the planned accesses are in flight, exactly the planned registers are written, and the
scratchpad, the area or header in memory, the queue or the copies are as the plan's base state has them; nothing else has changed. That LDF, STF,
FESET, LDZ and parts of STZ, CHUNK and LAUNCH act at issue is the model's order (log entry 23). (09_access.md R230-R232, R422, R423, 17_engines.md
R380-R389, 13_queue.md R325-R327.) -/
def Obligations.AreaInstructions : Prop :=
  ∀ s st e c g i p, s.ctx? e.ctx = some c → s.group? e.group = some g → areaPlan s st e c g i = some p → p.ok = true → Calm s st e p.form →
    ∃ t, exec i s = .next t ∧ p.Done s st e t

namespace Sys2Proof.Machine

/-! ### Barriers, phasers and rings (R345-R370) -/

/-- A phaser record is well formed (R351). -/
def recordOk (r : Phaser) : Bool :=
  !r.reserved && (r.sigcnt != 0 || r.arrived = 0 && r.addnext = 0 && r.dropnext = 0) && (r.sigcnt = 0 || r.arrived < r.sigcnt) &&
  r.dropnext ≤ r.sigcnt + r.addnext

/-- A record with the advance made, if it is due (R353). -/
def advanced (r : Phaser) : Phaser :=
  if r.sigcnt ≠ 0 ∧ r.arrived = r.sigcnt then
    { r with phase := (r.phase + 1) % 2 ^ 32, sigcnt := r.sigcnt + r.addnext - r.dropnext, arrived := 0, addnext := 0, dropnext := 0 }
  else r

/-- No count of a step passes 2^32 - 1, and it leaves a record that is well formed (R356). -/
def stepOk (r : Phaser) : Bool :=
  let t := advanced r
  r.sigcnt < 2 ^ 32 && r.arrived < 2 ^ 32 && r.addnext < 2 ^ 32 && r.dropnext < 2 ^ 32 && r.waitcnt < 2 ^ 32 && t.sigcnt < 2 ^ 32 &&
  r.dropnext ≤ r.sigcnt + r.addnext && recordOk t

/-- (p - PHASE) mod 2^32 (R356). -/
def phaseDist (r : Phaser) (p : Word) : Nat := (p - BitVec.ofNat 32 r.phase).toNat

/-- A wait for phase p is over: s32((PHASE - p) mod 2^32) > 0 (R356). -/
def phaseOver (r : Phaser) (p : Word) : Bool := 0 < (BitVec.ofNat 32 r.phase - p).toInt

/-- The fields of a record as bytes (R351). -/
def recordFields (r : Phaser) : List Byte :=
  [r.phase, r.sigcnt, r.arrived, r.addnext, r.dropnext, r.waitcnt].flatMap (bytesLE 4)

section Plans

variable (s : State) (st : Strand) (e : Env) (c : Ctx) (g : Group)

/-- BAR: post arrives, hold waits until the strand's arrival is taken, meet does both. An arrival that completes the phase moves past their BAR the
strands that are blocked at it (R346, R347, R349). -/
def planBar (f : Form) : Plan :=
  let m := (st.srcs f).m
  let fn := f.x.func.toNat
  let b := vget g.bars f.d {}
  let arrived := b.arr.getLsbD st.idx
  let arr := b.arr ||| BitVec.ofNat 32 (2 ^ st.idx)
  let arrives := fn ≠ 1 ∧ arrived = false
  let whole := arr ≠ 0 ∧ s.alive g.id &&& ~~~arr = 0
  let put := fun (b : Bar) => s.setGroup { g with bars := vset g.bars f.d b }
  { form := f, after := st
    ok := (s.flight.all fun a => a.strand != st.id) && (m = 0 || fn = 0 || (if arrives then whole else !arrived))
    base := if m = 0 ∨ ¬arrives then s
      else if whole then
        let u := put { phase := b.phase + 1, arr := 0 }
        { u with strands := u.strands.map fun x =>
            if x.group = g.id ∧ x.id ≠ st.id ∧ x.state = .blocked (.bar f.d) then { x with pc := x.pc + 12, state := .ready, restored := false } else x }
      else put { b with arr := arr } }

/-- A step of a phaser instruction on its record: the record after it, and the value for v[D]; none where it traps or waits (R355, R356). -/
def phaserStep (f : Form) (fn : Nat) (r : Phaser) (p : Word) : Option (Phaser × Nat) :=
  let d := phaseDist r p
  let signal := { r with arrived := r.arrived + 1 }
  match fn with
  | 0 =>
    let ph := if f.x.x1 ∧ r.sigcnt ≠ 0 then (r.phase + 1) % 2 ^ 32 else r.phase
    let r := if f.x.x1 then (if r.sigcnt = 0 then { r with sigcnt := 1 } else { r with addnext := r.addnext + 1 }) else r
    let r := if f.x.x2 then { r with waitcnt := r.waitcnt + 1 } else r
    if stepOk r then some (advanced r, ph) else none
  | 1 =>
    if f.x.x1 ∧ (r.sigcnt = 0 ∨ 1 < d) ∨ f.x.x2 ∧ r.waitcnt = 0 then none
    else
      let r := if f.x.x1 then { r with arrived := if d = 0 then r.arrived + 1 else r.arrived, dropnext := r.dropnext + 1 } else r
      let r := if f.x.x2 then { r with waitcnt := r.waitcnt - 1 } else r
      if stepOk r then some (advanced r, 0) else none
  | 2 => if r.sigcnt = 0 ∨ d ≠ 0 ∨ stepOk signal = false then none else some (advanced signal, 0)
  | 3 => if phaseOver r p then some (r, 0) else none
  | 4 => if r.sigcnt = 0 ∨ d ≠ 0 ∨ stepOk signal = false ∨ phaseOver (advanced signal) p = false then none else some (advanced signal, 0)
  | _ => some (r, r.phase)

/-- A phaser instruction: one step on the record at b[A], and the subscribed waits that it ends (R353, R355). -/
def planPhaser (f : Form) (fn : Nat) : Plan :=
  let q := st.srcs f
  let va := (vget st.b f.a 0).toNat
  let ia := (placeOf c va).2.1
  let r : Phaser := { phase := s.field ia 4, sigcnt := s.field (ia + 4) 4, arrived := s.field (ia + 8) 4, addnext := s.field (ia + 12) 4
                      dropnext := s.field (ia + 16) 4, waitcnt := s.field (ia + 20) 4, reserved := s.field (ia + 24) 40 != 0 }
  let u := phaserStep f fn r (q.b 0)
  { form := f, after := if q.m ≠ 0 ∧ fn = 3 then { st with held := none } else st
    ok := (fn = 0 || fn = 5 || q.ub) && (q.m = 0 || allStill s st && windowsStill s c && globalOk s e c .atomic 64 64 va && plainPlace s st ia 64 &&
      recordOk r && u.isSome && st.held.isNone)
    writes := if fn = 0 ∨ fn = 5 then [(f.d, fun _ => BitVec.ofNat 32 (u.map (·.2) |>.getD 0))] else []
    base := match u with
      | some t => if q.m = 0 ∨ fn = 3 ∨ fn = 5 then s else (s.written ia (recordFields t.1)).wakePhaser
      | none => s }

/-- Slots held by producers: acquired and not yet published (R362). -/
def slotsAcquired (q : Ring) : Nat := ((q.cidx + q.cnt - q.free) % (2 * q.cnt) + 2 * q.cnt - q.pidx) % (2 * q.cnt)

/-- Slots held by consumers: got and not yet released (R362). -/
def slotsGot (q : Ring) : Nat := ((q.pidx + 2 * q.cnt - q.filled) % (2 * q.cnt) + 2 * q.cnt - q.cidx) % (2 * q.cnt)

/-- The ring instructions (R365, R366); a slot published or released is handed on until it is acquired again (R368). -/
def planRing (f : Form) (fn : Nat) : Plan :=
  let m := (st.srcs f).m
  let q := g.ring f.a
  let d := e.hdr.rings.getD f.a {}
  let put := fun (q : Ring) => if m = 0 then s else s.setGroup (g.setRing f.a q)
  let p0 : Plan := { form := f, ok := true, base := s, after := st }
  let served := fun (cls : BitVec 4) => q.defd && cls.getLsbD 0
  let alone := s.flight.all fun a => a.strand != st.id
  let still := alone && s.l1.isEmpty
  let slot := fun (n : Nat) => BitVec.ofNat 32 (128 * q.off + n * 2 ^ q.lsz)
  let acq := (q.cidx + q.cnt - q.free) % (2 * q.cnt) % q.cnt
  let got := (q.pidx + 2 * q.cnt - q.filled) % (2 * q.cnt) % q.cnt
  let fence := fun (src : BitVec 4) => if m = 0 then [] else [({ kind := .xfence src.toNat 1, elems := [] } : Made)]
  match fn with
  | 0 =>
    let pc : BitVec 4 := f.x.imm.extractLsb' 0 4
    let cc : BitVec 4 := f.x.imm.extractLsb' 4 4
    { p0 with
      ok := m = 0 || alone && d.cnt ≠ 0 && 128 * d.off + d.cnt * 2 ^ d.lsz ≤ g.scratchLen && (!q.defd || q.free = q.cnt) && pc ≠ 0 && cc ≠ 0
      base := put { defd := true, ccls := cc, pcls := pc, cidx := 0, pidx := 0, filled := 0, free := d.cnt, off := d.off, lsz := d.lsz, cnt := d.cnt
                    owner := st.core } }
  | 1 =>
    { p0 with
      ok := m = 0 || alone && served q.pcls && q.free ≠ 0, scope := .cluster, made := fence q.ccls, writes := [(f.d, fun _ => slot acq)]
      base := put { q with free := q.free - 1, handed := q.handed.filter fun h => h.1 != acq } }
  | 2 =>
    { p0 with
      ok := m = 0 || still && served q.pcls && slotsAcquired q ≠ 0
      base := put { q with filled := q.filled + 1, pidx := (q.pidx + 1) % (2 * q.cnt), handed := q.handed ++ [(q.pidx % q.cnt, true)] } }
  | 3 =>
    { p0 with
      ok := m = 0 || alone && served q.ccls && q.filled ≠ 0, scope := .cluster, made := fence q.pcls, uniform := true
      dests := if m = 0 then [] else [f.d], known := fun _ _ => slot got
      base := put { q with filled := q.filled - 1 } }
  | _ =>
    { p0 with
      ok := m = 0 || still && served q.ccls && slotsGot q ≠ 0
      base := put { q with cidx := (q.cidx + 1) % (2 * q.cnt), free := q.free + 1, handed := q.handed ++ [(q.cidx % q.cnt, false)] } }

/-- The instructions by which strands meet. -/
def syncPlan : Instr → Option Plan
  | .bar o => some (planBar s st g (Form.b32 Enc.bar' o))
  | .barX96 o => some (planBar s st g (Form.x96 Enc.bar' o))
  | .phreg o => some (planPhaser s st e c (Form.x96 Enc.phreg' o) 0)
  | .phdrop o => some (planPhaser s st e c (Form.x96 Enc.phdrop' o) 1)
  | .phsig o => some (planPhaser s st e c (Form.x96 Enc.phsig' o) 2)
  | .phwait o => some (planPhaser s st e c (Form.x96 Enc.phwait' o) 3)
  | .phsw o => some (planPhaser s st e c (Form.x96 Enc.phsw' o) 4)
  | .phq o => some (planPhaser s st e c (Form.x96 Enc.phq' o) 5)
  | .rdef o => some (planRing s st e g (Form.x96 Enc.rdef' o) 0)
  | .racq o => some (planRing s st e g (Form.x96 Enc.racq' o) 1)
  | .rpub o => some (planRing s st e g (Form.x96 Enc.rpub' o) 2)
  | .rget o => some (planRing s st e g (Form.x96 Enc.rget' o) 3)
  | .rrel o => some (planRing s st e g (Form.x96 Enc.rrel' o) 4)
  | _ => none

end Plans

end Sys2Proof.Machine

/-- For BAR, PHREG, PHDROP, PHSIG, PHWAIT, PHSW, PHQ, RDEF, RACQ, RPUB, RGET and RREL: from every Calm state in which nothing stops the instruction or
holds it back, exec answers a next state in which the barrier, the record in memory or the ring is as the plan's base state has it, exactly the
planned accesses are in flight and exactly the planned registers are written or wait; nothing else has changed. That phaser steps act at issue is
the model's order (log entry 23). (15_barrier.md R345-R367.) -/
def Obligations.SyncInstructions : Prop :=
  ∀ s st e c g i p, s.ctx? e.ctx = some c → s.group? e.group = some g → syncPlan s st e c g i = some p → p.ok = true → Calm s st e p.form →
    ∃ t, exec i s = .next t ∧ p.Done s st e t

namespace Sys2Proof.Machine

/-! ### The tile group (R394-R417) -/

section Plans

variable (s : State) (st : Strand) (e : Env)

/-- Tasks of the strand in its MCC's table. -/
def tasksOf : List Task := (s.cluster st.core).tasks.filter fun t => t.strand = st.id

/-- A task that has ended in a fault, to be delivered (R404). -/
def taskFaulted (t : Task) : Bool := match t.state with | .faulted _ => true | _ => false

/-- The ring of a selector serves a task that needs `n` bytes of a slot: its group is one of the team's, it is defined, its classes are exactly M, and
the slot is large enough (R403). -/
def ringServes (gi q n : Nat) (drain : Bool) : Bool :=
  gi < e.hdr.team && match s.teamGroup? e gi with
    | some g => let r := g.ring q; r.defd && (if drain then r.pcls else r.ccls) = 4 && n ≤ 2 ^ r.lsz
    | none => false

/-- WLD, MMA and MDRAIN: a task in the lowest free entry, its ticket in v[D] (R399, R405). `sel` is the ring selector. -/
def planTask (f : Form) (kind : TaskKind) (lit : DWord) (sel : Nat) (formats : DWord) : Plan :=
  let q := st.srcs f
  let c := s.cluster st.core
  let bands := (List.range 4).filter fun l => st.bands.any fun b => b.logical == l
  let entry := ((List.range 64).find? fun n => !(c.tasks.any fun t => t.entry == n)).getD 0
  let ticket := c.taskCtr * 64 + entry
  let t : Task :=
    { entry := entry, seq := s.freshId, ticket := ticket, strand := st.id, kind := kind, x := f.x, lit := lit, predA := (q.a 0).toNat
      predB := (q.b 0).toNat, bands := bands, sr := if kind = .mdrain then st.srAfter f else st.sr, addr := st.pc }
  { form := f, after := st
    ok := !((tasksOf s st).any taskFaulted) && q.ua && q.ub && formats &&& ~~~e.hdr.features = 0 && formats &&& ~~~(s.unitFeatures st) = 0 && (q.m = 0 ||
      (List.range 64).any (fun n => !(c.tasks.any fun t => t.entry == n)) && (s.flight.all fun a => a.strand != st.id) &&
      ringServes s e (sel / 16 % 8) (sel % 16) (slotBytes kind f.x lit bands) (kind = .mdrain))
    writes := [(f.d, fun _ => BitVec.ofNat 32 ticket)]
    base := if q.m = 0 then s else s.setCluster
      { c with taskCtr := if (c.taskCtr + 1) % 2 ^ 26 = 0 then 1 else (c.taskCtr + 1) % 2 ^ 26, tasks := c.tasks ++ [t] } }

/-- WSWAP: active and shadow planes change places (R409). -/
def planWswap (f : Form) : Plan :=
  let m := (st.srcs f).m
  { form := f, base := s
    ok := !((tasksOf s st).any taskFaulted) && (m = 0 || !((tasksOf s st).any fun t => t.kind != .mdrain) && st.bands.all fun b => b.shadow.valid && b.logical < 4)
    after := if m = 0 then st else
      { st with bands := st.bands.map fun b => { b with active := b.shadow, shadow := { b.active with valid := false } } } }

/-- A logical band gets the physical band of its number where that is free, else the lowest free one (R397). -/
def bindBand (free : List Nat) (l : Nat) : Nat := if free.contains l then l else free.headD 0

/-- Bands granted in ascending order: each with the physical band it is bound to. -/
def grants : List Nat → List Nat → List (Nat × Nat)
  | _, [] => []
  | free, l :: ls => (l, bindBand free l) :: grants (free.filter (· != bindBand free l)) ls

/-- ASHAPE: the status, and where it is 0 the bands dropped and granted (R415). -/
def planAshape (f : Form) : Plan :=
  let q := st.srcs f
  let cl := st.core
  let c := s.cluster cl
  let mask := (List.range 4).filter fun l => (q.b 0).getLsbD l
  let live := (List.range 4).filter fun b => s.dev.map.bandLive.getLsbD (4 * cl + b)
  let owned := fun (l : Nat) => st.bands.any fun b => b.logical == l
  let free := (s.liveBands cl).filter fun b => !(c.pbands.any fun p => p.n == b)
  let adds := mask.filter fun l => !owned l
  let status := if live.length < mask.length then 2 else if free.length < adds.length then 1 else 0
  let dropped := st.bands.filter fun b => !mask.contains b.logical
  let kept := c.pbands.filter fun p => !(p.owner == st.id && dropped.any fun b => b.physical == p.n)
  let free' := (s.liveBands cl).filter fun b => !(kept.any fun p => p.n == b)
  let new := grants free' adds
  let goes := q.m ≠ 0 ∧ status = 0
  { form := f
    ok := !((tasksOf s st).any taskFaulted) && q.ub && (q.m = 0 || (q.b 0).toNat < 16 && (tasksOf s st).isEmpty)
    writes := [(f.d, fun _ => BitVec.ofNat 32 status)]
    after := if goes then
      { st with bands := (st.bands.filter fun b => mask.contains b.logical) ++ new.map fun p => { logical := p.1, physical := p.2 } } else st
    base := if goes then s.setCluster
      { c with pbands := kept ++ new.map fun p => { n := p.2, owner := st.id, powered := false, since := s.now } } else s }

/-- TWAIT: it goes on when the ticket is satisfied, or for ticket 0 when no task of the strand is left (R416). -/
def planTwait (f : Form) : Plan :=
  let q := st.srcs f
  { form := f, base := s, after := st
    ok := !((tasksOf s st).any taskFaulted) && q.ua && (q.m = 0 ||
      if q.a 0 = 0 then (tasksOf s st).isEmpty else !((s.cluster st.core).tasks.any fun t => t.ticket == (q.a 0).toNat)) }

/-- The state of a ticket: 0 satisfied, 1 waiting, 2 issued, 3 faulted (R417). -/
def ticketCode (ticket : Nat) : Nat :=
  match (s.cluster st.core).tasks.find? fun t => t.ticket == ticket with
  | some t => match t.state with | .waiting => 1 | .issued => 2 | .faulted _ => 3
  | none => 0

/-- TQRY (R417). -/
def planTqry (f : Form) : Plan :=
  let q := st.srcs f
  let set := fun (p : Band → Bool) => ((List.range 4).map fun l => if st.bands.any fun b => b.logical == l && p b then 2 ^ l else 0).sum
  let table := set (fun _ => true) + 2 ^ 4 * set (fun b => b.active.valid) + 2 ^ 8 * set (fun b => b.shadow.valid) +
    2 ^ 16 * (tasksOf s st).length + 2 ^ 24 * (64 - (s.cluster st.core).tasks.length)
  { form := f, base := s, after := st
    ok := !((tasksOf s st).any taskFaulted) && (f.x.x1 || q.ua) && st.bands.length ≤ 4 && (st.bands.map Band.logical).eraseDups.length = st.bands.length &&
      st.bands.all fun b => b.logical < 4
    writes := [(f.d, fun _ => BitVec.ofNat 32 (if f.x.x1 then table else ticketCode s st (q.a 0).toNat))] }

/-- The tile group. -/
def tilePlan : Instr → Option Plan
  | .wld o => let f := Form.b32 Enc.wld' o; some (planTask s st e f .wld 0 (f.x.imm.toNat % 128) 0)
  | .wldX96 o => let f := Form.x96 Enc.wld' o; some (planTask s st e f .wld 0 (f.x.imm.toNat % 128) 0)
  | .mma o =>
    let afmt := o.lit.toNat / 2 ^ 23 % 16
    some (planTask s st e (Form.xl Enc.mma' o (mmaOk o.lit)) .mma o.lit (o.lit.toNat / 2 ^ 29 % 128) (if afmt = 10 then 2 else if afmt = 11 then 4 else 0))
  | .mdrain o => let f := Form.x96 Enc.mdrain' o; some (planTask s st e f .mdrain 0 (f.x.imm.toNat % 128) 0)
  | .wswap o => some (planWswap s st (Form.x96 Enc.wswap' o))
  | .ashape o => some (planAshape s st (Form.x96 Enc.ashape' o))
  | .twait o => some (planTwait s st (Form.x96 Enc.twait' o))
  | .tqry o => some (planTqry s st (Form.x96 Enc.tqry' o))
  | _ => none

end Plans

end Sys2Proof.Machine

/-- For WLD, MMA, MDRAIN, WSWAP, ASHAPE, TWAIT and TQRY: from every Calm state in which nothing stops the instruction or holds it back, exec answers a
next state in which the dependency table, the bands of the strand and of the MCC are as the plan's base state and strand have them and v[D] holds
the ticket, status or word in the live lanes of M; nothing else has changed. (19_tile.md R394-R417.) -/
def Obligations.TileInstructions : Prop :=
  ∀ s st e i p, tilePlan s st e i = some p → p.ok = true → Calm s st e p.form → ∃ t, exec i s = .next t ∧ p.Done s st e t

namespace Sys2Proof.Machine

/-! ### The host at the control blocks (R312, R318, R428, R429, R438) -/

/-- A function reaches its own contexts, and the physical function all of them. -/
def reaches (func : Nat) (c : Ctx) : Prop := func = 0 ∨ c.func = func

/-- A queue whose waiting wait or signal is abandoned (R318). -/
def abandoned (x : Queue) : Queue :=
  match x.fetched with
  | some f => if f.bytes.headD 0 = 2 ∨ f.bytes.headD 0 = 3 then { x with fetched := none, running := x.running.erase f.index } else x
  | none => x

/-- What a host write of a control block leaves of a queue; none where it is ignored (R312, R318). -/
def queueWrite (x : Queue) : Instr → Option Queue
  | .queueDoorbell _ _ _ tail => if x.devsub = false ∧ (tail - x.head).toNat ≤ 2 ^ x.qsize then some { x with tail := tail } else none
  | .queueCtrlEnable _ _ _ => if x.state = .disabled ∧ x.qsize ≠ 0 then some { x with enable := true, state := .idle, head := x.tail } else none
  | .queueCtrlDisable _ _ _ => some { abandoned x with enable := false, state := .disabled }
  | .queueCtrlResume _ _ _ => if x.state = .halted then some { x with state := .active } else none
  | .queueCtrlReset _ _ _ => if x.state = .disabled then none else some { abandoned x with head := x.tail, state := .idle }
  | .queueCtrlDevsub _ _ _ d => if x.state = .disabled then some { x with devsub := d } else none
  | .registerWrite _ _ _ field v =>
    if x.state ≠ .disabled then none
    else match field with
      | .qbase => if v.toNat % 64 = 0 then some { x with qbase := v } else none
      | .cdone => if v.toNat % 16 = 0 then some { x with cdone := v } else none
      | .qsize => if 4 ≤ v.toNat % 256 ∧ v.toNat % 256 ≤ 16 then some { x with qsize := v.toNat % 256 } else none
  | _ => none

/-- The function, context and queue of a host write of a control block. -/
def queueNamed : Instr → Option (Nat × Nat × Nat)
  | .queueDoorbell f c q _ | .queueCtrlEnable f c q | .queueCtrlDisable f c q | .queueCtrlResume f c q | .queueCtrlReset f c q
  | .queueCtrlDevsub f c q _ | .registerWrite f c q _ _ => some (f, c, q)
  | _ => none

end Sys2Proof.Machine

/-- A doorbell, a write of CTRL (enable, disable, resume, reset, device submission), a write of QBASE, QSIZE or CDONE, where it is not ignored,
answers the state with that queue changed and nothing else, and a write of EQHEAD the state with the head moved. The queues of a context that is
being destroyed are disabled and take no write (R433). (13_queue.md R312, R318, 21_context.md R428, R429, R433, R438.) -/
def Obligations.HostWritesControlBlocks : Prop :=
  (∀ s i func ctx q c, queueNamed i = some (func, ctx, q) → s.hostServed = true → s.ctx? ctx = some c → reaches func c → q < 64 →
    (∀ x, queueWrite (c.queue q) i = some x → c.destroyWaits = false → exec i s = .next (s.setCtx (c.setQueue x))) ∧
    (c.destroyWaits = true → exec i s = .next s)) ∧
  ∀ s func ctx value c, s.hostServed = true → s.ctx? ctx = some c → reaches func c → (c.eqTail - value).toNat ≤ 2 ^ c.eqSize →
    exec (.eqheadWrite func ctx value) s = .next (s.setCtx { c with eqHead := value })

namespace Sys2Proof.Machine

/-! ### Power, heat, links and observation (R467-R485) -/

/-- An island's heat record replaced; one as at reset is not listed. -/
def heatPut (s : State) (h : Heat) : State :=
  let rest := s.dev.heats.filter fun x => x.island != h.island
  { s with dev := { s.dev with heats := if h = { island := h.island } then rest else h :: rest } }

/-- An island's heat record. -/
def heatOf (s : State) (n : Nat) : Heat := (s.dev.heats.find? fun h => h.island == n).getD { island := n }

/-- RATE after some microseconds: it moves toward RT by at most RMAX / 64 in each (R467). -/
def rateAfter (rate rt us : Nat) : Nat := if rate < rt then min rt (rate + 1024 * us) else max rt (rate - 1024 * us)

/-- What the events of charge and heat leave; none where they do not happen. Readings and thresholds are in tenths of a degree (R467, R468, R471,
R341). -/
def powerRule (s : State) : Instr → Option State
  | .chargeTargetSet func cl rt =>
    if func = 0 ∧ s.hostServed = true ∧ cl < 48 ∧ rt ≤ 65536 then some (s.setCluster { s.cluster cl with target := rt }) else none
  | .classWeightSet func cl cls w =>
    -- the weights of the reserved classes 8 to 15 stay 0
    if func = 0 ∧ s.hostServed = true ∧ cl < 48 then
      some (if cls < 8 then s.setCluster { s.cluster cl with weights := (s.cluster cl).weights.set cls w } else s) else none
  | .thermalThresholdSet func n th =>
    if func = 0 ∧ s.hostServed = true ∧ n < 704 then some (heatPut s { heatOf s n with th := some th }) else none
  | .chargeRefill cl =>
    let c := s.cluster cl
    let rt := s.rt cl
    -- the microseconds that have passed since the last refill
    let us := s.now / 1000 - c.refilled / 1000
    if cl < 48 ∧ c.refilled + 1000 ≤ s.now then some (s.setCluster
      { c with level := min 1048576 (c.level + ((List.range us).map (rateAfter c.rate rt)).sum), rate := rateAfter c.rate rt us
               refilled := s.now / 1000 * 1000 }) else none
  | .thermalThrottle n x =>
    let h := heatOf s n
    match h.th with
    | some th => if h.state = .normal ∧ th ≤ x ∧ h.since + 2000000 ≤ s.now ∧ n < 704 then
        some (heatPut s { h with state := .throttled, since := s.now }) else none
    | none => none
  | .thermalRelease n x =>
    let h := heatOf s n
    match h.th with
    | some th => if h.state = .throttled ∧ x ≤ th - 30 ∧ h.since + 2000000 ≤ s.now then some (heatPut s { h with state := .normal, since := s.now })
      else if h.state = .critical ∧ x ≤ th - 30 ∧ h.since + 2000000 ≤ s.now then
        some (heatPut s { h with state := .normal, since := s.now, want := 0, restoring := true }) else none
    | none => none
  | .operatingPointChange n =>
    let h := heatOf s n
    if (h.point ≠ h.want ∨ h.restoring = true) ∧ s.islandIdle n = true then some (heatPut s { h with point := h.want, restoring := false }) else none
  | .bandPowerUp cl band =>
    let c := s.cluster cl
    some (s.setCluster { c with pbands := c.pbands.map fun p => if p.n = band ∧ p.since + 2000 ≤ s.now then { p with powered := true } else p })
  | _ => none

end Sys2Proof.Machine

/-- CHARGE_REFILL, the host's charge target, class weight and threshold commands, THERMAL_THROTTLE, THERMAL_RELEASE, THERMAL_CRITICAL,
OPERATING_POINT_CHANGE and BAND_POWER_UP, where their conditions hold, answer the state that powerRule gives (for THERMAL_CRITICAL: the island's
record). The lower operating point is a free value (log entry 17), the model's unit of temperature is a tenth of a degree (log entry 46), and that
RATE steps by exactly RMAX / 64 in each whole microsecond, where R467 says at most, is the model's (log entry 88).
(23_power.md R467, R468, R471, 14_group.md R341, 19_tile.md R397.) -/
def Obligations.ChargeAndHeat : Prop :=
  (∀ s i t, powerRule s i = some t → exec i s = .next t) ∧
  ∀ s n x th, let h := heatOf s n
    h.th = some th → h.state = .throttled → th + 50 ≤ x → h.since + 2000000 ≤ s.now →
    ∃ t, exec (.thermalCritical n x) s = .next t ∧ t.dev.heats = (heatPut s { h with state := .critical, since := s.now, want := s.lowerPoint n }).dev.heats

namespace Sys2Proof.Machine

/-- What the events of links leave of the links, before the change is published (R482, R483, R491). -/
def linkRule (s : State) (l : Link) : Instr → Option Link
  | .hostLinkInit n hot => if n < 2 ∧ l.state = .down then some { l with state := .training, since := s.now, retraining := false }
    else if n < 2 ∧ hot = true ∧ l.state = .failed then some { l with state := .down, width := 0, speed := 0, retraining := false } else none
  | .peerEnable func _ => if func = 0 ∧ s.hostServed = true ∧ l.state = .down then
      some { l with state := .training, since := s.now, retraining := false } else none
  | .linkRetrain _ =>
    let recent := l.retrains.filter fun t => s.now < t + 86400000000000
    if (l.state = .up ∨ l.state = .degraded) ∧ recent.length < 2 then
      some { l with state := .training, since := s.now, retraining := true, retrains := s.now :: recent } else none
  | _ => none

/-- And where the change is published: the link with its published fields (R444, R485). -/
def linkPublished (s : State) (l : Link) : Instr → Option Link
  | .peerDisable func _ => if func = 0 ∧ s.hostServed = true ∧ (l.state = .up ∨ l.state = .degraded) then
      some { l with state := .down, width := 0, speed := 0, pubState := 0, pubWidth := 0, pubSpeed := 0 } else none
  | .linkTrained n width speed =>
    let full := if n < 2 then (16, 128000) else if n < 10 then (128, 40000) else (8, 224000)
    let least := if n < 2 then (1, 2500) else if n < 10 then (32, 0) else (2, 112000)
    let defined := width ∈ [1, 2, 4, 8, 16] ∧ speed ∈ [2500, 5000, 8000, 16000, 32000, 64000, 128000]
    if l.state = .training ∧ width ≤ full.1 ∧ speed ≤ full.2 ∧ (l.retraining = true → width ≤ l.width ∧ speed ≤ l.speed) ∧
        (n < 2 → least.1 ≤ width → least.2 ≤ speed → defined) then
      if width = full.1 ∧ speed = full.2 then
        some { l with state := .up, width := width, speed := speed, retraining := false, pubState := 2, pubWidth := width, pubSpeed := speed }
      else if least.1 ≤ width ∧ least.2 ≤ speed then
        some { l with state := .degraded, width := width, speed := speed, retraining := false, pubState := 3, pubWidth := width, pubSpeed := speed }
      else some { l with state := .failed, width := 0, speed := 0, retraining := false, pubState := 4, pubWidth := 0, pubSpeed := 0 }
    else none
  | .linkTrainTimeout _ => if l.state = .training ∧ l.since + 1000000000 ≤ s.now then
      some { l with state := .failed, width := 0, speed := 0, retraining := false, pubState := 4, pubWidth := 0, pubSpeed := 0 } else none
  | .linkRetrain _ =>
    let recent := l.retrains.filter fun t => s.now < t + 86400000000000
    if (l.state = .up ∨ l.state = .degraded) ∧ 2 ≤ recent.length then
      some { l with state := .failed, width := 0, speed := 0, retrains := s.now :: recent, pubState := 4, pubWidth := 0, pubSpeed := 0 } else none
  | _ => none

/-- The link that an event names. -/
def linkNamed : Instr → Option Nat
  | .hostLinkInit n _ | .linkTrained n _ _ | .linkTrainTimeout n | .linkRetrain n => some n
  | .peerEnable _ p | .peerDisable _ p => some (10 + p)
  | _ => none

end Sys2Proof.Machine

/-- Host link initialisation, peer enable and disable, training results, a training timeout and a retrain cause, where they apply, answer the state in
which the link has its next state, and where the change is published the map has a new version with the link's published fields. That a link which is
down or has failed is published with width and speed 0 is the model's (log entry 76), and so are the widths and rates at which a host link trains
(log entry 129). (24_link.md R482-R486, R491, 22_map.md R444.) -/
def Obligations.LinkStates : Prop :=
  ∀ s i n l, linkNamed i = some n → s.dev.link? n = some l →
    (∀ k, linkRule s l i = some k → exec i s = .next { s with dev := { s.dev with links := s.dev.links.map fun x => if x.n = k.n then k else x } }) ∧
    ∀ k, linkPublished s l i = some k → exec i s = .next (s.publishLinks (s.dev.links.map fun x => if x.n = k.n then k else x))

namespace Sys2Proof.Machine

/-- What the commands of observation leave (R200, R436, R472, R481). -/
def observeRule (s : State) : Instr → Option State
  | .fabricCounterOwnerSet func n owner =>
    if func = 0 ∧ owner < 65536 then
      some { s with dev := { s.dev with fabric := { n := n, owner := owner } :: s.dev.fabric.filter fun f => f.n != n } } else none
  | .fabricCounterRead func n =>
    let owner := match s.dev.fabric.find? fun f => f.n == n with | some f => f.owner | none => 65535
    let reader := match s.ctx? owner with | some c => c.func | none => 0
    some (if func = reader then
        ({ s with freeCtr := s.freeCtr + 1 }).reply (.data (bytesLE 8 (Config.fabricCount s.freeCtr).toNat))
      else s.reply (.data (bytesLE 8 0)))
  | .pageTableRead _ ia =>
    let hidden := s.ctxs.any fun c => c.conf && (c.mapsPage (pageOf ia) || c.savesOn (pageOf ia))
    some (if homeOf ia < 4 then
        s.reply (.data (bytesLE 8 (match s.pages.find? fun p => p.page == pageOf ia with
          | some p => if hidden then p.state % 4
            else p.state % 4 + (if p.host then 4 else 0) + 16 * (p.leases % 2 ^ 16) + 2 ^ 24 * (p.frame % 2 ^ 36)
          | none => 0)))
      else s.reply .refused)
  | .lullTrial func cls fs ms =>
    if func = 0 ∧ s.dev.lull = none ∧ (∀ c ∈ cls, c < 48) ∧ 1 ≤ fs.length ∧ fs.length ≤ 8 ∧ (∀ f ∈ fs, 1 ≤ f ∧ f ≤ 64) ∧ 1 ≤ ms ∧ ms ≤ 100 then
      some { s with dev := { s.dev with lull := some { func := func, clusters := cls, fractions := fs, ms := ms, step := 0, since := s.now
                                                       base := cls.map fun c => (c, (s.cluster c).cycles, (s.cluster c).progs) } } }
    else none
  | _ => none

/-- A step of a Lull trial that is over: its record is kept, and the next fraction begins; after the last the hub writes the records (R481). -/
def lullNext (s : State) (l : Lull) : State :=
  let count := fun (ps : List (Nat × Nat)) => ((ps.filter fun p => l.func = 0 || p.1 = l.func).map Prod.snd).sum
  let rows := l.base.map fun b => (b.1, (s.cluster b.1).cycles - b.2.1, count (s.cluster b.1).progs - count b.2.2)
  let steps := l.steps ++ [(l.fractions.getD l.step 0, rows)]
  let base := l.clusters.map fun c => (c, (s.cluster c).cycles, (s.cluster c).progs)
  if l.step + 1 < l.fractions.length then
    { s with dev := { s.dev with lull := some { l with step := l.step + 1, since := s.now, base := base, steps := steps } } }
  else { s with dev := { s.dev with lull := none, replies := s.dev.replies ++ steps.map fun r => .lull r.1 r.2 } }

end Sys2Proof.Machine

/-- Setting the owner of a fabric counter, reading one, reading a page-table entry (of a confidential context's page only STATE), starting a Lull
trial, and the end of a trial's step answer the state that observeRule and lullNext give. The value of a fabric counter is a free value (log entry 15).
That the physical function reads the counters of device-internal work and any function page-table entries (log entry 86), and that a trial is the
physical function's, one at a time, with its records at its end (log entry 80), is the model's. (08_page.md R200, 21_context.md R436, 23_power.md
R472, R481.) -/
def Obligations.Observation : Prop :=
  (∀ s i t, s.hostServed = true → observeRule s i = some t → exec i s = .next t) ∧
  ∀ s l, s.dev.lull = some l → l.since + 1000000 * l.ms ≤ s.now → exec .lullStepExpiry s = .next (lullNext s l)

namespace Sys2Proof.Machine

/-! ### Queues (R312-R318, R494) -/

/-- Queue `q` of context `c`, which no destruction waits for, has fetched the entry `f`, of type `type`. -/
structure Fetches (s : State) (ctx q type : Nat) (c : Ctx) (f : Fetched) : Prop where
  ctx : s.ctx? ctx = some c
  live : c.destroyWaits = false
  held : (c.queue q).fetched = some f
  type : (f.bytes.headD 0).toNat = type

end Sys2Proof.Machine

/-- An entry is fetched from HEAD, HEAD moves on, and the entry starts; an entry of unknown type, or all zeros where it cannot be read, completes as
ENTRY-MALFORMED. While its page has no frame or moves, only the lack of a frame is reported (that the front end's accesses place pages and
wait for them as a strand's do is the model's, log entry 71). A context that is being destroyed fetches nothing (R433). (13_queue.md R313, 08_page.md
R202, R203, 21_context.md R433.) -/
def Obligations.EntriesAreFetched : Prop :=
  ∀ (s : State) (ctx q : Nat) (c : Ctx), s.ctx? ctx = some c → (c.destroyWaits = true → exec (.queueFetch ctx q) s = .next s) ∧
    (c.destroyWaits = false →
    (c.state = .built ∨ c.state = .runnable ∨ c.state = .running ∨ c.state = .saved) →
    let x := c.queue q
    (x.state = .idle ∨ x.state = .active) → x.head ≠ x.tail → x.fetched = none →
    let a := x.qbase.toNat + 64 * (x.head.toNat % 2 ^ x.qsize)
    (∀ u lack pref, s.vtouch c a 64 = (u, true, lack, pref) →
      let f : Fetched := { index := x.head.toNat, bytes := (u.vread c a 64).getD (List.replicate 64 0) }
      let t := u.setCtx (c.setQueue { x with head := x.head + 1, fetched := some f, state := .active, running := x.running ++ [f.index] })
      let ty := (f.bytes.headD 0).toNat
      exec (.queueFetch ctx q) s = .next (if 1 ≤ ty ∧ ty ≤ 7 then t else t.finish ctx q f none 7 0)) ∧
    ∀ u lack pref, s.vtouch c a 64 = (u, false, lack, pref) → exec (.queueFetch ctx q) s = .next (u.noteLack ctx pref lack))

namespace Sys2Proof.Machine

/-- The 16 bytes of a completion record (R315). -/
def completionBytes (s : State) (status res faulted : Nat) : List Byte :=
  bytesLE 1 status ++ bytesLE 1 res ++ bytesLE 2 0 ++ bytesLE 4 faulted ++ bytesLE 8 s.version.toNat

/-- The window through which n bytes at an address are reached, where it holds all of them and grants what is asked (R194). -/
def windowAt (c : Ctx) (need : Need) (va n : Nat) : Bool :=
  match c.translate va with
  | some (_, w, _) => w.grants need && (va + n - 1) / 65536 ≤ w.vlast
  | none => false

/-- Where the record of an entry goes: DONE where it is given and takes 16 bytes, else the entry's slot of the completion ring where that takes them;
none where the record is lost (R315). -/
def recordPlace (c : Ctx) (x : Queue) (done : Option Nat) (index : Nat) : Option Nat :=
  (done.toList ++ [x.cdone.toNat + 16 * (index % 2 ^ x.qsize)]).find? fun va => windowAt c .write va 16

/-- The record of an entry is written, and gives the state `u`, or is lost; the pages of its places are ready (R202, R315). -/
structure Recorded (s : State) (c : Ctx) (x : Queue) (done : Option Nat) (index : Nat) (bytes : List Byte) (u : State) : Prop where
  ready : ∀ va ∈ done.toList ++ [x.cdone.toNat + 16 * (index % 2 ^ x.qsize)], (s.vtouch c va 16).2.1 = true
  lost : recordPlace c x done index = none → u = s
  put : ∀ va, recordPlace c x done index = some va → (s.vtouch c va 16).1.vput c va bytes = some u

/-- The queue after an entry has completed with a status: a status of 1 to 7 halts it, where it is not disabled (R315, R318). -/
def afterStatus (x : Queue) (status : Nat) : Queue :=
  { x with state := if 1 ≤ status ∧ status ≤ 7 ∧ x.state ≠ .disabled then .halted else x.state }

/-- What an entry's completion leaves of a state in which its record has been written or lost: it is no longer under way, and a status of 1 to 7 halts
the queue and posts a queue event (R315, R318, R438). -/
def afterEntry (u : State) (c : Ctx) (q index status : Nat) : State :=
  let x := c.queue q
  let v := u.setCtx (c.setQueue (afterStatus { x with running := x.running.erase index } status))
  if 1 ≤ status ∧ status ≤ 7 then v.post c.id 3 (bytesLE 4 q ++ bytesLE 4 status ++ bytesLE 4 index) else v

/-- A queue whose fetched entry is done with: it is idle at TAIL, and else active (R318). -/
def doneWith (x : Queue) : Queue :=
  { x with fetched := none
           state := if x.state = .disabled ∨ x.state = .halted then x.state else if x.head = x.tail then .idle else .active }

/-- The status that a launch entry completes with at admission, its resource code, and where its record goes; none where it is admitted. The checks
stand in the order of R494. -/
def launchFails (s : State) (c : Ctx) (bs : List Byte) : Option (Option Nat × Nat × Nat) :=
  let n := entryNum bs
  let zero := fun off len => ∀ i < len, (bs.drop off).getD i 0 = 0
  let done := some (n 0x30 8)
  match s.kernel? c.id (n 0x08 8) with
  | none => some (none, 7, 0)
  | some k =>
    if ¬(zero 2 2 ∧ zero 0x24 4 ∧ zero 0x38 8) ∨ 10 < n 1 1 ∨ c.prioCap < n 1 1 ∨ n 4 4 % 128 ≠ 0 ∨ n 0x10 4 = 0 ∨ n 0x14 2 = 0 ∨ n 0x16 2 = 0 ∨
        (∀ x, c.translate (n 0x30 8) = some x → x.2.1.w = false ∨ x.2.1.vlast < (n 0x30 8 + 15) / 65536) then some (none, 7, 0)
    else if k.unloading then some (done, 4, 0)
    else match s.exceeds k.hdr (n 4 4) c with
      | some code => some (done, 1, code)
      | none =>
        if k.table = none then some (done, 3, 0)
        else if ∃ r ∈ leaseRanges k.hdr bs, c.rangePages r.1 r.2 = [] then some (done, 2, 0)
        else none

end Sys2Proof.Machine

/-- What an entry's completion does: its record is written at DONE where that is given and takes it, else at the entry's place in the completion ring,
else it is lost; the entry is no longer under way, and a status of 1 to 7 halts the queue and posts a queue event (R315, R318). So a frame entry that
breaks a rule completes with status 7, a launch entry with the status of the check that it fails, and every entry that ends at once. Where its page
has no frame or moves, the record waits for it and the queue does not (that the hub waits so is the model's, log entry 71). -/
def Obligations.EntriesComplete : Prop :=
  (∀ (s : State) (ctx q index : Nat) (done : Option Nat) (status res faulted : Nat) (c d : Ctx) (u : State), s.ctx? ctx = some c →
    Recorded s c (c.queue q) done index (completionBytes s status res faulted) u → u.ctx? ctx = some d →
    s.complete ctx q index done status res faulted = afterEntry u d q index status) ∧
  (∀ (s : State) (ctx q index : Nat) (done : Option Nat) (status res faulted : Nat) (c : Ctx) (u : State) (lack : List Nat) (pref : Bool),
    s.ctx? ctx = some c → (status = 0 ∨ status = 8) →
    s.vtouch c (done.getD ((c.queue q).cdone.toNat + 16 * (index % 2 ^ (c.queue q).qsize))) 16 = (u, false, lack, pref) →
    let v := u.noteLack ctx pref lack
    s.complete ctx q index done status res faulted = { v with dev := { v.dev with
      waits := v.dev.waits ++ [{ ctx := ctx, write := .record q index done (completionBytes s status res faulted) }] } }) ∧
  ∀ (s : State) (ctx q type : Nat) (c d : Ctx) (f : Fetched) (u : State) (done : Option Nat) (status res : Nat), Fetches s ctx q type c f →
    let v := s.setCtx (c.setQueue (doneWith (c.queue q)))
    let x := doneWith (c.queue q)
    Recorded v (c.setQueue x) x done f.index (completionBytes s status res 0) u → u.ctx? ctx = some d →
    let n := entryNum f.bytes
    (s.finish ctx q f done status res = afterEntry u d q f.index status) ∧
    (type = 7 → done = none → status = 7 → res = 0 →
      (n 0x10 8 = 0 ∨ 1 < n 0x18 1 ∨ 3 < n 0x19 1 ∨ (if n 0x18 1 = 0 then 2 ^ 23 else 2 ^ 36) < n 8 8 + n 0x10 8) →
      exec (.frameEntry ctx q) s = .next (afterEntry u d q f.index 7)) ∧
    (type = 1 → f.bytes.length = 64 → launchFails s c f.bytes = some (done, status, res) →
      exec (.launchEntry ctx q) s = .next (afterEntry u d q f.index status))

namespace Sys2Proof.Machine

/-- The launch that an entry admits (R314). -/
def launchOf (s : State) (c : Ctx) (q : Nat) (f : Fetched) (k : Kernel) : Launch :=
  let n := entryNum f.bytes
  let pages := launchPages s c k.hdr f.bytes
  { id := s.freshId, ctx := c.id, q := q, index := f.index, kernel := n 0x08 8, prio := n 1 1, dynScr := n 4 4
    gx := n 0x10 4, gy := n 0x14 2, gz := n 0x16 2, args := BitVec.ofNat 64 (n 0x18 8), argLen := n 0x20 4
    seed := BitVec.ofNat 64 (n 0x28 8), done := BitVec.ofNat 64 (n 0x30 8)
    pages := pages.map Prod.fst, waiting := pages, since := s.now, seq := c.launches }

end Sys2Proof.Machine

/-- A launch entry completes at once with the status of the first check of R494 that it fails; one that fails none is admitted. That a launch whose
DONE does not translate with W is malformed is the model's (log entry 92), and so is that the pages of its lease ranges are found at its admission (log
entry 30). (13_queue.md R314-R316, R494, 08_page.md R201.) -/
def Obligations.LaunchesAreAdmitted : Prop :=
  ∀ s ctx q c f, Fetches s ctx q 1 c f → f.bytes.length = 64 →
    (∀ d n code, launchFails s c f.bytes = some (d, n, code) → exec (.launchEntry ctx q) s = .next (s.finish ctx q f d n code)) ∧
    ∀ k, s.kernel? c.id (entryNum f.bytes 0x08 8) = some k → launchFails s c f.bytes = none →
      let u := (s.setKernel { k with uses := k.uses + 1 }).setCtx { c with launches := c.launches + 1 }
      let v := { u with freshId := s.freshId + 1, launches := s.launches ++ [launchOf s c q f k] }
      exec (.launchEntry ctx q) s = .next ((v.setQueueOf ctx q fun x => { x with fetched := none }).leaseWaiting s.freshId)

namespace Sys2Proof.Machine

/-- What the entries of waits and signals leave (R313). A wait starts, and ends once the value at its address is at least its threshold; a signal
starts, and writes its value once every earlier entry of its queue has completed. One whose bytes cannot be reached is malformed, and one whose
page has no frame or moves waits for it (R202, R203). -/
def waitRule (s : State) (ctx q : Nat) (c : Ctx) (f : Fetched) : Instr → Option State
  | .waitEntry _ _ => if f.started then none else some (starts .read)
  | .waitSatisfied _ _ =>
    if f.started = false then none
    else if touched.2.1 = false then some (touched.1.noteLack ctx touched.2.2.2 touched.2.2.1)
    else match touched.1.vread c va 8 with
      | some bs => some (if entryNum f.bytes 0x10 8 ≤ natLE bs then touched.1.finish ctx q f none 0 0 else touched.1)
      | none => some (touched.1.finish ctx q f none 7 0)
  | .signalEntry _ _ => if f.started then none else some (starts .write)
  | .signalWrite _ _ =>
    if f.started = false ∨ ∃ i ∈ (c.queue q).running, i ≠ f.index then none
    else if touched.2.1 = false then some (touched.1.noteLack ctx touched.2.2.2 touched.2.2.1)
    else match touched.1.vput c va (bytesLE 8 (entryNum f.bytes 0x10 8)) with
      | some u => some (u.finish ctx q f none 0 0)
      | none => some (touched.1.finish ctx q f none 7 0)
  | _ => none
where
  /-- Its address. -/
  va : Nat := entryNum f.bytes 8 8
  /-- The state after a first touch of its bytes, whether they are ready, and the pages without a frame. -/
  touched : State × Bool × List Nat × Bool := s.vtouch c va 8
  /-- The entry starts, where its bytes can be reached. -/
  starts (need : Need) : State :=
    if windowAt c need va 8 then s.setQueueOf ctx q fun x => { x with fetched := some { f with started := true } } else s.finish ctx q f none 7 0

/-- The type of the entry that an event of a queue is about, with its context and queue. -/
def entryNamed : Instr → Option (Nat × Nat × Nat)
  | .waitEntry c q | .waitSatisfied c q => some (2, c, q)
  | .signalEntry c q | .signalWrite c q => some (3, c, q)
  | .windowUpdateEntry c q => some (4, c, q)
  | .remapEntry c q => some (5, c, q)
  | .unplaceEntry c q => some (6, c, q)
  | .frameEntry c q => some (7, c, q)
  | _ => none

/-- What the entries of mapping changes and of frames leave (R191, R192, R202, R203, R206, R436). -/
def mappingRule (s : State) (ctx q : Nat) (c : Ctx) (f : Fetched) (i : Instr) : Option State :=
  let n := entryNum f.bytes
  let page := pageOf (n 8 8)
  match i with
  | .windowUpdateEntry _ _ =>
    let w := Window.ofBits (n 0x20 32)
    let map' := if s.dev.map.version = 0 then none else some (pageOf s.dev.mapPage)
    if 15 < n 8 1 then some (s.finish ctx q f none 7 0)
    else match windowRefused (n 0x20 32) map' with
      | some r => some (s.finish ctx q f none 5 r)
      | none =>
        if c.conf ∧ w.valid ∧ homeOf (w.iabase * 65536) = 4 ∧ w.hostvis = false then some (s.finish ctx q f none 7 0)
        else
        let old := c.window (n 8 1)
        let u := if old.valid then s.squashRange (some ctx) old.iaRange.1 old.iaRange.2 else s
        some (u.startChange ctx q f.index (.window (n 8 1) w))
  | .remapEntry _ _ =>
    if n 8 8 % 65536 ≠ 0 ∨ 4 ≤ homeOf (n 8 8) ∨ 2 ^ 36 ≤ n 0x10 8 then some (s.finish ctx q f none 7 0)
    else match s.pte? page with
      | none => some (s.finish ctx q f none 0 0)
      | some p =>
        let mine := s.frames.filter fun x => x.die == homeOf (n 8 8) && x.frame == n 0x10 8
        -- a die's HBM ends at frame 2^23; below it a frame is of host memory when only the host list has it
        let host := decide (2 ^ 23 ≤ n 0x10 8) || mine.any (·.host) && mine.all (·.host)
        let hidden := s.ctxs.any fun c => c.conf && (c.mapsPage page || c.savesOn page)
        if p.state = 2 then some (s.finish ctx q f none 6 0)
        else if p.state = 3 then some s
        else if p.frame = n 0x10 8 ∧ (p.host = host ∨ mine = []) then some (s.finish ctx q f none 0 0)
        else if host = true ∧ hidden = true then some (s.finish ctx q f none 7 0)
        else
          let u := (s.setPte { p with state := 3 }).squashRange none (n 8 8) (n 8 8 + 65535)
          some (u.startChange ctx q f.index (.remap page (n 0x10 8) host))
  | .unplaceEntry _ _ =>
    if n 8 8 % 65536 ≠ 0 ∨ 4 ≤ homeOf (n 8 8) then some (s.finish ctx q f none 7 0)
    else match s.pte? page with
      | none => some (s.finish ctx q f none 0 0)
      | some p =>
        if p.state = 2 then some (s.finish ctx q f none 6 0)
        else if p.state = 3 then some s
        else some (((s.setPte { p with state := 3 }).squashRange none (n 8 8) (n 8 8 + 65535)).startChange ctx q f.index (.unplace page))
  | .frameEntry _ _ =>
    if n 0x10 8 = 0 ∨ 1 < n 0x18 1 ∨ 3 < n 0x19 1 ∨ (if n 0x18 1 = 0 then 2 ^ 23 else 2 ^ 36) < n 8 8 + n 0x10 8 then
      some (s.finish ctx q f none 7 0)
    else some ((s.addFrames (n 0x19 1) (n 0x18 1 = 1) (n 8 8) (n 0x10 8)).finish ctx q f none 0 0)
  | _ => none

end Sys2Proof.Machine

/-- Waits and signals start, are held while their page has no frame or moves, and end; a window update, remap, unplace or frame entry that breaks a
rule completes with the status that says so, and the others take effect or start to drain. That an entry for a moving page waits, that a
confidential page keeps out of host frames, and that bytes which no field names are not looked at, are the model's (log entries 110, 111, 113). So are
ENTRY-MALFORMED for a window that breaks R436 (log entry 72), the numbers of HBM frames and what tells a host frame (log entry 73), the end of a wait
whose address ceases to be readable (log entry 74), STATE 3 while an unplace drains (log entry 119), and status 0 for an unplaced page (log entry 34).
(13_queue.md R313, 08_page.md R191, R192, R202, R203, R206, 21_context.md R436.) -/
def Obligations.EntriesTakeEffect : Prop :=
  ∀ s i type ctx q c f t, entryNamed i = some (type, ctx, q) → Fetches s ctx q type c f →
    waitRule s ctx q c f i = some t ∨ mappingRule s ctx q c f i = some t → exec i s = .next t

namespace Sys2Proof.Machine

/-- The place of the bytes of a page, after it is given up or placed (R202, R203). -/
def pageCleared (s : State) (page : Nat) : State :=
  { s with mem := s.mem.filter fun c => pageOf c.1 != page, poison := s.poison.filter fun x => x / 2048 != page }

/-- No launch waits for a page, and no placed group for a lease (R201). -/
def NoWaits (s : State) : Prop := (∀ l ∈ s.launches, l.waiting = []) ∧ ∀ t ∈ s.teams, t.owed = []

/-- The pages of the publication counter and of the map, where a context's windows reach them, are among those that its launches lease (R201). -/
def LeasesNamed (s : State) (c : Ctx) : Prop :=
  ∀ page ∈ [pageOf c.pubCtr, pageOf s.dev.mapPage], c.mapsPage page = true → ∀ l ∈ s.launches, l.ctx = c.id → page ∈ l.pages

end Sys2Proof.Machine

/-- A mapping change whose accesses have drained takes effect and its entry completes (R206); the lines of the old mapping go first, and here there
are none. No launch waits for a page and no group for a lease, and a new window maps no page that R201 names anew. That the frame which a page leaves
joins no list is the model's (log entry 73). -/
def Obligations.MappingChangesTakeEffect : Prop :=
  ∀ (s : State) (ch : MapChange) (c : Ctx), s.changes.find? (fun x => x.id == ch.id) = some ch → s.ctx? ch.ctx = some c → s.changeWaits ch = false →
    s.l1 = [] → s.zeroLines = [] → NoWaits s →
    let fin := fun (u : State) => ({ u with changes := s.changes.filter fun x => x.id != ch.id }).complete ch.ctx ch.q ch.index none 0 0 0
    (∀ n w, ch.change = .window n w → LeasesNamed s { c with windows := vset c.windows n w } →
      exec (.mappingDrainComplete ch.id) s = .next (fin (s.setCtx { c with windows := vset c.windows n w }))) ∧
    (∀ page frame host p, ch.change = .remap page frame host → s.pte? page = some p → exec (.mappingDrainComplete ch.id) s =
      .next (fin (({ s with frames := s.frames.filter fun f => !(f.die == homeOf (65536 * page) && f.frame == frame && f.host == host) }).setPte
        { p with frame := frame, host := host, state := 1 }))) ∧
    ∀ page p, ch.change = .unplace page → s.pte? page = some p → exec (.mappingDrainComplete ch.id) s =
      .next (fin { pageCleared s page with
                   pages := s.pages.filter fun x => x.page != page
                   frames := s.frames ++ [{ die := homeOf (65536 * page), host := p.host, frame := p.frame }] })

/-- The first touch of an unplaced page that something waits to touch takes a frame that its window may use, and fills it with zeros (R202). No launch
waits for a page and no group for a lease: one that did would take its lease with the frame. -/
def Obligations.FirstTouchPlaces : Prop :=
  ∀ (s : State) (ia frame : Nat) (f : Frame), homeOf ia < 4 → s.pte? (pageOf ia) = none → NoWaits s →
    s.frames.find? (fun x => x.die == homeOf ia && x.frame == frame && s.frameFits (pageOf ia) x) = some f →
    ∃ t, exec (.firstTouch ia frame) s = .next t ∧ t.pte? (pageOf ia) = some { page := pageOf ia, frame := f.frame, host := f.host } ∧
      t.frames = s.frames.erase f ∧ (∀ a, pageOf a = pageOf ia → t.mem.get a = 0 ∧ t.poison.contains (sectorOf a) = false) ∧
      ∀ a, s.mem.wf = true → pageOf a ≠ pageOf ia → t.mem.get a = s.mem.get a

namespace Sys2Proof.Machine

/-! ### Accesses, producers and the host's memory (R110, R195, R244, R249, R252, R257, R262, R267-R270, R491) -/

/-- The event that performs an access (R249, R256, R269). -/
def performs (a : Access) (i : Instr) : Prop :=
  i = if a.isPublish then .publishIncrement a.id else if a.isHeldRelease then .releaseWritePerformed a.id else .accessPerformed a.id

/-- Nothing stands between an access and memory: no L1 holds a line, no line is a zero line, no data is poisoned, and no continuation runs. -/
structure Bare (s : State) : Prop where
  l1 : s.l1 = []
  zero : s.zeroLines = []
  poison : s.poison = []
  conts : ∀ st ∈ s.strands, st.cont = none

/-- Every byte of a range is plain memory of homes 0 to 3 that can be reached. -/
def PlainBytes (s : State) (ia n : Nat) : Prop :=
  ∀ i, i < n → homeOf (ia + i) < 4 ∧ s.inMapPage (ia + i) = false ∧ s.reachable (ia + i) = true

/-- The little-endian value of bytes of memory. -/
def memValue (s : State) (ia n : Nat) : Nat := natLE (s.mem.getList ia n)

/-- What an access of at most one element leaves of a state it is no longer in flight in, where it acts on memory itself or on nothing. -/
def performRule (u : State) (a : Access) : Option State :=
  match a.kind, a.elems with
  | .load, [e] => if a.wk = .so ∧ e.data2 = 0 then some (u.deliverTo a [(e, memValue u e.addr e.width)] false) else none
  | .store, [e] => if a.wk = .so ∨ a.scope ≠ .group then some { u with mem := u.mem.putList e.addr (bytesLE e.width e.data) } else none
  | .atom fn ty, [e] =>
    let old := memValue u e.addr e.width
    some (({ u with mem := u.mem.putList e.addr (bytesLE e.width (atomOp fn ty old e.data)) }).deliverTo a [(e, old)] false)
  | .cas, [e] =>
    let old := memValue u e.addr e.width
    some (({ u with mem := if old = e.data then u.mem.putList e.addr (bytesLE e.width e.data2) else u.mem }).deliverTo a [(e, old)] false)
  | .fence _, [] => some u
  | .order, [] => some u
  | .xfence _ _, [] => some (u.deliverTo a [] false)
  | .prefL2, [_] => some u
  | .prefZero, [e] =>
    if u.h4 = [] then some { u with mem := u.mem.putList (128 * (e.addr / 128)) (List.replicate 128 0), zeroLines := [e.addr / 128] } else none
  | _, _ => none

/-- The L1 of the access's core holds one line, which is not poisoned, lies in plain memory, and was filled at a narrower scope than the access's; no
other L1 holds one, and nothing else stands between the access and memory. -/
structure OneLine (s : State) (a : Access) (l : L1Line) : Prop where
  l1 : s.l1 = [l]
  core : l.core = a.core
  clean : l.poison = 0
  plain : PlainBytes s (128 * l.line) 128
  narrow : l.rs < a.scope.code
  zero : s.zeroLines = []
  poison : s.poison = []
  conts : ∀ st ∈ s.strands, st.cont = none
  wf : s.mem.wf = true

/-- Memory holds the dirty bytes of a line, and is otherwise as it was (R244). -/
def WrittenBack (s t : State) (l : L1Line) : Prop :=
  ∀ x, t.mem.get x = if x / 128 = l.line ∧ l.dirty.getLsbD (x % 128) = true then byteAt l.data (x % 128) else s.mem.get x

end Sys2Proof.Machine

/-- An access that nothing holds back leaves the flight and has its effect. Where nothing stands between it and memory: a store-order store or a store
wider than a group writes its bytes, an atomic or compare-and-swap writes the new value and delivers the old one, a load delivers the value of memory,
scratchpad loads and stores read and write the group's scratchpad, fences have no effect, and PUBLISH adds one to the context's counter (R269, R270).
A store at group scope stays in its core's L1, dirty, and memory is as before (R244); a FENCE and a CWB write a dirty line back, keep it or drop it, as
they release or acquire (R235, R244, R265); and a mark of full or empty words marks them (R231). -/
def Obligations.AccessesArePerformed : Prop :=
  ∀ (s : State) (a : Access) (i : Instr), performs a i → s.flight.find? (fun b => b.id == a.id) = some a → s.canPerform a = true →
    let u : State := { s with flight := s.flight.filter fun b => b.id != a.id }
    exec i s = .next (s.perform a) ∧
    (Bare s → a.spec = false → (∀ e ∈ a.elems, 0 < e.width ∧ PlainBytes s e.addr e.width ∧ e.addr % 128 + e.width ≤ 128) →
      ∀ t, performRule u a = some t → exec i s = .next t) ∧
    (Bare s → a.spec = false → a.kind = .load → ∀ e, a.elems = [e] → e.data2 = 0 → 0 < e.width → PlainBytes s e.addr e.width → e.addr % 128 + e.width ≤ 128 →
      (∀ c, s.ctx? a.ctx = some c → c.counts 5 = false) →
      ∃ t, exec i s = .next t ∧ t.prods = (u.deliverTo a [(e, memValue s e.addr e.width)] false).prods ∧ t.mem = s.mem) ∧
    (Bare s → a.kind = .store → a.wk ≠ .so → a.scope = .group → ∀ e, a.elems = [e] → 0 < e.width → e.width ≤ 8 → e.addr % 128 + e.width ≤ 128 →
      ∃ l, exec i s = .next { u with l1 := [l] } ∧ l.core = a.core ∧ l.line = e.addr / 128 ∧ l.rs = 0 ∧
        (∀ k, k < 128 → l.dirty.getLsbD k = (decide (e.addr % 128 ≤ k ∧ k < e.addr % 128 + e.width) : Bool)) ∧
        ∀ k, k < e.width → byteAt l.data (e.addr % 128 + k) = (bytesLE e.width e.data).getD k 0) ∧
    (∀ l n, OneLine s a l → a.kind = .fence n → n < 3 →
      ∃ t, exec i s = .next t ∧ t.l1 = (if n = 2 then [{ l with dirty := 0 }] else []) ∧ WrittenBack s t l) ∧
    (∀ l n e, OneLine s a l → a.kind = .cwb n → n < 3 → a.elems = [e] → e.addr / 128 = l.line →
      ∃ t, exec i s = .next t ∧ t.l1 = (if n = 0 then [{ l with dirty := 0 }] else if n = 1 ∧ l.dirty ≠ 0 then [l] else []) ∧
        (if n = 1 then t.mem = s.mem else WrittenBack s t l)) ∧
    (∀ g gr full, a.kind = .scrMark g full → s.group? g = some gr → Bare s →
      exec i s = .next (u.setGroup (gr.mark (a.elems.map fun e => e.addr / 4) full))) ∧
    (∀ g gr, a.kind = .scrLoad g → s.group? g = some gr → Bare s → a.spec = false → gr.poison = [] → (∀ e ∈ a.elems, e.data2 = 0) →
      exec i s = .next (u.deliverTo a (a.elems.map fun e => (e, natLE (Memory.getList gr.scratch e.addr e.width))) false)) ∧
    (∀ g gr, a.kind = .scrStore g → s.group? g = some gr → Bare s → gr.poison = [] →
      exec i s = .next (u.setGroup { gr with
        scratch := a.elems.foldl (fun m e => Memory.putList m e.addr (bytesLE e.width e.data)) gr.scratch })) ∧
    ∀ ctx c, a.kind = .publish ctx → s.ctx? ctx = some c → Bare s → s.h4 = [] → c.pubCtr % 8 = 0 → homeOf c.pubCtr = 4 →
      (∀ k, k < 8 → s.reachable (c.pubCtr + k) = true ∧ s.inMapPage (c.pubCtr + k) = false) →
      exec i s = .next { u with mem := s.mem.putList c.pubCtr (bytesLE 8 (memValue s c.pubCtr 8 + 1)) }

/-- A producer that waits for no access completes: each destination becomes full and holds its value in the live lanes of the producer's M, and in the
others what it held (transposed for LDT); every other register is as it was, but for the order of last writes (R109, R110). -/
def Obligations.ProducersComplete : Prop :=
  ∀ (s : State) (p : Producer) (st : Strand), s.prods.find? (fun q => q.id == p.id) = some p → p.waiting = [] → s.strand? p.strand = some st →
    p.mask ≠ 0 → (p.dests.map Prod.fst).Nodup → (∀ d ∈ p.dests, d.1 < 64) → st.cont = none → st.forks = [] → (st.tile = true → st.live = 1) →
    let ds := if p.ldt.isSome then p.dests.map fun d => (d.1, transposeLanes d.2) else p.dests
    ∃ st', exec (.producerComplete p.id) s = .next (({ s with prods := s.prods.filter fun q => q.id != p.id }).setStrand st') ∧
      st' = { st with v := st'.v, order := st'.order, dead := st'.dead } ∧
      (∀ n, n ∉ p.dests.map Prod.fst → st'.reg n = st.reg n) ∧
      ∀ d ∈ ds, (st'.reg d.1).full = true ∧ (st'.reg d.1).held = none ∧
        ∀ i, i < 32 → st.live.has i = true → st'.lane d.1 i = if p.mask.has i then (if p.uniform then d.2.get 0 else d.2.get i) else st.lane d.1 i

namespace Sys2Proof.Machine

/-- A link is up or degraded (R482). -/
def LinkServes (s : State) (n : Nat) : Prop := ∃ l, s.dev.link? n = some l ∧ (l.state = .up ∨ l.state = .degraded)

/-- A link trains, and what arrives over it waits: a host link that trains again, or a peer port (R484, R491). -/
def LinkTrains (s : State) (n : Nat) : Prop := ∃ l, s.dev.link? n = some l ∧ l.state = .training ∧ (l.retraining = true ∨ 10 ≤ n)

/-- A transfer held behind those that are (R484, R488). -/
def State.holding (s : State) (t : Transfer) : State := { s with dev := { s.dev with held := s.dev.held ++ [t] } }

/-- An access of the host or of a peer that arrives, by function and link: `p` says whose windows it may use, and `refused` what it leaves where none of
them holds its bytes. -/
structure Arrives (s : State) (t : Transfer) (p : Ctx → Bool) (write : Bool) (ia n : Nat) (bytes : List Byte) (refused : State)
    (out : Host.Outcome State Fault Refusal) : Prop where
  /-- The bytes lie in a HOSTVIS window and their pages are ready: the access is performed. -/
  served : LinkServes s t.link → (∀ x ∈ s.dev.held, x.link = t.link → x.func ≠ t.func) → ∀ c w u, s.visible p ia n = some (c, w) →
    s.readyBytes c w ia n = (u, true) → out = .next (if write then u.hostWrite ia bytes else u.reply (u.hostRead ia n))
  /-- A page of them is not ready: it is held until it is. -/
  waits : LinkServes s t.link → (∀ x ∈ s.dev.held, x.link = t.link → x.func ≠ t.func) → ∀ c w u, s.visible p ia n = some (c, w) →
    s.readyBytes c w ia n = (u, false) → out = .next (u.holding t)
  /-- They lie in none: it is turned away. -/
  refuses : LinkServes s t.link → (∀ x ∈ s.dev.held, x.link = t.link → x.func ≠ t.func) → s.visible p ia n = none → out = .next refused
  /-- The link trains, or an earlier one of the same function is held there: it is held. -/
  held : (∃ x ∈ s.dev.held, x.link = t.link ∧ x.func = t.func) ∨ LinkTrains s t.link → out = .next (s.holding t)

end Sys2Proof.Machine

/-- The host and peer devices reach bytes that lie in a HOSTVIS window, once their pages are ready; anything else is turned away, and while a link
trains or an earlier transfer of the same function waits, a transfer is held in its order (R195, R267, R268, R484, R488, R491). A function that is not
enabled reaches nothing (R487). What the access does, where no L1 holds a line and nothing else stands in the way: a read returns the bytes of memory;
a write to homes 0 to 3 writes them; and one to home 4 writes host memory, while the copies that a slice or an L1 holds of it stay (R267). In what
order held transfers go on, by function and link, is the model's (log entry 130). -/
def Obligations.HostAndPeerAccess : Prop :=
  (∀ (s : State) (func link ia n : Nat) (bytes : List Byte), s.dev.state = .running → link < 2 →
    (func ≤ s.dev.vfs →
      Arrives s { link := link, func := func, op := .write ia bytes } (fun c => c.func == func) true ia bytes.length bytes s
        (exec (.hostApertureWrite func link ia bytes) s) ∧
      Arrives s { link := link, func := func, op := .read ia n } (fun c => c.func == func) false ia n [] (s.reply .refused)
        (exec (.hostApertureRead func link ia n) s)) ∧
    (s.dev.vfs < func → exec (.hostApertureWrite func link ia bytes) s = .next s ∧ exec (.hostApertureRead func link ia n) s = .next s)) ∧
  (∀ (s : State) (port ia n : Nat) (bytes : List Byte), s.dev.state = .running → port < 16 →
    Arrives s { link := 10 + port, func := 0, op := .write ia bytes } (fun _ => true) true ia bytes.length bytes (s.reply (.dmaError port))
      (exec (.peerDmaTransfer port true ia n bytes) s) ∧
    Arrives s { link := 10 + port, func := 0, op := .read ia n } (fun _ => true) false ia n bytes (s.reply (.dmaError port))
      (exec (.peerDmaTransfer port false ia n bytes) s)) ∧
  ∀ (s : State) (ia n : Nat) (bytes : List Byte), s.mem.wf = true → s.poison = [] → s.zeroLines = [] → (∀ st ∈ s.strands, st.cont = none) →
    (0 < n → PlainBytes s ia n → s.hostRead ia n = .data (s.mem.getList ia n)) ∧
    (s.l1 = [] → PlainBytes s ia bytes.length → s.hostWrite ia bytes = { s with mem := s.mem.putList ia bytes }) ∧
    (homeOf ia = 4 → ∃ m : Memory, s.hostWrite ia bytes = { s with mem := m } ∧
      ∀ x, m.get x = if ia ≤ x ∧ x < ia + bytes.length then bytes.getD (x - ia) 0 else s.mem.get x)

namespace Sys2Proof.Machine

/-! ### What happens to strands between instructions (R110, R177, R180, R288, R334, R344, R359, R450, R461) -/

/-- The context's trace is off, so that nothing is recorded of its strands (R478). -/
def NoTrace (s : State) (ctx : Nat) : Prop := ∀ c, s.ctx? ctx = some c → c.trace.on = false

/-- The state after a strand's region unwound (R461), where no window update is under way and the pages of its output range may be tagged: the output
sectors are poisoned, and the strand runs the handler of the record. -/
def unwound (s : State) (st : Strand) (e : Env) (t : TrapInfo) : Option State :=
  if s.windowMoves e.ctx then none
  else (s.region? st e).bind fun r =>
    let o := s.outputReady st e r.2.2.2.2.1 r.2.2.2.2.2
    if o.2 then some (o.1.unwind st e t r.1 r.2.1 r.2.2.1 r.2.2.2.1 r.2.2.2.2.1 r.2.2.2.2.2) else none

end Sys2Proof.Machine

/-- A trap is delivered once no earlier producer of its strand is in flight (R180, R181): inside a region POISON and SHADOW unwind it, popping the
entries above the region's, with the handler of the record at the pc; else the handler runs, or, without one, the group faults. A trap in handler mode
is a double trap (R183). MAP is taken before the next instruction, and is delivered as any trap is: at once when no producer of the strand is in
flight, and else once none is (R450). That the record of a double trap has the second trap's own lane mask (log entry 45), that an unwind squashes the
forks whose entries it pops (log entry 97), and that a handler keeps an interrupted phaser wait (log entry 98), is the model's. -/
def Obligations.TrapsAreDelivered : Prop :=
  ∀ (s : State) (st : Strand) (e : Env), s.strand? st.id = some st → s.env? st = some e → NoTrace s e.ctx →
    (∀ t, st.state = .trapped t → (∀ p ∈ s.prods, p.strand ≠ st.id) →
      (st.handler = none → (t.cause ≠ 0x20 ∧ t.cause ≠ 0x21 ∨ (∀ r ∈ st.rets, r.ra.getLsbD 0 = false) ∨
          s.region? st e = none ∧ s.windowMoves e.ctx = false) →
        let entry := if t.cause = 0x22 then e.hdr.mapEntry else e.hdr.trapEntry
        exec (.trapDelivery st.id) s = .next (if entry = 0xFFFFFFFF then s.groupFault st 1 t.cause t.addr.toNat t.lanes t.detail t.va 0
          else s.setStrand (inHandler st t (e.base + entry)))) ∧
      (∀ h, st.handler = some h → exec (.trapDelivery st.id) s =
        .next (s.groupFault st 2 0x82 t.addr.toNat t.lanes (BitVec.ofNat 32 (h.trap.cause + 256 * t.cause)) t.va 0)) ∧
      (st.handler = none → (t.cause = 0x20 ∨ t.cause = 0x21) → ∀ u, unwound s st e t = some u →
        exec (.trapDelivery st.id) s = .next (u.traceOf st 4 t.cause t.addr.toNat) ∧
        exec (.containmentUnwind st.id) s = .next (u.traceOf st 4 t.cause t.addr.toNat) ∧
        ∀ above reg rest h base len, s.region? st e = some (above, reg, rest, h, base, len) → (∀ r ∈ above, r.fork = none) → st.cont = none →
          ∃ x, u.strand? st.id = some x ∧ x.rets = rest ∧ x.pends = st.pends.filter (fun p => p.depth ≤ rest.length) ∧ x.path = reg.cm &&& st.live ∧
            x.pc = BitVec.ofNat 64 h ∧ x.state = .ready ∧
            x.handler = some { floor := x.pends.length, depth := rest.length, trap := t, unwind := true })) ∧
    ∀ g c, s.group? st.group = some g → s.ctx? e.ctx = some c → c.ack.toNat < s.dev.map.version.toNat → g.mapSeen.toNat < s.dev.map.version.toNat →
      e.hdr.mapEntry ≠ 0xFFFFFFFF → st.handler = none → st.cont = none → st.tile = false → g.state = .running → st.live ≠ 0 → st.state = .ready → st.held = none →
      st.sleepFrom = none → st.restored = false →
      let t : TrapInfo := { cause := 0x22, addr := st.pc, lanes := st.path, detail := s.dev.map.version.lo }
      exec (.mapTrapDelivery st.id) s = .next ((s.setGroup { g with mapSeen := s.dev.map.version }).setStrand
        (if ∀ p ∈ s.prods, p.strand ≠ st.id then inHandler st t (e.base + e.hdr.mapEntry) else { st with state := .trapped t }))

namespace Sys2Proof.Machine

/-- A strand that exits: no lane is live, nothing of it is in flight, and it is no continuation (R177). -/
structure Exits (s : State) (st : Strand) (g : Group) : Prop where
  strand : s.strand? st.id = some st
  group : s.group? st.group = some g
  dead : st.live = 0
  stays : st.state ≠ .exited
  noCont : st.cont = none
  quiet : ∀ p ∈ s.prods, p.strand ≠ st.id
  noTasks : s.tasksOpen st.id = false

/-- The strand has exited, and nothing else has happened. -/
def State.without (s : State) (st : Strand) : State := s.setStrand { st with state := .exited }

/-- Barrier `n` of a group has all the arrivals it waits for: those of the strands that have not exited (R345, R347). -/
def arrivalsMet (s : State) (g : Group) (n : Nat) : Bool :=
  (vget g.bars n {}).arr != 0 && s.strands.all fun x =>
    x.group != g.id || x.tile || x.cont.isSome || x.state == .exited || 32 ≤ x.idx || (vget g.bars n {}).arr.getLsbD x.idx

/-- A strand after a group's barriers have been looked at: one that was blocked at a barrier whose arrivals are met is past its BAR (R347). -/
def pastBar (s : State) (g : Group) (x : Strand) : Strand :=
  match x.state with
  | .blocked (.bar n) =>
    if x.group = g.id ∧ x.id ≠ 0 ∧ n < 16 ∧ arrivalsMet s g n = true then { x with pc := x.pc + 12, state := .ready, restored := false } else x
  | _ => x

/-- A strand waits at the pop of its top return entry, at which fork `f` hangs with its continuation `c` (R280, R288). -/
structure Resolves (s : State) (st : Strand) (e : Env) (top : RetEntry) (rest : List RetEntry) (f : Fork) (c : Strand) (ct : Cont) : Prop where
  strand : s.strand? st.id = some st
  env : s.env? st = some e
  waits : st.state = .blocked .resolve
  rets : st.rets = top :: rest
  fork : top.fork = some f.cont
  owns : st.forks.find? (fun x => x.cont == f.cont) = some f
  cont : s.strand? f.cont = some c
  isCont : c.cont = some ct

end Sys2Proof.Machine

/-- What a strand waits for between instructions comes about. STRAND_EXITED (R177): the strand has exited; a barrier of its group that waited for it
alone completes its phase and lets its strands go on (R347); the last strand of a group retires it (R331), and a tile strand gives its bands up (R398).
FORK_RESOLUTION (R280, R288-R291): a return entry with a record trains and is popped; a fork commits for code 0, is squashed for any other, and
waits, its continuation stalled, for return registers that are still empty. SLEEP_WAKE (R344) and PHASER_POLL (R359): the strand is ready once its
cycles have passed, or the phase, and waits on before that. PREEMPT_TIMEOUT (R334): the group of a strand that has issued more than 2^20
instructions since the request faults with code 0x83. Each answers a next state. That its record has the strand's pc and no lane (log entry 45), and
that a commit gives the strand every register of the continuation and drops the callee's producers (log entries 20 and 50), is the model's. -/
def Obligations.StrandsGoOn : Prop :=
  (∀ (s : State) (st : Strand) (g : Group), Exits s st g → st.tile = false → (∀ n, n < 16 → (vget g.bars n {}).arr = 0) →
    exec (.strandExited st.id) s = .next (if ∀ x ∈ (s.without st).strands, x.group = g.id → x.tile = false → x.state = .exited
      then (s.without st).retireGroup g.id else s.without st)) ∧
  (∀ (s : State) (st : Strand) (g : Group), Exits s st g → st.tile = false →
    (∃ x ∈ (s.without st).strands, x.group = g.id ∧ x.tile = false ∧ x.state ≠ .exited) →
    (∀ c ∈ s.ctxs, ∀ n, 11 ≤ n → n < 16 → (vget c.select n 0).extractLsb' 0 16 ≠ 1) →
    ∃ t, exec (.strandExited st.id) s = .next t ∧ t = { s.without st with strands := t.strands, groups := t.groups } ∧
      t.strands = (s.without st).strands.map (pastBar (s.without st) g) ∧
      ∃ g', t.group? g.id = some g' ∧ g' = { g with bars := g'.bars } ∧ ∀ n, n < 16 →
        vget g'.bars n {} = if arrivalsMet (s.without st) g n then { phase := (vget g.bars n {}).phase + 1, arr := 0 } else vget g.bars n {}) ∧
  (∀ (s : State) (st : Strand) (g : Group), Exits s st g → st.tile = true →
    exec (.strandExited st.id) s = .next (((s.without st).releaseBands st.id).settleTeam g.team)) ∧
  (∀ (s : State) (st : Strand) (e : Env) (top : RetEntry) (rest : List RetEntry), s.strand? st.id = some st → s.env? st = some e →
    st.state = .blocked .resolve → st.rets = top :: rest → top.fork = none → (∀ r, top.train = some r → st.returnFull r.ret = true) →
    top.arr &&& st.live ≠ 0 →
    exec (.forkResolution st.id) s = .next ((s.trainWith st top.train).setStrand
      { st with rets := rest, pc := top.ra, path := top.arr &&& st.live, state := .ready })) ∧
  (∀ (s : State) (st : Strand) (e : Env) (top : RetEntry) (rest : List RetEntry) (f : Fork) (c : Strand) (ct : Cont),
    Resolves s st e top rest f c ct →
    (st.returnFull f.ret = false → exec (.forkResolution st.id) s = .next (s.setStrand { c with state := .stalled })) ∧
    (st.returnFull f.ret = true → forkReason st top f ct = 0 → ct.fault = none →
      let r := s.commitFork st c ct e.ctx top rest
      exec (.forkResolution st.id) s = .next (r.1.setStrand { r.2.1 with state := .ready })) ∧
    (st.returnFull f.ret = true → forkReason st top f ct ≠ 0 →
      let u := ((s.trainWith st top.train).setStrand st).squash f.cont (forkReason st top f ct)
      ∀ st', u.strand? st.id = some st' → top.arr &&& st'.live ≠ 0 →
        exec (.forkResolution st.id) s = .next (u.setStrand
          { st' with rets := rest, pc := top.ra, path := top.arr &&& st'.live, state := .ready }))) ∧
  (∀ (s : State) (st : Strand) (start n : Nat), s.strand? st.id = some st → st.state = .blocked .sleep → st.sleepFrom = some (start, n) →
    exec (.sleepWake st.id) s = .next (if start + n ≤ (s.cluster st.clusterNo).cycles then s.setStrand { st with state := .ready } else s)) ∧
  (∀ (s : State) (st : Strand) (va : DWord) (ph : Word) (ia : Nat), s.strand? st.id = some st → st.state = .blocked .phaser →
    st.held = some (va, ph) → s.recordIa st va.toNat = some ia →
    exec (.phaserPoll st.id) s = .next (s.setStrand (if phaseOver (s.phaserAt ia) ph then { st with state := .ready } else st))) ∧
  ∀ (s : State) (st : Strand) (g : Group) (t : Team), s.strand? st.id = some st → s.group? st.group = some g →
    s.team? g.team = some t → t.state = .preempting → 2 ^ 20 < st.runOn → st.state ≠ .exited →
    exec (.preemptTimeout st.id) s = .next (s.groupFault st 2 0x83 st.pc.toNat 0 (BitVec.ofNat 32 st.idx) 0 0)

namespace Sys2Proof.Machine

/-! ### Placement, rising levels and pre-emption (R88, R319-R322, R334, R339) -/

/-- A team of a launch is placed for the first time. -/
structure FirstPlaced (s : State) (launch index : Nat) (w : Placement) (p : Pend) (l : Launch) (k : Kernel) (c : Ctx) (u : State) : Prop where
  noWaits : NoWaits s
  pend : s.pending.find? (fun p => p.launch == launch && p.index == index) = some p
  launch : s.launch? launch = some l
  kernel : s.kernel? l.ctx l.kernel = some k
  ctx : s.ctx? l.ctx = some c
  fits : s.fitsAt p l k.hdr w.cluster w.cores = true
  first : (s.pending.any fun q => q.before p && (s.couldPlace q).isSome) = false
  fresh : p.saved = none
  shape : Placement.shaped w k.hdr = true
  saves : areasOk c.savePool 4096 (s.saveAreas c.id) (Placement.saveAreas w k.hdr (k.hdr.scratch + l.dynScr)) = true
  stackAreas : areasOk c.stackPool 64 (s.stackAreas c.id) (w.stackAreas.map fun a => (a, k.hdr.stack)) = true
  leased : s.leaseList c ((List.range k.hdr.team).flatMap fun g => l.owns.map (fun n => (n, false)) ++ stackPages c k.hdr w.stackAreas g) = (u, true)

end Sys2Proof.Machine

/-- TEAM_PLACE of a team that has never been placed starts its groups and strands: every strand at the kernel's entry, with every lane live, its
arguments in b14, the top of its stack in b15 and b12, and every v register U 0 (R88, R331). No launch waits for a page and no group for a lease; that
no team ahead of it could be placed is tested by first fit (log entry 28). -/
def Obligations.TeamsArePlaced : Prop :=
  ∀ (s : State) (launch index : Nat) (w : Placement) (p : Pend) (l : Launch) (k : Kernel) (c : Ctx) (u : State) (l' : Launch) (c' : Ctx),
    FirstPlaced s launch index w p l k c u → u.launch? launch = some l' → u.ctx? l.ctx = some c' → c'.trace.on = false →
    l'.ctx = l.ctx →
    ∃ t, exec (.teamPlace launch index w) s = .next t ∧
      (∃ tm ∈ t.teams, tm.launch = l'.id ∧ tm.index = p.index ∧ tm.state = .running ∧ tm.cluster = w.cluster ∧ tm.level = p.level ∧
        tm.groups = (List.range k.hdr.team).map fun g => u.freshId + 1 + g) ∧
      (∀ g, g < k.hdr.team → ∃ gr ∈ t.groups, gr.id = u.freshId + 1 + g ∧ gr.gi = g ∧ gr.linear = p.index * k.hdr.team + g ∧
        gr.core = w.cores.getD g 0 ∧ gr.state = .running ∧ gr.scratch = [] ∧ gr.scratchLen = k.hdr.scratch + l'.dynScr) ∧
      ∀ g n, g < k.hdr.team → n < k.hdr.strands → ∃ x ∈ t.strands, x.group = u.freshId + 1 + g ∧ x.idx = n ∧ x.core = w.cores.getD g 0 ∧
        x.pc = BitVec.ofNat 64 k.base + BitVec.ofNat 64 k.hdr.entry ∧ x.path = BitVec.allOnes 32 ∧ x.live = BitVec.allOnes 32 ∧ x.state = .ready ∧
        x.rets = [] ∧ x.pends = [] ∧ (∀ r, r < 64 → x.reg r = {}) ∧ vget x.b 14 0 = l'.args ∧
        ∀ r, (r = 15 ∨ r = 12) → vget x.b r 0 =
          (if k.hdr.stack = 0 then 0 else BitVec.ofNat 64 (w.stackAreas.getD (k.hdr.strands * g + n) 0 + k.hdr.stack))

namespace Sys2Proof.Machine

/-- The areas that a group is saved in: its record and its living strands' save areas (R105, R335). -/
def savedAreas (s : State) (g : Group) : List (Nat × Nat) :=
  (g.saveAt, saveSize g.scratchLen) :: (s.strands.filter fun x => x.group == g.id && !x.tile && x.state != .exited).map fun x => (x.ssa, 0x3000)

/-- Memory holds fields at an address, each an offset, a size and a value. -/
def HoldsFields (s : State) (base : Nat) (fs : List (Nat × Nat × Nat)) : Prop := ∀ f ∈ fs, s.field (base + f.1) f.2.1 = f.2.2 % 256 ^ f.2.1

/-- The fields of the save record of a group that has not ended, of a team without a tile strand; `xs` are its strands (R335-R337). -/
def saveFields (s : State) (g : Group) (l : Launch) (h : Header) (xs : List Strand) : List (Nat × Nat × Nat) :=
  let alive := (List.range 32).filter fun n => xs.any fun x => x.idx == n && x.state != .exited
  [(0x00, 4, 0x31525347), (0x04, 4, 0x3800 + g.scratchLen), (0x08, 8, l.kernel), (0x10, 4, g.linear), (0x14, 1, g.level), (0x15, 1, h.strands)
   , (0x16, 1, h.feed), (0x17, 1, 0), (0x18, 8, s.dev.map.version.toNat), (0x20, 4, g.core), (0x24, 4, g.scratchLen), (0x28, 8, 0)
   , (0x30, 4, (alive.map (2 ^ ·)).sum)] ++
  ((List.range 16).flatMap fun n =>
    [(0x40 + 8 * n, 8, (vget g.amax n {}).bits.toNat), (0xC0 + 8 * n, 4, (vget g.bars n {}).arr.toNat)
     , (0xC4 + 8 * n, 4, (vget g.bars n {}).phase.toNat), (0x140 + 16 * n, 16, (vget g.rings n {}).bits)]) ++
  (List.range 32).flatMap fun n => match xs.find? fun x => x.idx == n with
    | some x => [(0x240 + 16 * n, 8, x.ssa), (0x248 + 16 * n, 1, match x.state with | .exited => 3 | .blocked _ => 2 | _ => 1)]
    | none => [(0x240 + 16 * n, 16, 0)]

/-- The fields of a strand's image that are no registers (R106, R162, R338). -/
def imageFields (x : Strand) : List (Nat × Nat × Nat) :=
  let num := fun (f : Handler → Nat) => match x.handler with | some h => f h | none => 0
  let bit := fun (b : Bool) (n : Nat) => if b then n else 0
  [(0x2E40, 8, x.pc.toNat), (0x2E48, 4, x.path.toNat), (0x2E4C, 4, x.live.toNat), (0x2E50, 1, x.rets.length), (0x2E51, 1, x.rets.length)
   , (0x2E52, 1, x.pends.length)
   , (0x2E53, 1, bit x.handler.isSome 1 + bit (match x.state with | .blocked _ => true | _ => false) 2 + bit x.held.isSome 4)
   , (0x2E54, 1, num (·.floor)), (0x2E55, 1, num (·.depth)), (0x2E56, 1, num (·.trap.cause)), (0x2E57, 1, 0), (0x2E58, 8, num (·.trap.addr.toNat))
   , (0x2E60, 4, num (·.trap.lanes.toNat)), (0x2E64, 4, num (·.trap.detail.toNat)), (0x2E68, 8, x.sr.toNat)
   , (0x2E70, 8, (x.held.getD (0, 0)).1.toNat), (0x2E78, 4, (x.held.getD (0, 0)).2.toNat)] ++
  ((List.range 128).flatMap fun n => match x.rets.reverse[n]? with
    | some r => [(0x2000 + 16 * n, 8, r.ra.toNat), (0x2008 + 16 * n, 4, r.cm.toNat), (0x200C + 16 * n, 4, r.arr.toNat)]
    | none => []) ++
  (List.range 32).flatMap fun n => match x.pends.reverse[n]? with
    | some p => [(0x2800 + 32 * n, 8, p.pc.toNat), (0x2808 + 32 * n, 4, p.mask.toNat), (0x280C + 32 * n, 1, p.depth)]
    | none => []

/-- The fields of a strand's image that are registers; one that is dead where the strand stands is saved as 0, U 0 for a v register (R106-R108, R305). -/
def registerFields (x : Strand) (dead : RegSet) : List (Nat × Nat × Nat) :=
  ((List.range 64).flatMap fun n =>
    if dead.v.getLsbD n then [(0x2C00 + 8 * n, 8, 0), (0x2E00 + n, 1, 0)]
    else match (x.reg n).shape with
      | .u w => [(0x2C00 + 8 * n, 4, w.toNat), (0x2C04 + 8 * n, 4, 0), (0x2E00 + n, 1, 0)]
      | .a b d => [(0x2C00 + 8 * n, 4, b.toNat), (0x2C04 + 8 * n, 4, d.toNat), (0x2E00 + n, 1, 1)]
      | _ => (0x2C00 + 8 * n, 8, 0) :: (0x2E00 + n, 1, 3) :: (List.range 32).map fun i => (0x80 * n + 4 * i, 4, (x.lane n i).toNat)) ++
  ((List.range 7).map fun n => (0x2E80 + 4 * n, 4, if dead.k.getLsbD (n + 1) then 0 else (vget x.k (n + 1) 0).toNat)) ++
  ((List.range 16).map fun n => (0x2EA0 + 8 * n, 8, if dead.b.getLsbD n then 0 else (vget x.b n 0).toNat)) ++
  (List.range 8).flatMap fun n =>
    let r : JReg := if dead.j.getLsbD n then {} else vget x.j n {}
    [(0x2F20 + 16 * n, 4, r.exp.toNat), (0x2F24 + 16 * n, 4, r.arr.toNat), (0x2F28 + 16 * n, 4, r.depth.toNat + (if r.armed then 2 ^ 31 else 0))
     , (0x2F2C + 16 * n, 4, r.jpc.toNat)]

/-- The registers that are dead where a strand stands, by its kernel's side table (R305). -/
def deadAt (s : State) (x : Strand) : RegSet :=
  match s.sideOf x with
  | some e => { v := ~~~e.vlive, b := ~~~e.blive, k := ~~~e.klive &&& 0xFE, j := ~~~e.jlive }
  | none => {}

/-- A group of a team without a tile strand has been saved, and gives `v`: its record and its strands' images are in memory, its strands are kept with the
team, and the group is away (R334, R335, R338). -/
structure Saved (s v : State) (tm : Team) (g : Group) (l : Launch) (h : Header) : Prop where
  record : HoldsFields v g.saveAt (saveFields s g l h (s.strands.filter fun x => x.group == g.id && !x.tile))
  full : ∀ w, w < 98304 → (v.mem.get (g.saveAt + 0x800 + w / 8)).getLsbD (w % 8) = g.fullWords.contains w
  scratch : ∀ i, i < g.scratchLen → v.mem.get (g.saveAt + 0x3800 + i) = Memory.get g.scratch i
  images : ∀ x ∈ s.strands, x.group = g.id → x.tile = false → x.state ≠ .exited → HoldsFields v x.ssa (imageFields x ++ registerFields x (deadAt s x))
  away : v.group? g.id = some { g with away := true, state := .saved }
  gone : ∀ x ∈ v.strands, x.group = g.id → x.tile = true
  kept : ∃ ps, v.team? tm.id = some { tm with kept := tm.kept ++ ps } ∧
    ps.map (·.id) = (s.strands.filter fun x => x.group == g.id && !x.tile).map (·.id)

/-- What is to be saved lies in areas of its own that can be reached, no L1 holds a line, and no strand is a continuation. -/
structure Savable (s : State) (areas : List (Nat × Nat)) : Prop where
  apart : areas.Pairwise fun a b => a.1 + a.2 ≤ b.1 ∨ b.1 + b.2 ≤ a.1
  reach : ∀ a ∈ areas, ∀ i, i < a.2 → s.reachable (a.1 + i) = true
  l1 : s.l1 = []
  conts : ∀ x ∈ s.strands, x.cont = none
  wf : s.mem.wf = true

/-- A strand reloaded from its image, whose fields `rd` reads (R106, R107, R338, R339 step 5); it re-evaluates its instruction when it was blocked. -/
structure Reloaded (rd : Nat → Nat → Nat) (x y : Strand) (core : Nat) : Prop where
  same : y.id = x.id ∧ y.idx = x.idx ∧ y.group = x.group ∧ y.core = core ∧ y.ssa = x.ssa
  path : y.pc = BitVec.ofNat 64 (rd 0x2E40 8) ∧ y.path = BitVec.ofNat 32 (rd 0x2E48 4) ∧ y.live = BitVec.ofNat 32 (rd 0x2E4C 4)
  sr : y.sr = BitVec.ofNat 64 (rd 0x2E68 8)
  shapes : ∀ n, n < 64 → (y.reg n).full = true ∧ (y.reg n).shape = match rd (0x2E00 + n) 1 with
    | 0 => .u (BitVec.ofNat 32 (rd (0x2C00 + 8 * n) 4))
    | 1 => .a (BitVec.ofNat 32 (rd (0x2C00 + 8 * n) 4)) (BitVec.ofNat 32 (rd (0x2C04 + 8 * n) 4))
    | _ => .spilled
  lanes : ∀ n i, n < 64 → i < 32 → (y.reg n).shape = .spilled → y.lane n i = BitVec.ofNat 32 (rd (0x80 * n + 4 * i) 4)
  k : ∀ n, n < 7 → vget y.k (n + 1) 0 = BitVec.ofNat 32 (rd (0x2E80 + 4 * n) 4)
  b : ∀ n, n < 16 → vget y.b n 0 = BitVec.ofNat 64 (rd (0x2EA0 + 8 * n) 8)
  j : ∀ n, n < 8 → (vget y.j n {}).exp = BitVec.ofNat 32 (rd (0x2F20 + 16 * n) 4) ∧ (vget y.j n {}).arr = BitVec.ofNat 32 (rd (0x2F24 + 16 * n) 4) ∧
    (vget y.j n {}).jpc = BitVec.ofNat 32 (rd (0x2F2C + 16 * n) 4)
  rets : y.rets.length = min (rd 0x2E51 1) 128 ∧ ∀ n r, y.rets.reverse[n]? = some r →
    r.ra = BitVec.ofNat 64 (rd (0x2000 + 16 * n) 8) ∧ r.cm = BitVec.ofNat 32 (rd (0x2008 + 16 * n) 4) ∧ r.arr = BitVec.ofNat 32 (rd (0x200C + 16 * n) 4)
  pends : y.pends.length = min (rd 0x2E52 1) 32 ∧ ∀ n p, y.pends.reverse[n]? = some p →
    p.pc = BitVec.ofNat 64 (rd (0x2800 + 32 * n) 8) ∧ p.mask = BitVec.ofNat 32 (rd (0x2808 + 32 * n) 4) ∧ p.depth = rd (0x280C + 32 * n) 1
  handler : y.handler.isSome = (rd 0x2E53 1).testBit 0 ∧ ∀ h, y.handler = some h → h.floor = rd 0x2E54 1 ∧ h.depth = rd 0x2E55 1 ∧
    h.trap.cause = rd 0x2E56 1 ∧ h.trap.addr = BitVec.ofNat 64 (rd 0x2E58 8) ∧ h.trap.lanes = BitVec.ofNat 32 (rd 0x2E60 4) ∧
    h.trap.detail = BitVec.ofNat 32 (rd 0x2E64 4)
  held : y.held = if (rd 0x2E53 1).testBit 2 then some (BitVec.ofNat 64 (rd 0x2E70 8), BitVec.ofNat 32 (rd 0x2E78 4)) else none
  state : (∀ z, x.state = .blocked z → (rd 0x2E53 1).testBit 1 = true → y.state = .blocked z) ∧ ((rd 0x2E53 1).testBit 1 = false → y.state = .ready)

/-- A group of a saved team has been restored on a core, and gives `t`: what its record in `u` holds is installed, with the core as the owner of every
ring, and its strands are reloaded (R339). -/
structure Restored (u t : State) (tm : Team) (g : Group) (core : Nat) : Prop where
  group : ∃ gr, t.group? g.id = some gr ∧ gr = { g with core := core, away := false, state := .running, level := gr.level, amax := gr.amax, bars := gr.bars
                                                        rings := gr.rings, scratch := gr.scratch, fullWords := gr.fullWords, poison := gr.poison } ∧
    (∀ n, n < 16 → vget gr.amax n {} = Amax.ofBits (BitVec.ofNat 64 (u.saveNum g.saveAt (0x40 + 8 * n) 8)) ∧
      vget gr.bars n {} = { arr := BitVec.ofNat 32 (u.saveNum g.saveAt (0xC0 + 8 * n) 4), phase := BitVec.ofNat 32 (u.saveNum g.saveAt (0xC4 + 8 * n) 4) } ∧
      ∃ hs, vget gr.rings n {} = { Ring.ofBits (u.saveNum g.saveAt (0x140 + 16 * n) 16) core with handed := hs }) ∧
    (∀ i, i < g.scratchLen → Memory.get gr.scratch i = BitVec.ofNat 8 (u.saveNum g.saveAt (0x3800 + i) 1)) ∧
    ∀ w, w < g.scratchLen / 4 → gr.fullWords.contains w = (u.saveNum g.saveAt (0x800 + w / 8) 1).testBit (w % 8)
  strands : ∀ x ∈ tm.kept, x.group = g.id → x.state ≠ .exited → ∃ y ∈ t.strands, Reloaded (u.saveNum x.ssa) x y core

/-- A saved team without a tile strand is placed again at a place where it fits. -/
structure Returns (s : State) (launch index : Nat) (w : Placement) (p : Pend) (l : Launch) (k : Kernel) (c : Ctx) (tm : Team) : Prop where
  noWaits : NoWaits s
  pend : s.pending.find? (fun p => p.launch == launch && p.index == index) = some p
  launch : s.launch? launch = some l
  kernel : s.kernel? l.ctx l.kernel = some k
  ctx : s.ctx? l.ctx = some c
  noTrace : c.trace.on = false
  fits : s.fitsAt p l k.hdr w.cluster w.cores = true
  first : (s.pending.any fun q => q.before p && (s.couldPlace q).isSome) = false
  saved : ∃ tid, p.saved = some tid ∧ s.team? tid = some tm
  groups : tm.groups.Nodup ∧ ∀ gid ∈ tm.groups, ∃ g, s.group? gid = some g ∧ g.state = .saved
  noTile : ∀ x ∈ tm.kept, x.tile = false
  l1 : s.l1 = []

end Sys2Proof.Machine

/-- A saved team is placed again once its save areas may be read: what they hold is installed on the new cores, and a group whose image fails the checks
faults with RESTORE-FAILED (R108, R332, R339). Levels rise with waiting; a team that has waited above a running group pre-empts it (R320, R322). A group
that has drained is saved: its record and its strands' images say what they held, and the team is saved with the last of its groups, and pending again
(R334-R338). That a team is saved at once (log entry 27), the test of first fit (log entry 28), what a team keeps beside the images (log entry 64), the
areas of a faulted group, which is not among these (log entry 65), that a rise raises every team of its launch that has not been placed (log entry 69),
and the record of RESTORE-FAILED (log entry 45), are the model's. -/
def Obligations.TeamsWaitAndGoAway : Prop :=
  (∀ (s u : State) (launch index : Nat) (w : Placement) (p : Pend) (l : Launch) (k : Kernel) (c : Ctx) (tm : Team),
    Returns s launch index w p l k c tm →
    (s.readyAreas c (s.restoreAreas tm) = (u, false) → exec (.teamPlace launch index w) s = .next u) ∧
    (s.readyAreas c (s.restoreAreas tm) = (u, true) → (∀ gid ∈ tm.groups, ∀ g, s.group? gid = some g → u.restoreFails g tm.kept = none) →
      ∃ t, exec (.teamPlace launch index w) s = .next t ∧
        ∀ (n gid : Nat) (g : Group), tm.groups[n]? = some gid → s.group? gid = some g → Restored u t tm g (w.cores.getD n 0)) ∧
    (s.readyAreas c (s.restoreAreas tm) = (u, true) → ∀ g n, tm.groups = [g.id] → s.group? g.id = some g → u.restoreFails g tm.kept = some n →
      ∃ (v : State) (st : Strand), exec (.teamPlace launch index w) s = .next (v.groupFault st 2 0x84 0 0 (BitVec.ofNat 32 n) 0 0) ∧ st.group = g.id ∧ st.idx = n ∧
        v.group? g.id = some { g with core := w.cores.getD 0 0, away := false, state := .resumed } ∧ v.mem = u.mem)) ∧
  (∀ (s : State) (launch index : Nat) (tm : Team), s.teams.find? (fun t => t.launch == launch && t.index == index && t.state == .saved) = some tm →
    tm.since + 10000000 * (tm.risen + 1) ≤ s.now → tm.level + tm.risen < 10 →
    exec (.levelRise launch index) s = .next (s.setTeam { tm with risen := tm.risen + 1 })) ∧
  (∀ (s : State) (launch index : Nat) (l : Launch), s.teams.find? (fun t => t.launch == launch && t.index == index && t.state == .saved) = none →
    s.launch? launch = some l → l.since + 10000000 * (l.risen + 1) ≤ s.now → l.prio + l.risen < 10 → index < l.gx * l.gy * l.gz → index ∉ l.started →
    exec (.levelRise launch index) s = .next (s.setLaunch { l with risen := l.risen + 1 })) ∧
  (∀ (s : State) (launch index : Nat) (p : Pend) (g : Group) (tm : Team) (since : Nat), s.pendingTeam launch index = some p →
    s.group? g.id = some g → s.aboveAt p = some since → since + 50000 ≤ s.now → s.isVictim p g = true →
    (∀ t ∈ s.teams, t.state = .preempting → t.preemptor ≠ some (launch, index)) → (s.preempt g.team).team? g.team = some tm →
    exec (.priorityPreempt launch index g.id) s = .next ((s.preempt g.team).setTeam { tm with preemptor := some (launch, index) })) ∧
  (∀ (s u : State) (g : Group) (tm : Team) (l : Launch) (h : Header) (scr : Nat) (c : Ctx), s.group? g.id = some g → s.team? g.team = some tm →
    s.teamShape tm = some (l, h, scr) → tm.state = .preempting → g.away = false → g.ended = false → tm.tile = none → tm.tileSave = 0 → s.readyToSave tm = true →
    s.ctx? l.ctx = some c → c.trace.on = false →
    (s.readyAreas c (savedAreas s g) = (u, false) → exec (.groupSave g.id) s = .next u) ∧
    (s.readyAreas c (savedAreas s g) = (u, true) → Savable s (savedAreas s g) →
      ∃ v, exec (.groupSave g.id) s = .next (v.settleSaved tm.id) ∧ Saved s v tm g l h)) ∧
  ∀ (s : State) (tm : Team) (l : Launch), s.team? tm.id = some tm → s.launch? tm.launch = some l → tm.state = .preempting → tm.tile = none →
    s.settleSaved tm.id = if ∀ g ∈ s.groups, g.team = tm.id → g.away = true
      then ((s.setTeam { tm with state := .saved, since := s.now, risen := 0, aboveSince := none, preemptor := none }).settleCtx l.ctx).settleWorld else s

namespace Sys2Proof.Machine

/-! ### Charge, copies and matrix tasks (R377, R382, R401, R402, R469) -/

end Sys2Proof.Machine

/-- The arbiter grants the oldest request of the highest level, when the bucket holds its cost or is full; a copy moves the bytes of its rows, which of
the model's choices is word by word (log entry 57), and completes in the order of its ring; a task issues when what it waits for is done, and retires with
its work (R375, R377, R381, R382, R401-R404, R408, R412, R414, R469). The detail word of a task's POISON is a free value (log entry 14); the band that
SPARSE-META names and that POISON comes first (log entries 124 and 125), what an acquire or XFENCE of the strand holds back (log entry 105), and the
rounding of an s32 amax (log entry 116), are the model's. -/
def Obligations.EnginesGoOn : Prop :=
  (∀ (s : State) (cl : Nat) (r : ChargeReq) (before after : List ChargeReq), (s.cluster cl).requests = before ++ r :: after →
    (∀ x ∈ before, x.level < r.level) → (∀ x ∈ after, x.level ≤ r.level) → (r.cost ≤ (s.cluster cl).level ∨ (s.cluster cl).level = 2 ^ 20) →
    exec (.chargeGrant cl) s =
      .next ((s.setCluster { s.cluster cl with level := (s.cluster cl).level - r.cost, requests := before ++ after }).granted cl r)) ∧
  (∀ (s : State) (k : Copy) (g : Group), s.copies.find? (fun x => x.id == k.id) = some k → k.bursts = 0 → k.moved = true → s.copyHeld k = false →
    (s.copyRing k).group? k.group = some g →
    let u := { s.copyRing k with copies := (s.copyRing k).copies.filter fun x => x.id != k.id }
    exec (.copyComplete k.id) s = .next (({ u with strands := u.strands.map fun (x : Strand) =>
      if x.id = k.strand then { x with copied := max x.copied (max (CopyCtl.of k.ctl).scp 1) } else x }).settleTeam g.team)) ∧
  (∀ (s : State) (k : Copy), s.copies.find? (fun x => x.id == k.id) = some k → k.bursts = 0 → k.moved = false →
    (k.rows = 0 ∨ ∀ a ∈ s.flight, a.strand = k.strand → a.id < k.id → a.holdsClass 1 = false) →
    (∀ u, s.copyReady k = (u, true) →
      let v := { u.copyMove k with copies := (u.copyMove k).copies.map fun x => if x.id = k.id then { x with moved := true } else x }
      v.copyHeld k = true → exec (.copyComplete k.id) s = .next v) ∧
    ∀ u, s.copyReady k = (u, false) → exec (.copyComplete k.id) s = .next u) ∧
  (∀ (s : State) (k : Copy) (c : Ctx) (src dst : Nat) (g : Group), s.ctx? k.ctx = some c → Bare s → k.rows = 1 → k.rowLen % 4 = 0 → k.src < 2 ^ 64 →
    k.dst < 2 ^ 64 → k.ctl.toNat % 4 = 0 → PlainBytes s src k.rowLen →
    let ia := fun (va : Nat) => (({ c with windows := k.windows } : Ctx).translate va).map (·.2.2)
    (∀ i, i < k.rowLen → ia (k.src + i) = some (src + i)) →
    (k.ctl.toNat / 4 % 4 = 0 → (∀ i, i < k.rowLen → ia (k.dst + i) = some (dst + i)) → PlainBytes s dst k.rowLen →
      s.copyMove k = { s with mem := s.mem.putList dst (s.mem.getList src k.rowLen) }) ∧
    (k.ctl.toNat / 4 % 4 ≠ 0 → s.group? k.dstGroup = some g → g.poison = [] →
      s.copyMove k = s.setGroup { g with scratch := Memory.putList g.scratch k.dst (s.mem.getList src k.rowLen) })) ∧
  (∀ (s : State) (cl : Nat) (t : Task) (st : Strand) (e : Env) (tm : Team) (g : Group), let c := s.cluster cl
    c.tasks.find? (fun x => x.entry == t.entry && x.state == .waiting) = some t → s.strand? t.strand = some st → s.env? st = some e →
    s.team? e.team = some tm → tm.state = .running → e.debug = false → (t.predA = 0 ∨ c.satisfied t.predA = true) → (t.predB = 0 ∨ c.satisfied t.predB = true) →
    (∀ b ∈ c.tasks, t.follows b = false ∧ t.queues b = false) →
    (∀ a ∈ s.flight, a.strand = t.strand → a.id < t.seq → a.holdsClass 2 = false) →
    (∀ l ∈ t.bands, ∃ b ∈ st.bands, b.logical = l ∧ ∃ p ∈ c.pbands, p.n = b.physical ∧ p.owner = st.id ∧ p.powered = true) →
    let d := t.desc
    let q := g.ring d.sel.q
    s.teamGroup? e d.sel.gi = some g → (if d.drain then q.free else q.filled) ≠ 0 →
    (∀ b, ringBad s e d.sel d.drain (slotBytes t.kind t.x t.lit t.bands) = some b →
      exec (.taskIssue cl t.entry) s = .next (s.setTask cl (t.fault (b.trap d.sel).1 (b.trap d.sel).2))) ∧
    (ringBad s e d.sel d.drain (slotBytes t.kind t.x t.lit t.bands) = none →
      let k := if d.drain then q.acquire else q.take
      exec (.taskIssue cl t.entry) s = .next (((s.setGroup (g.setRing d.sel.q k.1)).setTask cl { t with state := .issued, slot := k.2 }).request cl
        { level := e.level, cls := (t.charge c).1, cost := (t.charge c).2, who := (2, t.seq, 0) }))) ∧
  ∀ (s : State) (cl : Nat) (t : Task) (st : Strand) (e : Env) (g : Group), let c := s.cluster cl
    c.tasks.find? (fun x => x.entry == t.entry && x.state == .issued) = some t → s.strand? t.strand = some st → s.env? st = some e →
    s.teamGroup? e t.desc.sel.gi = some g → t.charged = true → e.debug = false →
    (∀ b ∈ c.tasks, b.seq < t.seq → b.strand = t.strand → b.state = .issued → b.desc.sel ≠ t.desc.sel) →
    let base := (g.ring t.desc.sel.q).slotAddr t.slot
    let gone := fun (u : State) => (u.setCluster { u.cluster cl with tasks := (u.cluster cl).tasks.filter fun x => x.seq != t.seq }).strandExit st.id
    let bad := fun cause detail (x : Strand) => ((s.setStrand x).setTask cl (t.fault cause detail)).taskRing g.id t
    (t.poisoned g base = true → exec (.taskRetire cl t.entry) s = .next (bad 0x20 (Config.taskPoisonDetail t.ticket) st)) ∧
    (t.poisoned g base = false →
      (t.kind = .wld → ∀ x, wldWork g base t st = .done x → exec (.taskRetire cl t.entry) s = .next (gone ((s.setStrand x).taskRing g.id t))) ∧
      (t.kind = .wld → ∀ k d x, wldWork g base t st = .bad k d x → exec (.taskRetire cl t.entry) s = .next (bad k d x)) ∧
      (t.kind = .mma → (∀ l ∈ t.bands, ∀ b ∈ st.bands, b.logical = l → b.active.valid = true) →
        exec (.taskRetire cl t.entry) s = .next (gone ((s.setStrand { st with
          bands := st.bands.map fun b => if t.bands.contains b.logical then mmaBand g base t.desc b else b }).taskRing g.id t))) ∧
      (t.kind = .mma → ∀ l, t.bands.find? (fun l => st.bands.any fun b => b.logical == l && !b.active.valid) = some l →
        exec (.taskRetire cl t.entry) s = .next (bad 0x11 (sparseDetail t.ticket l 4) st)) ∧
      (t.kind = .mdrain →
        let vs := drainValues t st
        let bytes := drainBytes t vs
        let u := s.scratchStore g.id st.id ((List.range bytes.length).map fun i =>
          { addr := base + i, width := 1, lane := 0, slot := 0, data := (bytes.getD i 0).toNat })
        (t.x.x2 = false → exec (.taskRetire cl t.entry) s = .next (gone (u.taskRing g.id t))) ∧
        ∀ h, t.x.x2 = true → u.group? g.id = some h → exec (.taskRetire cl t.entry) s =
          .next (gone ((u.setGroup (withAmax h t.desc.midx (amaxRule (vget h.amax t.desc.midx {}) t.x.ty.code vs))).taskRing g.id t))))

namespace Sys2Proof.Machine

/-! ### Contexts (R428-R433, R435, R437, R449, R451, R473, R478, R480) -/

/-- A suspension with a cause (R431): during a world switch it waits, with the cause of the first; else the context leaves the rotation at once, which
starts a world switch where it was current (R432) and is counted (R435), its teams are pre-empted, and its counters go to CTXSAVE. -/
def suspends (s : State) (c : Ctx) (cause : Nat) : State :=
  if s.dev.switching then s.setCtx { c with suspendWaits := some (c.suspendWaits.getD cause) }
  else
    let u := s.setCtx { c with suspendWaits := none, grace := none, saveDue := s.anyPlaced c.id }
    let v := if s.dev.current = some c.id then ({ u with dev := { u.dev with switching := true } }).bump c.id 9 1 else u
    ((((v.quiesce c.id).traceSeal c.id).ctxTo c.id .suspended cause).storeCounters c.id)

/-- A resumption (R430): the counters are read back from CTXSAVE as soon as they may be (R202, R435), until when it waits; where the teams still run on
they are in place and have counted further. Where the context is not suspended, or is being destroyed, there is nothing to resume. -/
def resumes (s : State) (c : Ctx) : Option State :=
  if c.state ≠ .suspended ∨ c.destroyWaits = true then some (s.setCtx { c with resumeWaits := false })
  else if c.saveDue = true then some ((s.setCtx { c with saveDue := false, resumeWaits := false }).ctxTo c.id .runnable 1)
  else
    let u := s.countersReady c
    (u.1.ctx? c.id).map fun x =>
      if u.2 = true then (u.1.setCtx { u.1.loadCounters x with resumeWaits := false }).ctxTo c.id .runnable 1 else u.1.setCtx { x with resumeWaits := true }

/-- What a command of the host to a context of its own leaves (R430, R431, R433, R435, R437, R449, R473, R478, R480). -/
def contextRule (s : State) (c : Ctx) : Instr → Option State
  | .contextEnable _ _ =>
    if c.state ≠ .built ∨ c.destroyWaits = true then some s
    else if c.conf then
      match Config.unwrapKey c.wrappedKey with
      | some k => some ((s.setCtx { c with key := some k }).ctxTo c.id .runnable 1)
      | none => some (s.faultCtx c.id 4)
    else some (s.ctxTo c.id .runnable 1)
  | .contextSuspend _ _ =>
    if c.state = .suspended ∨ c.state = .faulted ∨ c.state = .destroyed ∨ c.destroyWaits = true then some (s.setCtx { c with resumeWaits := false })
    else some (suspends s c 1)
  | .contextResume _ _ => resumes s c
  | .contextDestroy _ _ =>
    let c' := { c.disableQueues with destroyWaits := true }
    let u := s.setCtx c'
    if c.state = .running ∨ c.state = .saved then some ((suspends u c' 1).settleDestroy c.id)
    else some (if u.ctxQuiet c' then u.destroyNow c.id else u)
  | .mapAcknowledge _ _ n =>
    if s.dev.map.version.toNat < n.toNat ∨ n.toNat ≤ c.ack.toNat then some s else some (s.setCtx (s.regrace { c with ack := n }))
  | .counterClaim _ _ n => if 11 ≤ n ∧ n ≤ 15 ∧ n ∉ c.claimed then some (s.setCtx { c with claimed := n :: c.claimed }) else none
  | .counterRelease _ _ n => some (s.setCtx { c with claimed := c.claimed.filter (· != n) })
  | .traceEnable _ _ ring slots =>
    if homeOf ring = 4 ∧ slots ≠ 0 ∧ c.trace.blockSeq < 2 ^ 64 ∧ c.trace.block = [] then
      some (s.setCtx { c with trace := { c.trace with on := true, ring := ring, slots := slots, head := 0, tail := 0 } }) else none
  | .traceStop _ _ => if c.trace.block = [] then some (s.setCtx { c with trace := { c.trace with on := false } }) else none
  | _ => none

/-- A context that entered destroyed in `v` has been destroyed, and gives `u` (R433): its work, its kernels, its waiting writes and the context with its
queues, windows and key are gone; every lease that its work held is released; and of a confidential one every page that its windows reached is unplaced,
the map page apart (log entry 112). -/
structure Destroyed (v u : State) (c : Ctx) : Prop where
  ctxs : u.ctxs = v.ctxs.filter fun x => x.id != c.id
  launches : u.launches = v.launches.filter fun l => l.ctx != c.id
  kernels : u.kernels = v.kernels.filter fun k => k.ctx != c.id
  teams : u.teams = v.teams.filter fun t => !(v.teamsOf c.id).any fun x => x.id == t.id
  groups : u.groups = v.groups.filter fun g => !v.groups.any fun y => y.id == g.id && (v.teamsOf c.id).any fun t => t.id == y.team
  strands : u.strands = v.strands.filter fun x => !v.groups.any fun g => g.id == x.group && (v.teamsOf c.id).any fun t => t.id == g.team
  waits : u.dev.waits = v.dev.waits.filter fun w => w.ctx != c.id
  released : ∀ page p, (c.conf = false ∨ v.inMapPage (65536 * page) = true ∨ ∀ x, c.mapsPage x = false) → v.pte? page = some p →
    ∃ q, u.pte? page = some q ∧ q.frame = p.frame ∧
      q.leases = p.leases - ((v.launches.filter fun l => l.ctx == c.id).flatMap (·.owns) ++ (v.teamsOf c.id).flatMap fun t => t.leases.flatMap (·.2)).count page
  unplaced : c.conf = true → ∀ page p, v.pte? page = some p → p.state = 1 → c.mapsPage page = true → v.inMapPage (65536 * page) = false → u.pte? page = none

/-- The function and context of a command to a context. -/
def contextNamed : Instr → Option (Nat × Nat)
  | .contextEnable f c | .contextSuspend f c | .contextResume f c | .contextDestroy f c | .mapAcknowledge f c _ | .counterClaim f c _
  | .counterRelease f c _ | .traceEnable f c _ _ | .traceStop f c => some (f, c)
  | _ => none

end Sys2Proof.Machine

/-- A context is created by a descriptor within its limits, in the lowest free slot of its function (R427-R430); a command acts on the function's
own contexts and the physical function's on all (R430-R433, R435, R473, R478); a slice ends (R432) and the grace period ends (R451). What enters suspended
or faulted has its forks squashed and its teams pre-empted, its counters are written to CTXSAVE (R431, R435), and a destroyed context leaves nothing of
its work (R433). That a suspension waits during any world switch, and when the counters go to CTXSAVE, are log entry 83; that the physical function has
no limit of 64 places, and the check of the descriptor's windows, are log entry 90. -/
def Obligations.ContextsAreManaged : Prop :=
  (∀ (s : State) (func : Nat) (d key : List Byte), s.hostServed = true →
    let map' := if s.dev.map.version = 0 then none else some (pageOf s.dev.mapPage)
    let f := entryNum d 2 1
    let good := descriptorOk d map' = true ∧ (func = 0 ∨ func = f) ∧ s.ctx? (entryNum d 0 2) = none ∧ (f = 0 ∨ s.freeSlot f < 64)
    (good → exec (.contextCreate func d key) s =
      .next (({ s with ctxs := s.ctxs ++ [Ctx.ofDescriptor d key (s.freeSlot f) s.dev.map.version] }).reply (.created func (entryNum d 0 2) (s.freeSlot f)))) ∧
    (¬good → exec (.contextCreate func d key) s = .next (s.reply .refused))) ∧
  (∀ (s : State) (i : Instr) (func ctx : Nat) (c : Ctx) (t : State), contextNamed i = some (func, ctx) → s.hostServed = true → s.ctx? ctx = some c →
    reaches func c → contextRule s c i = some t → exec i s = .next t) ∧
  (∀ (s : State) (c : Ctx), s.dev.current = some c.id → s.ctx? c.id = some c → s.dev.switching = false → c.id ∈ s.rotation → c.id < 4096 →
    s.dev.sliceFrom + 1000 * c.slice ≤ s.now →
    exec .sliceExpiry s = .next (if s.rotation.length < 2 then ({ s with dev := { s.dev with sliceFrom := s.now } }).settleWorld
      else ((({ s with dev := { s.dev with switching := true } }).bump c.id 9 1).quiesce c.id).settleWorld)) ∧
  (∀ (s : State) (c : Ctx) (since : Nat), s.ctx? c.id = some c → c.state = .running → c.grace = some since → since + 10000000 ≤ s.now →
    exec (.graceExpiry c.id) s = .next (suspends s c 2)) ∧
  (∀ (s : State) (ctx : Nat), let u := s.quiesce ctx
    (∀ x ∈ u.strands, ∀ g ∈ s.groups, ∀ t ∈ s.teamsOf ctx, x.group = g.id → g.team = t.id → x.cont = none) ∧
    ((s.teams.map (·.id)).Nodup → (s.groups.map (·.id)).Nodup → (∀ x ∈ s.strands, x.cont = none ∧ x.mapDue = false) →
      (∀ t ∈ s.teams, u.team? t.id = some (if t ∈ s.teamsOf ctx ∧ t.state = .running then { t with state := .preempting } else t)) ∧
      ∀ g ∈ s.groups, u.group? g.id = some (if g.ended = false ∧ ∃ t ∈ s.teamsOf ctx, t.id = g.team ∧ t.state = .running
        then { g with state := .preempting } else g))) ∧
  (∀ (s u : State) (c : Ctx) (lack : List Nat), s.ctx? c.id = some c → s.reachable c.ctxSave = true → s.touchRange c.conf false c.ctxSave 128 = (u, true, lack) →
    Bare u → PlainBytes u c.ctxSave 128 →
    s.storeCounters c.id = { u with mem := u.mem.putList c.ctxSave ((List.range 16).flatMap fun n => bytesLE 8 (vget c.counters n 0).toNat) }) ∧
  ∀ (s : State) (c : Ctx), s.ctx? c.id = some c → Destroyed ((s.traceSeal c.id).ctxTo c.id .destroyed 1) (s.destroyNow c.id) c

namespace Sys2Proof.Machine

/-! ### Code objects (R296, R298-R303, R306-R309) -/

/-- A cluster has TEAM live cores whose feature masks contain FEATURES, and is live itself (R307). -/
def coresFor (s : State) (h : Header) (cl : Nat) : Prop :=
  s.dev.map.liveCl.getLsbD cl = true ∧ h.team ≤ ((List.range 8).filter fun i =>
    s.dev.map.liveCore.getLsbD (8 * cl + i) && (pairVal s.dev.map.coreFeat (8 * cl + i) &&& h.features == h.features)).length

/-- The checks of a kernel image in the order in which the loader makes them, each with what it asks: the header's fields against the limits of R298, the
ring entries, the lease descriptors, STACK, the side table, the ring areas, the slabs, and the map (R298-R303, R307, R309). That bit 0 of KLIVE goes with the
order of the side table, and the alignment of a ring's area with its entry, is log entry 84; that reserved bytes are held to 0 is log entry 115. -/
def loadRule (s : State) (b : List Byte) (stack : Option Nat) : List (LoadCheck × Prop) :=
  let n := entryNum b
  let zero := fun off len => ∀ i, i < len → b.getD (off + i) 0 = 0
  let role := fun strands least x => if strands = 0 then x = 0 else least ≤ x ∧ x ≤ 64
  let entry := fun off => n off 4 % 64 = 0 ∧ 0x100 ≤ n off 4 ∧ n off 4 < (if n 0x30 4 = 0 then n 0x28 4 else n 0x2C 4) ∧ n off 4 ≠ 0xFFFFFFFF
  let lsz := fun q => n (0x41 + 4 * q) 1 % 32
  let cnt := fun q => n (0x40 + 4 * q) 1 % 128
  let area := fun q => 128 * n (0x42 + 4 * q) 2
  let side := fun i => n 0x2C 4 + 16 * i
  let h := Header.ofImage b
  [ (.ident, n 0 4 = 0x314B4847), (.hver, n 4 2 = 1), (.field 0x06, n 6 2 < 8), (.field 0x08, 1 ≤ n 8 1 ∧ n 8 1 ≤ 32), (.field 0x09, n 9 1 ≤ n 8 1)
  , (.field 0x0A, 1 ≤ n 0xA 1 ∧ n 0xA 1 ≤ 8), (.field 0x0B, zero 0xB 1), (.field 0x0C, role (n 9 1) 4 (n 0xC 1))
  , (.field 0x0D, role (n 9 1) (n 0xC 1) (n 0xD 1)), (.field 0x0E, role (n 8 1 - n 9 1) 4 (n 0xE 1)), (.field 0x0F, role (n 8 1 - n 9 1) (n 0xE 1) (n 0xF 1))
  , (.field 0x10, n 0x10 4 ≤ 393216 ∧ n 0x10 4 % 128 = 0), (.field 0x14, n 0x14 4 % 64 = 0 ∧ n 0x14 4 ≤ 2 ^ 20), (.field 0x18, entry 0x18)
  , (.field 0x1C, n 0x1C 4 = 0xFFFFFFFF ∨ entry 0x1C), (.field 0x20, n 0x20 4 = 0xFFFFFFFF ∨ entry 0x20), (.field 0x24, n 0x24 4 = 0xFFFFFFFF ∨ entry 0x24)
  , (.field 0x28, n 0x28 4 % 64 = 0 ∧ n 0x28 4 ≤ 0xFFFFFFC0 ∧ n 0x28 4 = b.length ∧ 0x100 ≤ n 0x28 4), (.field 0x2C, n 0x30 4 = 0 → n 0x2C 4 = 0)
  , (.field 0x34, n 0x34 1 ≤ 48), (.field 0x35, if n 0x34 1 = 0 then n 0x35 1 = 0 else 1 ≤ n 0x35 1 ∧ n 0x35 1 ≤ 12 ∧ n 0x34 1 % n 0x35 1 = 0)
  , (.field 0x36, zero 0x36 2), (.field 0x38, n 0x38 8 < 16), (.field 0x80, n 0x80 1 ≤ 6), (.field 0x81, zero 0x81 31) ] ++
  ((List.range 16).map fun q => (.ring q, n (0x41 + 4 * q) 1 < 32 ∧ n (0x40 + 4 * q) 1 < 128 ∧
    if cnt q = 0 then area q = 0 ∧ lsz q = 0
    else 7 ≤ lsz q ∧ lsz q ≤ 16 ∧ cnt q ≤ 64 ∧ area q % 2 ^ lsz q = 0 ∧ area q + cnt q * 2 ^ lsz q ≤ n 0x10 4)) ++
  ((List.range 6).map fun i => (.lease i, if i < n 0x80 1 then 1 ≤ n (0xA8 + 16 * i) 8 ∧ n (0xA8 + 16 * i) 8 ≤ 2 ^ 40 else zero (0xA0 + 16 * i) 16)) ++
  [ (.stack, ∀ x, stack = some x → x % 64 = 0 ∧ x ≤ 2 ^ 20), (.sideOffset, n 0x30 4 = 0 ∨ (n 0x2C 4 % 64 = 0 ∧ 0x100 ≤ n 0x2C 4))
  , (.sideBounds, side (n 0x30 4) ≤ n 0x28 4)
  , (.sideOrder, (∀ i, i < n 0x30 4 → n (side i + 6) 1 % 2 = 0) ∧ ∀ i, i + 1 < n 0x30 4 → n (side i) 4 < n (side (i + 1)) 4)
  , (.ringOverlap, ∀ p q, p < q → q < 16 → cnt p ≠ 0 → cnt q ≠ 0 → area p + cnt p * 2 ^ lsz p ≤ area q ∨ area q + cnt q * 2 ^ lsz q ≤ area p)
  , (.slabSum, n 9 1 * n 0xC 1 + (n 8 1 - n 9 1) * n 0xE 1 ≤ 2048), (.scratch, n 0x10 4 ≤ 393216), (.mapCores, ∃ cl < 48, coresFor s h cl)
  , (.mapMcc, n 0x1C 4 ≠ 0xFFFFFFFF → ∃ cl < 48, coresFor s h cl ∧ s.dev.map.liveMcc.getLsbD cl = true), (.mapTable, s.buildTable h ≠ none) ]

/-- The clusters that a placement table names (R309): eligible ones in ascending order, each run of VSPAN on one die; of a die that it uses it leaves no
lower one out, and before it goes on to the next die fewer than VSPAN are left over. -/
def TableRule (s : State) (h : Header) (t : List Nat) : Prop :=
  let eligible := fun cl => cl < 48 ∧ coresFor s h cl ∧ (h.tileEntry ≠ 0xFFFFFFFF → s.dev.map.liveMcc.getLsbD cl = true)
  t.length = h.vcl ∧ (∀ cl ∈ t, eligible cl) ∧ t.Pairwise (· < ·) ∧
    (∀ j r cl cl', r < h.vspan → t[h.vspan * j]? = some cl → t[h.vspan * j + r]? = some cl' → cl' / 12 = cl / 12) ∧
    (∀ cl cl', cl' ∈ t → cl < cl' → cl / 12 = cl' / 12 → eligible cl → cl ∈ t) ∧
    ∀ cl ∈ t, ∀ rest : List Nat, rest.Nodup → (∀ x ∈ rest, eligible x ∧ x / 12 < cl / 12 ∧ x ∉ t ∧ x / 12 = rest.headD 0 / 12) → rest.length < h.vspan

/-- A kernel image as it is written at its base (R299, R302, R308): DEBUG, SPILLTRAP and STACK as the caller asks, and at the site of each relocation
record, all of which name symbols of the image itself, the symbol's address plus the addend. -/
structure Written (obj : CodeObject) (b img : List Byte) (base : Nat) : Prop where
  len : img.length = b.length
  own : ∀ r ∈ obj.relocs, r.inKernel = true ∧ r.object = 0 ∧ r.bytes.length = 24 ∧ entryNum r.bytes 12 4 = 1 ∧ entryNum r.bytes 0 8 + 8 ≤ b.length
  apart : obj.relocs.Pairwise fun r x => entryNum r.bytes 0 8 + 8 ≤ entryNum x.bytes 0 8 ∨ entryNum x.bytes 0 8 + 8 ≤ entryNum r.bytes 0 8
  sites : ∀ r ∈ obj.relocs, ∃ off, obj.symbols[entryNum r.bytes 8 4]? = some (.own true 0 off) ∧
    entryNum img (entryNum r.bytes 0 8) 8 = (base + off + entryNum r.bytes 16 8) % 2 ^ 64
  rest : ∀ i, i < b.length → (∀ r ∈ obj.relocs, i < entryNum r.bytes 0 8 ∨ entryNum r.bytes 0 8 + 8 ≤ i) → img[i]? = some (
    if i = 6 then BitVec.ofNat 8 (entryNum b 6 1 / 4 * 4 + (if obj.debug then 1 else 0) + if obj.spillTrap then 2 else 0)
    else if 0x14 ≤ i ∧ i < 0x18 ∧ obj.stack.isSome then BitVec.ofNat 8 ((obj.stack.getD 0) / 256 ^ (i - 0x14)) else b.getD i 0)

end Sys2Proof.Machine

/-- A load is refused for the first check of its first kernel that fails (R307), which gives what each check asks in its order; one whose kernels pass them
all gives them at the lowest places of the range (R296), with what the loader writes into an image (R299, R302, R308) and their placement tables (R309); and
an unloaded kernel goes when no launch uses it (R306). The cases of the checks are log entry 84, and header bytes that are reserved log entry 115. -/
def Obligations.KernelsComeAndGo : Prop :=
  (∀ (s : State) (ctx : Nat) (obj : CodeObject) (c : Ctx), s.ctx? ctx = some c → s.dev.state = .running →
    (∀ k b before check (p : Prop) after, obj.kernels[k]? = some b → (∀ j a, j < k → obj.kernels[j]? = some a → ∀ x ∈ loadRule s a obj.stack, x.2) →
      loadRule s b obj.stack = before ++ (check, p) :: after → (∀ x ∈ before, x.2) → ¬p →
      exec (.kernelLoad ctx obj) s = .next (s.reply (.loadRefused k check))) ∧
    ((∀ b ∈ obj.kernels, ∀ x ∈ loadRule s b obj.stack, x.2) → obj.datas = [] → obj.exports = [] → ∀ bases,
      placeAll obj.codeRange 4096 (s.loadedAreas c) (obj.kernels.map List.length) = some bases →
      (∀ a ∈ bases.zip (obj.kernels.map List.length), rangeMapped c true a.1 a.2 = true) → obj.kernels ≠ [] →
      (obj.relocs = [] → obj.debug = false → obj.spillTrap = false → obj.stack = none → (∀ b ∈ obj.kernels, entryNum b 6 2 % 4 = 0) → ∀ u,
        (bases.zip obj.kernels).foldl (fun (x : State × Bool) a => let y := x.1.loadBytes c a.1 a.2; (y.1, x.2 && y.2)) (s, true) = (u, true) →
        exec (.kernelLoad ctx obj) s = .next (({ u with kernels := u.kernels ++ (bases.zip obj.kernels).map fun (a : Nat × List Byte) =>
          ({ ctx := ctx, base := a.1, hdr := Header.ofImage a.2, side := sideTable a.2, table := s.buildTable (Header.ofImage a.2) } : Kernel) }).reply
            (.loaded bases))) ∧
      ∀ b img base, obj.kernels = [b] → bases = [base] → Written obj b img base → ∀ u, s.loadBytes c base img = (u, true) →
        exec (.kernelLoad ctx obj) s = .next (({ u with kernels := u.kernels ++
          [({ ctx := ctx, base := base, hdr := Header.ofImage img, side := sideTable img, table := s.buildTable (Header.ofImage img) } : Kernel)] }).reply
            (.loaded [base])))) ∧
  (∀ (range : Nat × Nat) (used : List (Nat × Nat)) (n base : Nat), placeAll range 4096 used [n] = some [base] → 0 < n →
    base % 4096 = 0 ∧ range.1 ≤ base ∧ base + n ≤ range.1 + range.2 ∧ (∀ a ∈ used, base + n ≤ a.1 ∨ a.1 + a.2 ≤ base) ∧
    ∀ x, x % 4096 = 0 → range.1 ≤ x → x < base → ∃ a ∈ used, x < a.1 + a.2 ∧ a.1 < x + n) ∧
  (∀ (s : State) (h : Header), (∀ t, s.buildTable h = some t → TableRule s h t) ∧ (s.buildTable h = none → h.vcl % h.vspan = 0 → ∀ t, ¬TableRule s h t)) ∧
  ∀ (s : State) (ctx base : Nat) (k : Kernel), s.kernel? ctx base = some k → exec (.kernelUnload ctx base) s = .next { s with
    kernels := if k.uses = 0 then s.kernels.filter fun x => !(x.ctx == ctx && x.base == base)
      else s.kernels.map fun x => if x.ctx = ctx ∧ x.base = base then { k with unloading := true } else x }

namespace Sys2Proof.Machine

/-! ### Errors, self-tests, bring-up and attestation (R456-R459, R462-R464, R466) -/

/-- What an error in the storage of a unit spoils is poisoned, and nothing else has changed (R457): a register of a strand on it, by the strand's and
the register's number; sectors of scratchpads of groups on it, by group and sector; and sectors of its L1, at their homes. -/
structure Spoils (s u : State) (agent : Nat) (reg : Option (Nat × Nat)) (scratch : List (Nat × Nat)) (secs : List Nat) : Prop where
  same : u = { s with strands := u.strands, groups := u.groups, l1 := u.l1, poison := u.poison }
  homes : ∀ ia ∈ secs, u.poison.contains (sectorOf ia) = true
  lines : ∀ ia ∈ secs, ∀ l, s.l1? agent (lineOf ia) = some l → ∃ l', u.l1? agent (lineOf ia) = some l' ∧ l'.poison.getLsbD (ia % 128 / 32) = true
  words : ∀ x ∈ scratch, ∀ g, s.group? x.1 = some g → g.core = agent → g.away = false → 32 * x.2 < g.scratchLen →
    ∃ g', u.group? x.1 = some g' ∧ g'.poison.contains x.2 = true
  reg : ∀ id n st, reg = some (id, n) → n < 64 → s.strand? id = some st → st.agentCore = agent →
    ∃ st', u.strand? id = some st' ∧ (st'.reg n).poison = true ∧ ∀ m, m ≠ n → st'.reg m = st.reg m

end Sys2Proof.Machine

/-- A shadow mismatch waits for the strand's next check point, and other errors are charged to their unit, with the data they spoil poisoned (R456-R458);
a unit's test ends once no work is left on it (R462); a replayed instruction differs or does not (R459). The address of the replayed instruction, the
region that was open at its issue, and code 0x85 where that has been closed or the strand has exited or is saved, are log entry 78; that a saved group
faults at once is log entry 131. -/
def Obligations.ErrorsAreContained : Prop :=
  (∀ (s : State) (st : Strand) (lane : Nat) (bits : Word), s.strand? st.id = some st →
    exec (.errorDetected (.shadow st.id lane bits)) s =
      .next (if s.dev.map.shadow then s.setStrand { st with shadowHit := st.shadowHit ++ [(lane, bits)] } else s)) ∧
  (∀ (s : State) (n : Nat) (reg : Option (Nat × Nat)) (scratch : List (Nat × Nat)) (secs : List Nat),
    (∃ u, exec (.errorDetected (.coreStorage n reg scratch secs)) s = .next (u.chargeUnit (.core n)) ∧ Spoils s u n reg scratch secs) ∧
    ∃ u, exec (.errorDetected (.mccStorage n reg secs)) s = .next (u.chargeUnit (.mcc n)) ∧ Spoils s u (384 + n) reg [] secs) ∧
  (∀ (s : State) (cl b d n q : Nat) (secs : List Nat),
    exec (.errorDetected (.band cl b)) s = .next (s.chargeUnit (.band cl b)) ∧
    exec (.errorDetected (.hubIsland n)) s = .next (s.chargeUnit (.island n)) ∧
    (∃ u : State, exec (.errorDetected (.l2 d n secs)) s = .next (u.chargeUnit (.slice d n)) ∧
      (∀ ia ∈ secs, u.poison.contains (sectorOf ia) = true) ∧ u = { s with poison := u.poison }) ∧
    ∃ u : State, exec (.errorDetected (.hbm d q secs)) s = .next (u.chargeUnit (.pchannel d q)) ∧
      (∀ ia ∈ secs, u.poison.contains (sectorOf ia) = true) ∧ u = { s with poison := u.poison }) ∧
  (∀ (s : State) (u : UnitId) (pass : Bool), (∃ t ∈ s.dev.tests, t.unit = u) →
    (∀ n, u = .core n → ∀ g ∈ s.groups, g.core = n → g.ended = true ∨ g.away = true) →
    (∀ n, u = .mcc n → ∀ x ∈ s.strands, x.tile = true → x.core = n → x.state = .exited) → (∀ cl b, u = .band cl b → ∀ p ∈ (s.cluster cl).pbands, p.n ≠ b) →
    let recent := s.dev.transients.filter fun t => s.now < t.2 + 86400000000000
    let v := { s with dev := { s.dev with tests := s.dev.tests.filter fun t => t.unit != u, transients := if pass then (u, s.now) :: recent else recent } }
    exec (.selfTestComplete u pass) s = .next (if pass = true ∧ (recent.filter fun t => t.1 == u).length < 2 then v else v.retire u)) ∧
  ∀ (s : State) (core quadrant n : Nat) (r : Replay), (vget (s.core core).replay quadrant [])[n]? = some r →
    let u := s.setCore { s.core core with replay := vset (s.core core).replay quadrant ((vget (s.core core).replay quadrant []).eraseIdx n) }
    let v := u.chargeUnit (.core core)
    let inRegion := fun (st : Strand) => ∃ x ∈ st.rets, x.ra.getLsbD 0 = true ∧ r.region = some x.opened
    exec (.replayCheck core quadrant n false) s = .next u ∧
    (∀ st, v.strand? r.strand = some st → st.state ≠ .exited → inRegion st →
      exec (.replayCheck core quadrant n true) s = .next (v.raise st { cause := 0x21, addr := r.addr, lanes := st.path, detail := 0x100 })) ∧
    (∀ st g tm, v.strand? r.strand = some st → (st.state = .exited ∨ ¬inRegion st) → v.group? r.group = some g → g.ended = false →
      let w := v.groupFault st 2 0x85 r.addr.toNat 0 r.addr.lo 0 0
      w.team? g.team = some tm → exec (.replayCheck core quadrant n true) s =
        .next (w.setTeam { tm with kept := tm.kept.map fun x => if x.group = g.id ∧ x.tile = false then { x with state := .exited } else x })) ∧
    (∀ st g t tm, v.strand? r.strand = none → v.group? r.group = some g → g.ended = false → v.team? g.team = some t →
      t.kept.find? (fun x => x.id == r.strand) = some st →
      let w := v.groupFault st 2 0x85 r.addr.toNat 0 r.addr.lo 0 0
      w.team? g.team = some tm → exec (.replayCheck core quadrant n true) s =
        .next (w.setTeam { tm with kept := tm.kept.map fun x => if x.group = g.id ∧ x.tile = false then { x with state := .exited } else x }))

/-- A device reset leaves the device as at reset (R463): that host memory, the agenda, the time and the identities go on is log entry 81, and what reset
holds where the spec gives no value is log entries 4 to 9. Bring-up passes its stages, publishes version 1 in reduced service, and then full service
(R463, R464, R485); the shadow switch and attestation, whose signature and measurements are free values (R464, R466, log entry 12). -/
def Obligations.DevicesComeUp : Prop :=
  (∀ s : State, ∃ t, exec .deviceReset s = .next t ∧ t = { State.reset with
      agenda := s.agenda, now := s.now, freshId := s.freshId, freeCtr := s.freeCtr, mem := t.mem } ∧
    (s.mem.wf = true → ∀ a, t.mem.get a = if homeOf a = 4 then s.mem.get a else 0)) ∧
  (∀ (s : State) (stage : Nat) (sig : Bool) (t : TestOutcome), s.dev.state = .bringup stage →
    exec (.bringupStageComplete false sig t) s = .next { s with dev := { s.dev with state := .failed stage sig } } ∧
    (stage = 1 ∨ stage = 4 → exec (.bringupStageComplete true false t) s = .next { s with dev := { s.dev with state := .bringup (stage + 1) } }) ∧
    (stage = 3 → (∀ l ∈ s.dev.links, 2 ≤ l.n → l.n < 10 → l.state ≠ .training) →
      exec (.bringupStageComplete true false t) s = .next { s with dev := { s.dev with state := .bringup 4 } }) ∧
    (stage = 2 → exec (.bringupStageComplete true false t) s = .next { s with dev := { s.dev with
      state := .bringup 3
      links := s.dev.links.map fun l => if 2 ≤ l.n ∧ l.n < 10 ∧ l.state = .down then { l with state := .training, since := s.now } else l } }) ∧
    (stage = 5 → s.dev.map = {} → s.ctxs = [] → s.launches = [] → s.teams = [] →
      (∀ k, k < 8 → (t.failed.foldl SMap.retire SMap.first).pairDead k = false) →
      ∃ u, exec (.bringupStageComplete true false t) s = .next u ∧ u.dev.state = .running ∧ u.dev.map.version = 1 ∧ u.dev.map.full = false ∧
        u.dev.map.aclk = 525 ∧ u.dev.map.fclk = 1600 ∧
        ∀ l ∈ s.dev.links, if l.state = .training ∧ l.retraining = true then l ∈ u.dev.links else { l with
          pubState := (match l.state with | .down => 0 | .training => 1 | .up => 2 | .degraded => 3 | .failed => 4)
          pubWidth := l.width, pubSpeed := l.speed } ∈ u.dev.links)) ∧
  (∀ (s : State) (t : TestOutcome), s.dev.state = .running → s.dev.tested = false → s.dev.map.version ≠ 0 → s.dev.map.full = false → t.failed = [] →
    s.ctxs = [] → s.launches = [] → s.teams = [] →
    ∃ u, exec (.bringupSelfTestComplete t) s = .next u ∧ u.dev.map.version = s.dev.map.version + 1 ∧ u.dev.map.full = true ∧ u.dev.map.aclk = 1050 ∧
      ∀ cl b, cl < 48 → (b = 2 ∨ b = 3) → u.dev.map.bandLive.getLsbD (4 * cl + b) = (s.dev.map.bandLive.getLsbD (4 * cl + b) ||
        s.dev.map.liveCl.getLsbD cl && (s.dev.map.islands.getD (13 * cl + 9 + b) {}).live)) ∧
  (∀ (s : State) (func : Nat) (on : Bool), s.hostServed = true →
    exec (.shadowSet func on) s = .next (if s.dev.map.full then s.publish { s.dev.map with shadow := on } s.dev.links else s.reply .refused)) ∧
  ∀ (s : State) (func : Nat) (nonce : List Byte), s.hostServed = true → nonce.length = 64 →
    let image := (List.range 0x3000).map s.dev.imageByte
    let body := bytesLE 4 1 ++ bytesLE 4 0 ++ nonce ++ bytesLE 8 s.dev.map.version.toNat ++ bytesBE 64 (sha512 image).toNat ++
      ((List.range 8).flatMap fun n => bytesLE 64 (Config.measurement n).toNat) ++ bytesLE 512 Config.keyModulus.toNat
    exec (.attestationReport func nonce) s = .next (({ s with freeCtr := s.freeCtr + 1 }).reply
      (.report (body ++ bytesLE 512 (Config.attestSign (Config.attestSalt s.freeCtr) body).toNat) Config.certChain))

namespace Sys2Proof.Machine

/-! ### The encoding, the step and the invariant -/

end Sys2Proof.Machine

/-- Every well-formed instruction is the one its words decode to, with anything behind them (R33-R56); an event has no words. -/
def Obligations.EncodingsDecode : Prop :=
  ∀ (i : Instr) (rest : List Word), i.wf = true → encode i ≠ [] → decode (encode i ++ rest) = some i

/-- Words written out from the spec's encodings of them: its own worked words (R21, R51), and one of several families, field by field as R36 to R38
lay them out: WB, WA, K, B, A, D, OP and LEN; XMOD, IMMB, FUNC, ORD, SCOPE, SAT, RND, TYPE, WC and C. The word of a reserved major, 0x05, is none (R53,
R56). -/
def Obligations.WordsDecode : Prop :=
  decode [0x00000000] = some (.nop {}) ∧
  decode [0xFFFFFF40] = some (.jmp { off := BitVec.ofInt 23 (-1) }) ∧
  decode [0x00000744] = some (.call { off := 3 }) ∧
  decode [0x90C288E2, 0x00000980, 0] = some (.faddX96 { w0 := { k := 2, wb := true, a := 5, b := 6, d := 4 }, ty := .f32, rnd := .rz }) ∧
  decode [0b0#1 ++ 0b1#1 ++ 0b011#3 ++ 0b000111#6 ++ 0b000110#6 ++ 0b000101#6 ++ 0b0000001#7 ++ 0b00#2] =
    some (.iadd { k := 3, wa := true, a := 6, b := 7, d := 5 }) ∧
  decode [0b0#1 ++ 0b1#1 ++ 0b000#3 ++ 0b001001#6 ++ 0b000010#6 ++ 0b001000#6 ++ 0b1100000#7 ++ 0b00#2] =
    some (.ld { wa := true, a := 2, b := 9, d := 8 }) ∧
  decode [0b0#1 ++ 0b0#1 ++ 0b000#3 ++ 0b000000#6 ++ 0b000000#6 ++ 0b000000#6 ++ 0b1010110#7 ++ 0b00#2] = some (.ret {}) ∧
  decode [0b0#1 ++ 0b0#1 ++ 0b101#3 ++ 0b000000#6 ++ 0b000000#6 ++ 0b000000#6 ++ 0b1111101#7 ++ 0b00#2] = some (.yield { k := 5 }) ∧
  decode [0b10#2 ++ 0x3FFFFFFF#30] = some (.udf 0xBFFFFFFF) ∧
  decode [0x00000014] = none

namespace Sys2Proof.Machine

/-- The strand may issue, and what it fetches is plain memory of homes 0 to 3 through a window that grants X (R50, R154, R196). -/
structure Fetching (s : State) (st : Strand) (e : Env) (g : Group) (c : Ctx) (ia : Nat) (w : Window) : Prop where
  strand : s.strand? st.id = some st
  env : s.env? st = some e
  group : s.group? st.group = some g
  ctx : s.ctx? e.ctx = some c
  live : st.live ≠ 0
  ready : st.state = .ready
  running : s.runsOut st = false
  noMap : s.mapTrapDue st e g = false
  place : ∃ n, c.translate st.pc.toNat = some (n, w, ia)
  exec : w.x = true
  page : s.pageReady (pageOf ia) = true
  still : windowsStill s c = true
  noDetector : e.debug = false
  home : ∀ k, k < 20 → homeOf (ia + k) < 4 ∧ s.inMapPage (ia + k) = false

/-- The words at an IA, as memory holds them. -/
def wordsAt (s : State) (ia : Nat) : List Word := wordsOfBytes (s.mem.getList ia 20)

end Sys2Proof.Machine

/-- A step of a strand runs the instruction that the bytes at its pc decode to, or the non-instruction that they are, where they lie in one 64-byte
block, and traps FETCH-STRADDLE where they do not (R34, R50, R56, R154, R181). The instruction cache of its core takes the line (R211). What settles after
it are held transfers, waiting writes of the hub, teams whose last access is performed, world switches and destructions. -/
def Obligations.StepsRunTheDecodedInstruction : Prop :=
  ∀ (s : State) (rest : List Move) (st : Strand) (e : Env) (g : Group) (c : Ctx) (ia : Nat) (w : Window),
    s.agenda = .issue st.id :: rest → Fetching s st e g c ia w →
    let u : State := { (s.setStrand { st with lastIssue := s.freshId }) with agenda := rest, cur := st.id, freshId := s.freshId + 1 }
    let v := u.icFill st.agentCore (lineOf ia)
    (st.pc.toNat % 64 + formBytes ((wordsAt s ia).headD 0) ≤ 64 →
      step s = settleOut (exec ((decode (wordsAt s ia)).getD (.nonInstruction ((wordsAt s ia).headD 0))) v) ∧
      ({ core := st.agentCore, line := lineOf ia } ∈ v.icache ∧ v = { u with icache := v.icache })) ∧
    (64 < st.pc.toNat % 64 + formBytes ((wordsAt s ia).headD 0) →
      step s = .next ((u.raise { st with lastIssue := s.freshId } { cause := 0x04, addr := st.pc, lanes := st.path, detail := 0 }).settledAll))

/-- A step of the agenda that is an event has its effect; a command of the host is held while the host links retrain, or behind one of its function that
is held, and one of a function that is not enabled is not there (R484, R487, log entry 130). Time passes by the step that says so: the cycle counter of
every live cluster counts what its island delivers (R477), and memory is as before where no counter counts an event that is a matter of timing, which could
overflow (R473, log entry 16). An L1 line given up as a victim is gone, memory is as before when the line was clean, and every other line of the L1s is as
before (R244). -/
def Obligations.StepsOfTheAgenda : Prop :=
  (∀ (s : State) (rest : List Move) (i : Instr), s.agenda = .event i :: rest → encode i = [] →
    let u := { s with agenda := rest }
    (hostCommand? i = none → step s = settleOut (exec i u)) ∧
    ∀ func, hostCommand? i = some func →
      let waits := s.linkHolds 2 = true ∨ ∃ t ∈ s.dev.held, t.link = 2 ∧ t.func = func
      (s.dev.vfs < func → step s = .next u) ∧
      (func ≤ s.dev.vfs → waits →
        step s = .next { u with dev := { s.dev with held := s.dev.held ++ [{ link := 2, func := func, op := .command i }] } }) ∧
      (func ≤ s.dev.vfs → ¬waits → step s = settleOut (exec i u))) ∧
  (∀ (s : State) (rest : List Move) (n : Nat), s.agenda = .elapse n :: rest →
    (∀ c ∈ s.ctxs, ∀ ev ∈ [2, 3, 6, 7, 8, 9], c.counts ev = false) →
    ∃ t : State, step s = .next t.settledAll ∧ t.now = s.now + n ∧ t.mem = s.mem ∧ t.agenda = rest ∧ ∀ cl, cl < 48 →
      1000 * (t.cluster cl).cycles + (t.cluster cl).cycleFrac =
        1000 * (s.cluster cl).cycles + (s.cluster cl).cycleFrac + (if s.dev.map.liveCl.getLsbD cl then n * s.pointOf (13 * cl + 8) else 0)) ∧
  ∀ (s : State) (rest : List Move) (core line : Nat) (l : L1Line), s.agenda = .evict core line :: rest → s.l1? core line = some l → l.dirty = 0 →
    ∃ t : State, step s = .next t.settledAll ∧ t.agenda = rest ∧ t.l1? core line = none ∧ t.mem = s.mem ∧
      ∀ core' line', (core', line') ≠ (core, line) → t.l1? core' line' = s.l1? core' line'

/-- From every state whose memory is in canonical form (addresses rising, no byte listed that reads as an unlisted one), every next state of step has
its memory in canonical form. The form is the model's representation of memory (log entry 7). -/
def Obligations.MemoryStaysCanonical : Prop :=
  ∀ s t, Safety.Sound s → step s = .next t → Safety.Sound t

/-- What reset leaves: every link down and nothing running (R463, R482). That bring-up is in stage 1 with no version published is log entry 9, and that
memory lists nothing is log entry 7. -/
def Obligations.ResetLeaves : Prop :=
  Safety.Sound State.reset ∧ State.reset.dev.state = .bringup 1 ∧ State.reset.dev.map.version = 0 ∧
    (∀ l ∈ State.reset.dev.links, l.state = .down) ∧ State.reset.ctxs = [] ∧ State.reset.strands = [] ∧ State.reset.mem = []
end

