-- ==== Sys2Proof/Laws/State.lean ====
section
/-!
SUPPORT. Laws of State and Strand: what each update leaves in each field, and what a lookup finds after an update.
-/

namespace Sys2Proof.Machine

/-! ### State.setStrand -/

@[simp] theorem setStrand_cur (s : State) (x : Strand) : (s.setStrand x).cur = s.cur := rfl
@[simp] theorem setStrand_agenda (s : State) (x : Strand) : (s.setStrand x).agenda = s.agenda := rfl
@[simp] theorem setStrand_now (s : State) (x : Strand) : (s.setStrand x).now = s.now := rfl
@[simp] theorem setStrand_freshId (s : State) (x : Strand) : (s.setStrand x).freshId = s.freshId := rfl
@[simp] theorem setStrand_freeCtr (s : State) (x : Strand) : (s.setStrand x).freeCtr = s.freeCtr := rfl
@[simp] theorem setStrand_dev (s : State) (x : Strand) : (s.setStrand x).dev = s.dev := rfl
@[simp] theorem setStrand_mem (s : State) (x : Strand) : (s.setStrand x).mem = s.mem := rfl
@[simp] theorem setStrand_h4 (s : State) (x : Strand) : (s.setStrand x).h4 = s.h4 := rfl
@[simp] theorem setStrand_zeroLines (s : State) (x : Strand) : (s.setStrand x).zeroLines = s.zeroLines := rfl
@[simp] theorem setStrand_poison (s : State) (x : Strand) : (s.setStrand x).poison = s.poison := rfl
@[simp] theorem setStrand_pages (s : State) (x : Strand) : (s.setStrand x).pages = s.pages := rfl
@[simp] theorem setStrand_frames (s : State) (x : Strand) : (s.setStrand x).frames = s.frames := rfl
@[simp] theorem setStrand_changes (s : State) (x : Strand) : (s.setStrand x).changes = s.changes := rfl
@[simp] theorem setStrand_l1 (s : State) (x : Strand) : (s.setStrand x).l1 = s.l1 := rfl
@[simp] theorem setStrand_icache (s : State) (x : Strand) : (s.setStrand x).icache = s.icache := rfl
@[simp] theorem setStrand_flight (s : State) (x : Strand) : (s.setStrand x).flight = s.flight := rfl
@[simp] theorem setStrand_prods (s : State) (x : Strand) : (s.setStrand x).prods = s.prods := rfl
@[simp] theorem setStrand_copies (s : State) (x : Strand) : (s.setStrand x).copies = s.copies := rfl
@[simp] theorem setStrand_groups (s : State) (x : Strand) : (s.setStrand x).groups = s.groups := rfl
@[simp] theorem setStrand_teams (s : State) (x : Strand) : (s.setStrand x).teams = s.teams := rfl
@[simp] theorem setStrand_launches (s : State) (x : Strand) : (s.setStrand x).launches = s.launches := rfl
@[simp] theorem setStrand_kernels (s : State) (x : Strand) : (s.setStrand x).kernels = s.kernels := rfl
@[simp] theorem setStrand_ctxs (s : State) (x : Strand) : (s.setStrand x).ctxs = s.ctxs := rfl
@[simp] theorem setStrand_cores (s : State) (x : Strand) : (s.setStrand x).cores = s.cores := rfl
@[simp] theorem setStrand_clusters (s : State) (x : Strand) : (s.setStrand x).clusters = s.clusters := rfl

/-! ### State.setGroup -/

@[simp] theorem setGroup_cur (s : State) (x : Group) : (s.setGroup x).cur = s.cur := rfl
@[simp] theorem setGroup_agenda (s : State) (x : Group) : (s.setGroup x).agenda = s.agenda := rfl
@[simp] theorem setGroup_now (s : State) (x : Group) : (s.setGroup x).now = s.now := rfl
@[simp] theorem setGroup_freshId (s : State) (x : Group) : (s.setGroup x).freshId = s.freshId := rfl
@[simp] theorem setGroup_freeCtr (s : State) (x : Group) : (s.setGroup x).freeCtr = s.freeCtr := rfl
@[simp] theorem setGroup_dev (s : State) (x : Group) : (s.setGroup x).dev = s.dev := rfl
@[simp] theorem setGroup_mem (s : State) (x : Group) : (s.setGroup x).mem = s.mem := rfl
@[simp] theorem setGroup_h4 (s : State) (x : Group) : (s.setGroup x).h4 = s.h4 := rfl
@[simp] theorem setGroup_zeroLines (s : State) (x : Group) : (s.setGroup x).zeroLines = s.zeroLines := rfl
@[simp] theorem setGroup_poison (s : State) (x : Group) : (s.setGroup x).poison = s.poison := rfl
@[simp] theorem setGroup_pages (s : State) (x : Group) : (s.setGroup x).pages = s.pages := rfl
@[simp] theorem setGroup_frames (s : State) (x : Group) : (s.setGroup x).frames = s.frames := rfl
@[simp] theorem setGroup_changes (s : State) (x : Group) : (s.setGroup x).changes = s.changes := rfl
@[simp] theorem setGroup_l1 (s : State) (x : Group) : (s.setGroup x).l1 = s.l1 := rfl
@[simp] theorem setGroup_icache (s : State) (x : Group) : (s.setGroup x).icache = s.icache := rfl
@[simp] theorem setGroup_flight (s : State) (x : Group) : (s.setGroup x).flight = s.flight := rfl
@[simp] theorem setGroup_prods (s : State) (x : Group) : (s.setGroup x).prods = s.prods := rfl
@[simp] theorem setGroup_copies (s : State) (x : Group) : (s.setGroup x).copies = s.copies := rfl
@[simp] theorem setGroup_strands (s : State) (x : Group) : (s.setGroup x).strands = s.strands := rfl
@[simp] theorem setGroup_teams (s : State) (x : Group) : (s.setGroup x).teams = s.teams := rfl
@[simp] theorem setGroup_launches (s : State) (x : Group) : (s.setGroup x).launches = s.launches := rfl
@[simp] theorem setGroup_kernels (s : State) (x : Group) : (s.setGroup x).kernels = s.kernels := rfl
@[simp] theorem setGroup_ctxs (s : State) (x : Group) : (s.setGroup x).ctxs = s.ctxs := rfl
@[simp] theorem setGroup_cores (s : State) (x : Group) : (s.setGroup x).cores = s.cores := rfl
@[simp] theorem setGroup_clusters (s : State) (x : Group) : (s.setGroup x).clusters = s.clusters := rfl

/-! ### State.setTeam -/

@[simp] theorem setTeam_cur (s : State) (x : Team) : (s.setTeam x).cur = s.cur := rfl
@[simp] theorem setTeam_agenda (s : State) (x : Team) : (s.setTeam x).agenda = s.agenda := rfl
@[simp] theorem setTeam_now (s : State) (x : Team) : (s.setTeam x).now = s.now := rfl
@[simp] theorem setTeam_freshId (s : State) (x : Team) : (s.setTeam x).freshId = s.freshId := rfl
@[simp] theorem setTeam_freeCtr (s : State) (x : Team) : (s.setTeam x).freeCtr = s.freeCtr := rfl
@[simp] theorem setTeam_dev (s : State) (x : Team) : (s.setTeam x).dev = s.dev := rfl
@[simp] theorem setTeam_mem (s : State) (x : Team) : (s.setTeam x).mem = s.mem := rfl
@[simp] theorem setTeam_h4 (s : State) (x : Team) : (s.setTeam x).h4 = s.h4 := rfl
@[simp] theorem setTeam_zeroLines (s : State) (x : Team) : (s.setTeam x).zeroLines = s.zeroLines := rfl
@[simp] theorem setTeam_poison (s : State) (x : Team) : (s.setTeam x).poison = s.poison := rfl
@[simp] theorem setTeam_pages (s : State) (x : Team) : (s.setTeam x).pages = s.pages := rfl
@[simp] theorem setTeam_frames (s : State) (x : Team) : (s.setTeam x).frames = s.frames := rfl
@[simp] theorem setTeam_changes (s : State) (x : Team) : (s.setTeam x).changes = s.changes := rfl
@[simp] theorem setTeam_l1 (s : State) (x : Team) : (s.setTeam x).l1 = s.l1 := rfl
@[simp] theorem setTeam_icache (s : State) (x : Team) : (s.setTeam x).icache = s.icache := rfl
@[simp] theorem setTeam_flight (s : State) (x : Team) : (s.setTeam x).flight = s.flight := rfl
@[simp] theorem setTeam_prods (s : State) (x : Team) : (s.setTeam x).prods = s.prods := rfl
@[simp] theorem setTeam_copies (s : State) (x : Team) : (s.setTeam x).copies = s.copies := rfl
@[simp] theorem setTeam_strands (s : State) (x : Team) : (s.setTeam x).strands = s.strands := rfl
@[simp] theorem setTeam_groups (s : State) (x : Team) : (s.setTeam x).groups = s.groups := rfl
@[simp] theorem setTeam_launches (s : State) (x : Team) : (s.setTeam x).launches = s.launches := rfl
@[simp] theorem setTeam_kernels (s : State) (x : Team) : (s.setTeam x).kernels = s.kernels := rfl
@[simp] theorem setTeam_ctxs (s : State) (x : Team) : (s.setTeam x).ctxs = s.ctxs := rfl
@[simp] theorem setTeam_cores (s : State) (x : Team) : (s.setTeam x).cores = s.cores := rfl
@[simp] theorem setTeam_clusters (s : State) (x : Team) : (s.setTeam x).clusters = s.clusters := rfl

/-! ### State.setLaunch -/

@[simp] theorem setLaunch_cur (s : State) (x : Launch) : (s.setLaunch x).cur = s.cur := rfl
@[simp] theorem setLaunch_agenda (s : State) (x : Launch) : (s.setLaunch x).agenda = s.agenda := rfl
@[simp] theorem setLaunch_now (s : State) (x : Launch) : (s.setLaunch x).now = s.now := rfl
@[simp] theorem setLaunch_freshId (s : State) (x : Launch) : (s.setLaunch x).freshId = s.freshId := rfl
@[simp] theorem setLaunch_freeCtr (s : State) (x : Launch) : (s.setLaunch x).freeCtr = s.freeCtr := rfl
@[simp] theorem setLaunch_dev (s : State) (x : Launch) : (s.setLaunch x).dev = s.dev := rfl
@[simp] theorem setLaunch_mem (s : State) (x : Launch) : (s.setLaunch x).mem = s.mem := rfl
@[simp] theorem setLaunch_h4 (s : State) (x : Launch) : (s.setLaunch x).h4 = s.h4 := rfl
@[simp] theorem setLaunch_zeroLines (s : State) (x : Launch) : (s.setLaunch x).zeroLines = s.zeroLines := rfl
@[simp] theorem setLaunch_poison (s : State) (x : Launch) : (s.setLaunch x).poison = s.poison := rfl
@[simp] theorem setLaunch_pages (s : State) (x : Launch) : (s.setLaunch x).pages = s.pages := rfl
@[simp] theorem setLaunch_frames (s : State) (x : Launch) : (s.setLaunch x).frames = s.frames := rfl
@[simp] theorem setLaunch_changes (s : State) (x : Launch) : (s.setLaunch x).changes = s.changes := rfl
@[simp] theorem setLaunch_l1 (s : State) (x : Launch) : (s.setLaunch x).l1 = s.l1 := rfl
@[simp] theorem setLaunch_icache (s : State) (x : Launch) : (s.setLaunch x).icache = s.icache := rfl
@[simp] theorem setLaunch_flight (s : State) (x : Launch) : (s.setLaunch x).flight = s.flight := rfl
@[simp] theorem setLaunch_prods (s : State) (x : Launch) : (s.setLaunch x).prods = s.prods := rfl
@[simp] theorem setLaunch_copies (s : State) (x : Launch) : (s.setLaunch x).copies = s.copies := rfl
@[simp] theorem setLaunch_strands (s : State) (x : Launch) : (s.setLaunch x).strands = s.strands := rfl
@[simp] theorem setLaunch_groups (s : State) (x : Launch) : (s.setLaunch x).groups = s.groups := rfl
@[simp] theorem setLaunch_teams (s : State) (x : Launch) : (s.setLaunch x).teams = s.teams := rfl
@[simp] theorem setLaunch_kernels (s : State) (x : Launch) : (s.setLaunch x).kernels = s.kernels := rfl
@[simp] theorem setLaunch_ctxs (s : State) (x : Launch) : (s.setLaunch x).ctxs = s.ctxs := rfl
@[simp] theorem setLaunch_cores (s : State) (x : Launch) : (s.setLaunch x).cores = s.cores := rfl
@[simp] theorem setLaunch_clusters (s : State) (x : Launch) : (s.setLaunch x).clusters = s.clusters := rfl

/-! ### State.setKernel -/

@[simp] theorem setKernel_cur (s : State) (x : Kernel) : (s.setKernel x).cur = s.cur := rfl
@[simp] theorem setKernel_agenda (s : State) (x : Kernel) : (s.setKernel x).agenda = s.agenda := rfl
@[simp] theorem setKernel_now (s : State) (x : Kernel) : (s.setKernel x).now = s.now := rfl
@[simp] theorem setKernel_freshId (s : State) (x : Kernel) : (s.setKernel x).freshId = s.freshId := rfl
@[simp] theorem setKernel_freeCtr (s : State) (x : Kernel) : (s.setKernel x).freeCtr = s.freeCtr := rfl
@[simp] theorem setKernel_dev (s : State) (x : Kernel) : (s.setKernel x).dev = s.dev := rfl
@[simp] theorem setKernel_mem (s : State) (x : Kernel) : (s.setKernel x).mem = s.mem := rfl
@[simp] theorem setKernel_h4 (s : State) (x : Kernel) : (s.setKernel x).h4 = s.h4 := rfl
@[simp] theorem setKernel_zeroLines (s : State) (x : Kernel) : (s.setKernel x).zeroLines = s.zeroLines := rfl
@[simp] theorem setKernel_poison (s : State) (x : Kernel) : (s.setKernel x).poison = s.poison := rfl
@[simp] theorem setKernel_pages (s : State) (x : Kernel) : (s.setKernel x).pages = s.pages := rfl
@[simp] theorem setKernel_frames (s : State) (x : Kernel) : (s.setKernel x).frames = s.frames := rfl
@[simp] theorem setKernel_changes (s : State) (x : Kernel) : (s.setKernel x).changes = s.changes := rfl
@[simp] theorem setKernel_l1 (s : State) (x : Kernel) : (s.setKernel x).l1 = s.l1 := rfl
@[simp] theorem setKernel_icache (s : State) (x : Kernel) : (s.setKernel x).icache = s.icache := rfl
@[simp] theorem setKernel_flight (s : State) (x : Kernel) : (s.setKernel x).flight = s.flight := rfl
@[simp] theorem setKernel_prods (s : State) (x : Kernel) : (s.setKernel x).prods = s.prods := rfl
@[simp] theorem setKernel_copies (s : State) (x : Kernel) : (s.setKernel x).copies = s.copies := rfl
@[simp] theorem setKernel_strands (s : State) (x : Kernel) : (s.setKernel x).strands = s.strands := rfl
@[simp] theorem setKernel_groups (s : State) (x : Kernel) : (s.setKernel x).groups = s.groups := rfl
@[simp] theorem setKernel_teams (s : State) (x : Kernel) : (s.setKernel x).teams = s.teams := rfl
@[simp] theorem setKernel_launches (s : State) (x : Kernel) : (s.setKernel x).launches = s.launches := rfl
@[simp] theorem setKernel_ctxs (s : State) (x : Kernel) : (s.setKernel x).ctxs = s.ctxs := rfl
@[simp] theorem setKernel_cores (s : State) (x : Kernel) : (s.setKernel x).cores = s.cores := rfl
@[simp] theorem setKernel_clusters (s : State) (x : Kernel) : (s.setKernel x).clusters = s.clusters := rfl

/-! ### State.setCtx -/

@[simp] theorem setCtx_cur (s : State) (x : Ctx) : (s.setCtx x).cur = s.cur := rfl
@[simp] theorem setCtx_agenda (s : State) (x : Ctx) : (s.setCtx x).agenda = s.agenda := rfl
@[simp] theorem setCtx_now (s : State) (x : Ctx) : (s.setCtx x).now = s.now := rfl
@[simp] theorem setCtx_freshId (s : State) (x : Ctx) : (s.setCtx x).freshId = s.freshId := rfl
@[simp] theorem setCtx_freeCtr (s : State) (x : Ctx) : (s.setCtx x).freeCtr = s.freeCtr := rfl
@[simp] theorem setCtx_dev (s : State) (x : Ctx) : (s.setCtx x).dev = s.dev := rfl
@[simp] theorem setCtx_mem (s : State) (x : Ctx) : (s.setCtx x).mem = s.mem := rfl
@[simp] theorem setCtx_h4 (s : State) (x : Ctx) : (s.setCtx x).h4 = s.h4 := rfl
@[simp] theorem setCtx_zeroLines (s : State) (x : Ctx) : (s.setCtx x).zeroLines = s.zeroLines := rfl
@[simp] theorem setCtx_poison (s : State) (x : Ctx) : (s.setCtx x).poison = s.poison := rfl
@[simp] theorem setCtx_pages (s : State) (x : Ctx) : (s.setCtx x).pages = s.pages := rfl
@[simp] theorem setCtx_frames (s : State) (x : Ctx) : (s.setCtx x).frames = s.frames := rfl
@[simp] theorem setCtx_changes (s : State) (x : Ctx) : (s.setCtx x).changes = s.changes := rfl
@[simp] theorem setCtx_l1 (s : State) (x : Ctx) : (s.setCtx x).l1 = s.l1 := rfl
@[simp] theorem setCtx_icache (s : State) (x : Ctx) : (s.setCtx x).icache = s.icache := rfl
@[simp] theorem setCtx_flight (s : State) (x : Ctx) : (s.setCtx x).flight = s.flight := rfl
@[simp] theorem setCtx_prods (s : State) (x : Ctx) : (s.setCtx x).prods = s.prods := rfl
@[simp] theorem setCtx_copies (s : State) (x : Ctx) : (s.setCtx x).copies = s.copies := rfl
@[simp] theorem setCtx_strands (s : State) (x : Ctx) : (s.setCtx x).strands = s.strands := rfl
@[simp] theorem setCtx_groups (s : State) (x : Ctx) : (s.setCtx x).groups = s.groups := rfl
@[simp] theorem setCtx_teams (s : State) (x : Ctx) : (s.setCtx x).teams = s.teams := rfl
@[simp] theorem setCtx_launches (s : State) (x : Ctx) : (s.setCtx x).launches = s.launches := rfl
@[simp] theorem setCtx_kernels (s : State) (x : Ctx) : (s.setCtx x).kernels = s.kernels := rfl
@[simp] theorem setCtx_cores (s : State) (x : Ctx) : (s.setCtx x).cores = s.cores := rfl
@[simp] theorem setCtx_clusters (s : State) (x : Ctx) : (s.setCtx x).clusters = s.clusters := rfl

/-! ### State.setCore -/

@[simp] theorem setCore_cur (s : State) (x : Core) : (s.setCore x).cur = s.cur := by unfold State.setCore; split <;> rfl
@[simp] theorem setCore_agenda (s : State) (x : Core) : (s.setCore x).agenda = s.agenda := by unfold State.setCore; split <;> rfl
@[simp] theorem setCore_now (s : State) (x : Core) : (s.setCore x).now = s.now := by unfold State.setCore; split <;> rfl
@[simp] theorem setCore_freshId (s : State) (x : Core) : (s.setCore x).freshId = s.freshId := by unfold State.setCore; split <;> rfl
@[simp] theorem setCore_freeCtr (s : State) (x : Core) : (s.setCore x).freeCtr = s.freeCtr := by unfold State.setCore; split <;> rfl
@[simp] theorem setCore_dev (s : State) (x : Core) : (s.setCore x).dev = s.dev := by unfold State.setCore; split <;> rfl
@[simp] theorem setCore_mem (s : State) (x : Core) : (s.setCore x).mem = s.mem := by unfold State.setCore; split <;> rfl
@[simp] theorem setCore_h4 (s : State) (x : Core) : (s.setCore x).h4 = s.h4 := by unfold State.setCore; split <;> rfl
@[simp] theorem setCore_zeroLines (s : State) (x : Core) : (s.setCore x).zeroLines = s.zeroLines := by unfold State.setCore; split <;> rfl
@[simp] theorem setCore_poison (s : State) (x : Core) : (s.setCore x).poison = s.poison := by unfold State.setCore; split <;> rfl
@[simp] theorem setCore_pages (s : State) (x : Core) : (s.setCore x).pages = s.pages := by unfold State.setCore; split <;> rfl
@[simp] theorem setCore_frames (s : State) (x : Core) : (s.setCore x).frames = s.frames := by unfold State.setCore; split <;> rfl
@[simp] theorem setCore_changes (s : State) (x : Core) : (s.setCore x).changes = s.changes := by unfold State.setCore; split <;> rfl
@[simp] theorem setCore_l1 (s : State) (x : Core) : (s.setCore x).l1 = s.l1 := by unfold State.setCore; split <;> rfl
@[simp] theorem setCore_icache (s : State) (x : Core) : (s.setCore x).icache = s.icache := by unfold State.setCore; split <;> rfl
@[simp] theorem setCore_flight (s : State) (x : Core) : (s.setCore x).flight = s.flight := by unfold State.setCore; split <;> rfl
@[simp] theorem setCore_prods (s : State) (x : Core) : (s.setCore x).prods = s.prods := by unfold State.setCore; split <;> rfl
@[simp] theorem setCore_copies (s : State) (x : Core) : (s.setCore x).copies = s.copies := by unfold State.setCore; split <;> rfl
@[simp] theorem setCore_strands (s : State) (x : Core) : (s.setCore x).strands = s.strands := by unfold State.setCore; split <;> rfl
@[simp] theorem setCore_groups (s : State) (x : Core) : (s.setCore x).groups = s.groups := by unfold State.setCore; split <;> rfl
@[simp] theorem setCore_teams (s : State) (x : Core) : (s.setCore x).teams = s.teams := by unfold State.setCore; split <;> rfl
@[simp] theorem setCore_launches (s : State) (x : Core) : (s.setCore x).launches = s.launches := by unfold State.setCore; split <;> rfl
@[simp] theorem setCore_kernels (s : State) (x : Core) : (s.setCore x).kernels = s.kernels := by unfold State.setCore; split <;> rfl
@[simp] theorem setCore_ctxs (s : State) (x : Core) : (s.setCore x).ctxs = s.ctxs := by unfold State.setCore; split <;> rfl
@[simp] theorem setCore_clusters (s : State) (x : Core) : (s.setCore x).clusters = s.clusters := by unfold State.setCore; split <;> rfl

/-! ### State.setCluster -/

@[simp] theorem setCluster_cur (s : State) (x : Cluster) : (s.setCluster x).cur = s.cur := by unfold State.setCluster; split <;> rfl
@[simp] theorem setCluster_agenda (s : State) (x : Cluster) : (s.setCluster x).agenda = s.agenda := by unfold State.setCluster; split <;> rfl
@[simp] theorem setCluster_now (s : State) (x : Cluster) : (s.setCluster x).now = s.now := by unfold State.setCluster; split <;> rfl
@[simp] theorem setCluster_freshId (s : State) (x : Cluster) : (s.setCluster x).freshId = s.freshId := by unfold State.setCluster; split <;> rfl
@[simp] theorem setCluster_freeCtr (s : State) (x : Cluster) : (s.setCluster x).freeCtr = s.freeCtr := by unfold State.setCluster; split <;> rfl
@[simp] theorem setCluster_dev (s : State) (x : Cluster) : (s.setCluster x).dev = s.dev := by unfold State.setCluster; split <;> rfl
@[simp] theorem setCluster_mem (s : State) (x : Cluster) : (s.setCluster x).mem = s.mem := by unfold State.setCluster; split <;> rfl
@[simp] theorem setCluster_h4 (s : State) (x : Cluster) : (s.setCluster x).h4 = s.h4 := by unfold State.setCluster; split <;> rfl
@[simp] theorem setCluster_zeroLines (s : State) (x : Cluster) : (s.setCluster x).zeroLines = s.zeroLines := by unfold State.setCluster; split <;> rfl
@[simp] theorem setCluster_poison (s : State) (x : Cluster) : (s.setCluster x).poison = s.poison := by unfold State.setCluster; split <;> rfl
@[simp] theorem setCluster_pages (s : State) (x : Cluster) : (s.setCluster x).pages = s.pages := by unfold State.setCluster; split <;> rfl
@[simp] theorem setCluster_frames (s : State) (x : Cluster) : (s.setCluster x).frames = s.frames := by unfold State.setCluster; split <;> rfl
@[simp] theorem setCluster_changes (s : State) (x : Cluster) : (s.setCluster x).changes = s.changes := by unfold State.setCluster; split <;> rfl
@[simp] theorem setCluster_l1 (s : State) (x : Cluster) : (s.setCluster x).l1 = s.l1 := by unfold State.setCluster; split <;> rfl
@[simp] theorem setCluster_icache (s : State) (x : Cluster) : (s.setCluster x).icache = s.icache := by unfold State.setCluster; split <;> rfl
@[simp] theorem setCluster_flight (s : State) (x : Cluster) : (s.setCluster x).flight = s.flight := by unfold State.setCluster; split <;> rfl
@[simp] theorem setCluster_prods (s : State) (x : Cluster) : (s.setCluster x).prods = s.prods := by unfold State.setCluster; split <;> rfl
@[simp] theorem setCluster_copies (s : State) (x : Cluster) : (s.setCluster x).copies = s.copies := by unfold State.setCluster; split <;> rfl
@[simp] theorem setCluster_strands (s : State) (x : Cluster) : (s.setCluster x).strands = s.strands := by unfold State.setCluster; split <;> rfl
@[simp] theorem setCluster_groups (s : State) (x : Cluster) : (s.setCluster x).groups = s.groups := by unfold State.setCluster; split <;> rfl
@[simp] theorem setCluster_teams (s : State) (x : Cluster) : (s.setCluster x).teams = s.teams := by unfold State.setCluster; split <;> rfl
@[simp] theorem setCluster_launches (s : State) (x : Cluster) : (s.setCluster x).launches = s.launches := by unfold State.setCluster; split <;> rfl
@[simp] theorem setCluster_kernels (s : State) (x : Cluster) : (s.setCluster x).kernels = s.kernels := by unfold State.setCluster; split <;> rfl
@[simp] theorem setCluster_ctxs (s : State) (x : Cluster) : (s.setCluster x).ctxs = s.ctxs := by unfold State.setCluster; split <;> rfl
@[simp] theorem setCluster_cores (s : State) (x : Cluster) : (s.setCluster x).cores = s.cores := by unfold State.setCluster; split <;> rfl

/-! ### State.setPte -/

@[simp] theorem setPte_cur (s : State) (x : Pte) : (s.setPte x).cur = s.cur := rfl
@[simp] theorem setPte_agenda (s : State) (x : Pte) : (s.setPte x).agenda = s.agenda := rfl
@[simp] theorem setPte_now (s : State) (x : Pte) : (s.setPte x).now = s.now := rfl
@[simp] theorem setPte_freshId (s : State) (x : Pte) : (s.setPte x).freshId = s.freshId := rfl
@[simp] theorem setPte_freeCtr (s : State) (x : Pte) : (s.setPte x).freeCtr = s.freeCtr := rfl
@[simp] theorem setPte_dev (s : State) (x : Pte) : (s.setPte x).dev = s.dev := rfl
@[simp] theorem setPte_mem (s : State) (x : Pte) : (s.setPte x).mem = s.mem := rfl
@[simp] theorem setPte_h4 (s : State) (x : Pte) : (s.setPte x).h4 = s.h4 := rfl
@[simp] theorem setPte_zeroLines (s : State) (x : Pte) : (s.setPte x).zeroLines = s.zeroLines := rfl
@[simp] theorem setPte_poison (s : State) (x : Pte) : (s.setPte x).poison = s.poison := rfl
@[simp] theorem setPte_frames (s : State) (x : Pte) : (s.setPte x).frames = s.frames := rfl
@[simp] theorem setPte_changes (s : State) (x : Pte) : (s.setPte x).changes = s.changes := rfl
@[simp] theorem setPte_l1 (s : State) (x : Pte) : (s.setPte x).l1 = s.l1 := rfl
@[simp] theorem setPte_icache (s : State) (x : Pte) : (s.setPte x).icache = s.icache := rfl
@[simp] theorem setPte_flight (s : State) (x : Pte) : (s.setPte x).flight = s.flight := rfl
@[simp] theorem setPte_prods (s : State) (x : Pte) : (s.setPte x).prods = s.prods := rfl
@[simp] theorem setPte_copies (s : State) (x : Pte) : (s.setPte x).copies = s.copies := rfl
@[simp] theorem setPte_strands (s : State) (x : Pte) : (s.setPte x).strands = s.strands := rfl
@[simp] theorem setPte_groups (s : State) (x : Pte) : (s.setPte x).groups = s.groups := rfl
@[simp] theorem setPte_teams (s : State) (x : Pte) : (s.setPte x).teams = s.teams := rfl
@[simp] theorem setPte_launches (s : State) (x : Pte) : (s.setPte x).launches = s.launches := rfl
@[simp] theorem setPte_kernels (s : State) (x : Pte) : (s.setPte x).kernels = s.kernels := rfl
@[simp] theorem setPte_ctxs (s : State) (x : Pte) : (s.setPte x).ctxs = s.ctxs := rfl
@[simp] theorem setPte_cores (s : State) (x : Pte) : (s.setPte x).cores = s.cores := rfl
@[simp] theorem setPte_clusters (s : State) (x : Pte) : (s.setPte x).clusters = s.clusters := rfl

/-! ### State.l1Put -/

@[simp] theorem l1Put_cur (s : State) (x : L1Line) : (s.l1Put x).cur = s.cur := rfl
@[simp] theorem l1Put_agenda (s : State) (x : L1Line) : (s.l1Put x).agenda = s.agenda := rfl
@[simp] theorem l1Put_now (s : State) (x : L1Line) : (s.l1Put x).now = s.now := rfl
@[simp] theorem l1Put_freshId (s : State) (x : L1Line) : (s.l1Put x).freshId = s.freshId := rfl
@[simp] theorem l1Put_freeCtr (s : State) (x : L1Line) : (s.l1Put x).freeCtr = s.freeCtr := rfl
@[simp] theorem l1Put_dev (s : State) (x : L1Line) : (s.l1Put x).dev = s.dev := rfl
@[simp] theorem l1Put_mem (s : State) (x : L1Line) : (s.l1Put x).mem = s.mem := rfl
@[simp] theorem l1Put_h4 (s : State) (x : L1Line) : (s.l1Put x).h4 = s.h4 := rfl
@[simp] theorem l1Put_zeroLines (s : State) (x : L1Line) : (s.l1Put x).zeroLines = s.zeroLines := rfl
@[simp] theorem l1Put_poison (s : State) (x : L1Line) : (s.l1Put x).poison = s.poison := rfl
@[simp] theorem l1Put_pages (s : State) (x : L1Line) : (s.l1Put x).pages = s.pages := rfl
@[simp] theorem l1Put_frames (s : State) (x : L1Line) : (s.l1Put x).frames = s.frames := rfl
@[simp] theorem l1Put_changes (s : State) (x : L1Line) : (s.l1Put x).changes = s.changes := rfl
@[simp] theorem l1Put_icache (s : State) (x : L1Line) : (s.l1Put x).icache = s.icache := rfl
@[simp] theorem l1Put_flight (s : State) (x : L1Line) : (s.l1Put x).flight = s.flight := rfl
@[simp] theorem l1Put_prods (s : State) (x : L1Line) : (s.l1Put x).prods = s.prods := rfl
@[simp] theorem l1Put_copies (s : State) (x : L1Line) : (s.l1Put x).copies = s.copies := rfl
@[simp] theorem l1Put_strands (s : State) (x : L1Line) : (s.l1Put x).strands = s.strands := rfl
@[simp] theorem l1Put_groups (s : State) (x : L1Line) : (s.l1Put x).groups = s.groups := rfl
@[simp] theorem l1Put_teams (s : State) (x : L1Line) : (s.l1Put x).teams = s.teams := rfl
@[simp] theorem l1Put_launches (s : State) (x : L1Line) : (s.l1Put x).launches = s.launches := rfl
@[simp] theorem l1Put_kernels (s : State) (x : L1Line) : (s.l1Put x).kernels = s.kernels := rfl
@[simp] theorem l1Put_ctxs (s : State) (x : L1Line) : (s.l1Put x).ctxs = s.ctxs := rfl
@[simp] theorem l1Put_cores (s : State) (x : L1Line) : (s.l1Put x).cores = s.cores := rfl
@[simp] theorem l1Put_clusters (s : State) (x : L1Line) : (s.l1Put x).clusters = s.clusters := rfl

/-! ### Strand.setReg -/

@[simp] theorem setReg_id (st : Strand) (n : Nat) (r : VReg) : (st.setReg n r).id = st.id := rfl
@[simp] theorem setReg_group (st : Strand) (n : Nat) (r : VReg) : (st.setReg n r).group = st.group := rfl
@[simp] theorem setReg_idx (st : Strand) (n : Nat) (r : VReg) : (st.setReg n r).idx = st.idx := rfl
@[simp] theorem setReg_core (st : Strand) (n : Nat) (r : VReg) : (st.setReg n r).core = st.core := rfl
@[simp] theorem setReg_slot (st : Strand) (n : Nat) (r : VReg) : (st.setReg n r).slot = st.slot := rfl
@[simp] theorem setReg_tile (st : Strand) (n : Nat) (r : VReg) : (st.setReg n r).tile = st.tile := rfl
@[simp] theorem setReg_vecArea (st : Strand) (n : Nat) (r : VReg) : (st.setReg n r).vecArea = st.vecArea := rfl
@[simp] theorem setReg_order (st : Strand) (n : Nat) (r : VReg) : (st.setReg n r).order = st.order := rfl
@[simp] theorem setReg_b (st : Strand) (n : Nat) (r : VReg) : (st.setReg n r).b = st.b := rfl
@[simp] theorem setReg_k (st : Strand) (n : Nat) (r : VReg) : (st.setReg n r).k = st.k := rfl
@[simp] theorem setReg_j (st : Strand) (n : Nat) (r : VReg) : (st.setReg n r).j = st.j := rfl
@[simp] theorem setReg_pc (st : Strand) (n : Nat) (r : VReg) : (st.setReg n r).pc = st.pc := rfl
@[simp] theorem setReg_path (st : Strand) (n : Nat) (r : VReg) : (st.setReg n r).path = st.path := rfl
@[simp] theorem setReg_live (st : Strand) (n : Nat) (r : VReg) : (st.setReg n r).live = st.live := rfl
@[simp] theorem setReg_rets (st : Strand) (n : Nat) (r : VReg) : (st.setReg n r).rets = st.rets := rfl
@[simp] theorem setReg_pends (st : Strand) (n : Nat) (r : VReg) : (st.setReg n r).pends = st.pends := rfl
@[simp] theorem setReg_handler (st : Strand) (n : Nat) (r : VReg) : (st.setReg n r).handler = st.handler := rfl
@[simp] theorem setReg_sr (st : Strand) (n : Nat) (r : VReg) : (st.setReg n r).sr = st.sr := rfl
@[simp] theorem setReg_state (st : Strand) (n : Nat) (r : VReg) : (st.setReg n r).state = st.state := rfl
@[simp] theorem setReg_held (st : Strand) (n : Nat) (r : VReg) : (st.setReg n r).held = st.held := rfl
@[simp] theorem setReg_sleepFrom (st : Strand) (n : Nat) (r : VReg) : (st.setReg n r).sleepFrom = st.sleepFrom := rfl
@[simp] theorem setReg_restored (st : Strand) (n : Nat) (r : VReg) : (st.setReg n r).restored = st.restored := rfl
@[simp] theorem setReg_runOn (st : Strand) (n : Nat) (r : VReg) : (st.setReg n r).runOn = st.runOn := rfl
@[simp] theorem setReg_lastIssue (st : Strand) (n : Nat) (r : VReg) : (st.setReg n r).lastIssue = st.lastIssue := rfl
@[simp] theorem setReg_forks (st : Strand) (n : Nat) (r : VReg) : (st.setReg n r).forks = st.forks := rfl
@[simp] theorem setReg_cont (st : Strand) (n : Nat) (r : VReg) : (st.setReg n r).cont = st.cont := rfl
@[simp] theorem setReg_ssa (st : Strand) (n : Nat) (r : VReg) : (st.setReg n r).ssa = st.ssa := rfl
@[simp] theorem setReg_forkSaves (st : Strand) (n : Nat) (r : VReg) : (st.setReg n r).forkSaves = st.forkSaves := rfl
@[simp] theorem setReg_shadowHit (st : Strand) (n : Nat) (r : VReg) : (st.setReg n r).shadowHit = st.shadowHit := rfl
@[simp] theorem setReg_dead (st : Strand) (n : Nat) (r : VReg) : (st.setReg n r).dead = st.dead := rfl
@[simp] theorem setReg_copied (st : Strand) (n : Nat) (r : VReg) : (st.setReg n r).copied = st.copied := rfl
@[simp] theorem setReg_bands (st : Strand) (n : Nat) (r : VReg) : (st.setReg n r).bands = st.bands := rfl

/-! ### Strand.wroteLast -/

@[simp] theorem wroteLast_id (st : Strand) (n : Nat) : (st.wroteLast n).id = st.id := rfl
@[simp] theorem wroteLast_group (st : Strand) (n : Nat) : (st.wroteLast n).group = st.group := rfl
@[simp] theorem wroteLast_idx (st : Strand) (n : Nat) : (st.wroteLast n).idx = st.idx := rfl
@[simp] theorem wroteLast_core (st : Strand) (n : Nat) : (st.wroteLast n).core = st.core := rfl
@[simp] theorem wroteLast_slot (st : Strand) (n : Nat) : (st.wroteLast n).slot = st.slot := rfl
@[simp] theorem wroteLast_tile (st : Strand) (n : Nat) : (st.wroteLast n).tile = st.tile := rfl
@[simp] theorem wroteLast_v (st : Strand) (n : Nat) : (st.wroteLast n).v = st.v := rfl
@[simp] theorem wroteLast_vecArea (st : Strand) (n : Nat) : (st.wroteLast n).vecArea = st.vecArea := rfl
@[simp] theorem wroteLast_b (st : Strand) (n : Nat) : (st.wroteLast n).b = st.b := rfl
@[simp] theorem wroteLast_k (st : Strand) (n : Nat) : (st.wroteLast n).k = st.k := rfl
@[simp] theorem wroteLast_j (st : Strand) (n : Nat) : (st.wroteLast n).j = st.j := rfl
@[simp] theorem wroteLast_pc (st : Strand) (n : Nat) : (st.wroteLast n).pc = st.pc := rfl
@[simp] theorem wroteLast_path (st : Strand) (n : Nat) : (st.wroteLast n).path = st.path := rfl
@[simp] theorem wroteLast_live (st : Strand) (n : Nat) : (st.wroteLast n).live = st.live := rfl
@[simp] theorem wroteLast_rets (st : Strand) (n : Nat) : (st.wroteLast n).rets = st.rets := rfl
@[simp] theorem wroteLast_pends (st : Strand) (n : Nat) : (st.wroteLast n).pends = st.pends := rfl
@[simp] theorem wroteLast_handler (st : Strand) (n : Nat) : (st.wroteLast n).handler = st.handler := rfl
@[simp] theorem wroteLast_sr (st : Strand) (n : Nat) : (st.wroteLast n).sr = st.sr := rfl
@[simp] theorem wroteLast_state (st : Strand) (n : Nat) : (st.wroteLast n).state = st.state := rfl
@[simp] theorem wroteLast_held (st : Strand) (n : Nat) : (st.wroteLast n).held = st.held := rfl
@[simp] theorem wroteLast_sleepFrom (st : Strand) (n : Nat) : (st.wroteLast n).sleepFrom = st.sleepFrom := rfl
@[simp] theorem wroteLast_restored (st : Strand) (n : Nat) : (st.wroteLast n).restored = st.restored := rfl
@[simp] theorem wroteLast_runOn (st : Strand) (n : Nat) : (st.wroteLast n).runOn = st.runOn := rfl
@[simp] theorem wroteLast_lastIssue (st : Strand) (n : Nat) : (st.wroteLast n).lastIssue = st.lastIssue := rfl
@[simp] theorem wroteLast_forks (st : Strand) (n : Nat) : (st.wroteLast n).forks = st.forks := rfl
@[simp] theorem wroteLast_cont (st : Strand) (n : Nat) : (st.wroteLast n).cont = st.cont := rfl
@[simp] theorem wroteLast_ssa (st : Strand) (n : Nat) : (st.wroteLast n).ssa = st.ssa := rfl
@[simp] theorem wroteLast_forkSaves (st : Strand) (n : Nat) : (st.wroteLast n).forkSaves = st.forkSaves := rfl
@[simp] theorem wroteLast_shadowHit (st : Strand) (n : Nat) : (st.wroteLast n).shadowHit = st.shadowHit := rfl
@[simp] theorem wroteLast_dead (st : Strand) (n : Nat) : (st.wroteLast n).dead = st.dead := rfl
@[simp] theorem wroteLast_copied (st : Strand) (n : Nat) : (st.wroteLast n).copied = st.copied := rfl
@[simp] theorem wroteLast_bands (st : Strand) (n : Nat) : (st.wroteLast n).bands = st.bands := rfl

/-! ### Strand.noteWrite -/

@[simp] theorem noteWrite_id (st : Strand) (r : RegId) (full : Bool) : (st.noteWrite r full).id = st.id := rfl
@[simp] theorem noteWrite_group (st : Strand) (r : RegId) (full : Bool) : (st.noteWrite r full).group = st.group := rfl
@[simp] theorem noteWrite_idx (st : Strand) (r : RegId) (full : Bool) : (st.noteWrite r full).idx = st.idx := rfl
@[simp] theorem noteWrite_core (st : Strand) (r : RegId) (full : Bool) : (st.noteWrite r full).core = st.core := rfl
@[simp] theorem noteWrite_slot (st : Strand) (r : RegId) (full : Bool) : (st.noteWrite r full).slot = st.slot := rfl
@[simp] theorem noteWrite_tile (st : Strand) (r : RegId) (full : Bool) : (st.noteWrite r full).tile = st.tile := rfl
@[simp] theorem noteWrite_v (st : Strand) (r : RegId) (full : Bool) : (st.noteWrite r full).v = st.v := rfl
@[simp] theorem noteWrite_vecArea (st : Strand) (r : RegId) (full : Bool) : (st.noteWrite r full).vecArea = st.vecArea := rfl
@[simp] theorem noteWrite_order (st : Strand) (r : RegId) (full : Bool) : (st.noteWrite r full).order = st.order := rfl
@[simp] theorem noteWrite_b (st : Strand) (r : RegId) (full : Bool) : (st.noteWrite r full).b = st.b := rfl
@[simp] theorem noteWrite_k (st : Strand) (r : RegId) (full : Bool) : (st.noteWrite r full).k = st.k := rfl
@[simp] theorem noteWrite_j (st : Strand) (r : RegId) (full : Bool) : (st.noteWrite r full).j = st.j := rfl
@[simp] theorem noteWrite_pc (st : Strand) (r : RegId) (full : Bool) : (st.noteWrite r full).pc = st.pc := rfl
@[simp] theorem noteWrite_path (st : Strand) (r : RegId) (full : Bool) : (st.noteWrite r full).path = st.path := rfl
@[simp] theorem noteWrite_live (st : Strand) (r : RegId) (full : Bool) : (st.noteWrite r full).live = st.live := rfl
@[simp] theorem noteWrite_rets (st : Strand) (r : RegId) (full : Bool) : (st.noteWrite r full).rets = st.rets := rfl
@[simp] theorem noteWrite_pends (st : Strand) (r : RegId) (full : Bool) : (st.noteWrite r full).pends = st.pends := rfl
@[simp] theorem noteWrite_handler (st : Strand) (r : RegId) (full : Bool) : (st.noteWrite r full).handler = st.handler := rfl
@[simp] theorem noteWrite_sr (st : Strand) (r : RegId) (full : Bool) : (st.noteWrite r full).sr = st.sr := rfl
@[simp] theorem noteWrite_state (st : Strand) (r : RegId) (full : Bool) : (st.noteWrite r full).state = st.state := rfl
@[simp] theorem noteWrite_held (st : Strand) (r : RegId) (full : Bool) : (st.noteWrite r full).held = st.held := rfl
@[simp] theorem noteWrite_sleepFrom (st : Strand) (r : RegId) (full : Bool) : (st.noteWrite r full).sleepFrom = st.sleepFrom := rfl
@[simp] theorem noteWrite_restored (st : Strand) (r : RegId) (full : Bool) : (st.noteWrite r full).restored = st.restored := rfl
@[simp] theorem noteWrite_runOn (st : Strand) (r : RegId) (full : Bool) : (st.noteWrite r full).runOn = st.runOn := rfl
@[simp] theorem noteWrite_lastIssue (st : Strand) (r : RegId) (full : Bool) : (st.noteWrite r full).lastIssue = st.lastIssue := rfl
@[simp] theorem noteWrite_ssa (st : Strand) (r : RegId) (full : Bool) : (st.noteWrite r full).ssa = st.ssa := rfl
@[simp] theorem noteWrite_forkSaves (st : Strand) (r : RegId) (full : Bool) : (st.noteWrite r full).forkSaves = st.forkSaves := rfl
@[simp] theorem noteWrite_shadowHit (st : Strand) (r : RegId) (full : Bool) : (st.noteWrite r full).shadowHit = st.shadowHit := rfl
@[simp] theorem noteWrite_copied (st : Strand) (r : RegId) (full : Bool) : (st.noteWrite r full).copied = st.copied := rfl
@[simp] theorem noteWrite_bands (st : Strand) (r : RegId) (full : Bool) : (st.noteWrite r full).bands = st.bands := rfl

/-! ### Strand.markEmpty -/

@[simp] theorem markEmpty_id (st : Strand) (n : Nat) : (st.markEmpty n).id = st.id := rfl
@[simp] theorem markEmpty_group (st : Strand) (n : Nat) : (st.markEmpty n).group = st.group := rfl
@[simp] theorem markEmpty_idx (st : Strand) (n : Nat) : (st.markEmpty n).idx = st.idx := rfl
@[simp] theorem markEmpty_core (st : Strand) (n : Nat) : (st.markEmpty n).core = st.core := rfl
@[simp] theorem markEmpty_slot (st : Strand) (n : Nat) : (st.markEmpty n).slot = st.slot := rfl
@[simp] theorem markEmpty_tile (st : Strand) (n : Nat) : (st.markEmpty n).tile = st.tile := rfl
@[simp] theorem markEmpty_vecArea (st : Strand) (n : Nat) : (st.markEmpty n).vecArea = st.vecArea := rfl
@[simp] theorem markEmpty_order (st : Strand) (n : Nat) : (st.markEmpty n).order = st.order := rfl
@[simp] theorem markEmpty_b (st : Strand) (n : Nat) : (st.markEmpty n).b = st.b := rfl
@[simp] theorem markEmpty_k (st : Strand) (n : Nat) : (st.markEmpty n).k = st.k := rfl
@[simp] theorem markEmpty_j (st : Strand) (n : Nat) : (st.markEmpty n).j = st.j := rfl
@[simp] theorem markEmpty_pc (st : Strand) (n : Nat) : (st.markEmpty n).pc = st.pc := rfl
@[simp] theorem markEmpty_path (st : Strand) (n : Nat) : (st.markEmpty n).path = st.path := rfl
@[simp] theorem markEmpty_live (st : Strand) (n : Nat) : (st.markEmpty n).live = st.live := rfl
@[simp] theorem markEmpty_rets (st : Strand) (n : Nat) : (st.markEmpty n).rets = st.rets := rfl
@[simp] theorem markEmpty_pends (st : Strand) (n : Nat) : (st.markEmpty n).pends = st.pends := rfl
@[simp] theorem markEmpty_handler (st : Strand) (n : Nat) : (st.markEmpty n).handler = st.handler := rfl
@[simp] theorem markEmpty_sr (st : Strand) (n : Nat) : (st.markEmpty n).sr = st.sr := rfl
@[simp] theorem markEmpty_state (st : Strand) (n : Nat) : (st.markEmpty n).state = st.state := rfl
@[simp] theorem markEmpty_held (st : Strand) (n : Nat) : (st.markEmpty n).held = st.held := rfl
@[simp] theorem markEmpty_sleepFrom (st : Strand) (n : Nat) : (st.markEmpty n).sleepFrom = st.sleepFrom := rfl
@[simp] theorem markEmpty_restored (st : Strand) (n : Nat) : (st.markEmpty n).restored = st.restored := rfl
@[simp] theorem markEmpty_runOn (st : Strand) (n : Nat) : (st.markEmpty n).runOn = st.runOn := rfl
@[simp] theorem markEmpty_lastIssue (st : Strand) (n : Nat) : (st.markEmpty n).lastIssue = st.lastIssue := rfl
@[simp] theorem markEmpty_forks (st : Strand) (n : Nat) : (st.markEmpty n).forks = st.forks := rfl
@[simp] theorem markEmpty_cont (st : Strand) (n : Nat) : (st.markEmpty n).cont = st.cont := rfl
@[simp] theorem markEmpty_ssa (st : Strand) (n : Nat) : (st.markEmpty n).ssa = st.ssa := rfl
@[simp] theorem markEmpty_forkSaves (st : Strand) (n : Nat) : (st.markEmpty n).forkSaves = st.forkSaves := rfl
@[simp] theorem markEmpty_shadowHit (st : Strand) (n : Nat) : (st.markEmpty n).shadowHit = st.shadowHit := rfl
@[simp] theorem markEmpty_dead (st : Strand) (n : Nat) : (st.markEmpty n).dead = st.dead := rfl
@[simp] theorem markEmpty_copied (st : Strand) (n : Nat) : (st.markEmpty n).copied = st.copied := rfl
@[simp] theorem markEmpty_bands (st : Strand) (n : Nat) : (st.markEmpty n).bands = st.bands := rfl

/-! ### Lookups -/

/-- What a list finds by identity after an element of that identity has been put back in its place. -/
theorem find_map_same {α : Type} (l : List α) (id : α → Nat) (x : α) (h : (l.find? fun y => id y == id x).isSome) :
    (l.map fun y => if id y == id x then x else y).find? (fun y => id y == id x) = some x := by
  induction l with
  | nil => simp at h
  | cons y ys ih =>
    by_cases hy : id y == id x
    · simp only [List.map_cons, hy, if_true, List.find?_cons, beq_self_eq_true]
    · simp only [List.find?_cons, hy] at h ⊢
      simp only [List.map_cons, hy, Bool.false_eq_true, if_false, List.find?_cons]
      exact ih h

/-- What it finds under another identity is as before. -/
theorem find_map_ne {α : Type} (l : List α) (id : α → Nat) (x : α) (n : Nat) (h : n ≠ id x) :
    (l.map fun y => if id y == id x then x else y).find? (fun y => id y == n) = l.find? fun y => id y == n := by
  induction l with
  | nil => rfl
  | cons y ys ih =>
    by_cases hy : id y == id x
    · have hyx : id y = id x := by simpa using hy
      have : (id y == n) = false := by simp [hyx]; exact fun e => h e.symm
      have hx : (id x == n) = false := by simp; exact fun e => h e.symm
      simp only [List.map_cons, hy, if_true, List.find?_cons, hx, this, ih]
    · simp only [List.map_cons, hy, Bool.false_eq_true, if_false, List.find?_cons, ih]

theorem strand_setStrand (s : State) (x : Strand) (h : (s.strand? x.id).isSome) : (s.setStrand x).strand? x.id = some x :=
  find_map_same s.strands (·.id) x h

theorem strand_setStrand_ne (s : State) (x : Strand) (n : Nat) (h : n ≠ x.id) : (s.setStrand x).strand? n = s.strand? n :=
  find_map_ne s.strands (·.id) x n h

theorem group_setGroup (s : State) (x : Group) (h : (s.group? x.id).isSome) : (s.setGroup x).group? x.id = some x :=
  find_map_same s.groups (·.id) x h

theorem group_setGroup_ne (s : State) (x : Group) (n : Nat) (h : n ≠ x.id) : (s.setGroup x).group? n = s.group? n :=
  find_map_ne s.groups (·.id) x n h

theorem ctx_setCtx (s : State) (x : Ctx) (h : (s.ctx? x.id).isSome) : (s.setCtx x).ctx? x.id = some x :=
  find_map_same s.ctxs (·.id) x h

theorem ctx_setCtx_ne (s : State) (x : Ctx) (n : Nat) (h : n ≠ x.id) : (s.setCtx x).ctx? n = s.ctx? n :=
  find_map_ne s.ctxs (·.id) x n h

/-- A strand is put back under its own identity. -/
theorem strand_id {s : State} {n : Nat} {x : Strand} (h : s.strand? n = some x) : x.id = n := by
  simpa using List.find?_some h

theorem setStrand_setStrand (s : State) (x y : Strand) (h : x.id = y.id) : (s.setStrand x).setStrand y = s.setStrand y := by
  simp only [State.setStrand, List.map_map, h]
  congr 1
  apply List.map_congr_left
  intro z _
  by_cases hz : z.id = y.id <;> simp [hz, h]

/-- A core is found as it was put back, and every other as before. -/
theorem core_setCore (s : State) (x : Core) (n : Nat) : (s.setCore x).core n = if n = x.n then x else s.core n := by
  unfold State.setCore State.core
  split
  · rename_i h
    by_cases hn : n = x.n
    · subst hn
      have hs : (s.cores.find? fun y => y.n == x.n).isSome := by simpa [List.find?_isSome] using h
      simp only [find_map_same s.cores (·.n) x hs, if_true, Option.getD_some]
    · simp only [find_map_ne s.cores (·.n) x n hn, hn, if_false]
  · rename_i h
    have h' : ∀ y ∈ s.cores, (y.n == x.n) = false := by simpa using h
    by_cases hn : n = x.n
    · subst hn
      have : s.cores.find? (fun y => y.n == x.n) = none := by simpa using h'
      simp [List.find?_append, this]
    · have hx : (x.n == n) = false := by simp; exact fun e => hn e.symm
      simp [List.find?_append, hn, hx]

end Sys2Proof.Machine
end

