-- ==== Sys2Proof/Laws/Values.lean ====
section
/-!
SUPPORT. Laws of vectors by number, of lanes and of masks.
-/

namespace Sys2Proof.Machine

/-! ### Vectors by number -/

@[simp] theorem vget_vset_same {α : Type} {n : Nat} (v : Vector α n) (i : Nat) (x d : α) (h : i < n) :
    vget (vset v i x) i d = x := by
  simp [vget, vset, List.getD_eq_getElem?_getD, h]

theorem vget_vset_ne {α : Type} {n : Nat} (v : Vector α n) (i k : Nat) (x d : α) (h : i ≠ k) :
    vget (vset v i x) k d = vget v k d := by
  simp [vget, vset, List.getD_eq_getElem?_getD, h]

/-- Writing past the end changes nothing. -/
theorem vset_past {α : Type} {n : Nat} (v : Vector α n) (i : Nat) (x : α) (h : n ≤ i) : vset v i x = v := by
  rcases v with ⟨⟨l⟩, hl⟩
  simp only [vset, Vector.mk.injEq, Array.mk.injEq]
  have hl' : l.length = n := by simpa using hl
  exact List.set_eq_of_length_le (by omega)

theorem vget_vtab {α : Type} (n i : Nat) (f : Nat → α) (d : α) (h : i < n) : vget (vtab n f) i d = f i := by
  simp [vget, vtab, List.getD_eq_getElem?_getD, h]

/-- Two writes of one element leave the second. -/
theorem vset_vset {α : Type} {n : Nat} (v : Vector α n) (i : Nat) (x y : α) : vset (vset v i x) i y = vset v i y := by
  simp [vset]

/-- Writing back what an element holds changes nothing. -/
theorem vset_vget {α : Type} {n : Nat} (v : Vector α n) (i : Nat) (d : α) (h : i < n) : vset v i (vget v i d) = v := by
  rcases v with ⟨⟨l⟩, hl⟩
  have hl' : l.length = n := by simpa using hl
  have hi : i < l.length := by omega
  simp [vset, vget, List.getD_eq_getElem?_getD, hi]

/-! ### Lanes -/

@[simp] theorem lanes_get_tab (f : Nat → Word) (i : Nat) (h : i < 32) : (Lanes.tab f).get i = f i := by
  simp [Lanes.get, Lanes.tab, List.getD_eq_getElem?_getD, h]

@[simp] theorem lanes_get_const (x : Word) (i : Nat) (h : i < 32) : (Lanes.const x).get i = x := by
  simp [Lanes.const, h]

theorem affineLanes_get (b s : Word) (i : Nat) (h : i < 32) : (affineLanes b s).get i = b + BitVec.ofNat 32 i * s := by
  simp [affineLanes, h]

theorem mergeLanes_get (old new : Lanes) (m : Mask) (i : Nat) (h : i < 32) :
    (mergeLanes old new m).get i = if m.has i then new.get i else old.get i := by
  simp [mergeLanes, h]

/-! ### Masks -/

/-- Bit `k` of a power of two. -/
theorem getLsbD_two_pow (w i k : Nat) : (BitVec.ofNat w (2 ^ i)).getLsbD k = (decide (k < w) && decide (i = k)) := by
  rw [BitVec.getLsbD_ofNat, Nat.testBit_two_pow]

theorem setBit_getLsbD {w : Nat} (x : BitVec w) (i k : Nat) :
    (setBit x i).getLsbD k = (x.getLsbD k || (decide (k < w) && decide (i = k))) := by
  rw [setBit, BitVec.getLsbD_or, getLsbD_two_pow]

theorem maskOf_fold (f : Nat → Bool) (l : List Nat) (acc : Mask) (k : Nat) :
    (l.foldl (fun (acc : Mask) i => if f i then acc ||| BitVec.ofNat 32 (2 ^ i) else acc) acc).getLsbD k =
      (acc.getLsbD k || (decide (k < 32) && l.contains k && f k)) := by
  induction l generalizing acc with
  | nil => simp
  | cons x xs ih =>
    rw [List.foldl_cons, ih]
    by_cases hk : x = k
    · subst hk
      cases hx : f x <;> simp only [if_true, Bool.false_eq_true, if_false, BitVec.getLsbD_or, getLsbD_two_pow] <;>
        cases acc.getLsbD x <;> simp
      exact fun h _ => h
    · have hk' : ¬ k = x := fun h => hk h.symm
      cases hx : f x <;> simp only [if_true, Bool.false_eq_true, if_false, BitVec.getLsbD_or, getLsbD_two_pow] <;> simp [hk, hk']

/-- A mask built from a predicate has the lanes the predicate accepts. -/
@[simp] theorem mask_of_has (f : Nat → Bool) (i : Nat) (h : i < 32) : (Mask.of f).getLsbD i = f i := by
  rw [Mask.of, maskOf_fold]
  simp [h]

/-- The lanes of a mask. -/
theorem mem_lanes (m : Mask) (i : Nat) : i ∈ m.lanes ↔ i < 32 ∧ m.has i = true := by
  simp [Mask.lanes]

/-- Two masks are equal when they hold the same lanes. -/
theorem mask_ext (m n : Mask) (h : ∀ i, i < 32 → m.has i = n.has i) : m = n := by
  apply BitVec.eq_of_getLsbD_eq
  intro i hi
  exact h i hi

end Sys2Proof.Machine
end

