-- ==== Sys2Proof/Laws/Run.lean ====
section
/-!
SUPPORT. Laws of evaluations: how they compose, and what the shared operations of an instruction do when nothing stands in its way.
-/

namespace Sys2Proof.Machine

/-! ### Evaluations, composed -/

@[simp] theorem m_bind {α β : Type} (x : M α) (f : α → M β) (j : Job) :
    (x >>= f) j = match x j with
      | .ok a j' => f a j'
      | .error e j' => .error e j' := by
  simp only [bind, EStateM.bind]
  cases x j <;> rfl

@[simp] theorem m_map {α β : Type} (f : α → β) (x : M α) (j : Job) :
    (f <$> x) j = match x j with
      | .ok a j' => .ok (f a) j'
      | .error e j' => .error e j' := by
  simp only [Functor.map, EStateM.map]
  cases x j <;> rfl

@[simp] theorem m_pure {α : Type} (a : α) (j : Job) : (pure a : M α) j = .ok a j := rfl
@[simp] theorem m_get (j : Job) : (get : M Job) j = .ok j j := rfl
@[simp] theorem m_set (k j : Job) : (set k : M Unit) j = .ok () k := rfl
@[simp] theorem m_modify (f : Job → Job) (j : Job) : (modify f : M Unit) j = .ok () (f j) := rfl
@[simp] theorem m_throw {α : Type} (e : Stop) (j : Job) : (throw e : M α) j = .error e j := rfl
@[simp] theorem m_upd (f : Strand → Strand) (j : Job) : upd f j = .ok () { j with st := f j.st } := rfl
@[simp] theorem m_updS (f : State → State) (j : Job) : updS f j = .ok () { j with s := f j.s } := rfl
@[simp] theorem m_form (j : Job) : form j = .ok j.f j := rfl

theorem m_ite {α : Type} (c : Prop) [Decidable c] (x y : M α) (j : Job) : (if c then x else y) j = if c then x j else y j := by
  split <;> rfl

/-! ### A job that nothing watches -/

/-- The strand runs no fork, nothing watches it, no shadow mismatch stands, and on an MCC it has its one lane. -/
structure Job.Still (j : Job) : Prop where
  noCont : j.st.cont = none
  noForks : j.st.forks = []
  noDead : j.st.dead = {}
  noDetector : j.e.debug = false
  noShadow : j.st.shadowHit = []
  oneLane : j.st.tile = true → j.st.live = 1

theorem still_has {j : Job} (h : j.Still) (r : RegId) : j.st.dead.has r = false := by
  rw [h.noDead]; cases r <;> simp [RegSet.has]

theorem noteUse_still {j : Job} (h : j.Still) (r : RegId) : noteUse r j = .ok () j := by
  simp [noteUse, h.noCont]

theorem noteRead_still {j : Job} (h : j.Still) (r : RegId) : noteRead r j = .ok () j := by
  simp [noteRead, noteUse_still h, still_has h r]

theorem hazard_still {j : Job} (h : j.Still) (k d i : Nat) : hazard k d i j = .ok () j := by
  simp [hazard, h.noDetector]

theorem noteHazards_still {j : Job} (h : j.Still) (r : RegId) : noteHazards r j = .ok () j := by
  cases r with
  | v n =>
    simp only [noteHazards, m_bind, m_get]
    cases List.find? (fun e => e.wset.isSome) j.st.rets with
    | none => rfl
    | some e => simp only [m_ite, hazard_still h, m_pure, ite_self]
  | _ => simp [noteHazards]

theorem regSet_del (r : RegId) : RegSet.del {} r = {} := by cases r <;> simp [RegSet.del]

theorem noteWrite_still {st : Strand} (hc : st.cont = none) (hf : st.forks = []) (hd : st.dead = {}) (r : RegId) (full : Bool) :
    st.noteWrite r full = st := by
  have : (if full then st.dead.del r else st.dead) = st.dead := by rw [hd]; cases full <;> first | rfl | exact regSet_del r
  cases st
  simp_all [Strand.noteWrite]

/-! ### Reading -/

theorem getK_still {j : Job} (h : j.Still) (n : Nat) : getK n j = .ok (j.st.kreg n) j := by
  unfold getK Strand.kreg
  split <;> simp [noteRead_still h]

theorem effMask_still {j : Job} (h : j.Still) : effMask j = .ok (j.st.mask j.f.pred) j := by
  simp [effMask, getK_still h, Strand.mask, Strand.kreg]

theorem getB_still {j : Job} (h : j.Still) (n : Nat) : getB n j = .ok (vget j.st.b n 0) j := by
  simp [getB, noteRead_still h]

theorem getJ_still {j : Job} (h : j.Still) (n : Nat) : getJ n j = .ok (vget j.st.j n {}) j := by
  simp [getJ, noteRead_still h]

theorem ready_full {j : Job} (n : Nat) (w : Bool) (h : (j.st.reg n).full = true) : ready n w j = .ok () j := by
  simp [ready, h]

theorem plain_iff (r : VReg) : r.plain = true ↔ r.full = true ∧ r.poison = false ∧ r.held = none ∧ r.shape ≠ .spilled := by
  simp [VReg.plain, and_assoc]

theorem resident_plain {j : Job} (n : Nat) (h : (j.st.reg n).shape ≠ .spilled) : resident n j = .ok () j := by
  simp only [resident, m_bind, m_get]
  cases hs : (j.st.reg n).shape <;> simp_all

theorem readV_plain {j : Job} (h : j.Still) (n : Nat) (hp : (j.st.reg n).plain = true) : readV n j = .ok (j.st.val n) j := by
  obtain ⟨-, hp, -, hs⟩ := (plain_iff _).mp hp
  simp [readV, checkPoison, hp, noteRead_still h, resident_plain n hs]

theorem holding_ok {α : Type} {j : Job} (ns : List Nat) (act : M α) (a : α) (hs : j.staged = false) (h : act j = .ok a j) :
    holding ns act j = .ok a j := by
  simp [holding, hs, h]

/-! ### Registers replaced -/

@[simp] theorem reg_setReg_same (st : Strand) (n : Nat) (r : VReg) (h : n < 64) : (st.setReg n r).reg n = r := by
  simp [Strand.reg, Strand.setReg, h]

@[simp] theorem reg_setReg_ne (st : Strand) (n k : Nat) (r : VReg) (h : n ≠ k) : (st.setReg n r).reg k = st.reg k := by
  simp [Strand.reg, Strand.setReg, vget_vset_ne _ _ _ _ _ h]

theorem setReg_reg (st : Strand) (n : Nat) (h : n < 64) : st.setReg n (st.reg n) = st := by
  simp [Strand.reg, Strand.setReg, vset_vget _ _ _ h]

theorem setReg_setReg (st : Strand) (n : Nat) (a b : VReg) : (st.setReg n a).setReg n b = st.setReg n b := by
  simp [Strand.setReg, vset_vset]

@[simp] theorem reg_wroteLast (st : Strand) (n k : Nat) : (st.wroteLast n).reg k = st.reg k := rfl

@[simp] theorem val_wroteLast (st : Strand) (n k : Nat) : (st.wroteLast n).val k = st.val k := rfl

/-- The value of a register is that of its shape. -/
theorem val_congr {a b : Strand} {n : Nat} (hs : (a.reg n).shape = (b.reg n).shape) (hv : a.vecArea = b.vecArea) : a.val n = b.val n := by
  simp only [Strand.val, hs, hv]

/-- The lanes of an affine value. -/
theorem val_at_lanes (t : Val) (i : Nat) (h : i < 32) : t.lanes.get i = t.at i := by
  cases t <;> simp [Val.lanes, Val.at, h, affineLanes]

/-! ### Slabs -/

theorem length_flatMap_set {α β : Type} (f : α → List β) (l : List α) (n : Nat) (x d : α) (h : n < l.length) :
    ((l.set n x).flatMap f).length + (f (l.getD n d)).length = (l.flatMap f).length + (f x).length := by
  induction l generalizing n with
  | nil => simp at h
  | cons y ys ih =>
    cases n with
    | zero => simp; omega
    | succ n =>
      have := ih n (by simpa using h)
      simp at this ⊢
      omega

theorem slabs_setReg (st : Strand) (n : Nat) (r : VReg) (h : n < 64) :
    (st.setReg n r).slabIds.length + (st.reg n).slabIds.length = st.slabIds.length + r.slabIds.length := by
  have := length_flatMap_set VReg.slabIds st.v.toArray.toList n r {} (by simpa using h)
  simpa [Strand.slabIds, Strand.setReg, Strand.reg, vset, vget] using this

theorem slabs_plain (r : VReg) (h : r.held = none) : r.slabIds.length ≤ 1 := by
  simp [VReg.slabIds, h]
  cases r.shape <;> simp

/-! ### The next free number -/

/-- The job with its strand replaced, and the number that the next object gets. -/
def Job.put (j : Job) (st : Strand) (k : Nat) : Job := { j with st := st, s := { j.s with freshId := k } }

@[simp] theorem put_st (j : Job) (st : Strand) (k : Nat) : (j.put st k).st = st := rfl
@[simp] theorem put_e (j : Job) (st : Strand) (k : Nat) : (j.put st k).e = j.e := rfl
@[simp] theorem put_f (j : Job) (st : Strand) (k : Nat) : (j.put st k).f = j.f := rfl
@[simp] theorem put_s (j : Job) (st : Strand) (k : Nat) : (j.put st k).s = { j.s with freshId := k } := rfl
@[simp] theorem put_hold (j : Job) (st : Strand) (k : Nat) : (j.put st k).hold = j.hold := rfl
@[simp] theorem put_staged (j : Job) (st : Strand) (k : Nat) : (j.put st k).staged = j.staged := rfl
@[simp] theorem put_jumped (j : Job) (st : Strand) (k : Nat) : (j.put st k).jumped = j.jumped := rfl
@[simp] theorem put_s0 (j : Job) (st : Strand) (k : Nat) : (j.put st k).s0 = j.s0 := rfl
@[simp] theorem put_st0 (j : Job) (st : Strand) (k : Nat) : (j.put st k).st0 = j.st0 := rfl
@[simp] theorem put_was (j : Job) (st : Strand) (k : Nat) : (j.put st k).was = j.was := rfl
@[simp] theorem put_after (j : Job) (st : Strand) (k : Nat) : (j.put st k).after = j.after := rfl
@[simp] theorem put_put (j : Job) (a b : Strand) (k l : Nat) : (j.put a k).put b l = j.put b l := rfl
theorem put_self (j : Job) : j.put j.st j.s.freshId = j := rfl

/-- A strand changed in what nothing watches. -/
theorem Job.Still.put {j : Job} (h : j.Still) (st : Strand) (k : Nat) (hc : st.cont = j.st.cont) (hf : st.forks = j.st.forks)
    (hd : st.dead = j.st.dead) (hs : st.shadowHit = j.st.shadowHit) (ht : st.tile = j.st.tile) (hl : st.live = j.st.live) :
    (j.put st k).Still :=
  ⟨hc.trans h.noCont, hf.trans h.noForks, hd.trans h.noDead, h.noDetector, hs.trans h.noShadow,
    fun h1 => hl.trans (h.oneLane (ht.symm.trans h1))⟩

theorem takeSlab_room {j : Job} (h : j.Still) (hr : j.st.slabIds.length < j.e.floor j.st) :
    takeSlab j = .ok j.s.freshId (j.put j.st (j.s.freshId + 1)) := by
  unfold takeSlab
  rw [show (65 : Nat) = 64 + 1 from rfl, takeSlabN]
  have : (j.s.setStrand j.st).slabsOf j.st = j.st.slabIds.length := by simp [State.slabsOf, h.noCont]
  simp only [m_bind, m_get, this, hr, decide_true, Bool.true_or, if_true, m_updS, m_pure]
  rfl

theorem shared_still {j : Job} (h : j.Still) (n : Nat) : j.s.shared j.st n = false := by
  simp [State.shared, State.family, h.noCont, h.noForks]

/-- A register that holds a slab for its merge, or none. -/
def Strand.holds (st : Strand) (n : Nat) (held : Option Nat) : Strand := st.setReg n { st.reg n with held := held }

theorem holds_none (st : Strand) (n : Nat) (hn : n < 64) (h : (st.reg n).held = none) : st.holds n none = st := by
  have : ({ st.reg n with held := none } : VReg) = st.reg n := by rw [← h]
  rw [Strand.holds, this, setReg_reg _ _ hn]

/-- A register that needs a slab of its own gets one, or has it already. -/
theorem ownSlab_plain {j : Job} (h : j.Still) (n : Nat) (hp : (j.st.reg n).held = none)
    (hr : j.st.slabIds.length < j.e.floor j.st) :
    ∃ held k, ownSlab n j = .ok () (j.put (j.st.holds n held) k) := by
  have take : ∃ held k, (EStateM.Result.ok () (j.put (j.st.holds n (some j.s.freshId)) (j.s.freshId + 1)) :
      EStateM.Result Stop Job Unit) = .ok () (j.put (j.st.holds n held) k) := ⟨_, _, rfl⟩
  simp only [ownSlab, m_bind, m_get, hp]
  cases (j.st.reg n).shape with
  | v l s =>
    refine ⟨some s, j.s.freshId, ?_⟩
    simp only [shared_still h, Bool.false_eq_true, if_false]
    rfl
  | _ =>
    simp only [m_bind, takeSlab_room h hr, m_upd]
    exact take

/-! ### Writing (R93) -/

/-- A destination made ready: it may hold a slab for the merge now, and nothing else has changed. -/
theorem prepWrite_plain {j : Job} (h : j.Still) (n : Nat) (t : Val) (m : Mask) (hn : n < 64) (hp : (j.st.reg n).plain = true)
    (hr : j.st.slabIds.length < j.e.floor j.st) :
    ∃ held k, (m = 0 → held = none) ∧ prepWrite n t m j = .ok () (j.put (j.st.holds n held) k) := by
  obtain ⟨hf, -, hh, hs⟩ := (plain_iff _).mp hp
  have stay : ∃ held k, (m = 0 → held = none) ∧
      (EStateM.Result.ok () j : EStateM.Result Stop Job Unit) = .ok () (j.put (j.st.holds n held) k) :=
    ⟨none, j.s.freshId, fun _ => rfl, by rw [holds_none _ _ hn hh]; rfl⟩
  obtain ⟨held, k, own⟩ := ownSlab_plain h n hh hr
  simp only [prepWrite, m_bind, m_get, m_ite, hf, Bool.not_true, Bool.false_eq_true, if_false, m_pure]
  split
  · exact stay
  rename_i hm
  split
  · cases t with
    | v l =>
      cases j.st.tile with
      | true => simpa only [if_true, m_bind, m_pure, noteHazards_still h] using stay
      | false =>
        refine ⟨held, k, fun h => absurd h hm, ?_⟩
        simp only [Bool.false_eq_true, if_false, m_bind, own]
        exact noteHazards_still (h.put (j.st.holds n held) k rfl rfl rfl rfl rfl rfl) _
    | u x => simpa only [m_pure, noteHazards_still h] using stay
    | a b s => simpa only [m_pure, noteHazards_still h] using stay
  · simp only [noteRead_still h, noteHazards_still h]
    split
    · exact stay
    · exact ⟨held, k, fun h => absurd h hm, by simp only [resident_plain n hs, own]⟩

/-- The shape of a value whose lanes lie in a slab. -/
def Val.shapeOn (t : Val) (s : Nat) : Shape :=
  match t with
  | .u x => .u x
  | .a b c => .a b c
  | .v l => .v l s

/-- The write of a value into a register made ready, under a mask that is not empty: its new contents, and the order of last writes. -/
theorem commit_plain (st : Strand) (n : Nat) (held : Option Nat) (t : Val) (m : Mask) (hn : n < 64) (hp : (st.reg n).plain = true)
    (hc : st.cont = none) (hf : st.forks = []) (hd : st.dead = {}) (hm : m ≠ 0) (hone : st.tile = true → st.live = 1) :
    ∃ r o, (st.holds n held).commit n t m = { st.setReg n r with order := o } ∧ r.plain = true ∧
      (st.tile = false → st.covers m = true → ((st.setReg n r).val n) = t) ∧
      ∀ i, i < 32 → st.live.has i = true → (st.setReg n r).lane n i = if m.has i then t.at i else st.lane n i := by
  obtain ⟨h1, h2, h3, h4⟩ := (plain_iff _).mp hp
  have hw : ∀ full, (st.holds n held).noteWrite (.v n) full = st.holds n held := fun full => noteWrite_still (st := st.holds n held) hc hf hd _ _
  have hr : (st.holds n held).reg n = { st.reg n with held := held } := by simp [Strand.holds, hn]
  have hv : (st.holds n held).val n = st.val n := val_congr (by rw [hr]) rfl
  have hcov : (st.holds n held).covers m = st.covers m := rfl
  have hset : ∀ r, (st.holds n held).setReg n r = st.setReg n r := fun r => setReg_setReg _ _ _ _
  have hsame : (st.holds n held).same n t = st.same n t := by simp only [Strand.same, hr]
  have shapeVal : ∀ (s : Nat) (r : VReg), r.shape = t.shapeOn s → (st.setReg n r).val n = t := by
    intro s r h
    cases t <;> simp [Strand.val, hn, h, Val.shapeOn]
  simp only [Strand.commit, hm, if_false, hcov, hw, hset, hv, hsame, hr]
  split
  · -- a tile strand has one lane, lane 0
    rename_i ht
    have ht : st.tile = true := ht
    refine ⟨_, _, rfl, by simp [VReg.plain, h2], fun h => by simp [ht] at h, fun i hi h1 => ?_⟩
    rw [hone ht] at h1
    have : i = 0 := by
      have h1 : (1#32).getLsbD i = true := h1
      simp only [BitVec.getLsbD_one, Bool.and_eq_true, decide_eq_true_eq] at h1
      exact h1.2
    subst this
    have hv' : ∀ r : VReg, ∀ x, r.shape = .u x → (st.setReg n r).lane n 0 = x := fun r x h => by
      simp [Strand.lane, Strand.val, hn, h, Val.lanes]
    rw [hv' _ _ rfl, mergeLanes_get _ _ _ _ hi, ← val_at_lanes _ _ hi]
    rfl
  rename_i ht
  have ht : st.tile = false := Bool.eq_false_iff.mpr ht
  split
  · rename_i hcv
    refine ⟨_, _, rfl, ?_, fun _ _ => shapeVal _ _ (by cases t <;> rfl), fun i hi h1 => ?_⟩
    · cases t <;> simp [VReg.plain]
    · have hm : m.has i = true := by
        -- a live lane outside M contradicts the cover
        cases h0 : m.has i with
        | true => rfl
        | false =>
          have : (st.live &&& ~~~m).getLsbD i = false := by
            have := beq_iff_eq.mp hcv
            rw [this]; simp
          rw [BitVec.getLsbD_and, BitVec.getLsbD_not, show m.getLsbD i = false from h0, show st.live.getLsbD i = true from h1] at this
          simp [hi] at this
      rw [if_pos hm, Strand.lane, shapeVal _ _ (by cases t <;> rfl), val_at_lanes _ _ hi]
  · rename_i hcv
    split
    · rename_i hs
      -- the value is what the register holds
      have hold : st.val n = t := by
        revert hs
        simp only [Strand.same, Strand.val]
        cases t <;> cases (st.reg n).shape <;> simp_all
      have hvn : (st.setReg n { st.reg n with full := true, held := none }).val n = st.val n :=
        val_congr (by simp [hn]) rfl
      refine ⟨{ st.reg n with full := true, held := none }, st.order, rfl, ?_, fun _ h => absurd h hcv, fun i hi _ => ?_⟩
      · simp [VReg.plain, h2, h4]
      · rw [Strand.lane, hvn]
        split
        · rw [hold, val_at_lanes _ _ hi]
        · rfl
    · refine ⟨_, _, rfl, ?_, fun _ h => absurd h hcv, fun i hi _ => ?_⟩
      · simp [VReg.plain, h2]
      · have hv' : ∀ l s, (st.setReg n { st.reg n with shape := .v l s, full := true, held := none }).val n = .v l := by
          intro l s; simp [Strand.val, hn]
        rw [Strand.lane, hv']
        simp only [Val.lanes]
        rw [mergeLanes_get _ _ _ _ hi, ← val_at_lanes _ _ hi]
        rfl

/-- write(D, t, M) when nothing stands in its way: v[D] takes its new contents, and a slab number may have been used. -/
theorem writeV_plain {j : Job} (h : j.Still) (n : Nat) (t : Val) (m : Mask) (hn : n < 64) (hp : (j.st.reg n).plain = true)
    (hr : j.st.slabIds.length < j.e.floor j.st) :
    ∃ r o k, writeV n t m j = .ok () (j.put { j.st.setReg n r with order := o } k) ∧ r.plain = true ∧ (m = 0 → r = j.st.reg n) ∧
      (m ≠ 0 → j.st.tile = false → j.st.covers m = true → (j.st.setReg n r).val n = t) ∧
      ∀ i, i < 32 → j.st.live.has i = true → (j.st.setReg n r).lane n i = if m.has i then t.at i else j.st.lane n i := by
  obtain ⟨held, k, h0, hw⟩ := prepWrite_plain h n t m hn hp hr
  by_cases hm : m = 0
  · refine ⟨j.st.reg n, j.st.order, k, ?_, hp, fun _ => rfl, fun h => absurd hm h, fun i hi _ => ?_⟩
    · obtain ⟨-, -, hh, -⟩ := (plain_iff _).mp hp
      rw [h0 hm, holds_none _ _ hn hh] at hw
      simp only [writeV, m_bind, hw, m_upd, put_st, setReg_reg _ _ hn]
      simp only [Strand.commit, hm, if_true]
      rfl
    · rw [setReg_reg _ _ hn, hm]; simp
  · obtain ⟨r, o, hc, hpl, hcov, hl⟩ := commit_plain j.st n held t m hn hp h.noCont h.noForks h.noDead hm h.oneLane
    refine ⟨r, o, k, ?_, hpl, fun h => absurd h hm, fun _ => hcov, hl⟩
    simp only [writeV, m_bind, hw, m_upd, put_st, hc]
    rfl

/-! ### One instruction (R57, R154) -/

/-- The charge that an instruction of majors 0x01 to 0x4F takes, when its quadrant holds a burst (R468). -/
def State.charged (s : State) (st : Strand) (op : Nat) : State :=
  if st.tile || op = 0 || 0x4F < op then s
  else
    let core := s.core st.core
    s.setCore { core with burst := vset core.burst (st.slot % 4) (s.burstLeft st.core (st.slot % 4) - 1) }

/-- The job of an instruction that issues in quiet. -/
def jobOf (s : State) (st : Strand) (e : Env) (f : Form) : Job :=
  { s := s.charged st f.enc.op, st := st, e := e, f := f, hold := if decide (4 < f.vregs.length) then [] else f.vregs
    staged := decide (4 < f.vregs.length), s0 := s, st0 := st, was := .ready }

theorem quiet_still {s : State} {st : Strand} {e : Env} {f : Form} (h : Quiet s st e f) : (jobOf s st e f).Still :=
  ⟨h.noCont, h.noForks, h.noDetector.2, h.noDetector.1, h.noShadow, h.oneLane⟩

theorem quiet_mayIssue {s : State} {st : Strand} {e : Env} {f : Form} (h : Quiet s st e f) : st.mayIssue = true := by
  have h1 := h.live
  simpa [Strand.mayIssue, h.ready] using h1

/-- An instruction that issues in quiet is evaluated as its body says. -/
theorem run_quiet {s : State} {st : Strand} {e : Env} {f : Form} (h : Quiet s st e f) (body : M Unit) :
    run f body s = .next (settle s st (body (jobOf s st e f))) := by
  have hst : ({ st with state := SState.ready } : Strand) = st := by rw [← h.ready]
  have hpre : prelude { s := s, st := st, e := e, f := f, hold := (if decide (4 < f.vregs.length) then [] else f.vregs),
                             staged := decide (4 < f.vregs.length), s0 := s, st0 := st, was := .ready } = .ok () (jobOf s st e f) := by
    have h1 : (!(f.enc.legal f.x && f.litOk) || f.foreign st.tile) = false := by rw [h.legal, h.unit]; rfl
    have h2 : (BitVec.ofNat 64 f.needs &&& ~~~e.hdr.features != 0) = false := by rw [h.declared]; rfl
    have h3 : (BitVec.ofNat 64 f.needs &&& ~~~(s.unitFeatures st) != 0) = false := by rw [h.present]; rfl
    simp only [prelude, m_bind, m_get, m_ite, h1, Bool.false_eq_true, if_false, m_pure, checkFeature, h2, h3, h.noCont, Option.isSome_none,
      Bool.false_and, chargeCycle, jobOf, State.charged]
    split
    · rfl
    · rename_i hn
      have hb : 0 < s.burstLeft st.core (st.slot % 4) := h.burst (by cases ht : st.tile <;> simp_all)
      simp only [hb, if_true, m_updS]
  simp only [run, runM, h.cur, h.env, quiet_mayIssue h, Bool.not_true, Bool.false_eq_true, if_false, hst, h.ready, m_bind, hpre]

/-! ### What settles -/

theorem setCore_eq (s : State) (x : Core) : s.setCore x = { s with cores := (s.setCore x).cores } := by
  unfold State.setCore; split <;> rfl

/-- Of the cores only one differs, and only in its burst and its replay queue. -/
structure CoreOnly (s t : State) (n : Nat) : Prop where
  same : t = { s with cores := t.cores }
  others : ∀ k, k ≠ n → t.core k = s.core k
  core : (t.core n).predictor = (s.core n).predictor ∧ (t.core n).lastCtx = (s.core n).lastCtx

theorem CoreOnly.refl (s : State) (n : Nat) : CoreOnly s s n := ⟨rfl, fun _ _ => rfl, rfl, rfl⟩

theorem core_n (s : State) (n : Nat) : (s.core n).n = n := by
  unfold State.core
  cases h : s.cores.find? fun x => x.n == n with
  | none => rfl
  | some c => simpa using List.find?_some h

theorem CoreOnly.set {s t : State} {n : Nat} (h : CoreOnly s t n) (x : Core) (hn : x.n = n)
    (hx : x.predictor = (t.core n).predictor ∧ x.lastCtx = (t.core n).lastCtx) : CoreOnly s (t.setCore x) n := by
  refine ⟨?_, fun k hk => ?_, ?_⟩
  · rw [setCore_eq]
    generalize (t.setCore x).cores = c
    rw [h.same]
  · rw [core_setCore, if_neg (by rw [hn]; exact hk)]; exact h.others k hk
  · rw [core_setCore, if_pos hn.symm, hx.1, hx.2]; exact h.core

theorem charged_coreOnly (s : State) (st : Strand) (op : Nat) : CoreOnly s (s.charged st op) st.core := by
  unfold State.charged
  split
  · exact .refl _ _
  · exact CoreOnly.set (.refl _ _) _ (core_n _ _) ⟨rfl, rfl⟩

theorem replayPush_coreOnly {s t : State} (st : Strand) (f : Form) (h : CoreOnly s t st.core) : CoreOnly s (t.replayPush st f) st.core := by
  simp only [State.replayPush]
  split
  · exact h
  · exact h.set _ (core_n _ _) ⟨rfl, rfl⟩

/-- An event that no counter of the context counts leaves the state. -/
theorem count_none (s : State) (ctx ev k : Nat) (hev : ev < 2 ^ 16)
    (h : ∀ c, s.ctx? ctx = some c → ∀ n, 11 ≤ n → n < 16 → (vget c.select n 0).extractLsb' 0 16 ≠ BitVec.ofNat 16 ev) :
    s.count ctx ev k = s := by
  unfold State.count
  cases hc : s.ctx? ctx with
  | none => rfl
  | some c =>
    have hz : ∀ i, i < 5 → (((vget c.select (11 + i) 0).extractLsb' 0 16).toNat = ev) = False := fun i hi => by
      rw [eq_iff_iff, iff_false]
      intro he
      apply h c hc (11 + i) (by omega) (by omega)
      apply BitVec.eq_of_toNat_eq
      rw [he, BitVec.toNat_ofNat, Nat.mod_eq_of_lt hev]
    have h0 := hz 0 (by omega); have h1 := hz 1 (by omega); have h2 := hz 2 (by omega)
    have h3 := hz 3 (by omega); have h4 := hz 4 (by omega)
    simp only [List.range, List.range.loop, List.foldl_cons, List.foldl_nil, h0, h1, h2, h3, h4, decide_false, Bool.false_and,
      Bool.false_eq_true, if_false]

/-- A completed instruction settles: the pc moves past it unless it has jumped, and only its strand has changed. -/
theorem settle_ok {s : State} {st : Strand} {e : Env} {f : Form} (h : Quiet s st e f) (st' : Strand) (k : Nat) (jumped : Bool)
    (hl : st'.live ≠ 0) (hc : st'.core = st.core) :
    OnlyStrand s (settle s st (.ok () { (jobOf s st e f).put st' k with jumped := jumped }))
      { st' with pc := if jumped then st'.pc else st'.pc + BitVec.ofNat 64 f.size } := by
  generalize hx : ({ st' with pc := (if jumped then st'.pc else st'.pc + BitVec.ofNat 64 f.size) } : Strand) = x
  have hxc : x.core = st.core := by rw [← hx]; exact hc
  have hlive : x.live ≠ 0 := by rw [← hx]; exact hl
  have h0 : CoreOnly { s.setStrand x with freshId := k } ((({ (jobOf s st e f).s with freshId := k } : State).setStrand x).replayPush st
      f) st.core := by
    apply replayPush_coreOnly
    have h1 := charged_coreOnly s st f.enc.op
    exact ⟨by simp only [jobOf, State.setStrand]; rw [h1.same], h1.others, h1.core⟩
  generalize hy : ((({ (jobOf s st e f).s with freshId := k } : State).setStrand x).replayPush st f) = y at h0
  have hcnt : y.count e.ctx 1 1 = y := by
    apply count_none y e.ctx 1 1 (by decide)
    intro c hc' n h1 h2
    have : y.ctxs = s.ctxs := by rw [h0.same]; rfl
    exact (h.noCounters c (by simpa only [State.ctx?, this] using hc')).2 n h1 h2
  have hset : settle s st (.ok () { (jobOf s st e f).put st' k with jumped := jumped }) =
      if x.live = 0 then (y.count e.ctx 1 1).strandExit x.id else (y.count e.ctx 1 1).raiseAfter x none := by
    rw [← hy, ← hx]; cases jumped <;> rfl
  rw [hset, if_neg hlive, hcnt]
  simp only [State.raiseAfter]
  refine ⟨?_, fun n hn => h0.others n (by rw [← hxc]; exact hn), by rw [hxc]; exact h0.core⟩
  rw [h0.same]

/-- The strand that was issuing, as it is found afterwards. -/
theorem OnlyStrand.found {s t : State} {st st' : Strand} (h : OnlyStrand s t st') (hs : s.strand? s.cur = some st) (hid : st'.id = st.id) :
    t.strand? s.cur = some st' := by
  have h1 : st'.id = s.cur := hid.trans (strand_id hs)
  have h2 : t.strands = (s.setStrand st').strands := by rw [h.same]
  have h3 := strand_setStrand s st' (by rw [h1, hs]; rfl)
  rw [h1] at h3
  simpa only [State.strand?, h2] using h3

/-! ### Bodies that write one v register (R124) -/

theorem writes_one {st : Strand} {f : Form} {n : Nat} {r : VReg} {o : List Nat} {g : Nat → Word} (hn : n < 64) (hp : r.plain = true)
    (hr : st.srAfter f = st.sr) (h0 : st.mask f.pred = 0 → r = st.reg n)
    (hl : ∀ i, i < 32 → st.live.has i = true → (st.setReg n r).lane n i = if (st.mask f.pred).has i then g i else st.lane n i) :
    Writes st { ({ st.setReg n r with order := o } : Strand) with pc := st.pc + BitVec.ofNat 64 f.size } f [(n, g)] := by
  obtain ⟨h1, h2, h3, -⟩ := (plain_iff _).mp hp
  refine ⟨by rw [hr]; rfl, fun k hk => ?_, fun d hd => ?_⟩
  · have hk' : n ≠ k := by simpa [eq_comm] using hk
    refine ⟨reg_setReg_ne st n k r hk', ?_⟩
    funext i
    exact congrArg (fun v : Val => v.lanes.get i) (val_congr (a := st.setReg n r) (by rw [reg_setReg_ne st n k r hk']) rfl)
  · obtain rfl : d = (n, g) := by simpa using hd
    have hreg : ∀ pc, ({ ({ st.setReg n r with order := o } : Strand) with pc := pc } : Strand).reg n = r :=
      fun _ => reg_setReg_same st n r hn
    exact ⟨by rw [hreg]; exact h1, by rw [hreg]; exact h2, by rw [hreg]; exact h3, fun hm => by rw [hreg]; exact h0 hm, hl⟩

theorem vregs_d {f : Form} (h : f.enc.d = .v) : f.d ∈ f.vregs := by
  simp [Form.vregs, h, useVregs, Form.d]
theorem vregs_a {f : Form} (h : f.enc.a = .vs) : f.a ∈ f.vregs := by
  simp [Form.vregs, h, useVregs, Form.a]
theorem vregs_b {f : Form} (h : f.enc.b = .vs) (hi : f.x.immb = false) : f.b ∈ f.vregs := by
  simp [Form.vregs, h, hi, useVregs, Form.b]
theorem vregs_c {f : Form} (h : f.enc.c = .vs) : f.c ∈ f.vregs := by
  simp [Form.vregs, h, useVregs, Form.c]

theorem d_lt (f : Form) : f.d < 64 := f.x.w0.d.isLt

/-- The value of the B source (R41). -/
def Strand.valB (st : Strand) (f : Form) : Val := if f.x.immb then .u f.x.imm else st.val f.b

theorem srAfter_keep {s : State} {st : Strand} {e : Env} {f : Form} (h : Quiet s st e f) (hr : f.enc.rnd = false) : st.srAfter f = st.sr := by
  have hl := h.legal
  have : f.x.rnd = .rne := by
    simp only [Enc.legal, hr, Bool.false_or, Bool.and_eq_true] at hl
    simpa using hl.1.1.1.1.1.1.1.1.1.2
  simp [Strand.srAfter, this]

/-- What an instruction that writes one v register comes to. -/
theorem write_calm {s : State} {st : Strand} {e : Env} {f : Form} (h : Calm s st e f) (body : M Unit) (n : Nat) (t : Val)
    (hn : n < 64) (hp : (st.reg n).plain = true) (hr : st.srAfter f = st.sr)
    (hb : body (jobOf s st e f) = writeV n t (st.mask f.pred) (jobOf s st e f)) :
    ∃ u st', run f body s = .next u ∧ OnlyStrand s u st' ∧ Writes st st' f [(n, t.at)] ∧
      (st.mask f.pred ≠ 0 → st.tile = false → st.covers (st.mask f.pred) = true → st'.val n = t) := by
  have hroom : st.slabIds.length < e.floor st := by have := h.room; omega
  obtain ⟨r, o, k, hw, hpl, h0, hcov, hl⟩ := writeV_plain (quiet_still h.toQuiet) n t (st.mask f.pred) hn hp hroom
  have hs := settle_ok h.toQuiet { st.setReg n r with order := o } k false (by exact h.live) rfl
  refine ⟨_, _, by rw [run_quiet h.toQuiet, hb, hw]; rfl, hs, writes_one hn hpl hr h0 hl, hcov⟩

/-- A write under an empty mask is none. -/
theorem ite_write (m : Mask) (n : Nat) (t : Val) (j : Job) :
    (if m = 0 then (.ok () j : EStateM.Result Stop Job Unit) else writeV n t m j) = writeV n t m j := by
  split
  · rename_i hm
    simp [writeV, prepWrite, Strand.commit, hm]
  · rfl

/-- M of an instruction. -/
theorem effMask_quiet {s : State} {st : Strand} {e : Env} {f : Form} (h : Quiet s st e f) :
    effMask (jobOf s st e f) = .ok (st.mask f.pred) (jobOf s st e f) := effMask_still (quiet_still h)

section Sources
variable {s : State} {st : Strand} {e : Env} {f : Form} (h : Calm s st e f)
include h

theorem readyA_calm (ha : f.enc.a = .vs) : readyA (jobOf s st e f) = .ok () (jobOf s st e f) := by
  simp only [readyA, m_bind, m_form]
  exact ready_full _ _ ((plain_iff _).mp (h.plain _ (vregs_a ha))).1

theorem readyB_calm (hb : f.enc.b = .vs) : readyB (jobOf s st e f) = .ok () (jobOf s st e f) := by
  simp only [readyB, m_bind, m_form, m_ite, m_pure]
  split
  · rfl
  · rename_i hi
    exact ready_full _ _ ((plain_iff _).mp (h.plain _ (vregs_b hb (Bool.eq_false_iff.mpr hi)))).1

theorem readyC_calm (hc : f.enc.c = .vs) : readyC (jobOf s st e f) = .ok () (jobOf s st e f) := by
  simp only [readyC, m_bind, m_form]
  exact ready_full _ _ ((plain_iff _).mp (h.plain _ (vregs_c hc))).1

theorem srcA_calm (ha : f.enc.a = .vs) : srcA (jobOf s st e f) = .ok (st.val f.a) (jobOf s st e f) := by
  simp only [srcA, m_bind, m_form]
  exact readV_plain (quiet_still h.toQuiet) _ (h.plain _ (vregs_a ha))

theorem srcB_calm (hb : f.enc.b = .vs) : srcB (jobOf s st e f) = .ok (st.valB f) (jobOf s st e f) := by
  simp only [srcB, m_bind, m_form, m_ite, m_pure, Strand.valB]
  split
  · rename_i hi
    rw [if_pos (by exact hi)]
    rfl
  · rename_i hi
    rw [if_neg (by exact hi)]
    exact readV_plain (quiet_still h.toQuiet) _ (h.plain _ (vregs_b hb (Bool.eq_false_iff.mpr hi)))

theorem srcC_calm (hc : f.enc.c = .vs) : srcC (jobOf s st e f) = .ok (st.val f.c) (jobOf s st e f) := by
  simp only [srcC, m_bind, m_form]
  exact readV_plain (quiet_still h.toQuiet) _ (h.plain _ (vregs_c hc))

end Sources

/-- An instruction of one v source. -/
theorem unary_calm {s : State} {st : Strand} {e : Env} {f : Form} (h : Calm s st e f) (g : Val → Val) (hd : f.enc.d = .v)
    (ha : f.enc.a = .vs) (hr : f.enc.rnd = false) :
    ∃ u st', run f (unaryBody g) s = .next u ∧ OnlyStrand s u st' ∧ Writes st st' f [(f.d, (g (st.val f.a)).at)] ∧
      (st.mask f.pred ≠ 0 → st.tile = false → st.covers (st.mask f.pred) = true → st'.val f.d = g (st.val f.a)) := by
  apply write_calm h _ _ _ (d_lt f) (h.plain _ (vregs_d hd)) (srAfter_keep h.toQuiet hr)
  simp only [unaryBody, m_bind, m_form, readyA_calm h ha, effMask_quiet h.toQuiet, m_ite, srcA_calm h ha]
  exact ite_write _ _ _ _

/-- An instruction of two v sources. -/
theorem binary_calm {s : State} {st : Strand} {e : Env} {f : Form} (h : Calm s st e f) (g : Val → Val → Val) (hd : f.enc.d = .v)
    (ha : f.enc.a = .vs) (hb : f.enc.b = .vs) (hr : f.enc.rnd = false) :
    ∃ u st', run f (binaryBody g) s = .next u ∧ OnlyStrand s u st' ∧ Writes st st' f [(f.d, (g (st.val f.a) (st.valB f)).at)] ∧
      (st.mask f.pred ≠ 0 → st.tile = false → st.covers (st.mask f.pred) = true → st'.val f.d = g (st.val f.a) (st.valB f)) := by
  apply write_calm h _ _ _ (d_lt f) (h.plain _ (vregs_d hd)) (srAfter_keep h.toQuiet hr)
  simp only [binaryBody, m_bind, m_form, readyA_calm h ha, readyB_calm h hb, effMask_quiet h.toQuiet, m_ite, srcA_calm h ha, srcB_calm h hb]
  exact ite_write _ _ _ _

/-- An instruction of three v sources. -/
theorem ternary_calm {s : State} {st : Strand} {e : Env} {f : Form} (h : Calm s st e f) (g : Val → Val → Val → Val) (hd : f.enc.d = .v)
    (ha : f.enc.a = .vs) (hb : f.enc.b = .vs) (hc : f.enc.c = .vs) (hr : f.enc.rnd = false) :
    ∃ u st', run f (ternaryBody g) s = .next u ∧ OnlyStrand s u st' ∧
      Writes st st' f [(f.d, (g (st.val f.a) (st.valB f) (st.val f.c)).at)] ∧
      (st.mask f.pred ≠ 0 → st.tile = false → st.covers (st.mask f.pred) = true → st'.val f.d = g (st.val f.a) (st.valB f) (st.val f.c)) := by
  apply write_calm h _ _ _ (d_lt f) (h.plain _ (vregs_d hd)) (srAfter_keep h.toQuiet hr)
  simp only [ternaryBody, m_bind, m_form, readyA_calm h ha, readyB_calm h hb, readyC_calm h hc, effMask_quiet h.toQuiet, m_ite, srcA_calm h ha,
    srcB_calm h hb, srcC_calm h hc]
  exact ite_write _ _ _ _

end Sys2Proof.Machine
end

