-- ==== Sys2Proof/Laws/Integer.lean ====
section
/-!
SUPPORT. What the integer operations of the model compute, in the terms of the statements' tables: lane by lane values of map, affine results, and
one law for each lane function; and the passage from a meaning's value to what an instruction writes (int_un, int_bin, int_ter).
-/

namespace Sys2Proof.Machine

theorem at_map1 (g : Word → Word) (a : Val) (i : Nat) (h : i < 32) : (Val.map1 g a).at i = g (a.at i) := by
  cases a <;> simp [Val.map1, Val.at, h]

theorem at_map2 (g : Word → Word → Word) (a b : Val) (i : Nat) (h : i < 32) : (Val.map2 g a b).at i = g (a.at i) (b.at i) := by
  cases a <;> cases b <;> simp [Val.map2, Val.at, h]

theorem at_map3 (g : Word → Word → Word → Word) (a b c : Val) (i : Nat) (h : i < 32) :
    (Val.map3 g a b c).at i = g (a.at i) (b.at i) (c.at i) := by
  cases a <;> cases b <;> cases c <;> simp [Val.map3, Val.at, h]

theorem at_affine (b s : Word) (i : Nat) : (Val.affine b s).at i = b + BitVec.ofNat 32 i * s := by
  unfold Val.affine; split
  · rename_i h; subst h; simp [Val.at]
  · rfl

theorem Writes.congr {st st' : Strand} {f : Form} {n : Nat} {g g' : Nat → Word} (h : Writes st st' f [(n, g)])
    (hg : ∀ i, i < 32 → st.live.has i = true → g i = g' i) : Writes st st' f [(n, g')] := by
  refine ⟨h.rest, h.frame, ?_⟩
  intro d hd
  obtain rfl : d = (n, g') := by simpa using hd
  obtain ⟨h1, h2, h3, h4, h5⟩ := h.wrote (n, g) (by simp)
  exact ⟨h1, h2, h3, h4, fun i hi hl => by have := h5 i hi hl; simp only [hg i hi hl] at this; exact this⟩

theorem lane_at (st : Strand) (n i : Nat) (h : i < 32) : st.lane n i = (st.val n).at i := val_at_lanes _ _ h

theorem valB_at (st : Strand) (f : Form) (i : Nat) (h : i < 32) : (st.valB f).at i = (st.srcs f).b i := by
  simp only [Strand.valB, Strand.srcs]
  split
  · rfl
  · exact (lane_at st _ i h).symm


theorem int_un {i : Instr} {f : Form} {body : M Unit} {g : LaneRule} {F : Val → Val} {s : State} {st : Strand} {e : Env}
    (hx : exec i s = run f body s) (hb : body (jobOf s st e f) = unaryBody F (jobOf s st e f)) (h : Calm s st e f)
    (hd : f.enc.d = .v) (ha : f.enc.a = .vs) (hr : f.enc.rnd = false)
    (hg : ∀ k, k < 32 → (F (st.val f.a)).at k = g f.x (st.srcs f) k) :
    ∃ t st', exec i s = .next t ∧ OnlyStrand s t st' ∧ Writes st st' f [(f.d, g f.x (st.srcs f))] := by
  obtain ⟨u, st', h1, h2, h3, -⟩ := unary_calm h F hd ha hr
  refine ⟨u, st', ?_, h2, h3.congr fun i hi _ => hg i hi⟩
  rw [hx, ← h1, run_quiet h.toQuiet, run_quiet h.toQuiet, hb]

theorem int_bin {i : Instr} {f : Form} {body : M Unit} {g : LaneRule} {F : Val → Val → Val} {s : State} {st : Strand} {e : Env}
    (hx : exec i s = run f body s) (hb : body (jobOf s st e f) = binaryBody F (jobOf s st e f)) (h : Calm s st e f)
    (hd : f.enc.d = .v) (ha : f.enc.a = .vs) (hB : f.enc.b = .vs) (hr : f.enc.rnd = false)
    (hg : ∀ k, k < 32 → (F (st.val f.a) (st.valB f)).at k = g f.x (st.srcs f) k) :
    ∃ t st', exec i s = .next t ∧ OnlyStrand s t st' ∧ Writes st st' f [(f.d, g f.x (st.srcs f))] := by
  obtain ⟨u, st', h1, h2, h3, -⟩ := binary_calm h F hd ha hB hr
  refine ⟨u, st', ?_, h2, h3.congr fun i hi _ => hg i hi⟩
  rw [hx, ← h1, run_quiet h.toQuiet, run_quiet h.toQuiet, hb]

theorem int_ter {i : Instr} {f : Form} {body : M Unit} {g : LaneRule} {F : Val → Val → Val → Val} {s : State} {st : Strand} {e : Env}
    (hx : exec i s = run f body s) (hb : body (jobOf s st e f) = ternaryBody F (jobOf s st e f)) (h : Calm s st e f)
    (hd : f.enc.d = .v) (ha : f.enc.a = .vs) (hB : f.enc.b = .vs) (hc : f.enc.c = .vs) (hr : f.enc.rnd = false)
    (hg : ∀ k, k < 32 → (F (st.val f.a) (st.valB f) (st.val f.c)).at k = g f.x (st.srcs f) k) :
    ∃ t st', exec i s = .next t ∧ OnlyStrand s t st' ∧ Writes st st' f [(f.d, g f.x (st.srcs f))] := by
  obtain ⟨u, st', h1, h2, h3, -⟩ := ternary_calm h F hd ha hB hc hr
  refine ⟨u, st', ?_, h2, h3.congr fun i hi _ => hg i hi⟩
  rw [hx, ← h1, run_quiet h.toQuiet, run_quiet h.toQuiet, hb]

/-! values -/

theorem laneInt_eq (t : Ty) (w : Word) : laneInt t w = intOf t w := rfl

theorem ofInt_intOf (t : Ty) (w : Word) : BitVec.ofInt 32 (intOf t w) = w := by
  unfold intOf; split <;> simp

theorem reduce_eq (x : X96) (r : Int) : reduce x r = satOr x r (BitVec.ofInt 32 r) := by
  unfold reduce satOr clampTo
  split
  · split <;> congr 1 <;> omega
  · rfl

theorem ofInt_mul' (a b : Int) : BitVec.ofInt 32 (a * b) = BitVec.ofInt 32 a * BitVec.ofInt 32 b := by
  exact BitVec.ofInt_mul ..

theorem ofInt_sub' (a b : Int) : BitVec.ofInt 32 (a - b) = BitVec.ofInt 32 a - BitVec.ofInt 32 b := by
  rw [Int.sub_eq_add_neg, BitVec.ofInt_add, BitVec.ofInt_neg, BitVec.sub_eq_add_neg]

theorem val_add (x : X96) (a b : Val) (i : Nat) (h : i < 32) :
    (iaddVal x a b).at i = satOr x (intOf x.ty (a.at i) + intOf x.ty (b.at i)) (a.at i + b.at i) := by
  have e : ∀ p q : Word, reduce x (laneInt x.ty p + laneInt x.ty q) = satOr x (intOf x.ty p + intOf x.ty q) (p + q) := by
    intro p q; rw [reduce_eq, BitVec.ofInt_add, laneInt_eq, laneInt_eq, ofInt_intOf, ofInt_intOf]
  unfold iaddVal
  split
  · rw [at_map2 _ _ _ _ h, e]
  · rename_i hc
    have hs : x.sat = false := by simp at hc; exact hc.1.2
    have : ∀ r w, satOr x r w = w := by intro r w; simp [satOr, hs]
    rw [this, at_affine]
    cases a <;> cases b <;> simp_all [Val.baseStride, Val.at, Val.isUA]
    all_goals (try (rw [BitVec.mul_add])); ac_rfl

theorem val_sub (x : X96) (a b : Val) (i : Nat) (h : i < 32) :
    (isubVal x a b).at i = satOr x (intOf x.ty (a.at i) - intOf x.ty (b.at i)) (a.at i - b.at i) := by
  have e : ∀ p q : Word, reduce x (laneInt x.ty p - laneInt x.ty q) = satOr x (intOf x.ty p - intOf x.ty q) (p - q) := by
    intro p q; rw [reduce_eq, ofInt_sub', laneInt_eq, laneInt_eq, ofInt_intOf, ofInt_intOf]
  unfold isubVal
  split
  · rw [at_map2 _ _ _ _ h, e]
  · rename_i hc
    have hs : x.sat = false := by simp at hc; exact hc.1.2
    have : ∀ r w, satOr x r w = w := by intro r w; simp [satOr, hs]
    rw [this, at_affine]
    have key : ∀ p q s r n : Word, p - q + n * (s - r) = p + n * s - (q + n * r) := by
      intro p q s r n
      rw [BitVec.sub_eq_add_neg, BitVec.sub_eq_add_neg, BitVec.sub_eq_add_neg, BitVec.mul_add, BitVec.neg_add, BitVec.mul_neg]
      simp only [BitVec.sub_eq_add_neg]
      ac_rfl
    cases a <;> cases b <;> simp_all [Val.baseStride, Val.at, Val.isUA]
    · simpa using key _ _ 0 _ (BitVec.ofNat 32 i)
    · simpa using key _ _ _ 0 (BitVec.ofNat 32 i)

theorem val_mul (x : X96) (a b : Val) (i : Nat) (h : i < 32) : (imulVal x a b).at i = a.at i * b.at i := by
  have e : ∀ p q : Word, BitVec.ofInt 32 (laneInt x.ty p * laneInt x.ty q) = p * q := by
    intro p q; rw [ofInt_mul', laneInt_eq, laneInt_eq, ofInt_intOf, ofInt_intOf]
  unfold imulVal
  split
  · rw [at_affine]; simp only [Val.at, BitVec.add_mul]; ac_rfl
  · rw [at_affine]; simp only [Val.at, BitVec.mul_add]; ac_rfl
  · rw [at_map2 _ _ _ _ h, e]

theorem shl_eq (x n : Word) : shlLane x n = x <<< n.toNat := by
  unfold shlLane; split
  · rfl
  · rename_i h; rw [BitVec.shiftLeft_eq_zero (by omega)]; rfl

theorem shr_eq (x n : Word) : shrLane x n = x >>> n.toNat := by
  unfold shrLane; split
  · rfl
  · rename_i h; rw [BitVec.ushiftRight_eq_zero (by omega)]; rfl

theorem sar_eq (x n : Word) : sarLane x n = x.sshiftRight n.toNat := by
  unfold sarLane; split
  · rfl
  · rename_i h
    apply BitVec.eq_of_getLsbD_eq
    intro i hi
    rw [BitVec.getLsbD_sshiftRight]
    have : ¬ (n.toNat + i < 32) := by omega
    cases hx : x.msb <;> simp [BitVec.msb_eq_getLsbD_last] at hx <;> simp [hx, hi, this]
    · show (BitVec.allOnes 32)[i] = _
      rw [BitVec.getElem_allOnes]; simp; omega

theorem val_shl (a b : Val) (i : Nat) (h : i < 32) : (shlVal a b).at i = a.at i <<< (b.at i).toNat := by
  unfold shlVal
  split
  · rw [at_affine]
    simp only [Val.at, shl_eq]
    rw [BitVec.shiftLeft_eq_mul_twoPow, BitVec.shiftLeft_eq_mul_twoPow, BitVec.shiftLeft_eq_mul_twoPow]
    simp only [BitVec.add_mul]
    have : ∀ p q : Word, p + q - p = q := by intro p q; rw [BitVec.add_comm, BitVec.add_sub_cancel]
    rw [this, BitVec.mul_assoc]
  · rw [at_map2 _ _ _ _ h, shl_eq]

theorem val_neg (a : Val) (i : Nat) (h : i < 32) : (inegVal a).at i = -a.at i := by
  unfold inegVal
  split
  · simp only [Val.at]; rw [BitVec.neg_add, BitVec.mul_neg, BitVec.sub_eq_add_neg]
  · rw [at_map1 _ _ _ h]

theorem abs_eq (t : Ty) (ht : t = .s32 ∨ t = .u32) (p : Word) : (if t = .s32 && p.getLsbD 31 then -p else p) = BitVec.ofNat 32 (intOf t p).natAbs := by
  rcases ht with rfl | rfl
  · simp only [intOf, decide_true, Bool.true_and]
    have hm : p.msb = p.getLsbD 31 := by rw [BitVec.msb_eq_getLsbD_last]
    rw [← hm]
    apply BitVec.eq_of_toNat_eq
    rw [BitVec.toInt_eq_msb_cond]
    have := p.isLt
    have h31 := BitVec.msb_eq_decide p
    split
    · rename_i hx
      simp [hx] at h31 ⊢
      omega
    · rename_i hx
      simp [hx] at h31 ⊢
  · simp [intOf]

theorem min_eq (t : Ty) (x y : Word) : iminLane false t x y = if intOf t x ≤ intOf t y then x else y := by
  simp only [iminLane, laneInt_eq]
  rcases Int.lt_trichotomy (intOf t x) (intOf t y) with h | h | h
  · simp [h, Int.le_of_lt h]
  · have : x = y := by rw [← ofInt_intOf t x, ← ofInt_intOf t y, h]
    simp [this]
  · simp [show ¬ intOf t x < intOf t y by omega, show ¬ intOf t x ≤ intOf t y by omega]

theorem max_eq (t : Ty) (x y : Word) : iminLane true t x y = if intOf t x ≤ intOf t y then y else x := by
  simp only [iminLane, laneInt_eq]
  rcases Int.lt_trichotomy (intOf t x) (intOf t y) with h | h | h
  · simp [h, Int.le_of_lt h]
  · have : x = y := by rw [← ofInt_intOf t x, ← ofInt_intOf t y, h]
    simp [this]
  · simp [show ¬ intOf t x < intOf t y by omega, show ¬ intOf t x ≤ intOf t y by omega]

theorem popc_eq (x : Word) : popcount x = BitVec.ofNat 32 ((List.range 32).countP fun j => x.getLsbD j) := by
  simp only [popcount, Mask.count, Mask.lanes, Mask.has, List.countP_eq_length_filter]

theorem word_bits (f : Nat → Bool) (i : Nat) (h : i < 32) : (wordOf f).getLsbD i = f i := mask_of_has f i h

theorem brev_eq (x : Word) : brevLane x = x.reverse := by
  apply BitVec.eq_of_getLsbD_eq
  intro i hi
  rw [brevLane, mask_of_has _ _ hi, BitVec.getLsbD_reverse, BitVec.getMsbD]
  simp [hi]

theorem takeWhile_len (p : Nat → Bool) (k : Nat) : ∀ a m, k < m → (∀ j, j < k → p (a + j) = true) → p (a + k) = false →
    ((List.range' a m).takeWhile p).length = k := by
  induction k with
  | zero => intro a m hm _ h; cases m with
    | zero => omega
    | succ m => simp at h; simp [List.range'_succ, h]
  | succ k ih =>
    intro a m hm h1 h2
    cases m with
    | zero => omega
    | succ m =>
      have h0 := h1 0 (by omega); simp at h0
      have := ih (a + 1) m (by omega) (fun j hj => by have := h1 (j + 1) (by omega); rwa [show a + 1 + j = a + (j + 1) by omega])
        (by rwa [show a + 1 + k = a + (k + 1) by omega])
      simp [List.range'_succ, h0, this]

theorem clz_eq (x : Word) : clzLane x = BitVec.ofNat 32 ((List.range 32).takeWhile fun j => !x.getLsbD (31 - j)).length := by
  unfold clzLane
  congr 1
  split
  · rename_i h; subst h; decide
  · rename_i h
    have hx : x.toNat ≠ 0 := fun h' => h (BitVec.eq_of_toNat_eq h')
    have hlt : Nat.log2 x.toNat < 32 := (Nat.log2_lt hx).mpr x.isLt
    rw [List.range_eq_range', takeWhile_len _ (31 - Nat.log2 x.toNat) 0 32 (by omega)]
    · intro j hj
      simp only [Nat.zero_add, Bool.not_eq_true', BitVec.getLsbD]
      apply Nat.testBit_lt_two_pow
      calc x.toNat < 2 ^ (Nat.log2 x.toNat + 1) := Nat.lt_log2_self
        _ ≤ 2 ^ (31 - j) := Nat.pow_le_pow_right (by omega) (by omega)
    · simp only [Nat.zero_add, Bool.not_eq_false', BitVec.getLsbD]
      rw [show 31 - (31 - Nat.log2 x.toNat) = Nat.log2 x.toNat by omega]
      exact Nat.testBit_log2 hx

theorem field_eq (y : Word) : fieldOf y = if fieldLen y = 0 then none else some (fieldPos y, fieldLen y) := by
  unfold fieldOf fieldLen fieldPos
  simp only
  generalize (y.extractLsb' 0 8).toNat = p
  generalize (y.extractLsb' 8 8).toNat = l
  by_cases hp : 32 ≤ p
  · simp [hp]
  · by_cases hl : l = 0
    · simp [hl, hp]
    · simp [hl, hp]; omega

theorem field_le (y : Word) (h : fieldLen y ≠ 0) : fieldPos y + fieldLen y ≤ 32 := by
  unfold fieldLen at *; split at h <;> rename_i h' <;> simp [h'] at * ; omega

theorem bfe_eq (t : Ty) (ht : t = .u32 ∨ t = .s32) (x y : Word) : bfeLane t x y = bfeRule t x y := by
  unfold bfeLane bfeRule
  rw [field_eq]
  by_cases hl : fieldLen y = 0
  · simp only [hl, if_true]
    apply BitVec.eq_of_getLsbD_eq; intro i hi; rw [word_bits _ _ hi]; simp
  · have hle := field_le y hl
    simp only [hl, if_false]
    generalize fieldLen y = l at *
    generalize fieldPos y = p at *
    apply BitVec.eq_of_getLsbD_eq; intro i hi; rw [word_bits _ _ hi]
    have hbit : ∀ j, (x.toNat / 2 ^ p % 2 ^ l).testBit j = (decide (j < l) && x.getLsbD (p + j)) := by
      intro j; rw [Nat.testBit_mod_two_pow, Nat.testBit_div_two_pow, BitVec.getLsbD, Nat.add_comm]
    have hlt : x.toNat / 2 ^ p % 2 ^ l < 2 ^ l := Nat.mod_lt _ (Nat.two_pow_pos l)
    rcases ht with rfl | rfl
    · show (BitVec.ofNat 32 _).getLsbD i = _
      rw [BitVec.getLsbD_ofNat, hbit]; simp [hi]
    · simp only [if_true, decide_true, Bool.true_and]
      have htop : x.getLsbD (p + l - 1) = (x.toNat / 2 ^ p % 2 ^ l).testBit (l - 1) := by
        rw [hbit]; simp [show l - 1 < l by omega]; rw [show p + (l - 1) = p + l - 1 by omega]
      rw [htop]
      generalize x.toNat / 2 ^ p % 2 ^ l = v at *
      have hpl : 2 ^ l = 2 * 2 ^ (l - 1) := by rw [← Nat.pow_succ', show (l - 1).succ = l by omega]
      have htv : v.testBit (l - 1) = decide (2 ^ l ≤ 2 * v) := by
        rw [Nat.testBit_eq_decide_div_mod_eq]
        by_cases h : 2 ^ (l - 1) ≤ v
        · have : v / 2 ^ (l - 1) = 1 := by
            apply Nat.div_eq_of_lt_le <;> omega
          rw [this]; simp; omega
        · rw [Nat.div_eq_of_lt (by omega)]; simp; omega
      rw [htv]
      unfold signed
      rw [Nat.mod_eq_of_lt hlt]
      by_cases hs : 2 ^ l ≤ 2 * v
      · simp only [hs, if_true, decide_true]
        have he : BitVec.ofInt 32 ((v : Int) - 2 ^ l) = BitVec.ofNat 32 (2 ^ l * (2 ^ (32 - l) - 1) + v) := by
          apply BitVec.eq_of_toInt_eq
          have h32 : 2 ^ l * 2 ^ (32 - l) = 2 ^ 32 := by rw [← Nat.pow_add]; congr 1; omega
          have hcast : ((2 ^ l * (2 ^ (32 - l) - 1) + v : Nat) : Int) = (v : Int) - 2 ^ l + 2 ^ 32 := by
            have : 2 ^ l * (2 ^ (32 - l) - 1) = 2 ^ 32 - 2 ^ l := by rw [Nat.mul_sub, h32, Nat.mul_one]
            rw [this]
            have h2 : 2 ^ l ≤ 2 ^ 32 := Nat.pow_le_pow_right (by omega) (by omega)
            have h3 : ((2 ^ 32 - 2 ^ l + v : Nat) : Int) = (2 ^ 32 : Nat) - (2 ^ l : Nat) + v := by omega
            have hp : ((2 ^ l : Nat) : Int) = 2 ^ l := Int.natCast_pow 2 l
            rw [h3, ← hp]; generalize ((2 ^ l : Nat) : Int) = z; omega
          rw [BitVec.toInt_ofInt, show ∀ n : Nat, (BitVec.ofNat 32 n).toInt = (n : Int).bmod (2 ^ 32) from fun n => BitVec.toInt_ofNat .., hcast]
          have : ((v : Int) - 2 ^ l + 2 ^ 32) = ((v : Int) - 2 ^ l) + (2 ^ 32 : Nat) := by rfl
          rw [this, Int.add_bmod_right]
        rw [he, BitVec.getLsbD_ofNat, Nat.testBit_two_pow_mul_add _ hlt, Nat.testBit_two_pow_sub_one, hbit]
        by_cases h : i < l <;> simp [hi, h]
        omega
      · simp only [hs, if_false, decide_false]
        show (BitVec.ofInt 32 ((v : Nat) : Int)).getLsbD i = _
        rw [BitVec.ofInt_natCast, BitVec.getLsbD_ofNat, hbit]; simp [hi]

theorem bfi_eq (x y z : Word) : bfiLane x y z = bfiRule x y z := by
  unfold bfiLane bfiRule
  rw [field_eq]
  by_cases hl : fieldLen y = 0
  · simp only [hl, if_true]
    apply BitVec.eq_of_getLsbD_eq; intro i hi; rw [word_bits _ _ hi]; simp
  · have hle := field_le y hl
    simp only [hl, if_false]
    generalize fieldLen y = l at *
    generalize fieldPos y = p at *
    apply BitVec.eq_of_getLsbD_eq; intro i hi; rw [word_bits _ _ hi]
    have hm : (BitVec.ofNat 32 ((2 ^ l - 1) * 2 ^ p)).getLsbD i = (decide (p ≤ i) && decide (i < p + l)) := by
      rw [BitVec.getLsbD_ofNat, Nat.testBit_mul_two_pow, Nat.testBit_two_pow_sub_one]
      by_cases h1 : p ≤ i <;> simp [hi, h1]
      omega
    simp only [BitVec.getLsbD_or, BitVec.getLsbD_and, BitVec.getLsbD_not, hm, BitVec.getLsbD_shiftLeft]
    by_cases h1 : p ≤ i <;> by_cases h2 : i < p + l <;> simp [hi, h1, h2]


theorem legal_ty {s : State} {st : Strand} {e : Env} {f : Form} (h : Calm s st e f) : f.x.ty ∈ f.enc.types := by
  have hl := h.legal
  simp only [Enc.legal, Bool.and_eq_true, List.contains_iff_mem] at hl
  exact hl.1.1.1.1.1.1.1.1.1.1.1.2

theorem isel_at (k live : Mask) (a b : Val) (i : Nat) (h : i < 32) (hl : live.has i = true) :
    (if (a.isU && b.isU && (k &&& live == live || k &&& live == 0)) = true then (Val.u (if k &&& live = live then a.at 0 else b.at 0))
      else .v (Lanes.tab fun i => if k.has i then a.at i else b.at i)).at i = if k.has i then a.at i else b.at i := by
  split
  · rename_i hc
    simp only [Bool.and_eq_true, Bool.or_eq_true, beq_iff_eq] at hc
    obtain ⟨⟨ha, hb⟩, hk⟩ := hc
    have hua : ∀ a : Val, a.isU = true → a.at 0 = a.at i := by intro a h; cases a <;> simp_all [Val.isU, Val.at]
    simp only [Val.at]
    have hbit : (k &&& live).getLsbD i = k.has i := by simp [hl, BitVec.getLsbD_and]
    by_cases he : k &&& live = live
    · rw [he] at hbit; rw [if_pos he, if_pos (by rw [← hbit]; exact hl)]; exact hua a ha
    · have h0 : k &&& live = 0 := by rcases hk with h | h; exact absurd h he; exact h
      rw [h0] at hbit; rw [if_neg he, if_neg (by rw [← hbit]; simp)]; exact hua b hb
  · simp only [Val.at]; rw [lanes_get_tab _ _ h]


theorem iselBody_calm {s : State} {st : Strand} {e : Env} {f : Form} (h : Calm s st e f) (ho : f.enc.op = 0x13) (ha : f.enc.a = .vs) (hb : f.enc.b = .vs) :
    ∃ t, iselBody (jobOf s st e f) = writeV f.d t (st.mask f.pred) (jobOf s st e f) ∧
      ∀ i, i < 32 → st.live.has i = true → t.at i = if (st.kreg f.x.w0.k.toNat).has i then (st.val f.a).at i else (st.valB f).at i := by
  have hp : f.pred = 0 := by simp [Form.pred, ho]
  have hm : st.mask f.pred = st.path := by rw [hp]; simp [Strand.mask]; exact BitVec.and_allOnes
  refine ⟨_, ?_, fun i hi hl => isel_at (st.kreg f.x.w0.k.toNat) st.live (st.val f.a) (st.valB f) i hi hl⟩
  have hk : getK (jobOf s st e f).f.x.w0.k.toNat (jobOf s st e f) = .ok (st.kreg f.x.w0.k.toNat) (jobOf s st e f) := getK_still (quiet_still h.toQuiet) _
  simp only [iselBody, m_bind, m_form, readyA_calm h ha, readyB_calm h hb, hk, m_get, m_ite, srcA_calm h ha, srcB_calm h hb, m_pure]
  rw [show (jobOf s st e f).st.path = st.mask f.pred from hm.symm]
  rw [ite_write]
  have hw : ∀ t t' : Val, t = t' → writeV (jobOf s st e f).f.d t (st.mask f.pred) (jobOf s st e f) = writeV f.d t' (st.mask f.pred) (jobOf s st e f) := by
    intro t t' h; rw [h]; rfl
  apply hw
  simp only [beq_iff_eq]
  rfl

end Sys2Proof.Machine
end

