-- ==== Sys2Proof/Laws/Memory.lean ====
section
/-!
SUPPORT. Laws of memory: a read after a write, and that every operation on the bytes of memory keeps the canonical form.
-/

namespace Sys2Proof.Machine

/-! ### The canonical form -/

theorem wfFrom_cons (lo : Nat) (c : Host.Cell) (m : Memory) :
    Memory.wfFrom lo (c :: m) = true ↔ lo ≤ c.1 ∧ c.2 ≠ 0 ∧ Memory.wfFrom (c.1 + 1) m = true := by
  simp [Memory.wfFrom, and_assoc]

theorem wfFrom_le {m : Memory} {lo hi : Nat} (h : lo ≤ hi) (w : Memory.wfFrom hi m = true) : Memory.wfFrom lo m = true := by
  cases m with
  | nil => rfl
  | cons c m =>
    rw [wfFrom_cons] at *
    exact ⟨by omega, w.2⟩

/-- A byte below every listed one reads 0. -/
theorem get_below {m : Memory} {lo a : Nat} (w : Memory.wfFrom lo m = true) (h : a < lo) : m.get a = 0 := by
  cases m with
  | nil => rfl
  | cons c m =>
    rw [wfFrom_cons] at w
    simp [Memory.get, show a < c.1 by omega]

/-! ### One byte written -/

theorem put_wfFrom {m : Memory} {lo a : Nat} (b : Byte) (w : Memory.wfFrom lo m = true) (h : lo ≤ a) : Memory.wfFrom lo (m.put a b) = true := by
  induction m generalizing lo with
  | nil => by_cases hb : b = 0#8 <;> simp [Memory.put, Memory.wfFrom, hb, h]
  | cons c m ih =>
    have w' := (wfFrom_cons lo c m).1 w
    unfold Memory.put
    split
    · split
      · exact w
      · rw [wfFrom_cons]
        exact ⟨h, ‹_›, (wfFrom_cons _ c m).2 ⟨by simpa using ‹_›, w'.2⟩⟩
    · split
      · split
        · exact wfFrom_le (by omega) w'.2.2
        · rw [wfFrom_cons]
          exact ⟨h, ‹_›, by simpa [‹c.1 = a›] using w'.2.2⟩
      · rw [wfFrom_cons]
        exact ⟨w'.1, w'.2.1, ih w'.2.2 (by omega)⟩

/-- Writing a byte keeps the canonical form. -/
theorem put_wf {m : Memory} (a : Nat) (b : Byte) (w : m.wf = true) : (m.put a b).wf = true := put_wfFrom b w (Nat.zero_le a)

theorem get_put_from {m : Memory} {lo : Nat} (a x : Nat) (b : Byte) (w : Memory.wfFrom lo m = true) :
    (m.put a b).get x = if x = a then b else m.get x := by
  induction m generalizing lo with
  | nil =>
    by_cases hb : b = 0#8
    · simp [Memory.put, Memory.get, hb]
    · by_cases hx : x = a
      · simp [Memory.put, Memory.get, hb, hx]
      · simp [Memory.put, Memory.get, hb, hx, Ne.symm hx]
  | cons c m ih =>
    have w' := (wfFrom_cons lo c m).1 w
    have below : ∀ y, y ≤ c.1 → Memory.get m y = 0#8 := fun y hy => get_below w'.2.2 (by omega)
    have step := ih w'.2.2
    by_cases h1 : a < c.1
    · by_cases hx : x = a
      · by_cases hb : b = 0#8 <;> simp [Memory.put, Memory.get, h1, hb, hx]
      · by_cases hb : b = 0#8
        · simp [Memory.put, h1, hb, hx]
        · by_cases hl : x < a
          · simp [Memory.put, Memory.get, h1, hb, hx, hl, show x < c.1 by omega]
          · simp [Memory.put, Memory.get, h1, hb, hx, hl, Ne.symm hx]
    · by_cases h2 : c.1 = a
      · by_cases hx : x = a
        · by_cases hb : b = 0#8
          · simp [Memory.put, h2, hb, hx, below a (by omega)]
          · simp [Memory.put, Memory.get, h2, hb, hx]
        · by_cases hl : x < a
          · by_cases hb : b = 0#8 <;> simp [Memory.put, Memory.get, h2, hb, hx, hl, below x (by omega)]
          · by_cases hb : b = 0#8 <;> simp [Memory.put, Memory.get, h2, hb, hx, hl, Ne.symm hx]
      · by_cases hx : x = a
        · subst hx
          have s := step
          simp only [if_true] at s
          simp [Memory.put, Memory.get, h1, h2, s]
        · simp only [hx, if_false] at step
          by_cases hl : x < c.1
          · simp [Memory.put, Memory.get, h1, h2, hx, hl]
          · simp [Memory.put, Memory.get, h1, h2, hx, hl, step]

/-- A byte read after a write: the value written at its address, and elsewhere what was there. -/
theorem get_put {m : Memory} (a x : Nat) (b : Byte) (w : m.wf = true) : (m.put a b).get x = if x = a then b else m.get x :=
  get_put_from a x b w

/-! ### Bytes written one after the other -/

theorem putList_wf {m : Memory} (a : Nat) (bs : List Byte) (w : m.wf = true) : (m.putList a bs).wf = true := by
  induction bs generalizing m a with
  | nil => exact w
  | cons b bs ih => exact ih (a + 1) (put_wf a b w)

/-- A byte read after a run of bytes was written. -/
theorem get_putList {m : Memory} (a x : Nat) (bs : List Byte) (w : m.wf = true) :
    (m.putList a bs).get x = if a ≤ x ∧ x < a + bs.length then bs.getD (x - a) 0 else m.get x := by
  induction bs generalizing m a with
  | nil => simp [Memory.putList, show ¬(a ≤ x ∧ x < a) by omega]
  | cons b bs ih =>
    rw [Memory.putList, ih (a + 1) (put_wf a b w), get_put a x b w]
    by_cases h1 : a + 1 ≤ x ∧ x < a + 1 + bs.length
    · have : x - a = (x - (a + 1)) + 1 := by omega
      simp [h1, show a ≤ x ∧ x < a + (bs.length + 1) by omega, this]
    · by_cases hx : x = a
      · subst hx
        simp [show ¬(x + 1 ≤ x) by omega]
      · rw [if_neg h1, if_neg hx, if_neg (by simp only [List.length_cons]; omega)]

/-! ### Bytes dropped, and a range written at once -/

theorem filter_wfFrom {m : Memory} {lo : Nat} (p : Host.Cell → Bool) (w : Memory.wfFrom lo m = true) : Memory.wfFrom lo (m.filter p) = true := by
  induction m generalizing lo with
  | nil => rfl
  | cons c m ih =>
    have w' := (wfFrom_cons lo c m).1 w
    rw [List.filter_cons]
    split
    · exact (wfFrom_cons _ _ _).2 ⟨w'.1, w'.2.1, ih w'.2.2⟩
    · exact wfFrom_le (by omega) (ih w'.2.2)

/-- Dropping bytes keeps the canonical form. -/
theorem filter_wf {m : Memory} (p : Host.Cell → Bool) (w : m.wf = true) : Memory.wf (m.filter p) = true := filter_wfFrom p w

theorem append_wfFrom {m n : Memory} {lo mid : Nat} (w : Memory.wfFrom lo m = true) (hm : ∀ c ∈ m, c.1 < mid) (hl : lo ≤ mid)
    (v : Memory.wfFrom mid n = true) : Memory.wfFrom lo (m ++ n) = true := by
  induction m generalizing lo with
  | nil => exact wfFrom_le hl v
  | cons c m ih =>
    have w' := (wfFrom_cons lo c m).1 w
    exact (wfFrom_cons _ _ _).2 ⟨w'.1, w'.2.1, ih w'.2.2 (fun d hd => hm d (by simp [hd])) (hm c (by simp))⟩

theorem cells_wfFrom (bs : List Byte) (lo k : Nat) :
    Memory.wfFrom (lo + k) ((bs.zipIdx k).filterMap fun p => if p.1 = 0 then none else some (lo + p.2, p.1)) = true ∧
      ∀ c ∈ (bs.zipIdx k).filterMap fun p => if p.1 = 0 then none else some (lo + p.2, p.1), c.1 < lo + k + bs.length := by
  induction bs generalizing k with
  | nil => simp [Memory.wfFrom]
  | cons b bs ih =>
    obtain ⟨w, hb⟩ := ih (k + 1)
    by_cases h : b = 0
    · simp only [List.zipIdx_cons, List.filterMap_cons, h, if_true]
      refine ⟨wfFrom_le (by omega) w, fun c hc => ?_⟩
      have := hb c hc
      simp only [List.length_cons]
      omega
    · simp only [List.zipIdx_cons, List.filterMap_cons, h, if_false]
      refine ⟨(wfFrom_cons _ _ _).2 ⟨Nat.le_refl _, h, w⟩, fun c hc => ?_⟩
      rcases List.mem_cons.1 hc with rfl | hc
      · simp only [List.length_cons]
        omega
      · have := hb c hc
        simp only [List.length_cons]
        omega

theorem filter_from {m : Memory} {lo : Nat} (hi : Nat) (w : Memory.wfFrom lo m = true) :
    Memory.wfFrom hi (m.filter fun c => hi ≤ c.1) = true := by
  induction m generalizing lo with
  | nil => rfl
  | cons c m ih =>
    have w' := (wfFrom_cons lo c m).1 w
    by_cases hc : hi ≤ c.1
    · rw [List.filter_cons_of_pos (by simpa using hc)]
      exact (wfFrom_cons _ _ _).2 ⟨hc, w'.2.1, filter_wfFrom _ w'.2.2⟩
    · rw [List.filter_cons_of_neg (by simpa using hc)]
      exact ih w'.2.2

/-- Writing a whole range at once keeps the canonical form. -/
theorem fill_wf {m : Memory} (lo : Nat) (bs : List Byte) (w : m.wf = true) : (m.fill lo bs).wf = true := by
  unfold Memory.fill Memory.wf
  obtain ⟨hc, hb⟩ := cells_wfFrom bs lo 0
  rw [List.append_assoc]
  refine append_wfFrom (filter_wfFrom _ w) (fun c h => by simpa using (List.mem_filter.1 h).2) (Nat.zero_le lo) ?_
  exact append_wfFrom hc (fun c h => by simpa using hb c h) (by omega) (filter_from _ w)

/-! ### Values -/

theorem getList_length (m : Memory) (a n : Nat) : (m.getList a n).length = n := by simp [Memory.getList]

theorem bytesLE_length (n v : Nat) : (bytesLE n v).length = n := by
  induction n generalizing v with
  | zero => rfl
  | succ n ih => simp [bytesLE, ih]

/-- What a run of bytes reads just after it was written. -/
theorem getList_putList {m : Memory} (a : Nat) (bs : List Byte) (w : m.wf = true) : (m.putList a bs).getList a bs.length = bs := by
  apply List.ext_getElem
  · simp [Memory.getList]
  · intro i h1 h2
    simp [Memory.getList, get_putList a (a + i) bs w, h2]

/-! ### Copies of home-4 lines in their slice -/

/-- A copy that is given up changes no access in flight. -/
@[simp] theorem h4Drop_flight (s : State) (line : Nat) : (s.h4Drop line).flight = s.flight := rfl

/-- After a system-scope access the slice holds no copy of the line that an older value could be read from (R238, R267). -/
theorem h4Sys_gone (s : State) (line : Nat) : (s.h4Sys line).h4.find? (fun l => l.line == line) = none := by
  simp [State.h4Sys, State.h4Drop, List.find?_eq_none]

/-! ### Sector tags -/

/-- A sector whose bytes a write covers whole carries no tag after it (R457). -/
theorem clearTags_covered (s : State) (ia n sec : Nat) (h : ia ≤ 32 * sec) (h' : 32 * sec + 32 ≤ ia + n) :
    sec ∉ (s.clearTags ia n).poison := by
  unfold State.clearTags
  split
  · rename_i e
    simp [List.isEmpty_iff.mp e]
  · simp [h, h']

/-- A sector that a write does not cover whole keeps its tag (R457). -/
theorem clearTags_other (s : State) (ia n sec : Nat) (h : ¬(ia ≤ 32 * sec ∧ 32 * sec + 32 ≤ ia + n)) :
    (sec ∈ (s.clearTags ia n).poison) = (sec ∈ s.poison) := by
  unfold State.clearTags
  split
  · rfl
  · simp
    intro _
    omega

/-- Reset memory is in canonical form. -/
theorem reset_sound : Safety.Sound State.reset := rfl

end Sys2Proof.Machine
end

