-- ==== Sys2Proof/Laws/PerInstr.lean ====
section
/-!
SUPPORT. What holds of every instruction as syntax, one lemma for each constructor of Instr.
-/

namespace Sys2Proof.Laws

/-- The words of an instruction are as many as the form of its first word says (R34), so that a fetch of the form reads them all. UDF, and a word that is no instruction, is
one word whatever its form bits hold (R56), and an event has no words. -/
def Encoded.Statement (i : Instr) : Prop :=
  (∃ w, i = .udf w ∨ i = .nonInstruction w) ∨ encode i = [] ∨ (encode i).length = wordsOfLen (lenOf ((encode i).headD 0))

/-! ### The form bits of a first word -/

theorem lenOf_toWord (o : W0) (op len : Nat) (h : len < 4) : lenOf (o.toWord op len) = len := by
  simp only [lenOf, W0.toWord]
  rw [BitVec.extractLsb'_append_eq_of_add_le (by omega)]
  simp [Nat.mod_eq_of_lt h]

theorem b32_words (op : Nat) (o : W0) : (encB32 op o).length = wordsOfLen (lenOf ((encB32 op o).headD 0)) := by
  simp [encB32, lenOf_toWord, wordsOfLen]

theorem bl_words (op : Nat) (o : BL) : (encBL op o).length = wordsOfLen (lenOf ((encBL op o).headD 0)) := by
  simp [encBL, lenOf_toWord, wordsOfLen]

theorem x96_words (op : Nat) (o : X96) : (encX96 op o).length = wordsOfLen (lenOf ((encX96 op o).headD 0)) := by
  simp [encX96, lenOf_toWord, wordsOfLen]

theorem xl_words (op : Nat) (o : XL) : (encXL op o).length = wordsOfLen (lenOf ((encXL op o).headD 0)) := by
  simp [encXL, lenOf_toWord, wordsOfLen]

theorem j_words (op : Nat) (o : J) : (encJ op o).length = wordsOfLen (lenOf ((encJ op o).headD 0)) := by
  have h : lenOf (o.off ++ BitVec.ofNat 7 op ++ 0#2) = 0 := by
    simp only [lenOf]
    rw [BitVec.extractLsb'_append_eq_of_add_le (by omega)]
    simp
  simp [encJ, h, wordsOfLen]

/-! ### One lemma for each constructor -/

theorem Encoded.iadd (o : W0) : Encoded.Statement (.iadd o) := .inr (.inr (b32_words _ _))
theorem Encoded.iaddX96 (o : X96) : Encoded.Statement (.iaddX96 o) := .inr (.inr (x96_words _ _))
theorem Encoded.isub (o : W0) : Encoded.Statement (.isub o) := .inr (.inr (b32_words _ _))
theorem Encoded.isubX96 (o : X96) : Encoded.Statement (.isubX96 o) := .inr (.inr (x96_words _ _))
theorem Encoded.imul (o : W0) : Encoded.Statement (.imul o) := .inr (.inr (b32_words _ _))
theorem Encoded.imulX96 (o : X96) : Encoded.Statement (.imulX96 o) := .inr (.inr (x96_words _ _))
theorem Encoded.imulh (o : W0) : Encoded.Statement (.imulh o) := .inr (.inr (b32_words _ _))
theorem Encoded.imulhX96 (o : X96) : Encoded.Statement (.imulhX96 o) := .inr (.inr (x96_words _ _))
theorem Encoded.imad (o : X96) : Encoded.Statement (.imad o) := .inr (.inr (x96_words _ _))
theorem Encoded.imin (o : W0) : Encoded.Statement (.imin o) := .inr (.inr (b32_words _ _))
theorem Encoded.iminX96 (o : X96) : Encoded.Statement (.iminX96 o) := .inr (.inr (x96_words _ _))
theorem Encoded.imax (o : W0) : Encoded.Statement (.imax o) := .inr (.inr (b32_words _ _))
theorem Encoded.imaxX96 (o : X96) : Encoded.Statement (.imaxX96 o) := .inr (.inr (x96_words _ _))
theorem Encoded.and (o : W0) : Encoded.Statement (.and o) := .inr (.inr (b32_words _ _))
theorem Encoded.andX96 (o : X96) : Encoded.Statement (.andX96 o) := .inr (.inr (x96_words _ _))
theorem Encoded.or (o : W0) : Encoded.Statement (.or o) := .inr (.inr (b32_words _ _))
theorem Encoded.orX96 (o : X96) : Encoded.Statement (.orX96 o) := .inr (.inr (x96_words _ _))
theorem Encoded.xor (o : W0) : Encoded.Statement (.xor o) := .inr (.inr (b32_words _ _))
theorem Encoded.xorX96 (o : X96) : Encoded.Statement (.xorX96 o) := .inr (.inr (x96_words _ _))
theorem Encoded.andn (o : W0) : Encoded.Statement (.andn o) := .inr (.inr (b32_words _ _))
theorem Encoded.andnX96 (o : X96) : Encoded.Statement (.andnX96 o) := .inr (.inr (x96_words _ _))
theorem Encoded.shl (o : W0) : Encoded.Statement (.shl o) := .inr (.inr (b32_words _ _))
theorem Encoded.shlX96 (o : X96) : Encoded.Statement (.shlX96 o) := .inr (.inr (x96_words _ _))
theorem Encoded.shr (o : W0) : Encoded.Statement (.shr o) := .inr (.inr (b32_words _ _))
theorem Encoded.shrX96 (o : X96) : Encoded.Statement (.shrX96 o) := .inr (.inr (x96_words _ _))
theorem Encoded.sar (o : W0) : Encoded.Statement (.sar o) := .inr (.inr (b32_words _ _))
theorem Encoded.sarX96 (o : X96) : Encoded.Statement (.sarX96 o) := .inr (.inr (x96_words _ _))
theorem Encoded.ineg (o : W0) : Encoded.Statement (.ineg o) := .inr (.inr (b32_words _ _))
theorem Encoded.inegX96 (o : X96) : Encoded.Statement (.inegX96 o) := .inr (.inr (x96_words _ _))
theorem Encoded.iabs (o : W0) : Encoded.Statement (.iabs o) := .inr (.inr (b32_words _ _))
theorem Encoded.iabsX96 (o : X96) : Encoded.Statement (.iabsX96 o) := .inr (.inr (x96_words _ _))
theorem Encoded.not (o : W0) : Encoded.Statement (.not o) := .inr (.inr (b32_words _ _))
theorem Encoded.notX96 (o : X96) : Encoded.Statement (.notX96 o) := .inr (.inr (x96_words _ _))
theorem Encoded.popc (o : W0) : Encoded.Statement (.popc o) := .inr (.inr (b32_words _ _))
theorem Encoded.popcX96 (o : X96) : Encoded.Statement (.popcX96 o) := .inr (.inr (x96_words _ _))
theorem Encoded.clz (o : W0) : Encoded.Statement (.clz o) := .inr (.inr (b32_words _ _))
theorem Encoded.clzX96 (o : X96) : Encoded.Statement (.clzX96 o) := .inr (.inr (x96_words _ _))
theorem Encoded.brev (o : W0) : Encoded.Statement (.brev o) := .inr (.inr (b32_words _ _))
theorem Encoded.brevX96 (o : X96) : Encoded.Statement (.brevX96 o) := .inr (.inr (x96_words _ _))
theorem Encoded.bfe (o : W0) : Encoded.Statement (.bfe o) := .inr (.inr (b32_words _ _))
theorem Encoded.bfeX96 (o : X96) : Encoded.Statement (.bfeX96 o) := .inr (.inr (x96_words _ _))
theorem Encoded.bfi (o : X96) : Encoded.Statement (.bfi o) := .inr (.inr (x96_words _ _))
theorem Encoded.icmp (o : W0) : Encoded.Statement (.icmp o) := .inr (.inr (b32_words _ _))
theorem Encoded.icmpX96 (o : X96) : Encoded.Statement (.icmpX96 o) := .inr (.inr (x96_words _ _))
theorem Encoded.isel (o : W0) : Encoded.Statement (.isel o) := .inr (.inr (b32_words _ _))
theorem Encoded.iselX96 (o : X96) : Encoded.Statement (.iselX96 o) := .inr (.inr (x96_words _ _))
theorem Encoded.badd (o : W0) : Encoded.Statement (.badd o) := .inr (.inr (b32_words _ _))
theorem Encoded.baddX96 (o : X96) : Encoded.Statement (.baddX96 o) := .inr (.inr (x96_words _ _))
theorem Encoded.bmov (o : W0) : Encoded.Statement (.bmov o) := .inr (.inr (b32_words _ _))
theorem Encoded.bmovX96 (o : X96) : Encoded.Statement (.bmovX96 o) := .inr (.inr (x96_words _ _))
theorem Encoded.bget (o : W0) : Encoded.Statement (.bget o) := .inr (.inr (b32_words _ _))
theorem Encoded.bgetX96 (o : X96) : Encoded.Statement (.bgetX96 o) := .inr (.inr (x96_words _ _))
theorem Encoded.blit (o : BL) : Encoded.Statement (.blit o) := .inr (.inr (bl_words _ _))
theorem Encoded.mov (o : W0) : Encoded.Statement (.mov o) := .inr (.inr (b32_words _ _))
theorem Encoded.movX96 (o : X96) : Encoded.Statement (.movX96 o) := .inr (.inr (x96_words _ _))
theorem Encoded.movi (o : BL) : Encoded.Statement (.movi o) := .inr (.inr (bl_words _ _))
theorem Encoded.lane (o : W0) : Encoded.Statement (.lane o) := .inr (.inr (b32_words _ _))
theorem Encoded.laneX96 (o : X96) : Encoded.Statement (.laneX96 o) := .inr (.inr (x96_words _ _))
theorem Encoded.shape (o : W0) : Encoded.Statement (.shape o) := .inr (.inr (b32_words _ _))
theorem Encoded.shapeX96 (o : X96) : Encoded.Statement (.shapeX96 o) := .inr (.inr (x96_words _ _))
theorem Encoded.shapea (o : W0) : Encoded.Statement (.shapea o) := .inr (.inr (b32_words _ _))
theorem Encoded.shapeaX96 (o : X96) : Encoded.Statement (.shapeaX96 o) := .inr (.inr (x96_words _ _))
theorem Encoded.shapef (o : W0) : Encoded.Statement (.shapef o) := .inr (.inr (b32_words _ _))
theorem Encoded.shapefX96 (o : X96) : Encoded.Statement (.shapefX96 o) := .inr (.inr (x96_words _ _))
theorem Encoded.sqz (o : W0) : Encoded.Statement (.sqz o) := .inr (.inr (b32_words _ _))
theorem Encoded.sqzX96 (o : X96) : Encoded.Statement (.sqzX96 o) := .inr (.inr (x96_words _ _))
theorem Encoded.bcast (o : W0) : Encoded.Statement (.bcast o) := .inr (.inr (b32_words _ _))
theorem Encoded.bcastX96 (o : X96) : Encoded.Statement (.bcastX96 o) := .inr (.inr (x96_words _ _))
theorem Encoded.shfl (o : W0) : Encoded.Statement (.shfl o) := .inr (.inr (b32_words _ _))
theorem Encoded.shflX96 (o : X96) : Encoded.Statement (.shflX96 o) := .inr (.inr (x96_words _ _))
theorem Encoded.vote (o : W0) : Encoded.Statement (.vote o) := .inr (.inr (b32_words _ _))
theorem Encoded.voteX96 (o : X96) : Encoded.Statement (.voteX96 o) := .inr (.inr (x96_words _ _))
theorem Encoded.lred (o : W0) : Encoded.Statement (.lred o) := .inr (.inr (b32_words _ _))
theorem Encoded.lredX96 (o : X96) : Encoded.Statement (.lredX96 o) := .inr (.inr (x96_words _ _))
theorem Encoded.gid (o : W0) : Encoded.Statement (.gid o) := .inr (.inr (b32_words _ _))
theorem Encoded.gidX96 (o : X96) : Encoded.Statement (.gidX96 o) := .inr (.inr (x96_words _ _))
theorem Encoded.kand (o : W0) : Encoded.Statement (.kand o) := .inr (.inr (b32_words _ _))
theorem Encoded.kandX96 (o : X96) : Encoded.Statement (.kandX96 o) := .inr (.inr (x96_words _ _))
theorem Encoded.kor (o : W0) : Encoded.Statement (.kor o) := .inr (.inr (b32_words _ _))
theorem Encoded.korX96 (o : X96) : Encoded.Statement (.korX96 o) := .inr (.inr (x96_words _ _))
theorem Encoded.kxor (o : W0) : Encoded.Statement (.kxor o) := .inr (.inr (b32_words _ _))
theorem Encoded.kxorX96 (o : X96) : Encoded.Statement (.kxorX96 o) := .inr (.inr (x96_words _ _))
theorem Encoded.kandn (o : W0) : Encoded.Statement (.kandn o) := .inr (.inr (b32_words _ _))
theorem Encoded.kandnX96 (o : X96) : Encoded.Statement (.kandnX96 o) := .inr (.inr (x96_words _ _))
theorem Encoded.knot (o : W0) : Encoded.Statement (.knot o) := .inr (.inr (b32_words _ _))
theorem Encoded.knotX96 (o : X96) : Encoded.Statement (.knotX96 o) := .inr (.inr (x96_words _ _))
theorem Encoded.kmov (o : W0) : Encoded.Statement (.kmov o) := .inr (.inr (b32_words _ _))
theorem Encoded.kmovX96 (o : X96) : Encoded.Statement (.kmovX96 o) := .inr (.inr (x96_words _ _))
theorem Encoded.kset (o : W0) : Encoded.Statement (.kset o) := .inr (.inr (b32_words _ _))
theorem Encoded.ksetX96 (o : X96) : Encoded.Statement (.ksetX96 o) := .inr (.inr (x96_words _ _))
theorem Encoded.kpop (o : W0) : Encoded.Statement (.kpop o) := .inr (.inr (b32_words _ _))
theorem Encoded.kpopX96 (o : X96) : Encoded.Statement (.kpopX96 o) := .inr (.inr (x96_words _ _))
theorem Encoded.kget (o : W0) : Encoded.Statement (.kget o) := .inr (.inr (b32_words _ _))
theorem Encoded.kgetX96 (o : X96) : Encoded.Statement (.kgetX96 o) := .inr (.inr (x96_words _ _))
theorem Encoded.fadd (o : W0) : Encoded.Statement (.fadd o) := .inr (.inr (b32_words _ _))
theorem Encoded.faddX96 (o : X96) : Encoded.Statement (.faddX96 o) := .inr (.inr (x96_words _ _))
theorem Encoded.fsub (o : W0) : Encoded.Statement (.fsub o) := .inr (.inr (b32_words _ _))
theorem Encoded.fsubX96 (o : X96) : Encoded.Statement (.fsubX96 o) := .inr (.inr (x96_words _ _))
theorem Encoded.fmul (o : W0) : Encoded.Statement (.fmul o) := .inr (.inr (b32_words _ _))
theorem Encoded.fmulX96 (o : X96) : Encoded.Statement (.fmulX96 o) := .inr (.inr (x96_words _ _))
theorem Encoded.ffma (o : W0) : Encoded.Statement (.ffma o) := .inr (.inr (b32_words _ _))
theorem Encoded.ffmaX96 (o : X96) : Encoded.Statement (.ffmaX96 o) := .inr (.inr (x96_words _ _))
theorem Encoded.fmin (o : W0) : Encoded.Statement (.fmin o) := .inr (.inr (b32_words _ _))
theorem Encoded.fminX96 (o : X96) : Encoded.Statement (.fminX96 o) := .inr (.inr (x96_words _ _))
theorem Encoded.fmax (o : W0) : Encoded.Statement (.fmax o) := .inr (.inr (b32_words _ _))
theorem Encoded.fmaxX96 (o : X96) : Encoded.Statement (.fmaxX96 o) := .inr (.inr (x96_words _ _))
theorem Encoded.fcmp (o : W0) : Encoded.Statement (.fcmp o) := .inr (.inr (b32_words _ _))
theorem Encoded.fcmpX96 (o : X96) : Encoded.Statement (.fcmpX96 o) := .inr (.inr (x96_words _ _))
theorem Encoded.fneg (o : W0) : Encoded.Statement (.fneg o) := .inr (.inr (b32_words _ _))
theorem Encoded.fnegX96 (o : X96) : Encoded.Statement (.fnegX96 o) := .inr (.inr (x96_words _ _))
theorem Encoded.fabs (o : W0) : Encoded.Statement (.fabs o) := .inr (.inr (b32_words _ _))
theorem Encoded.fabsX96 (o : X96) : Encoded.Statement (.fabsX96 o) := .inr (.inr (x96_words _ _))
theorem Encoded.frcp (o : W0) : Encoded.Statement (.frcp o) := .inr (.inr (b32_words _ _))
theorem Encoded.frcpX96 (o : X96) : Encoded.Statement (.frcpX96 o) := .inr (.inr (x96_words _ _))
theorem Encoded.frsq (o : W0) : Encoded.Statement (.frsq o) := .inr (.inr (b32_words _ _))
theorem Encoded.frsqX96 (o : X96) : Encoded.Statement (.frsqX96 o) := .inr (.inr (x96_words _ _))
theorem Encoded.fsqrt (o : W0) : Encoded.Statement (.fsqrt o) := .inr (.inr (b32_words _ _))
theorem Encoded.fsqrtX96 (o : X96) : Encoded.Statement (.fsqrtX96 o) := .inr (.inr (x96_words _ _))
theorem Encoded.fexp2 (o : W0) : Encoded.Statement (.fexp2 o) := .inr (.inr (b32_words _ _))
theorem Encoded.fexp2X96 (o : X96) : Encoded.Statement (.fexp2X96 o) := .inr (.inr (x96_words _ _))
theorem Encoded.flog2 (o : W0) : Encoded.Statement (.flog2 o) := .inr (.inr (b32_words _ _))
theorem Encoded.flog2X96 (o : X96) : Encoded.Statement (.flog2X96 o) := .inr (.inr (x96_words _ _))
theorem Encoded.fsin (o : W0) : Encoded.Statement (.fsin o) := .inr (.inr (b32_words _ _))
theorem Encoded.fsinX96 (o : X96) : Encoded.Statement (.fsinX96 o) := .inr (.inr (x96_words _ _))
theorem Encoded.fcos (o : W0) : Encoded.Statement (.fcos o) := .inr (.inr (b32_words _ _))
theorem Encoded.fcosX96 (o : X96) : Encoded.Statement (.fcosX96 o) := .inr (.inr (x96_words _ _))
theorem Encoded.ftanh (o : W0) : Encoded.Statement (.ftanh o) := .inr (.inr (b32_words _ _))
theorem Encoded.ftanhX96 (o : X96) : Encoded.Statement (.ftanhX96 o) := .inr (.inr (x96_words _ _))
theorem Encoded.fclass (o : W0) : Encoded.Statement (.fclass o) := .inr (.inr (b32_words _ _))
theorem Encoded.fclassX96 (o : X96) : Encoded.Statement (.fclassX96 o) := .inr (.inr (x96_words _ _))
theorem Encoded.cvt (o : W0) : Encoded.Statement (.cvt o) := .inr (.inr (b32_words _ _))
theorem Encoded.cvtX96 (o : X96) : Encoded.Statement (.cvtX96 o) := .inr (.inr (x96_words _ _))
theorem Encoded.cvtq (o : X96) : Encoded.Statement (.cvtq o) := .inr (.inr (x96_words _ _))
theorem Encoded.cvtd (o : W0) : Encoded.Statement (.cvtd o) := .inr (.inr (b32_words _ _))
theorem Encoded.cvtdX96 (o : X96) : Encoded.Statement (.cvtdX96 o) := .inr (.inr (x96_words _ _))
theorem Encoded.amax (o : W0) : Encoded.Statement (.amax o) := .inr (.inr (b32_words _ _))
theorem Encoded.amaxX96 (o : X96) : Encoded.Statement (.amaxX96 o) := .inr (.inr (x96_words _ _))
theorem Encoded.amget (o : W0) : Encoded.Statement (.amget o) := .inr (.inr (b32_words _ _))
theorem Encoded.amgetX96 (o : X96) : Encoded.Statement (.amgetX96 o) := .inr (.inr (x96_words _ _))
theorem Encoded.jmp (o : J) : Encoded.Statement (.jmp o) := .inr (.inr (j_words _ _))
theorem Encoded.call (o : J) : Encoded.Statement (.call o) := .inr (.inr (j_words _ _))
theorem Encoded.br (o : X96) : Encoded.Statement (.br o) := .inr (.inr (x96_words _ _))
theorem Encoded.bru (o : X96) : Encoded.Statement (.bru o) := .inr (.inr (x96_words _ _))
theorem Encoded.join (o : W0) : Encoded.Statement (.join o) := .inr (.inr (b32_words _ _))
theorem Encoded.joinX96 (o : X96) : Encoded.Statement (.joinX96 o) := .inr (.inr (x96_words _ _))
theorem Encoded.ret (o : W0) : Encoded.Statement (.ret o) := .inr (.inr (b32_words _ _))
theorem Encoded.retX96 (o : X96) : Encoded.Statement (.retX96 o) := .inr (.inr (x96_words _ _))
theorem Encoded.jmpi (o : W0) : Encoded.Statement (.jmpi o) := .inr (.inr (b32_words _ _))
theorem Encoded.jmpiX96 (o : X96) : Encoded.Statement (.jmpiX96 o) := .inr (.inr (x96_words _ _))
theorem Encoded.calli (o : W0) : Encoded.Statement (.calli o) := .inr (.inr (b32_words _ _))
theorem Encoded.calliX96 (o : X96) : Encoded.Statement (.calliX96 o) := .inr (.inr (x96_words _ _))
theorem Encoded.fcall (o : XL) : Encoded.Statement (.fcall o) := .inr (.inr (xl_words _ _))
theorem Encoded.exit (o : W0) : Encoded.Statement (.exit o) := .inr (.inr (b32_words _ _))
theorem Encoded.exitX96 (o : X96) : Encoded.Statement (.exitX96 o) := .inr (.inr (x96_words _ _))
theorem Encoded.jget (o : W0) : Encoded.Statement (.jget o) := .inr (.inr (b32_words _ _))
theorem Encoded.jgetX96 (o : X96) : Encoded.Statement (.jgetX96 o) := .inr (.inr (x96_words _ _))
theorem Encoded.jput (o : X96) : Encoded.Statement (.jput o) := .inr (.inr (x96_words _ _))
theorem Encoded.trap (o : W0) : Encoded.Statement (.trap o) := .inr (.inr (b32_words _ _))
theorem Encoded.trapX96 (o : X96) : Encoded.Statement (.trapX96 o) := .inr (.inr (x96_words _ _))
theorem Encoded.thret (o : W0) : Encoded.Statement (.thret o) := .inr (.inr (b32_words _ _))
theorem Encoded.thretX96 (o : X96) : Encoded.Statement (.thretX96 o) := .inr (.inr (x96_words _ _))
theorem Encoded.ld (o : W0) : Encoded.Statement (.ld o) := .inr (.inr (b32_words _ _))
theorem Encoded.ldX96 (o : X96) : Encoded.Statement (.ldX96 o) := .inr (.inr (x96_words _ _))
theorem Encoded.st (o : W0) : Encoded.Statement (.st o) := .inr (.inr (b32_words _ _))
theorem Encoded.stX96 (o : X96) : Encoded.Statement (.stX96 o) := .inr (.inr (x96_words _ _))
theorem Encoded.lds (o : W0) : Encoded.Statement (.lds o) := .inr (.inr (b32_words _ _))
theorem Encoded.ldsX96 (o : X96) : Encoded.Statement (.ldsX96 o) := .inr (.inr (x96_words _ _))
theorem Encoded.sts (o : W0) : Encoded.Statement (.sts o) := .inr (.inr (b32_words _ _))
theorem Encoded.stsX96 (o : X96) : Encoded.Statement (.stsX96 o) := .inr (.inr (x96_words _ _))
theorem Encoded.ldp (o : W0) : Encoded.Statement (.ldp o) := .inr (.inr (b32_words _ _))
theorem Encoded.ldpX96 (o : X96) : Encoded.Statement (.ldpX96 o) := .inr (.inr (x96_words _ _))
theorem Encoded.stp (o : W0) : Encoded.Statement (.stp o) := .inr (.inr (b32_words _ _))
theorem Encoded.stpX96 (o : X96) : Encoded.Statement (.stpX96 o) := .inr (.inr (x96_words _ _))
theorem Encoded.ldf (o : W0) : Encoded.Statement (.ldf o) := .inr (.inr (b32_words _ _))
theorem Encoded.ldfX96 (o : X96) : Encoded.Statement (.ldfX96 o) := .inr (.inr (x96_words _ _))
theorem Encoded.ldfk (o : W0) : Encoded.Statement (.ldfk o) := .inr (.inr (b32_words _ _))
theorem Encoded.ldfkX96 (o : X96) : Encoded.Statement (.ldfkX96 o) := .inr (.inr (x96_words _ _))
theorem Encoded.stf (o : W0) : Encoded.Statement (.stf o) := .inr (.inr (b32_words _ _))
theorem Encoded.stfX96 (o : X96) : Encoded.Statement (.stfX96 o) := .inr (.inr (x96_words _ _))
theorem Encoded.feset (o : W0) : Encoded.Statement (.feset o) := .inr (.inr (b32_words _ _))
theorem Encoded.fesetX96 (o : X96) : Encoded.Statement (.fesetX96 o) := .inr (.inr (x96_words _ _))
theorem Encoded.ldt (o : W0) : Encoded.Statement (.ldt o) := .inr (.inr (b32_words _ _))
theorem Encoded.ldtX96 (o : X96) : Encoded.Statement (.ldtX96 o) := .inr (.inr (x96_words _ _))
theorem Encoded.stct (o : X96) : Encoded.Statement (.stct o) := .inr (.inr (x96_words _ _))
theorem Encoded.stz (o : W0) : Encoded.Statement (.stz o) := .inr (.inr (b32_words _ _))
theorem Encoded.stzX96 (o : X96) : Encoded.Statement (.stzX96 o) := .inr (.inr (x96_words _ _))
theorem Encoded.ldz (o : W0) : Encoded.Statement (.ldz o) := .inr (.inr (b32_words _ _))
theorem Encoded.ldzX96 (o : X96) : Encoded.Statement (.ldzX96 o) := .inr (.inr (x96_words _ _))
theorem Encoded.pref (o : W0) : Encoded.Statement (.pref o) := .inr (.inr (b32_words _ _))
theorem Encoded.prefX96 (o : X96) : Encoded.Statement (.prefX96 o) := .inr (.inr (x96_words _ _))
theorem Encoded.cwb (o : W0) : Encoded.Statement (.cwb o) := .inr (.inr (b32_words _ _))
theorem Encoded.cwbX96 (o : X96) : Encoded.Statement (.cwbX96 o) := .inr (.inr (x96_words _ _))
theorem Encoded.atom (o : X96) : Encoded.Statement (.atom o) := .inr (.inr (x96_words _ _))
theorem Encoded.red (o : W0) : Encoded.Statement (.red o) := .inr (.inr (b32_words _ _))
theorem Encoded.redX96 (o : X96) : Encoded.Statement (.redX96 o) := .inr (.inr (x96_words _ _))
theorem Encoded.acas (o : X96) : Encoded.Statement (.acas o) := .inr (.inr (x96_words _ _))
theorem Encoded.fence (o : W0) : Encoded.Statement (.fence o) := .inr (.inr (b32_words _ _))
theorem Encoded.fenceX96 (o : X96) : Encoded.Statement (.fenceX96 o) := .inr (.inr (x96_words _ _))
theorem Encoded.xfence (o : X96) : Encoded.Statement (.xfence o) := .inr (.inr (x96_words _ _))
theorem Encoded.publish (o : W0) : Encoded.Statement (.publish o) := .inr (.inr (b32_words _ _))
theorem Encoded.publishX96 (o : X96) : Encoded.Statement (.publishX96 o) := .inr (.inr (x96_words _ _))
theorem Encoded.chunk (o : W0) : Encoded.Statement (.chunk o) := .inr (.inr (b32_words _ _))
theorem Encoded.chunkX96 (o : X96) : Encoded.Statement (.chunkX96 o) := .inr (.inr (x96_words _ _))
theorem Encoded.launch (o : W0) : Encoded.Statement (.launch o) := .inr (.inr (b32_words _ _))
theorem Encoded.launchX96 (o : X96) : Encoded.Statement (.launchX96 o) := .inr (.inr (x96_words _ _))
theorem Encoded.bar (o : W0) : Encoded.Statement (.bar o) := .inr (.inr (b32_words _ _))
theorem Encoded.barX96 (o : X96) : Encoded.Statement (.barX96 o) := .inr (.inr (x96_words _ _))
theorem Encoded.phreg (o : X96) : Encoded.Statement (.phreg o) := .inr (.inr (x96_words _ _))
theorem Encoded.phdrop (o : X96) : Encoded.Statement (.phdrop o) := .inr (.inr (x96_words _ _))
theorem Encoded.phsig (o : X96) : Encoded.Statement (.phsig o) := .inr (.inr (x96_words _ _))
theorem Encoded.phwait (o : X96) : Encoded.Statement (.phwait o) := .inr (.inr (x96_words _ _))
theorem Encoded.phsw (o : X96) : Encoded.Statement (.phsw o) := .inr (.inr (x96_words _ _))
theorem Encoded.phq (o : X96) : Encoded.Statement (.phq o) := .inr (.inr (x96_words _ _))
theorem Encoded.rdef (o : X96) : Encoded.Statement (.rdef o) := .inr (.inr (x96_words _ _))
theorem Encoded.racq (o : X96) : Encoded.Statement (.racq o) := .inr (.inr (x96_words _ _))
theorem Encoded.rpub (o : X96) : Encoded.Statement (.rpub o) := .inr (.inr (x96_words _ _))
theorem Encoded.rget (o : X96) : Encoded.Statement (.rget o) := .inr (.inr (x96_words _ _))
theorem Encoded.rrel (o : X96) : Encoded.Statement (.rrel o) := .inr (.inr (x96_words _ _))
theorem Encoded.cpy (o : X96) : Encoded.Statement (.cpy o) := .inr (.inr (x96_words _ _))
theorem Encoded.cpyw (o : X96) : Encoded.Statement (.cpyw o) := .inr (.inr (x96_words _ _))
theorem Encoded.wld (o : W0) : Encoded.Statement (.wld o) := .inr (.inr (b32_words _ _))
theorem Encoded.wldX96 (o : X96) : Encoded.Statement (.wldX96 o) := .inr (.inr (x96_words _ _))
theorem Encoded.wswap (o : X96) : Encoded.Statement (.wswap o) := .inr (.inr (x96_words _ _))
theorem Encoded.mma (o : XL) : Encoded.Statement (.mma o) := .inr (.inr (xl_words _ _))
theorem Encoded.mdrain (o : X96) : Encoded.Statement (.mdrain o) := .inr (.inr (x96_words _ _))
theorem Encoded.ashape (o : X96) : Encoded.Statement (.ashape o) := .inr (.inr (x96_words _ _))
theorem Encoded.twait (o : X96) : Encoded.Statement (.twait o) := .inr (.inr (x96_words _ _))
theorem Encoded.tqry (o : X96) : Encoded.Statement (.tqry o) := .inr (.inr (x96_words _ _))
theorem Encoded.yield (o : W0) : Encoded.Statement (.yield o) := .inr (.inr (b32_words _ _))
theorem Encoded.yieldX96 (o : X96) : Encoded.Statement (.yieldX96 o) := .inr (.inr (x96_words _ _))
theorem Encoded.sleep (o : X96) : Encoded.Statement (.sleep o) := .inr (.inr (x96_words _ _))
theorem Encoded.cropen (o : X96) : Encoded.Statement (.cropen o) := .inr (.inr (x96_words _ _))
theorem Encoded.crclose (o : X96) : Encoded.Statement (.crclose o) := .inr (.inr (x96_words _ _))
theorem Encoded.mapv (o : X96) : Encoded.Statement (.mapv o) := .inr (.inr (x96_words _ _))
theorem Encoded.mapack (o : X96) : Encoded.Statement (.mapack o) := .inr (.inr (x96_words _ _))
theorem Encoded.feat (o : X96) : Encoded.Statement (.feat o) := .inr (.inr (x96_words _ _))
theorem Encoded.clk (o : X96) : Encoded.Statement (.clk o) := .inr (.inr (x96_words _ _))
theorem Encoded.pmrd (o : X96) : Encoded.Statement (.pmrd o) := .inr (.inr (x96_words _ _))
theorem Encoded.pmcfg (o : X96) : Encoded.Statement (.pmcfg o) := .inr (.inr (x96_words _ _))
theorem Encoded.prog (o : X96) : Encoded.Statement (.prog o) := .inr (.inr (x96_words _ _))
theorem Encoded.udf (w : Word) : Encoded.Statement (.udf w) := .inl ⟨_, .inl rfl⟩
theorem Encoded.nonInstruction (w : Word) : Encoded.Statement (.nonInstruction w) := .inl ⟨_, .inr rfl⟩
theorem Encoded.nop (o : W0) : Encoded.Statement (.nop o) := .inr (.inr (b32_words _ _))
theorem Encoded.nopX96 (o : X96) : Encoded.Statement (.nopX96 o) := .inr (.inr (x96_words _ _))
theorem Encoded.yieldp : Encoded.Statement (.yieldp) := .inr (.inr (b32_words _ _))
theorem Encoded.yieldpX96 : Encoded.Statement (.yieldpX96) := .inr (.inr (x96_words _ _))
theorem Encoded.producerComplete (producer : Nat) : Encoded.Statement (.producerComplete producer) := .inr (.inl rfl)
theorem Encoded.trapDelivery (strand : Nat) : Encoded.Statement (.trapDelivery strand) := .inr (.inl rfl)
theorem Encoded.mapTrapDelivery (strand : Nat) : Encoded.Statement (.mapTrapDelivery strand) := .inr (.inl rfl)
theorem Encoded.containmentUnwind (strand : Nat) : Encoded.Statement (.containmentUnwind strand) := .inr (.inl rfl)
theorem Encoded.strandExited (strand : Nat) : Encoded.Statement (.strandExited strand) := .inr (.inl rfl)
theorem Encoded.forkResolution (strand : Nat) : Encoded.Statement (.forkResolution strand) := .inr (.inl rfl)
theorem Encoded.teamPlace (launch team : Nat) (p : Placement) : Encoded.Statement (.teamPlace launch team p) := .inr (.inl rfl)
theorem Encoded.levelRise (launch team : Nat) : Encoded.Statement (.levelRise launch team) := .inr (.inl rfl)
theorem Encoded.priorityPreempt (launch team victim : Nat) : Encoded.Statement (.priorityPreempt launch team victim) := .inr (.inl rfl)
theorem Encoded.preemptTimeout (strand : Nat) : Encoded.Statement (.preemptTimeout strand) := .inr (.inl rfl)
theorem Encoded.groupSave (group : Nat) : Encoded.Statement (.groupSave group) := .inr (.inl rfl)
theorem Encoded.sleepWake (strand : Nat) : Encoded.Statement (.sleepWake strand) := .inr (.inl rfl)
theorem Encoded.operatingPointChange (island : Nat) : Encoded.Statement (.operatingPointChange island) := .inr (.inl rfl)
theorem Encoded.phaserPoll (strand : Nat) : Encoded.Statement (.phaserPoll strand) := .inr (.inl rfl)
theorem Encoded.accessPerformed (access : Nat) : Encoded.Statement (.accessPerformed access) := .inr (.inl rfl)
theorem Encoded.releaseWritePerformed (access : Nat) : Encoded.Statement (.releaseWritePerformed access) := .inr (.inl rfl)
theorem Encoded.publishIncrement (access : Nat) : Encoded.Statement (.publishIncrement access) := .inr (.inl rfl)
theorem Encoded.firstTouch (ia frame : Nat) : Encoded.Statement (.firstTouch ia frame) := .inr (.inl rfl)
theorem Encoded.hostApertureWrite (func link ia : Nat) (bytes : List Byte) : Encoded.Statement (.hostApertureWrite func link ia bytes) := .inr (.inl rfl)
theorem Encoded.hostApertureRead (func link ia n : Nat) : Encoded.Statement (.hostApertureRead func link ia n) := .inr (.inl rfl)
theorem Encoded.peerDmaTransfer (port : Nat) (write : Bool) (ia n : Nat) (bytes : List Byte) : Encoded.Statement (.peerDmaTransfer port write ia n bytes) := .inr (.inl rfl)
theorem Encoded.queueDoorbell (func ctx q : Nat) (tail : BitVec 32) : Encoded.Statement (.queueDoorbell func ctx q tail) := .inr (.inl rfl)
theorem Encoded.queueCtrlEnable (func ctx q : Nat) : Encoded.Statement (.queueCtrlEnable func ctx q) := .inr (.inl rfl)
theorem Encoded.queueCtrlDisable (func ctx q : Nat) : Encoded.Statement (.queueCtrlDisable func ctx q) := .inr (.inl rfl)
theorem Encoded.queueCtrlResume (func ctx q : Nat) : Encoded.Statement (.queueCtrlResume func ctx q) := .inr (.inl rfl)
theorem Encoded.queueCtrlReset (func ctx q : Nat) : Encoded.Statement (.queueCtrlReset func ctx q) := .inr (.inl rfl)
theorem Encoded.queueCtrlDevsub (func ctx q : Nat) (devsub : Bool) : Encoded.Statement (.queueCtrlDevsub func ctx q devsub) := .inr (.inl rfl)
theorem Encoded.registerWrite (func ctx q : Nat) (field : QField) (value : DWord) : Encoded.Statement (.registerWrite func ctx q field value) := .inr (.inl rfl)
theorem Encoded.eqheadWrite (func ctx : Nat) (value : BitVec 32) : Encoded.Statement (.eqheadWrite func ctx value) := .inr (.inl rfl)
theorem Encoded.queueFetch (ctx q : Nat) : Encoded.Statement (.queueFetch ctx q) := .inr (.inl rfl)
theorem Encoded.launchEntry (ctx q : Nat) : Encoded.Statement (.launchEntry ctx q) := .inr (.inl rfl)
theorem Encoded.waitEntry (ctx q : Nat) : Encoded.Statement (.waitEntry ctx q) := .inr (.inl rfl)
theorem Encoded.waitSatisfied (ctx q : Nat) : Encoded.Statement (.waitSatisfied ctx q) := .inr (.inl rfl)
theorem Encoded.signalEntry (ctx q : Nat) : Encoded.Statement (.signalEntry ctx q) := .inr (.inl rfl)
theorem Encoded.signalWrite (ctx q : Nat) : Encoded.Statement (.signalWrite ctx q) := .inr (.inl rfl)
theorem Encoded.windowUpdateEntry (ctx q : Nat) : Encoded.Statement (.windowUpdateEntry ctx q) := .inr (.inl rfl)
theorem Encoded.remapEntry (ctx q : Nat) : Encoded.Statement (.remapEntry ctx q) := .inr (.inl rfl)
theorem Encoded.unplaceEntry (ctx q : Nat) : Encoded.Statement (.unplaceEntry ctx q) := .inr (.inl rfl)
theorem Encoded.frameEntry (ctx q : Nat) : Encoded.Statement (.frameEntry ctx q) := .inr (.inl rfl)
theorem Encoded.mappingDrainComplete (change : Nat) : Encoded.Statement (.mappingDrainComplete change) := .inr (.inl rfl)
theorem Encoded.copyComplete (copy : Nat) : Encoded.Statement (.copyComplete copy) := .inr (.inl rfl)
theorem Encoded.taskIssue (cluster entry : Nat) : Encoded.Statement (.taskIssue cluster entry) := .inr (.inl rfl)
theorem Encoded.taskRetire (cluster entry : Nat) : Encoded.Statement (.taskRetire cluster entry) := .inr (.inl rfl)
theorem Encoded.bandPowerUp (cluster band : Nat) : Encoded.Statement (.bandPowerUp cluster band) := .inr (.inl rfl)
theorem Encoded.chargeGrant (cluster : Nat) : Encoded.Statement (.chargeGrant cluster) := .inr (.inl rfl)
theorem Encoded.chargeRefill (cluster : Nat) : Encoded.Statement (.chargeRefill cluster) := .inr (.inl rfl)
theorem Encoded.thermalThrottle (island : Nat) (reading : Int) : Encoded.Statement (.thermalThrottle island reading) := .inr (.inl rfl)
theorem Encoded.thermalRelease (island : Nat) (reading : Int) : Encoded.Statement (.thermalRelease island reading) := .inr (.inl rfl)
theorem Encoded.thermalCritical (island : Nat) (reading : Int) : Encoded.Statement (.thermalCritical island reading) := .inr (.inl rfl)
theorem Encoded.contextCreate (func : Nat) (desc : List Byte) (wrappedKey : List Byte) : Encoded.Statement (.contextCreate func desc wrappedKey) := .inr (.inl rfl)
theorem Encoded.contextEnable (func ctx : Nat) : Encoded.Statement (.contextEnable func ctx) := .inr (.inl rfl)
theorem Encoded.contextSuspend (func ctx : Nat) : Encoded.Statement (.contextSuspend func ctx) := .inr (.inl rfl)
theorem Encoded.contextResume (func ctx : Nat) : Encoded.Statement (.contextResume func ctx) := .inr (.inl rfl)
theorem Encoded.contextDestroy (func ctx : Nat) : Encoded.Statement (.contextDestroy func ctx) := .inr (.inl rfl)
theorem Encoded.mapAcknowledge (func ctx : Nat) (version : DWord) : Encoded.Statement (.mapAcknowledge func ctx version) := .inr (.inl rfl)
theorem Encoded.sliceExpiry : Encoded.Statement (.sliceExpiry) := .inr (.inl rfl)
theorem Encoded.graceExpiry (ctx : Nat) : Encoded.Statement (.graceExpiry ctx) := .inr (.inl rfl)
theorem Encoded.counterClaim (func ctx n : Nat) : Encoded.Statement (.counterClaim func ctx n) := .inr (.inl rfl)
theorem Encoded.counterRelease (func ctx n : Nat) : Encoded.Statement (.counterRelease func ctx n) := .inr (.inl rfl)
theorem Encoded.traceEnable (func ctx ring slots : Nat) : Encoded.Statement (.traceEnable func ctx ring slots) := .inr (.inl rfl)
theorem Encoded.kernelLoad (ctx : Nat) (obj : CodeObject) : Encoded.Statement (.kernelLoad ctx obj) := .inr (.inl rfl)
theorem Encoded.kernelUnload (ctx base : Nat) : Encoded.Statement (.kernelUnload ctx base) := .inr (.inl rfl)
theorem Encoded.errorDetected (e : ErrorSource) : Encoded.Statement (.errorDetected e) := .inr (.inl rfl)
theorem Encoded.selfTestComplete (u : UnitId) (pass : Bool) : Encoded.Statement (.selfTestComplete u pass) := .inr (.inl rfl)
theorem Encoded.replayCheck (core quadrant index : Nat) (mismatch : Bool) : Encoded.Statement (.replayCheck core quadrant index mismatch) := .inr (.inl rfl)
theorem Encoded.shadowSet (func : Nat) (on : Bool) : Encoded.Statement (.shadowSet func on) := .inr (.inl rfl)
theorem Encoded.attestationReport (func : Nat) (nonce : List Byte) : Encoded.Statement (.attestationReport func nonce) := .inr (.inl rfl)
theorem Encoded.deviceReset : Encoded.Statement (.deviceReset) := .inr (.inl rfl)
theorem Encoded.bringupStageComplete (pass sigFail : Bool) (t : TestOutcome) : Encoded.Statement (.bringupStageComplete pass sigFail t) := .inr (.inl rfl)
theorem Encoded.bringupSelfTestComplete (t : TestOutcome) : Encoded.Statement (.bringupSelfTestComplete t) := .inr (.inl rfl)
theorem Encoded.hostLinkInit (link : Nat) (hot : Bool) : Encoded.Statement (.hostLinkInit link hot) := .inr (.inl rfl)
theorem Encoded.peerEnable (func port : Nat) : Encoded.Statement (.peerEnable func port) := .inr (.inl rfl)
theorem Encoded.peerDisable (func port : Nat) : Encoded.Statement (.peerDisable func port) := .inr (.inl rfl)
theorem Encoded.linkTrained (link width speed : Nat) : Encoded.Statement (.linkTrained link width speed) := .inr (.inl rfl)
theorem Encoded.linkTrainTimeout (link : Nat) : Encoded.Statement (.linkTrainTimeout link) := .inr (.inl rfl)
theorem Encoded.linkRetrain (link : Nat) : Encoded.Statement (.linkRetrain link) := .inr (.inl rfl)
theorem Encoded.chargeTargetSet (func cluster rt : Nat) : Encoded.Statement (.chargeTargetSet func cluster rt) := .inr (.inl rfl)
theorem Encoded.classWeightSet (func cluster cls weight : Nat) : Encoded.Statement (.classWeightSet func cluster cls weight) := .inr (.inl rfl)
theorem Encoded.thermalThresholdSet (func island : Nat) (th : Int) : Encoded.Statement (.thermalThresholdSet func island th) := .inr (.inl rfl)
theorem Encoded.fabricCounterOwnerSet (func counter owner : Nat) : Encoded.Statement (.fabricCounterOwnerSet func counter owner) := .inr (.inl rfl)
theorem Encoded.fabricCounterRead (func counter : Nat) : Encoded.Statement (.fabricCounterRead func counter) := .inr (.inl rfl)
theorem Encoded.pageTableRead (func ia : Nat) : Encoded.Statement (.pageTableRead func ia) := .inr (.inl rfl)
theorem Encoded.lullTrial (func : Nat) (clusters : List Nat) (fractions : List Nat) (ms : Nat) : Encoded.Statement (.lullTrial func clusters fractions ms) := .inr (.inl rfl)
theorem Encoded.lullStepExpiry : Encoded.Statement (.lullStepExpiry) := .inr (.inl rfl)
theorem Encoded.traceStop (func ctx : Nat) : Encoded.Statement (.traceStop func ctx) := .inr (.inl rfl)

end Sys2Proof.Laws
end

