-- ==== Sys2Proof/Laws/Sound.lean ====
section
/-!
SUPPORT. The operations over home slices, L1 lines and pages keep memory in its canonical form: one lemma each, cited by the invariant.
-/

namespace Sys2Proof.Machine

/-- A state whose memory is that of a sound state is sound. -/
theorem sound_of_mem {s t : State} (e : t.mem = s.mem) (h : Safety.Sound s) : Safety.Sound t := by
  unfold Safety.Sound at *
  rw [e]
  exact h

/-- A fold of steps that each keep the state sound keeps it sound. -/
theorem sound_foldl {α : Type} (f : State → α → State) (hf : ∀ t x, Safety.Sound t → Safety.Sound (f t x)) (l : List α) {s : State}
    (h : Safety.Sound s) : Safety.Sound (l.foldl f s) := by
  induction l generalizing s with
  | nil => exact h
  | cons x l ih => exact ih (hf s x h)

/-! ### Steps that leave memory -/

@[simp] theorem lose_mem (s : State) (src : ReadCopy) (hits : Sector → Bool) (who : Nat) : (s.lose src hits who).mem = s.mem := by
  unfold State.lose
  split <;> rfl

@[simp] theorem clearTags_mem (s : State) (ia n : Nat) : (s.clearTags ia n).mem = s.mem := by
  unfold State.clearTags
  split <;> rfl

@[simp] theorem countLost_mem (s : State) (ia : Nat) : (s.countLost ia).mem = s.mem := by
  unfold State.countLost
  split <;> rfl

@[simp] theorem l1Remove_mem (s : State) (core line : Nat) : (s.l1Remove core line).mem = s.mem := rfl

@[simp] theorem l1Drop_mem (s : State) (core line : Nat) : (s.l1Drop core line).mem = s.mem := by
  unfold State.l1Drop
  split <;> simp

@[simp] theorem h4Write_mem (s : State) (ia : Nat) (b : Byte) : (s.h4Write ia b).mem = s.mem := rfl

@[simp] theorem h4Drop_mem (s : State) (line : Nat) : (s.h4Drop line).mem = s.mem := rfl

@[simp] theorem clearCovered_mem (s : State) (core : Nat) (rs : List (Nat × Nat)) : (s.clearCovered core rs).mem = s.mem := by
  unfold State.clearCovered
  split <;> rfl

@[simp] theorem l1Through_mem (s : State) (core who scope : Nat) (l : L1Line) (ia : Nat) (bytes : List Byte) :
    (s.l1Through core who scope l ia bytes).mem = s.mem := by
  simp [State.l1Through]

/-! ### Steps that write memory -/

theorem dropOthers_sound {s : State} (core line : Nat) (h : Safety.Sound s) : Safety.Sound (s.dropOthers core line) :=
  sound_foldl _ (fun t _ ht => sound_of_mem (l1Drop_mem t _ _) ht) _ h

theorem h4Clean_sound {s : State} (line : Nat) (h : Safety.Sound s) : Safety.Sound (s.h4Clean line) := by
  unfold State.h4Clean
  split
  · exact h
  · rename_i l _
    show Memory.wf (if (l.dirty == 0 || !s.reachable (128 * line)) = true then s.mem else _) = true
    split
    · exact h
    have : ∀ (ks : List Nat) (m : Memory), m.wf = true →
        Memory.wf (ks.foldl (fun m i => if l.dirty.getLsbD i then m.put (128 * line + i) (byteAt l.data i) else m) m) = true := by
      intro ks
      induction ks with
      | nil => exact fun m w => w
      | cons k ks ih =>
        intro m w
        rw [List.foldl_cons]
        apply ih
        split
        · exact put_wf _ _ w
        · exact w
    exact this _ _ h

theorem h4Sys_sound {s : State} (line : Nat) (h : Safety.Sound s) : Safety.Sound (s.h4Sys line) := by
  exact sound_of_mem (h4Drop_mem _ _) (h4Clean_sound line h)

theorem sliceEvict_sound {s : State} (line : Nat) (h : Safety.Sound s) : Safety.Sound (s.sliceEvict line) := by
  exact sound_of_mem (h4Drop_mem _ _) (h4Clean_sound line (s := { s with zeroLines := _ }) h)

theorem sliceRoom_sound {s : State} (line : Nat) (h : Safety.Sound s) : Safety.Sound (s.sliceRoom line) := by
  simp only [State.sliceRoom]
  repeat' split
  all_goals first | exact h | exact sliceEvict_sound _ h

theorem h4Take_sound {s : State} (line : Nat) (h : Safety.Sound s) : Safety.Sound (s.h4Take line) := by
  unfold State.h4Take
  split
  · exact sliceRoom_sound line h
  · exact h

theorem homePut_sound {s : State} (sys : Bool) (ia : Nat) (b : Byte) (h : Safety.Sound s) : Safety.Sound (s.homePut sys ia b) := by
  unfold State.homePut
  repeat' split
  all_goals first | exact h | exact put_wf _ _ h

theorem homeStore_sound {s : State} (core who : Nat) (sys : Bool) (ia : Nat) (bytes : List Byte) (h : Safety.Sound s) :
    Safety.Sound (s.homeStore core who sys ia bytes) := by
  unfold State.homeStore
  refine sound_of_mem (lose_mem _ _ _ _) (sound_of_mem (clearTags_mem _ _ _) ?_)
  have zero : ∀ (t : State) (p : Nat → Bool), Safety.Sound t →
      Safety.Sound (if t.zeroLines.isEmpty then t else { t with zeroLines := t.zeroLines.filter p }) := by
    intro t p ht
    split <;> exact ht
  refine zero _ _ (sound_foldl _ (fun t i ht => homePut_sound _ _ _ ht) _ ?_)
  have h1 := sound_foldl (fun t l => t.dropOthers core l) (fun t l ht => dropOthers_sound core l ht)
    ((List.range ((ia % 128 + bytes.length + 127) / 128)).map fun i => lineOf ia + i) h
  split
  · cases sys
    · exact sound_foldl _ (fun t l ht => sliceRoom_sound l ht) _ h1
    · exact sound_foldl _ (fun t l ht => h4Sys_sound l ht) _ h1
  · exact h1

theorem homeWrite_sound {s : State} (core who : Nat) (sys : Bool) (ia : Nat) (bytes : List Byte) (h : Safety.Sound s) :
    Safety.Sound (s.homeWrite core who sys ia bytes) :=
  homeStore_sound _ _ _ _ _ (sound_of_mem (countLost_mem s ia) h)

theorem saveBytes_sound {s : State} (ia : Nat) (bytes : List Byte) (h : Safety.Sound s) : Safety.Sound (s.saveBytes ia bytes) := by
  unfold State.saveBytes
  split
  · exact sound_of_mem (clearTags_mem _ _ _) (fill_wf ia bytes h)
  · exact h

/-! ### L1 lines -/

theorem l1Clean_sound {s : State} (core line : Nat) (h : Safety.Sound s) : Safety.Sound (s.l1Clean core line) := by
  unfold State.l1Clean
  split
  · exact h
  · split
    · exact h
    · refine sound_of_mem (clearCovered_mem _ _ _) (sound_foldl _ (fun t i ht => ?_) _
        (sound_of_mem (countLost_mem _ _) (sound_of_mem (l1Put_mem _ _) h)))
      split
      · exact homeStore_sound _ _ _ _ _ ht
      · exact ht

theorem l1Flush_sound {s : State} (core line : Nat) (h : Safety.Sound s) : Safety.Sound (s.l1Flush core line) :=
  sound_of_mem (l1Drop_mem _ _ _) (l1Clean_sound core line h)

theorem l1Room_sound {s : State} (core line : Nat) (h : Safety.Sound s) : Safety.Sound (s.l1Room core line) := by
  simp only [State.l1Room]
  repeat' split
  all_goals first | exact h | exact l1Flush_sound _ _ h

theorem l1Release_sound {s : State} (core : Nat) (scope : Scope) (h : Safety.Sound s) : Safety.Sound (s.l1Release core scope) :=
  sound_foldl _ (fun _ l ht => l1Clean_sound core l ht) _ h

theorem l1Acquire_sound {s : State} (core : Nat) (scope : Scope) (h : Safety.Sound s) : Safety.Sound (s.l1Acquire core scope) :=
  sound_foldl _ (fun _ l ht => l1Flush_sound core l ht) _ h

theorem l1CleanAll_sound {s : State} (core : Nat) (h : Safety.Sound s) : Safety.Sound (s.l1CleanAll core) :=
  sound_foldl _ (fun _ l ht => l1Clean_sound core l ht) _ h

theorem l1FlushRange_sound {s : State} (lo hi : Nat) (h : Safety.Sound s) : Safety.Sound (s.l1FlushRange lo hi) :=
  sound_foldl _ (fun _ l ht => l1Flush_sound l.1 l.2 ht) _ h

/-! ### Loads, stores and atomics performed -/

theorem loadElem_sound {s : State} (core : Nat) (wk : WKind) (scope : Scope) (ia n : Nat) (h : Safety.Sound s) :
    Safety.Sound (s.loadElem core wk scope ia n).1 := by
  have home : ∀ t : State, Safety.Sound t →
      Safety.Sound (if homeOf ia = 4 then (if scope == .system then t.h4Sys (lineOf ia) else t.h4Take (lineOf ia)) else t) := by
    intro t ht
    repeat' split
    all_goals first | exact ht | exact h4Sys_sound _ ht | exact h4Take_sound _ ht
  have keep : ∀ c : Bool, Safety.Sound (if c then s else s.l1Flush core (lineOf ia)) := by
    intro c
    cases c
    · exact l1Flush_sound _ _ h
    · exact h
  unfold State.loadElem
  extract_lets line sys S t u room new l
  have hu : Safety.Sound u := home _ (keep _)
  split
  · exact hu
  · exact sound_of_mem (l1Put_mem _ _) (l1Room_sound core line hu)

theorem storeElem_sound {s : State} (core who : Nat) (wk : WKind) (scope : Scope) (ia : Nat) (bytes : List Byte) (h : Safety.Sound s) :
    Safety.Sound (s.storeElem core who wk scope ia bytes) := by
  unfold State.storeElem
  dsimp only
  split
  · exact homeWrite_sound _ _ _ _ _ (l1Flush_sound _ _ h)
  · split
    · exact sound_of_mem (lose_mem _ _ _ _) (sound_of_mem (l1Put_mem _ _) (l1Room_sound _ _ h))
    · split
      · exact homeWrite_sound _ _ _ _ _ h
      · split
        · exact homeWrite_sound _ _ _ _ _ (l1Flush_sound _ _ h)
        · exact homeWrite_sound _ _ _ _ _ (sound_of_mem (l1Through_mem _ _ _ _ _ _ _) h)

theorem atomPrepare_sound {s : State} (core : Nat) (wk : WKind) (scope : Scope) (ia : Nat) (h : Safety.Sound s) :
    Safety.Sound (s.atomPrepare core wk scope ia) := by
  have h1 : Safety.Sound (if homeOf ia = 4 && scope == .system then s.h4Sys (lineOf ia) else s) := by
    split
    · exact h4Sys_sound _ h
    · exact h
  unfold State.atomPrepare
  dsimp only
  generalize (if (homeOf ia = 4 && scope == .system) = true then s.h4Sys (lineOf ia) else s) = t at h1 ⊢
  split
  · exact h1
  · split
    · exact l1Flush_sound _ _ h1
    · exact h1

theorem atomWrite_sound {s : State} (core who : Nat) (scope : Scope) (ia : Nat) (bytes : List Byte) (h : Safety.Sound s) :
    Safety.Sound (s.atomWrite core who scope ia bytes) := by
  unfold State.atomWrite
  refine homeWrite_sound _ _ _ _ _ ?_
  split
  · exact h
  · exact sound_of_mem (l1Through_mem _ _ _ _ _ _ _) h

/-! ### Pages -/

theorem place_sound {s : State} (page : Nat) (f : Frame) (h : Safety.Sound s) : Safety.Sound (s.place page f) :=
  sound_of_mem (setPte_mem _ _) (filter_wf _ h)

theorem touch_sound {s : State} (page : Nat) (conf pref : Bool) (h : Safety.Sound s) : Safety.Sound (s.touch page conf pref) := by
  unfold State.touch
  split
  · exact h
  · split
    · exact place_sound _ _ h
    · exact h

end Sys2Proof.Machine
end

