-- ==== Sys2Proof/Tests/Slice0.lean ====
section
/-!
SUPPORT. Tests: a state and operands that meet the hypotheses of each obligation, clause by clause; a word of every encoding, read; well-formed and
ill-formed instructions; and instructions run on the bench, one step each.
-/

open Sys2Proof Sys2Proof.Machine

namespace Sys2Proof.Tests

set_option Elab.async false

/-! ### The states of the tests -/

/-- A state in which a strand is about to issue: the bench, with the strand in its place and a burst held by every quadrant. -/
def at' (st : Strand) : State :=
  let s := { State.reset.bench false [] with cur := st.id, agenda := [] }
  (s.setCore { s.core 0 with burst := vtab 4 fun _ => 64 }).setStrand st

/-- The environment of the bench's strands. -/
def env0 : Env :=
  { group := 2, team := 1, launch := 6, ctx := 1, hdr := benchHeader, base := benchBase, level := 5, conf := false, feed := false }

/-- The bench's strand with one v register replaced. -/
def withReg (n : Nat) (sh : Shape) : Strand := benchStrand.setReg n { shape := sh }

/-- Nothing stands in the way of an instruction of form `f`, beyond where the strand and its environment are found. -/
def goes (s : State) (st : Strand) (e : Env) (f : Form) : Bool :=
  st.state = .ready && st.live != 0 && (f.enc.legal f.x && f.litOk) && !f.foreign st.tile &&
    BitVec.ofNat 64 f.needs &&& ~~~e.hdr.features = 0 && BitVec.ofNat 64 f.needs &&& ~~~(s.unitFeatures st) = 0 &&
    st.cont = none && st.forks = [] && (st.tile || decide (0 < s.burstLeft st.core (st.slot % 4))) && st.shadowHit = [] &&
    !e.debug && st.dead = {} && (!st.tile || st.live = 1)

/-- No counter of a context counts instructions, and its trace is off. -/
def uncounted (s : State) (e : Env) : Bool :=
  match s.ctx? e.ctx with
  | some c => !c.trace.on && (List.range 16).all fun n => n < 11 || (vget c.select n 0).extractLsb' 0 16 != 1
  | none => true

theorem quiet_of {s : State} {st : Strand} {e : Env} {f : Form} (h1 : s.strand? s.cur = some st) (h2 : s.env? st = some e)
    (h : goes s st e f = true) (hc : uncounted s e = true) : Quiet s st e f := by
  simp only [goes, Bool.and_eq_true, decide_eq_true_eq, bne_iff_ne, Bool.not_eq_true', Bool.or_eq_true] at h
  obtain ⟨⟨⟨⟨⟨⟨⟨⟨⟨⟨⟨⟨a, b⟩, c⟩, d⟩, e1⟩, f1⟩, g⟩, h'⟩, i⟩, j⟩, k⟩, l⟩, m⟩ := h
  refine ⟨h1, h2, a, b, ?_, d, e1, f1, g, h', fun ht => ?_, fun ht => ?_, j, ⟨k, l⟩, fun c' hc' => ?_⟩
  · simp [c.1, c.2]
  · rcases m with m | m
    · simp [ht] at m
    · exact m
  · rcases i with i | i
    · simp [i] at ht
    · exact i
  · simp only [uncounted, hc', Bool.and_eq_true, Bool.not_eq_true', List.all_eq_true, List.mem_range, Bool.or_eq_true, decide_eq_true_eq, bne_iff_ne] at hc
    exact ⟨hc.1, fun n lo hi => (hc.2 n hi).resolve_left (by omega)⟩

/-- And the v registers it names are plain, with room for eight slabs. -/
def calm' (st : Strand) (e : Env) (f : Form) : Bool := f.vregs.all (fun n => (st.reg n).plain) && decide (st.slabIds.length + 8 ≤ e.floor st)

theorem calm_of {s : State} {st : Strand} {e : Env} {f : Form} (h1 : s.strand? s.cur = some st) (h2 : s.env? st = some e)
    (h : goes s st e f = true) (hc : uncounted s e = true) (hp : calm' st e f = true) : Calm s st e f := by
  simp only [calm', Bool.and_eq_true, List.all_eq_true, decide_eq_true_eq] at hp
  exact { quiet_of h1 h2 h hc with plain := hp.1, room := hp.2 }

/-! ### Witnesses: states and operands that meet the hypotheses of each statement -/

theorem witness_integerResultPerLane : ∃ i f g s st e, integerRule i = some (f, g) ∧ Calm s st e f :=
  ⟨.iadd { a := 1, b := 2, d := 3 }, _, _, at' benchStrand, benchStrand, env0, rfl, calm_of rfl rfl (by decide) (by decide) (by decide)⟩

theorem witness_moveResultPerLane : ∃ i f g s st e, moveRule i = some (f, g) ∧ Calm s st e f :=
  ⟨.lane { a := 1, b := 2, d := 3 }, _, _, at' benchStrand, benchStrand, env0, rfl, calm_of rfl rfl (by decide) (by decide) (by decide)⟩

theorem witness_moveResultPerLane_spilled : ∃ i f s st e, spilledCopyForm i = some f ∧ Calm s st e f ∧
    s.pageReady (pageOf (st.ssa + 128 * f.d)) = true ∧ st.mask f.pred ≠ 0 ∧ st.tile = false :=
  ⟨.shapef { a := 1, b := 3, d := 63 }, _, at' benchStrand, benchStrand, env0, rfl, calm_of rfl rfl (by decide) (by decide) (by decide), by decide +kernel,
    by decide, rfl⟩

theorem witness_floatResultPerLane : ∃ i f g s st e, floatRule i = some (f, g) ∧ Calm s st e f :=
  ⟨.faddX96 { w0 := { a := 1, b := 2, d := 3 }, ty := .f32, rnd := .sr }, _, _, at' benchStrand, benchStrand, env0, rfl,
    calm_of rfl rfl (by decide) (by decide) (by decide)⟩

theorem witness_conversionResultPerLane : ∃ i f g s st e, conversionRule i = some (f, g) ∧ Calm s st e f :=
  ⟨.cvtX96 { w0 := { a := 1, d := 3 }, ty := .e4m3x4, func := 3 }, _, _, at' benchStrand, benchStrand, env0, rfl,
    calm_of rfl rfl (by decide) (by decide) (by decide)⟩

theorem witness_maskResultUnderM : ∃ i f g u s st e, maskRule i = some (f, g, u) ∧ Calm s st e f ∧ (u = true → st.uniform f.a = true) :=
  ⟨.kset { a := 1, d := 7 }, _, _, _, at' benchStrand, benchStrand, env0, rfl, calm_of rfl rfl (by decide) (by decide) (by decide), by decide⟩

theorem witness_baseResult : ∃ i f g us s st e, baseRule i = some (f, g, us) ∧ Calm s st e f ∧ ∀ n ∈ us, st.uniform n = true :=
  ⟨.bmov { wa := true, a := 62, d := 15 }, _, _, _, at' benchStrand, benchStrand, env0, rfl, calm_of rfl rfl (by decide) (by decide) (by decide),
    by decide⟩

theorem witness_identityReads : ∃ i f s st e g t l, gidForm i = some f ∧ Calm s st e f ∧ s.group? e.group = some g ∧ s.team? e.team = some t ∧
    s.launch? e.launch = some l :=
  ⟨.gidX96 { w0 := { d := 3 }, func := 15 }, _, at' benchStrand, benchStrand, env0, _, _, _, rfl,
    calm_of rfl rfl (by decide) (by decide) (by decide), rfl, rfl, rfl⟩

theorem witness_basePairReads : ∃ i f s st e, bgetForm i = some f ∧ Calm s st e f :=
  ⟨.bget { wa := true, a := 15, d := 62 }, _, at' benchStrand, benchStrand, env0, rfl, calm_of rfl rfl (by decide) (by decide) (by decide)⟩

/-- A strand whose v5 is empty. -/
def emptyFive : Strand := benchStrand.setReg 5 { full := false }

theorem witness_shapeReads : ∃ i f s st e, shapeForm i = some f ∧ Quiet s st e f ∧ (st.reg f.d).plain = true ∧
    st.slabIds.length + 8 ≤ e.floor st ∧ (st.reg f.a).full = false :=
  ⟨.shape { a := 5, d := 3 }, _, at' emptyFive, emptyFive, env0, rfl, quiet_of rfl rfl (by decide) (by decide), by decide, by decide, by decide⟩

theorem witness_noEffect_nop : ∃ i f s st e, nopForm i = some f ∧ Quiet s st e f :=
  ⟨.nop {}, _, at' benchStrand, benchStrand, env0, rfl, quiet_of rfl rfl (by decide) (by decide)⟩

theorem witness_noEffect_shapea : ∃ i f s st e, shapeaForm i = some f ∧ Calm s st e f ∧
    (st.mask f.pred = 0 ∨ f.x.w0.b.getLsbD (shapeRule (st.reg f.a)) = true) :=
  ⟨.shapea { a := 5, b := 1 }, _, at' benchStrand, benchStrand, env0, rfl, calm_of rfl rfl (by decide) (by decide) (by decide), by decide⟩

theorem witness_amaxRegisters : ∃ i f s st e g, amaxForm i = some f ∧ Calm s st e f ∧ s.group? e.group = some g :=
  ⟨.amaxX96 { w0 := { a := 1, d := 15 }, ty := .e4m3x4 }, _, at' benchStrand, benchStrand, env0, _, rfl,
    calm_of rfl rfl (by decide) (by decide) (by decide), rfl⟩

theorem witness_amaxRegisters_get : ∃ i f s st e g, amgetForm i = some f ∧ Calm s st e f ∧ s.group? e.group = some g :=
  ⟨.amget { wa := true, a := 15, b := 2, d := 62 }, _, at' benchStrand, benchStrand, env0, _, rfl,
    calm_of rfl rfl (by decide) (by decide) (by decide), rfl⟩

theorem witness_quantizeWithAmax : ∃ (o : X96) (s : State) (st : Strand) (e : Env) (g : Group), o.x1 = true ∧ Calm s st e (Form.x96 Enc.cvtq' o) ∧
    s.group? e.group = some g :=
  ⟨{ w0 := { a := 1, b := 2, d := 3 }, ty := .e4m3x4, func := 2, x1 := true, c := 3, wc := true }, at' benchStrand, benchStrand, env0, _, rfl,
    calm_of rfl rfl (by decide) (by decide) (by decide), rfl⟩

/-! #### Control -/

theorem witness_transfersOfControl_jmp : ∃ s st e i f st', Quiet s st e f ∧ transferRule s st e i = some (f, st') :=
  ⟨at' benchStrand, benchStrand, env0, .jmp { off := BitVec.ofInt 23 (-1) }, _, _, quiet_of rfl rfl (by decide) (by decide), rfl⟩

/-- A strand with k1 true in half of the lanes. -/
def halfStrand : Strand := { benchStrand with k := vset benchStrand.k 1 0x0000FFFF }

theorem witness_transfersOfControl_split : ∃ s st e i f st', Quiet s st e f ∧ transferRule s st e i = some (f, st') ∧ st'.pends.length = 1 :=
  ⟨at' halfStrand, halfStrand, env0, .br { w0 := { k := 1, d := 2 }, imm := 3 }, _, _, quiet_of rfl rfl (by decide) (by decide), rfl, by decide⟩

/-- The half of a strand that reaches a JOIN first, the other half pending. -/
def joinStrand : Strand :=
  { benchStrand with
    path := 0xFFFF0000, pends := [{ pc := 0x1180, mask := 0x0000FFFF, depth := 0 }]
    j := vset benchStrand.j 2 { exp := 0xFFFFFFFF, arr := 0, depth := 0, armed := true, jpc := 0 } }

theorem witness_transfersOfControl_park : ∃ s st e i x n, endRule s st e i = some x ∧ Quiet s st e x.form ∧ Selects e.base x.byExit s x.strand n ∧
    n = .runs s ({ x.strand with pends := [], path := 0x0000FFFF }.goes 0x1180) :=
  ⟨at' joinStrand, joinStrand, env0, .join { d := 2 }, _, _, rfl, quiet_of rfl rfl (by decide) (by decide), .pending rfl (by decide), rfl⟩

theorem witness_transfersOfControl_end : ∃ s st e i x n, endRule s st e i = some x ∧ Quiet s st e x.form ∧ Selects e.base x.byExit s x.strand n ∧
    n = .exits s x.strand :=
  ⟨at' benchStrand, benchStrand, env0, .exit {}, _, _, rfl, quiet_of rfl rfl (by decide) (by decide), .exits rfl rfl rfl rfl rfl, rfl⟩

/-- A strand whose last path waits at a JOIN for lanes that no path has: those of a j register of another call depth. -/
def stallStrand : Strand := { benchStrand with path := 1, j := vset benchStrand.j 2 { exp := 3, arr := 0, depth := 0, armed := true, jpc := 0 } }

theorem witness_transfersOfControl_stall : ∃ s st e i x n, endRule s st e i = some x ∧ Quiet s st e x.form ∧ Selects e.base x.byExit s x.strand n ∧
    n = .stalls :=
  ⟨at' stallStrand, stallStrand, env0, .join { d := 2 }, _, _, rfl, quiet_of rfl rfl (by decide) (by decide), .stalls rfl rfl rfl rfl (by decide), rfl⟩

theorem witness_transfersOfControl_trained : ∃ s st e i f n, retForm i = some f ∧ Quiet s st e f ∧ trainedReturn s st = some n :=
  let st := { benchStrand with rets := [{ ra := 0x1140, cm := BitVec.allOnes 32, train := some { index := 255, tag := 1, ret := 0 } }] }
  let ⟨n, h⟩ := Option.isSome_iff_exists.1 (by decide +kernel : (trainedReturn (at' st) st).isSome = true)
  ⟨at' st, st, env0, .ret {}, _, n, rfl, quiet_of rfl rfl (by decide) (by decide), h⟩

theorem witness_transfersOfControl_yieldp : ∃ s st e i f st', Quiet s st e f ∧ transferRule s st e i = some (f, st') ∧ st'.path = 0x0000FFFF :=
  ⟨at' joinStrand, joinStrand, env0, .yieldp, _, _, quiet_of rfl rfl (by decide) (by decide), rfl, by decide⟩

/-- A strand that has called. -/
def calledStrand : Strand := { benchStrand with rets := [{ ra := 0x1140, cm := BitVec.allOnes 32 }] }

theorem witness_transfersOfControl_ret : ∃ s st e i f st', Quiet s st e f ∧ transferRule s st e i = some (f, st') ∧ st'.rets = [] :=
  ⟨at' calledStrand, calledStrand, env0, .ret {}, _, _, quiet_of rfl rfl (by decide) (by decide), rfl, by decide⟩

theorem witness_transfersOfControl_exit : ∃ s st e i f st', Quiet s st e f ∧ transferRule s st e i = some (f, st') ∧ st'.live = 0xFFFF0000 :=
  ⟨at' halfStrand, halfStrand, env0, .exit { k := 1 }, _, _, quiet_of rfl rfl (by decide) (by decide), rfl, by decide⟩

/-- A strand in its handler. -/
def handlerStrand : Strand := { benchStrand with handler := some { floor := 0, depth := 0, trap := { cause := 0x14, addr := 0x1100, lanes := 1, detail := 7 } } }

theorem witness_transfersOfControl_thret : ∃ s st e i f st', Quiet s st e f ∧ transferRule s st e i = some (f, st') ∧ st'.handler = none :=
  ⟨at' handlerStrand, handlerStrand, env0, .thret { b := 1 }, _, _, quiet_of rfl rfl (by decide) (by decide), rfl, by decide⟩

theorem witness_joinRegisters_get : ∃ i f s st e, jgetForm i = some f ∧ Calm s st e f :=
  ⟨.jget { wa := true, a := 7, d := 60 }, _, at' benchStrand, benchStrand, env0, rfl, calm_of rfl rfl (by decide) (by decide) (by decide)⟩

theorem witness_joinRegisters_put : ∃ (o : X96) (s : State) (st : Strand) (e : Env), Calm s st e (Form.x96 Enc.jput' o) ∧
    ∀ n, n < 4 → st.uniform ((Form.x96 Enc.jput' o).a + n) = true :=
  ⟨{ w0 := { a := 60, d := 7 }, func := 1 }, at' benchStrand, benchStrand, env0, calm_of rfl rfl (by decide) (by decide) (by decide), by decide⟩

/-- An FCALL one block on, with v0 as its return. -/
def fcallOp : XL := { x := { w0 := { b := 1 }, imm := 1 }, lit := 0 }

theorem witness_forkableCallDeclined : ∃ (o : XL) (s : State) (st : Strand) (e : Env) (c : Ctx), Quiet s st e (Form.xl Enc.fcall' o true) ∧
    s.ctx? e.ctx = some c ∧ st.rets.length < 128 ∧ forkEntry? s st e (BitVec.ofNat 5 (Form.xl Enc.fcall' o true).b) = none :=
  ⟨fcallOp, at' benchStrand, benchStrand, env0, _, quiet_of rfl rfl (by decide) (by decide), rfl, by decide, by decide⟩

/-! #### Traps -/

theorem traps_of {s : State} {st : Strand} {e : Env} (h1 : s.strand? s.cur = some st) (h2 : s.env? st = some e)
    (h : (st.state = .ready ∧ st.live ≠ 0 ∧ e.hdr.trapEntry ≠ 0xFFFFFFFF ∧ st.handler = none ∧ s.prods = [] ∧ st.cont = none) ∧ uncounted s e = true) :
    TakesTraps s st e :=
  ⟨h1, h2, h.1.1, h.1.2.1, h.1.2.2.1, h.1.2.2.2.1, by simp [h.1.2.2.2.2.1], h.1.2.2.2.2.2, fun c hc => by
    have hu := h.2
    simp only [uncounted, hc, Bool.and_eq_true, Bool.not_eq_true'] at hu
    exact hu.1⟩

theorem traps_bench : TakesTraps (at' benchStrand) benchStrand env0 := traps_of rfl rfl (by decide)

theorem witness_trapsAreTaken : ∃ i f c d s st e, trapRule i = some (f, c, d) ∧ Quiet s st e f ∧ TakesTraps s st e ∧ st.mask f.pred ≠ 0 :=
  ⟨.trap { b := 63 }, _, _, _, at' benchStrand, benchStrand, env0, rfl, quiet_of rfl rfl (by decide) (by decide), traps_bench, by decide⟩

theorem witness_transfersOfControl_trap : ∃ s st e i f c d m, transferTrap st e i = some (f, c, d, m) ∧ Quiet s st e f ∧ TakesTraps s st e ∧ m = some 0xFFFF :=
  ⟨at' halfStrand, halfStrand, env0, .bru { w0 := { k := 1 }, imm := 3 }, _, _, _, _, rfl, quiet_of rfl rfl (by decide) (by decide),
    traps_of rfl rfl (by decide), by decide⟩

/-- A strand with 128 open calls. -/
def deepStrand : Strand := { benchStrand with rets := List.replicate 128 { ra := 0x1140, cm := BitVec.allOnes 32 } }

theorem deep_of {st : Strand} {o : J} (h : 128 ≤ st.rets.length) : transferFault st (.call o) = some (Form.j Enc.call' o, 0x80) := if_pos h

theorem witness_transfersOfControl_deep : ∃ s st e i f c, transferFault st i = some (f, c) ∧ Quiet s st e f :=
  ⟨at' deepStrand, deepStrand, env0, .call { off := 3 }, _, _, deep_of (by decide +kernel), quiet_of rfl rfl (by decide +kernel) (by decide +kernel)⟩

theorem witness_badWordsTrap : ∃ i w c s st e, badWordRule i = some (w, c) ∧ TakesTraps s st e :=
  ⟨.udf 0xBFFFFFFF, _, _, at' benchStrand, benchStrand, env0, rfl, traps_bench⟩

theorem witness_illegalEncodingTraps : ∃ i f g s st e, integerRule i = some (f, g) ∧ TakesTraps s st e ∧ f.enc.legal f.x = false :=
  ⟨.imulX96 { w0 := { a := 1, b := 2, d := 3 }, ty := .s32, sat := true }, _, _, at' benchStrand, benchStrand, env0, rfl, traps_bench, by decide⟩

/-- A kernel that declares no feature. -/
def bareState (st : Strand) : State :=
  { at' st with kernels := [{ ctx := 1, base := benchBase, hdr := { benchHeader with features := 1 }, side := [], table := some [], uses := 1 }] }

theorem witness_missingFeatureTraps : ∃ i f g s st e, conversionRule i = some (f, g) ∧ TakesTraps s st e ∧ f.enc.legal f.x = true ∧
    f.foreign st.tile = false ∧ BitVec.ofNat 64 f.needs &&& ~~~e.hdr.features ≠ 0 :=
  ⟨.cvtX96 { w0 := { a := 1, d := 3 }, ty := .e2m1x8 }, _, _, bareState benchStrand, benchStrand, { env0 with hdr := { benchHeader with features := 1 } },
    rfl, traps_of rfl rfl (by decide), by decide, by decide, by decide⟩

/-- A strand whose v5 is not uniform. -/
def affineFive : Strand := withReg 5 (.a 0 1)

theorem witness_nonUniformBaseTraps : ∃ i f g us s st e n, baseRule i = some (f, g, us) ∧ Calm s st e f ∧ TakesTraps s st e ∧
    us.find? (fun n => !st.uniform n) = some n :=
  ⟨.badd { wa := true, a := 1, b := 5, d := 2 }, _, _, _, at' affineFive, affineFive, env0, 5, rfl,
    calm_of rfl rfl (by decide) (by decide) (by decide), traps_of rfl rfl (by decide), by decide⟩

theorem witness_shapeAssertTraps : ∃ i f s st e, shapeaForm i = some f ∧ Calm s st e f ∧ TakesTraps s st e ∧ st.mask f.pred ≠ 0 ∧
    f.x.w0.b.getLsbD (shapeRule (st.reg f.a)) = false :=
  ⟨.shapea { a := 5, b := 1 }, _, at' affineFive, affineFive, env0, rfl, calm_of rfl rfl (by decide) (by decide) (by decide),
    traps_of rfl rfl (by decide), by decide, by decide⟩

/-! #### A fork -/

/-- A strand with a place to save a continuation in. -/
def forkStrand : Strand := { benchStrand with forkSaves := [0x28000] }

/-- The bench with a kernel that forks and a trained predictor entry for the strand's fetch block. -/
def forkState : State :=
  let s := at' forkStrand
  let t := { s with kernels := [{ ctx := 1, base := benchBase, hdr := { benchHeader with flags := 4 }, side := [], table := some [], uses := 1 }] }
  t.setCore { t.core 0 with predictor := [{ index := predIndex (blockOf forkStrand.pc), tag := predTag (blockOf forkStrand.pc)
                                            slots := vtab 5 fun _ => { conf := 3, kind := 1 } }] }

theorem witness_forkableCallTaken : ∃ (o : XL) (s : State) (st : Strand) (e : Env) (p : PEntry), Quiet s st e (Form.xl Enc.fcall' o true) ∧
    st.rets.length < 128 ∧ forkEntry? s st e (BitVec.ofNat 5 (Form.xl Enc.fcall' o true).b) = some p ∧ (∀ n, n < 64 → (st.reg n).full = true) ∧
    s.strand? s.freshId = none ∧ Safety.Sound s ∧ ∀ n, n < 64 → (st.reg n).shape ≠ .spilled :=
  ⟨fcallOp, forkState, forkStrand, { env0 with hdr := { benchHeader with flags := 4 } }, _, quiet_of rfl rfl (by decide) (by decide), by decide, rfl,
    by decide, by decide, by unfold Safety.Sound; decide +kernel, by decide⟩

/-! #### The system group -/

theorem witness_pairReads : ∃ s st e c i f x u, s.ctx? e.ctx = some c ∧ pairRead s st e c i = some (f, x, u) ∧ Calm s st e f :=
  ⟨at' benchStrand, benchStrand, env0, _, .pmrd { w0 := { b := 15, d := 62 }, func := 8 }, _, _, _, rfl, rfl,
    calm_of rfl rfl (by decide) (by decide) (by decide)⟩

/-- The bench with counter 15 on FP32 operations, which are a matter of timing. -/
def timedState : State :=
  let s := at' benchStrand
  { s with ctxs := [{ benchCtx with select := vset benchCtx.select 15 5 }] }

theorem witness_pairReads_timed : ∃ (o : X96) (s : State) (st : Strand) (e : Env) (c : Ctx), s.ctx? e.ctx = some c ∧ Calm s st e (Form.x96 Enc.pmrd' o) ∧
    st.mask (Form.x96 Enc.pmrd' o).pred ≠ 0 ∧ c.counts 5 = true :=
  ⟨{ w0 := { b := 15, d := 62 }, func := 8 }, timedState, benchStrand, env0, _, rfl, calm_of rfl rfl (by decide) (by decide) (by decide), by decide,
    by decide⟩

theorem witness_strandSystemInstructions_open : ∃ s st e i f st', strandRule s st e i = some (f, st') ∧ Calm s st e f ∧ st'.rets.length = 1 :=
  ⟨at' benchStrand, benchStrand, env0, .cropen { w0 := { wa := true, a := 3 }, func := 2 }, _, _, rfl,
    calm_of rfl rfl (by decide) (by decide) (by decide), by decide⟩

/-- A strand in a region. -/
def regionStrand : Strand := { benchStrand with rets := [{ ra := 0x241, cm := BitVec.allOnes 32 }] }

theorem witness_strandSystemInstructions_close : ∃ s st e i f st', strandRule s st e i = some (f, st') ∧ Calm s st e f ∧ st'.rets = [] :=
  ⟨at' regionStrand, regionStrand, env0, .crclose { func := 3 }, _, _, rfl, calm_of rfl rfl (by decide) (by decide) (by decide), by decide⟩

theorem witness_strandSystemInstructions_sleep : ∃ s st e i f st', strandRule s st e i = some (f, st') ∧ Calm s st e f :=
  ⟨at' benchStrand, benchStrand, env0, .sleep { w0 := { b := 5 }, func := 1 }, _, _, rfl, calm_of rfl rfl (by decide) (by decide) (by decide)⟩

theorem witness_strandSystemInstructions_yield : ∃ s st e i f st', strandRule s st e i = some (f, st') ∧ Calm s st e f :=
  ⟨at' benchStrand, benchStrand, env0, .yield {}, _, _, rfl, calm_of rfl rfl (by decide) (by decide) (by decide)⟩

theorem witness_mapAcknowledge : ∃ (o : X96) (s : State) (st : Strand) (e : Env) (c : Ctx), Calm s st e (Form.x96 Enc.mapack' o) ∧
    s.ctx? e.ctx = some c ∧ st.uniform (Form.x96 Enc.mapack' o).a = true ∧ st.uniform ((Form.x96 Enc.mapack' o).a + 1) = true :=
  ⟨{ w0 := { a := 62, d := 3 }, func := 5 }, at' benchStrand, benchStrand, env0, _, calm_of rfl rfl (by decide) (by decide) (by decide), rfl,
    by decide, by decide⟩

theorem witness_counterSelection : ∃ (o : X96) (s : State) (st : Strand) (e : Env) (c : Ctx), Calm s st e (Form.x96 Enc.pmcfg' o) ∧
    s.ctx? e.ctx = some c ∧ st.uniform (Form.x96 Enc.pmcfg' o).a = true ∧
    ∀ n, 11 ≤ n → n < 16 →
      (vget (selectRule c (Form.x96 Enc.pmcfg' o).b (st.lane (Form.x96 Enc.pmcfg' o).a 0)).2.select n 0).extractLsb' 0 16 ≠ 1 :=
  ⟨{ w0 := { a := 5, b := 15, d := 3 }, func := 9 }, at' benchStrand, benchStrand, env0, _, calm_of rfl rfl (by decide) (by decide) (by decide), rfl,
    by decide, fun n lo hi => by
      have : n = 11 ∨ n = 12 ∨ n = 13 ∨ n = 14 ∨ n = 15 := by omega
      rcases this with rfl | rfl | rfl | rfl | rfl <;> decide⟩

theorem witness_progPoints : ∃ (o : X96) (s : State) (st : Strand) (e : Env) (c : Ctx), Quiet s st e (Form.x96 Enc.prog' o) ∧ s.ctx? e.ctx = some c ∧
    ∀ n, 11 ≤ n → n < 16 → (vget c.select n 0).extractLsb' 0 16 ≠ 4 :=
  ⟨{ w0 := { b := 63 }, func := 10 }, at' benchStrand, benchStrand, env0, _, quiet_of rfl rfl (by decide) (by decide), rfl, fun n lo hi => by
      have : n = 11 ∨ n = 12 ∨ n = 13 ∨ n = 14 ∨ n = 15 := by omega
      rcases this with rfl | rfl | rfl | rfl | rfl <;> decide⟩

/-! #### Memory, barriers and tiles -/

theorem witness_memoryInstructionsIssue_load : ∃ s st e c g i p, s.ctx? e.ctx = some c ∧ s.group? e.group = some g ∧
    memoryPlan s st e c g i = some p ∧ p.ok = true ∧ Calm s st e p.form ∧ p.dests ≠ [] :=
  ⟨at' benchStrand, benchStrand, env0, _, _, .ld { wa := true, a := 2, b := 9, d := 8 }, _, rfl, rfl, rfl, by decide,
    calm_of rfl rfl (by decide) (by decide) (by decide), by decide⟩

theorem witness_memoryInstructionsIssue_store : ∃ s st e c g i p, s.ctx? e.ctx = some c ∧ s.group? e.group = some g ∧
    memoryPlan s st e c g i = some p ∧ p.ok = true ∧ Calm s st e p.form ∧ p.made.length = 1 ∧ p.dests = [] :=
  ⟨at' benchStrand, benchStrand, env0, _, _, .sts { a := 2, d := 8 }, _, rfl, rfl, rfl, by decide,
    calm_of rfl rfl (by decide) (by decide) (by decide), by decide, by decide⟩

theorem witness_areaInstructions : ∃ s st e c g i p, s.ctx? e.ctx = some c ∧ s.group? e.group = some g ∧
    areaPlan s st e c g i = some p ∧ p.ok = true ∧ Calm s st e p.form :=
  ⟨at' benchStrand, benchStrand, env0, _, _, .stf { a := 2, d := 8 }, _, rfl, rfl, rfl, by decide,
    calm_of rfl rfl (by decide) (by decide) (by decide)⟩

theorem witness_syncInstructions : ∃ s st e c g i p, s.ctx? e.ctx = some c ∧ s.group? e.group = some g ∧
    syncPlan s st e c g i = some p ∧ p.ok = true ∧ Calm s st e p.form :=
  ⟨at' benchStrand, benchStrand, env0, _, _, .phq { w0 := { wa := true, a := 3, d := 8 }, func := 5 }, _, rfl, rfl, rfl, by decide,
    calm_of rfl rfl (by decide) (by decide) (by decide)⟩

theorem witness_tileInstructions : ∃ s st e i p, tilePlan s st e i = some p ∧ p.ok = true ∧ Calm s st e p.form :=
  ⟨at' benchTile, benchTile, env0, .ashape { w0 := { d := 8 }, immb := true, func := 4, imm := 0xF }, _, rfl, by decide,
    calm_of rfl rfl (by decide) (by decide) (by decide)⟩

/-! #### Giving way -/

/-- The bench with a second team of its launch waiting. -/
def waitingState : State :=
  let s := at' benchStrand
  { s with launches := s.launches.map fun (l : Launch) => { l with gx := 2 }
           ctxs := s.ctxs.map fun (c : Ctx) => { c with savePool := (0x80000, 0x100000), stackPool := (0x180000, 0x10000) } }

theorem witness_yieldPreempts : ∃ i f s st e team, yieldForm i = some f ∧ Quiet s st e f ∧ st.mask f.pred ≠ 0 ∧
    (s.setStrand st).yieldHelps e.team e.level = true ∧ s.team? e.team = some team ∧ team.state = .running :=
  ⟨.yield {}, _, waitingState, benchStrand, env0, _, rfl, quiet_of rfl rfl (by decide) (by decide), by decide, by decide +kernel, rfl, by decide⟩

/-! #### The host, power, links and queues -/

/-- Where host memory begins (R190). -/
def hostMem : Nat := 4 * 2 ^ 49

/-- A launch entry of the bench's kernel, one team, its record at 0x9A00. -/
def launchBytes : List Byte :=
  bytesLE 1 1 ++ bytesLE 1 5 ++ bytesLE 2 0 ++ bytesLE 4 128 ++ bytesLE 8 0x1000 ++ bytesLE 4 1 ++ bytesLE 2 1 ++ bytesLE 2 1 ++ bytesLE 8 0x100 ++
    bytesLE 4 16 ++ bytesLE 4 0 ++ bytesLE 8 7 ++ bytesLE 8 0x9A00 ++ bytesLE 8 0

/-- An entry of a type with a 64-bit field at 8 and one at 16. -/
def entryBytes (ty a b : Nat) : List Byte := bytesLE 8 ty ++ bytesLE 8 a ++ bytesLE 8 b ++ List.replicate 40 0

/-- The bench with an active queue 0 that holds an entry, a second window onto host memory, and every link up. -/
def hubWith (held : Option (List Byte)) : State :=
  let s := at' benchStrand
  let q : Queue := { q := 0, qbase := 0x9000, qsize := 4, cdone := 0x9800, head := 3, tail := 5, enable := true, state := .active
                     fetched := held.map fun b => { index := 2, bytes := b }, running := if held.isSome then [2] else [] }
  let seen : Window := { vbase := 0x200, vlast := 0x20F, iabase := 4 * 2 ^ 33, rd := true, w := true, at' := true, kind := 1, hostvis := true, valid := true }
  { s with
    now := 30000000, launches := if held.isSome then [] else s.launches
    mem := (s.mem.putList 0x90C0 launchBytes).putList 0x9B00 [5]
    frames := [{ die := 0, host := false, frame := 7 }]
    ctxs := [{ benchCtx with queues := [q], prioCap := 10, windows := vtab 16 fun n => if n = 0 then { benchWindow with hostvis := true } else if n = 1 then seen else {}
                             eqTail := 3, pubCtr := hostMem + 64, savePool := (0x80000, 0x100000), stackPool := (0x180000, 0x10000) }]
    dev := { s.dev with links := (List.range 26).map fun n => { n := n, state := .up, width := 16, speed := 128000 } } }

theorem witness_hostWritesControlBlocks : ∃ (s : State) (i : Instr) (func ctx q : Nat) (c : Ctx) (x : Queue), queueNamed i = some (func, ctx, q) ∧
    s.hostServed = true ∧ s.ctx? ctx = some c ∧ reaches func c ∧ q < 64 ∧ queueWrite (c.queue q) i = some x :=
  ⟨hubWith none, .queueDoorbell 0 1 0 19, 0, 1, 0, _, _, rfl, by decide +kernel, rfl, .inl rfl, by decide, rfl⟩

theorem witness_hostWritesControlBlocks_eqhead : ∃ (s : State) (func ctx : Nat) (value : BitVec 32) (c : Ctx), s.hostServed = true ∧
    s.ctx? ctx = some c ∧ reaches func c ∧ (c.eqTail - value).toNat ≤ 2 ^ c.eqSize :=
  ⟨hubWith none, 0, 1, 3, _, by decide +kernel, rfl, .inl rfl, by decide +kernel⟩

theorem witness_chargeAndHeat : ∃ s i, (powerRule s i).isSome = true := ⟨hubWith none, .chargeRefill 47, by decide +kernel⟩

/-- The bench with island 8 throttled at a threshold of 80 degrees. -/
def hotState : State :=
  let s := hubWith none
  { s with dev := { s.dev with heats := [{ island := 8, state := .throttled, th := some 800 }] } }

theorem witness_chargeAndHeat_critical : ∃ (s : State) (n : Nat) (x th : Int), (heatOf s n).th = some th ∧ (heatOf s n).state = .throttled ∧ th + 50 ≤ x ∧
    (heatOf s n).since + 2000000 ≤ s.now :=
  ⟨hotState, 8, 850, 800, by decide +kernel, by decide +kernel, by decide, by decide +kernel⟩

theorem witness_linkStates : ∃ s i n l, linkNamed i = some n ∧ s.dev.link? n = some l ∧ (linkRule s l i).isSome = true :=
  ⟨hubWith none, .linkRetrain 25, 25, { n := 25, state := .up, width := 16, speed := 128000 }, rfl, by decide +kernel, by decide +kernel⟩

theorem witness_linkStates_hot : ∃ s l k, s.dev.link? 1 = some l ∧ l.state = .failed ∧ linkRule s l (.hostLinkInit 1 true) = some k ∧ k.state = .down :=
  ⟨{ hubWith none with dev := { (hubWith none).dev with links := [{ n := 1, state := .failed }] } }, _, _, rfl, rfl, rfl, rfl⟩

theorem witness_linkStates_published : ∃ s i n l, linkNamed i = some n ∧ s.dev.link? n = some l ∧ (linkPublished s l i).isSome = true :=
  ⟨hubWith none, .peerDisable 0 0, 10, { n := 10, state := .up, width := 16, speed := 128000 }, rfl, by decide +kernel, by decide +kernel⟩

theorem witness_observation : ∃ s i, s.hostServed = true ∧ (observeRule s i).isSome = true :=
  ⟨hubWith none, .lullTrial 0 [0, 47] [64, 1] 100, by decide +kernel, by decide +kernel⟩

theorem witness_observation_lull : ∃ (s : State) (l : Lull), s.dev.lull = some l ∧ l.since + 1000000 * l.ms ≤ s.now :=
  ⟨{ hubWith none with dev := { (hubWith none).dev with lull := some { func := 0, clusters := [0], fractions := [64], ms := 1, step := 0, since := 0, base := [] } } },
    _, rfl, by decide +kernel⟩

theorem witness_entriesAreFetched : ∃ (s : State) (ctx q : Nat) (c : Ctx), s.ctx? ctx = some c ∧
    (c.state = .built ∨ c.state = .runnable ∨ c.state = .running ∨ c.state = .saved) ∧
    ((c.queue q).state = .idle ∨ (c.queue q).state = .active) ∧ (c.queue q).head ≠ (c.queue q).tail ∧ (c.queue q).fetched = none ∧
    (s.vtouch c ((c.queue q).qbase.toNat + 64 * ((c.queue q).head.toNat % 2 ^ (c.queue q).qsize)) 64).2.1 = true :=
  ⟨hubWith none, 1, 0, _, rfl, by decide +kernel, by decide +kernel, by decide +kernel, by decide +kernel, by decide +kernel⟩

/-- The hub with no page placed and no frame to place one in. -/
def frameless (held : Option (List Byte)) : State := { hubWith held with pages := [], frames := [] }

theorem witness_entriesAreFetched_held : ∃ (s : State) (ctx q : Nat) (c : Ctx), s.ctx? ctx = some c ∧
    (c.state = .built ∨ c.state = .runnable ∨ c.state = .running ∨ c.state = .saved) ∧
    ((c.queue q).state = .idle ∨ (c.queue q).state = .active) ∧ (c.queue q).head ≠ (c.queue q).tail ∧ (c.queue q).fetched = none ∧
    (s.vtouch c ((c.queue q).qbase.toNat + 64 * ((c.queue q).head.toNat % 2 ^ (c.queue q).qsize)) 64).2.1 = false :=
  ⟨frameless none, 1, 0, _, rfl, by decide +kernel, by decide +kernel, by decide +kernel, by decide +kernel, by decide +kernel⟩

theorem recorded_of {s : State} {c : Ctx} {x : Queue} {done : Option Nat} {index va : Nat} {b : List Byte} {ctx : Nat}
    (h1 : (done.toList ++ [x.cdone.toNat + 16 * (index % 2 ^ x.qsize)]).all (fun va => (s.vtouch c va 16).2.1) = true)
    (h2 : recordPlace c x done index = some va) (h3 : (((s.vtouch c va 16).1.vput c va b).bind (·.ctx? ctx)).isSome = true) :
    ∃ u d, Recorded s c x done index b u ∧ u.ctx? ctx = some d := by
  obtain ⟨d, h⟩ := Option.isSome_iff_exists.1 h3
  obtain ⟨u, hu, hd⟩ := Option.bind_eq_some_iff.1 h
  exact ⟨u, d, ⟨fun v hv => List.all_eq_true.1 h1 v hv, fun n => by simp [h2] at n, fun v hv => by cases h2.symm.trans hv; exact hu⟩, hd⟩

theorem witness_entriesComplete : ∃ (s : State) (ctx q index status : Nat) (done : Option Nat) (c d : Ctx) (u : State), s.ctx? ctx = some c ∧
    Recorded s c (c.queue q) done index (completionBytes s status 0 0) u ∧ u.ctx? ctx = some d ∧ done = some 0x9A00 :=
  let ⟨u, d, h, hd⟩ := recorded_of (ctx := 1) (va := 0x9A00) (done := some 0x9A00) (index := 15) (by decide +kernel) (by decide +kernel) (by decide +kernel)
  ⟨hubWith (some []), 1, 0, 15, 7, some 0x9A00, _, d, u, rfl, h, hd, rfl⟩

theorem witness_entriesComplete_lost : ∃ (s : State) (ctx q index : Nat) (c : Ctx), s.ctx? ctx = some c ∧
    recordPlace c { c.queue q with cdone := 0x8000000 } none index = none ∧ Recorded s c { c.queue q with cdone := 0x8000000 } none index [] s :=
  ⟨hubWith (some []), 1, 0, 15, _, rfl, by decide +kernel, ⟨by decide +kernel, fun _ => rfl, fun va h => by
    rw [show recordPlace _ _ _ _ = none from by decide +kernel] at h; exact absurd h (by simp)⟩⟩

theorem witness_entriesComplete_waits : ∃ (s : State) (ctx q index : Nat) (c : Ctx), s.ctx? ctx = some c ∧
    (s.vtouch c ((c.queue q).cdone.toNat + 16 * (index % 2 ^ (c.queue q).qsize)) 16).2.1 = false :=
  ⟨frameless (some []), 1, 0, 15, _, rfl, by decide +kernel⟩

theorem fetches_hub (b : List Byte) (ty : Nat) (h : (b.headD 0).toNat = ty) :
    ∃ c f, Fetches (hubWith (some b)) 1 0 ty c f ∧ f.bytes = b :=
  ⟨_, _, ⟨rfl, rfl, rfl, h⟩, rfl⟩

/-- A frame entry of no frame, and the launch entry of a kernel that is not there, complete with status 7. -/
theorem witness_entriesComplete_bad : ∃ (s : State) (ctx q : Nat) (c d : Ctx) (f : Fetched) (u : State), Fetches s ctx q 7 c f ∧
    Recorded (s.setCtx (c.setQueue (doneWith (c.queue q)))) (c.setQueue (doneWith (c.queue q))) (doneWith (c.queue q)) none f.index
      (completionBytes s 7 0 0) u ∧ u.ctx? ctx = some d ∧ entryNum f.bytes 0x10 8 = 0 :=
  let ⟨u, d, h, hd⟩ := recorded_of (ctx := 1) (va := 0x9820) (done := none) (index := 2) (by decide +kernel) (by decide +kernel) (by decide +kernel)
  ⟨hubWith (some (entryBytes 7 0 0)), 1, 0, _, d, _, u, ⟨rfl, rfl, rfl, by decide⟩, h, hd, by decide +kernel⟩

theorem witness_launchesAreAdmitted : ∃ s ctx q c f k, Fetches s ctx q 1 c f ∧ f.bytes.length = 64 ∧
    s.kernel? c.id (entryNum f.bytes 0x08 8) = some k ∧ launchFails s c f.bytes = none :=
  ⟨hubWith (some launchBytes), 1, 0, _, _, { ctx := 1, base := benchBase, hdr := benchHeader, side := [], table := some [], uses := 1 },
    ⟨rfl, rfl, rfl, by decide +kernel⟩, by decide +kernel, by decide +kernel, by decide +kernel⟩

theorem witness_launchesAreAdmitted_fails : ∃ s ctx q c f, Fetches s ctx q 1 c f ∧ f.bytes.length = 64 ∧ (launchFails s c f.bytes).isSome = true :=
  ⟨hubWith (some (entryBytes 1 0 0)), 1, 0, _, _, ⟨rfl, rfl, rfl, by decide +kernel⟩, by decide +kernel, by decide +kernel⟩

theorem witness_entriesTakeEffect_wait : ∃ s i type ctx q c f, entryNamed i = some (type, ctx, q) ∧ Fetches s ctx q type c f ∧
    (waitRule s ctx q c f i).isSome = true :=
  ⟨hubWith (some (entryBytes 2 0x9B00 5)), .waitEntry 1 0, 2, 1, 0, _, _, rfl, ⟨rfl, rfl, rfl, by decide +kernel⟩, by decide +kernel⟩

/-- The hub with an entry whose wait or signal has started, on its own or on the frameless machine. -/
def startedOn (s : State) : State :=
  { s with ctxs := s.ctxs.map fun (c : Ctx) => { c with queues := c.queues.map fun (x : Queue) => { x with fetched := x.fetched.map fun f => { f with started := true } } } }

theorem witness_entriesTakeEffect_satisfied : ∃ s ctx q c f, Fetches s ctx q 2 c f ∧ f.started = true ∧ (waitRule.touched s c f).2.1 = true ∧
    (waitRule s ctx q c f (.waitSatisfied ctx q)).isSome = true :=
  ⟨startedOn (hubWith (some (entryBytes 2 0x9B00 5))), 1, 0, _, _, ⟨rfl, rfl, rfl, by decide +kernel⟩, rfl, by decide +kernel, by decide +kernel⟩

theorem witness_entriesTakeEffect_signal : ∃ s ctx q c f, Fetches s ctx q 3 c f ∧ f.started = true ∧ (waitRule.touched s c f).2.1 = true ∧
    (waitRule s ctx q c f (.signalWrite ctx q)).isSome = true :=
  ⟨startedOn (hubWith (some (entryBytes 3 0x9B00 7))), 1, 0, _, _, ⟨rfl, rfl, rfl, by decide +kernel⟩, rfl, by decide +kernel, by decide +kernel⟩

theorem witness_entriesTakeEffect_held : ∃ s ctx q c f, Fetches s ctx q 3 c f ∧ f.started = true ∧ (waitRule.touched s c f).2.1 = false ∧
    (waitRule s ctx q c f (.signalWrite ctx q)).isSome = true :=
  ⟨startedOn (frameless (some (entryBytes 3 0x9B00 7))), 1, 0, _, _, ⟨rfl, rfl, rfl, by decide +kernel⟩, rfl, by decide +kernel, by decide +kernel⟩

theorem witness_entriesTakeEffect_mapping : ∃ s i type ctx q c f, entryNamed i = some (type, ctx, q) ∧ Fetches s ctx q type c f ∧
    (mappingRule s ctx q c f i).isSome = true :=
  ⟨hubWith (some (entryBytes 6 0 0)), .unplaceEntry 1 0, 6, 1, 0, _, _, rfl, ⟨rfl, rfl, rfl, by decide +kernel⟩, by decide +kernel⟩

/-- The hub with a mapping change under way. -/
def changing (ch : Change) : State := { hubWith (some []) with changes := [{ id := 9, ctx := 1, q := 0, index := 2, change := ch }] }

theorem witness_mappingChangesTakeEffect_window : ∃ (s : State) (ch : MapChange) (c : Ctx) (n : Nat) (w : Window),
    s.changes.find? (fun x => x.id == ch.id) = some ch ∧ s.ctx? ch.ctx = some c ∧ s.changeWaits ch = false ∧ s.l1 = [] ∧ s.zeroLines = [] ∧
    NoWaits s ∧ ch.change = .window n w ∧ LeasesNamed s { c with windows := vset c.windows n w } :=
  ⟨changing (.window 15 {}), { id := 9, ctx := 1, q := 0, index := 2, change := .window 15 {} }, _, 15, {}, by decide +kernel, rfl, by decide +kernel,
    rfl, rfl, by unfold NoWaits; decide +kernel, rfl, by unfold LeasesNamed; decide +kernel⟩

theorem witness_mappingChangesTakeEffect_remap : ∃ (s : State) (ch : MapChange) (c : Ctx) (page frame : Nat) (host : Bool) (p : Pte),
    s.changes.find? (fun x => x.id == ch.id) = some ch ∧ s.ctx? ch.ctx = some c ∧ s.changeWaits ch = false ∧ s.l1 = [] ∧ s.zeroLines = [] ∧
    NoWaits s ∧ ch.change = .remap page frame host ∧ s.pte? page = some p :=
  ⟨changing (.remap 0 7 false), { id := 9, ctx := 1, q := 0, index := 2, change := .remap 0 7 false }, _, 0, 7, false, _, by decide +kernel, rfl,
    by decide +kernel, rfl, rfl, by unfold NoWaits; decide +kernel, rfl, rfl⟩

theorem witness_mappingChangesTakeEffect_unplace : ∃ (s : State) (ch : MapChange) (c : Ctx) (page : Nat) (p : Pte),
    s.changes.find? (fun x => x.id == ch.id) = some ch ∧ s.ctx? ch.ctx = some c ∧ s.changeWaits ch = false ∧ s.l1 = [] ∧ s.zeroLines = [] ∧
    NoWaits s ∧ ch.change = .unplace page ∧ s.pte? page = some p :=
  ⟨changing (.unplace 0), { id := 9, ctx := 1, q := 0, index := 2, change := .unplace 0 }, _, 0, _, by decide +kernel, rfl, by decide +kernel,
    rfl, rfl, by unfold NoWaits; decide +kernel, rfl, rfl⟩

theorem witness_firstTouchPlaces : ∃ (s : State) (ia frame : Nat) (f : Frame), homeOf ia < 4 ∧ s.pte? (pageOf ia) = none ∧ NoWaits s ∧ s.launches ≠ [] ∧
    s.frames.find? (fun x => x.die == homeOf ia && x.frame == frame && s.frameFits (pageOf ia) x) = some f ∧ s.mem.wf = true :=
  ⟨{ hubWith none with flight := [{ id := 9, strand := 3, core := 0, ctx := 1, kind := .load, scope := .device, ord := .relaxed, wk := .so
                                    elems := [{ addr := 0x5FFFF, width := 1, lane := 0, slot := 0 }] }] }, 0x5FFFF, 7, { die := 0, host := false, frame := 7 },
    by decide, by decide +kernel, by unfold NoWaits; decide +kernel, by decide +kernel, by decide +kernel, by decide +kernel⟩

/-! #### Accesses, producers and the host's memory -/

/-- The bench with one access in flight. -/
def flying (a : Access) : State := { at' benchStrand with flight := [a] }

/-- A device-scope access of one element of two bytes at 0x10 of home 0. -/
def access (k : AccKind) (es : List Elem) : Access :=
  { id := 100, strand := 3, core := 0, ctx := 1, kind := k, elems := es, scope := .device, ord := .relaxed, wk := .so, prod := some 50 }

def elem1 : Elem := { addr := 0x10, width := 2, lane := 31, slot := 0, data := 0xBEEF, data2 := 0 }

theorem bare_flying (a : Access) : Bare (flying a) :=
  ⟨rfl, rfl, rfl, (by decide +kernel : ∀ st ∈ (at' benchStrand).strands, st.cont = none)⟩

theorem witness_accessesArePerformed : ∃ s a i t, performs a i ∧ s.flight.find? (fun b => b.id == a.id) = some a ∧ s.canPerform a = true ∧ Bare s ∧
    a.spec = false ∧ (∀ e ∈ a.elems, 0 < e.width ∧ PlainBytes s e.addr e.width ∧ e.addr % 128 + e.width ≤ 128) ∧
    performRule { s with flight := s.flight.filter fun b => b.id != a.id } a = some t :=
  ⟨flying (access .store [elem1]), access .store [elem1], .accessPerformed 100, _, rfl, rfl, by decide +kernel, bare_flying _, rfl,
    by intro e h; obtain rfl := List.mem_singleton.1 h; exact ⟨by decide, by intro i h; change i < 2 at h; (obtain rfl | rfl : i = 0 ∨ i = 1 := by omega) <;> decide +kernel, by decide⟩, rfl⟩

theorem witness_accessesArePerformed_load : ∃ s a i e, performs a i ∧ s.flight.find? (fun b => b.id == a.id) = some a ∧ s.canPerform a = true ∧ Bare s ∧
    a.spec = false ∧ a.kind = .load ∧ a.elems = [e] ∧ e.data2 = 0 ∧ 0 < e.width ∧ PlainBytes s e.addr e.width ∧ e.addr % 128 + e.width ≤ 128 ∧
    ∀ c, s.ctx? a.ctx = some c → c.counts 5 = false :=
  ⟨flying (access .load [elem1]), access .load [elem1], .accessPerformed 100, elem1, rfl, rfl, by decide +kernel, bare_flying _, rfl, rfl, rfl, rfl, by decide,
    by intro i h; change i < 2 at h; (obtain rfl | rfl : i = 0 ∨ i = 1 := by omega) <;> decide +kernel, by decide, by rintro c ⟨⟩; decide⟩

theorem witness_accessesArePerformed_scrLoad : ∃ s a i g gr, performs a i ∧ s.flight.find? (fun b => b.id == a.id) = some a ∧ s.canPerform a = true ∧
    a.kind = .scrLoad g ∧ s.group? g = some gr ∧ Bare s ∧ a.spec = false ∧ gr.poison = [] ∧ ∀ e ∈ a.elems, e.data2 = 0 :=
  ⟨flying (access (.scrLoad 2) [elem1]), access (.scrLoad 2) [elem1], .accessPerformed 100, 2, _, rfl, rfl, by decide +kernel, rfl, rfl, bare_flying _, rfl,
    rfl, by decide⟩

theorem witness_accessesArePerformed_scrStore : ∃ s a i g gr, performs a i ∧ s.flight.find? (fun b => b.id == a.id) = some a ∧ s.canPerform a = true ∧
    a.kind = .scrStore g ∧ s.group? g = some gr ∧ Bare s ∧ gr.poison = [] :=
  ⟨flying (access (.scrStore 2) [elem1]), access (.scrStore 2) [elem1], .accessPerformed 100, 2, _, rfl, rfl, by decide +kernel, rfl, rfl, bare_flying _, rfl⟩

theorem witness_accessesArePerformed_publish : ∃ (s : State) (a : Access) (i : Instr) (ctx : Nat) (c : Ctx), performs a i ∧
    s.flight.find? (fun b => b.id == a.id) = some a ∧ s.canPerform a = true ∧ a.kind = .publish ctx ∧ s.ctx? ctx = some c ∧ Bare s ∧ s.h4 = [] ∧
    c.pubCtr % 8 = 0 ∧ homeOf c.pubCtr = 4 ∧ ∀ k, k < 8 → s.reachable (c.pubCtr + k) = true ∧ s.inMapPage (c.pubCtr + k) = false :=
  ⟨{ hubWith none with flight := [access (.publish 1) []] }, access (.publish 1) [], .publishIncrement 100, 1, _, rfl, rfl, by decide +kernel, rfl, rfl,
    ⟨rfl, rfl, rfl, by decide +kernel⟩, rfl, by decide +kernel, by decide +kernel, by decide +kernel⟩

/-- The bench with one access in flight and one dirty line, filled at cluster scope, in the L1 of its core. -/
def lined (a : Access) : State := { flying a with l1 := [{ core := 0, line := 0, valid := 1, dirty := 5, rs := 1, reg := false, data := 0x5A00A5 }] }

theorem oneLine_of {s : State} {a : Access} {l : L1Line} (h1 : s.l1 = [l]) (h : (l.core = a.core ∧ l.poison = 0 ∧ l.rs < a.scope.code ∧ s.zeroLines = [] ∧ s.poison = []) ∧
    (∀ st ∈ s.strands, st.cont = none) ∧ s.mem.wf = true) (hp : PlainBytes s (128 * l.line) 128) : OneLine s a l :=
  ⟨h1, h.1.1, h.1.2.1, hp, h.1.2.2.1, h.1.2.2.2.1, h.1.2.2.2.2, h.2.1, h.2.2⟩

theorem witness_accessesArePerformed_fence : ∃ s a i l n, performs a i ∧ s.flight.find? (fun b => b.id == a.id) = some a ∧ s.canPerform a = true ∧
    OneLine s a l ∧ a.kind = .fence n ∧ n < 3 :=
  ⟨lined (access (.fence 0) []), access (.fence 0) [], .accessPerformed 100, _, 0, rfl, rfl, by decide +kernel,
    oneLine_of rfl (by decide +kernel) (by unfold PlainBytes; decide +kernel), rfl, by decide⟩

theorem witness_accessesArePerformed_cwb : ∃ s a i l n e, performs a i ∧ s.flight.find? (fun b => b.id == a.id) = some a ∧ s.canPerform a = true ∧
    OneLine s a l ∧ a.kind = .cwb n ∧ n < 3 ∧ a.elems = [e] ∧ e.addr / 128 = l.line :=
  ⟨lined (access (.cwb 2) [elem1]), access (.cwb 2) [elem1], .accessPerformed 100, _, 2, elem1, rfl, rfl, by decide +kernel,
    oneLine_of rfl (by decide +kernel) (by unfold PlainBytes; decide +kernel), rfl, by decide, rfl, rfl⟩

theorem witness_accessesArePerformed_group : ∃ s a i e, performs a i ∧ s.flight.find? (fun b => b.id == a.id) = some a ∧ s.canPerform a = true ∧ Bare s ∧
    a.kind = .store ∧ a.wk ≠ .so ∧ a.scope = .group ∧ a.elems = [e] ∧ 0 < e.width ∧ e.width ≤ 8 ∧ e.addr % 128 + e.width ≤ 128 :=
  let a : Access := { access .store [elem1] with scope := .group, wk := .rc }
  ⟨flying a, a, .accessPerformed 100, elem1, rfl, rfl, by decide +kernel, bare_flying _, rfl, by decide, rfl, rfl, by decide, by decide, by decide⟩

theorem witness_accessesArePerformed_mark : ∃ s a i g gr full, performs a i ∧ s.flight.find? (fun b => b.id == a.id) = some a ∧ s.canPerform a = true ∧
    a.kind = .scrMark g full ∧ s.group? g = some gr ∧ Bare s :=
  ⟨flying (access (.scrMark 2 true) [elem1]), access (.scrMark 2 true) [elem1], .accessPerformed 100, 2, _, true, rfl, rfl, by decide +kernel, rfl, rfl, bare_flying _⟩

/-- A producer of registers 4 and 63 with nothing left to wait for. -/
def producer0 : Producer := { id := 50, strand := 3, mask := 0x80000001, uniform := false, dests := [(4, Lanes.const 3), (63, Lanes.const 5)], waiting := [] }

theorem witness_producersComplete : ∃ (s : State) (p : Producer) (st : Strand), s.prods.find? (fun q => q.id == p.id) = some p ∧ p.waiting = [] ∧
    s.strand? p.strand = some st ∧ p.mask ≠ 0 ∧ (p.dests.map Prod.fst).Nodup ∧ (∀ d ∈ p.dests, d.1 < 64) ∧ st.cont = none ∧ st.forks = [] ∧
    (st.tile = true → st.live = 1) :=
  ⟨{ at' benchStrand with prods := [producer0] }, producer0, _, rfl, rfl, rfl, by decide, by decide, by decide, by decide +kernel, by decide +kernel,
    by decide +kernel⟩

theorem serves_of {s : State} {n : Nat} (h : ((s.dev.link? n).any fun l => l.state == .up || l.state == .degraded) = true) : LinkServes s n := by
  simp only [Option.any_eq_true, Bool.or_eq_true, beq_iff_eq] at h
  exact h

theorem seen_of {s : State} {p : Ctx → Bool} {ia n : Nat} {b : Bool} (h : ((s.visible p ia n).any fun x => (s.readyBytes x.1 x.2 ia n).2 == b) = true) :
    ∃ c w u, s.visible p ia n = some (c, w) ∧ s.readyBytes c w ia n = (u, b) := by
  simp only [Option.any_eq_true, beq_iff_eq] at h
  obtain ⟨x, h1, h2⟩ := h
  exact ⟨x.1, x.2, _, h1, Prod.ext rfl h2⟩

theorem witness_hostAndPeerAccess : ∃ (s : State) (func link ia : Nat) (bytes : List Byte), s.dev.state = .running ∧ link < 2 ∧ func ≤ s.dev.vfs ∧
    LinkServes s link ∧ s.dev.held = [] ∧ ∃ (c : Ctx) (w : Window) (u : State), s.visible (fun c => c.func == func) ia bytes.length = some (c, w) ∧
    s.readyBytes c w ia bytes.length = (u, true) :=
  ⟨hubWith none, 0, 1, 0xFFFF, [7], rfl, by decide, by decide +kernel, serves_of (by decide +kernel), by decide +kernel, seen_of (by decide +kernel)⟩

theorem witness_hostAndPeerAccess_waits : ∃ (s : State) (func link ia n : Nat), s.dev.state = .running ∧ link < 2 ∧ func ≤ s.dev.vfs ∧
    LinkServes s link ∧ s.dev.held = [] ∧ ∃ (c : Ctx) (w : Window) (u : State), s.visible (fun c => c.func == func) ia n = some (c, w) ∧
    s.readyBytes c w ia n = (u, false) :=
  ⟨frameless none, 0, 1, 0xFFFF, 1, rfl, by decide, by decide +kernel, serves_of (by decide +kernel), by decide +kernel, seen_of (by decide +kernel)⟩

theorem witness_hostAndPeerAccess_held : ∃ (s : State) (link : Nat), s.dev.state = .running ∧ LinkTrains s link :=
  ⟨{ hubWith none with dev := { (hubWith none).dev with links := [{ n := 1, state := .training, retraining := true }] } }, 1, rfl, _, rfl, rfl, .inl rfl⟩

theorem witness_hostAndPeerAccess_off : ∃ (s : State) (func : Nat), s.dev.state = .running ∧ s.dev.vfs < func := ⟨hubWith none, 64, rfl, by decide +kernel⟩

theorem witness_hostAndPeerAccess_home4 : ∃ (s : State) (ia : Nat), s.mem.wf = true ∧ s.poison = [] ∧ s.zeroLines = [] ∧
    (∀ st ∈ s.strands, st.cont = none) ∧ s.l1 = [] ∧ PlainBytes s 0xFFFF 1 ∧ homeOf ia = 4 :=
  ⟨hubWith none, hostMem, by decide +kernel, rfl, rfl, by decide +kernel, rfl, by unfold PlainBytes; decide +kernel, by decide⟩

theorem witness_hostAndPeerAccess_none : ∃ (s : State) (func link ia n : Nat) (bytes : List Byte), s.dev.state = .running ∧ link < 2 ∧ LinkServes s link ∧
    s.dev.held = [] ∧ s.visible (fun c => c.func == func) ia n = none ∧ s.visible (fun c => c.func == func) ia bytes.length = none :=
  ⟨hubWith none, 0, 0, 2 ^ 24, 1, [7], rfl, by decide, serves_of (by decide +kernel), by decide +kernel, by decide +kernel, by decide +kernel⟩

theorem witness_hostAndPeerAccess_peer : ∃ (s : State) (ia n port : Nat), s.dev.state = .running ∧ port < 16 ∧ LinkServes s (10 + port) ∧ s.dev.held = [] ∧
    ∃ (c : Ctx) (w : Window) (u : State), s.visible (fun _ => true) ia n = some (c, w) ∧ s.readyBytes c w ia n = (u, true) :=
  ⟨hubWith none, 0, 2, 15, rfl, by decide, serves_of (by decide +kernel), by decide +kernel, seen_of (by decide +kernel)⟩

theorem witness_hostAndPeerAccess_peerNone : ∃ (s : State) (ia n port : Nat), s.dev.state = .running ∧ port < 16 ∧ LinkServes s (10 + port) ∧ s.dev.held = [] ∧
    s.visible (fun _ => true) ia n = none :=
  ⟨hubWith none, 2 ^ 24, 2, 15, rfl, by decide, serves_of (by decide +kernel), by decide +kernel, by decide +kernel⟩

/-! #### Strands between instructions -/

/-- A trap of an address 0x1140 in lanes 0 and 2. -/
def trap0 (cause : Nat) : TrapInfo := { cause := cause, addr := 0x1140, lanes := 5, detail := 77 }

theorem noTrace_bench (st : Strand) : NoTrace (at' st) 1 := by
  intro c h
  have : (at' benchStrand).ctx? 1 = some c := h
  revert this
  rw [show (at' benchStrand).ctx? 1 = some benchCtx from rfl]
  rintro ⟨⟩
  rfl

theorem witness_trapsAreDelivered : ∃ (s : State) (st : Strand) (e : Env) (t : TrapInfo), s.strand? st.id = some st ∧ s.env? st = some e ∧ NoTrace s e.ctx ∧
    st.state = .trapped t ∧ (∀ p ∈ s.prods, p.strand ≠ st.id) ∧ st.handler = none ∧ (t.cause ≠ 0x20 ∧ t.cause ≠ 0x21 ∨ s.region? st e = none) :=
  let st := { benchStrand with state := .trapped (trap0 1) }
  ⟨at' st, st, env0, trap0 1, rfl, rfl, noTrace_bench _, rfl, by decide +kernel, rfl, .inl (by decide)⟩

theorem witness_trapsAreDelivered_double : ∃ (s : State) (st : Strand) (e : Env) (t : TrapInfo) (h : Handler), s.strand? st.id = some st ∧ s.env? st = some e ∧
    NoTrace s e.ctx ∧ st.state = .trapped t ∧ (∀ p ∈ s.prods, p.strand ≠ st.id) ∧ st.handler = some h :=
  let st := { benchStrand with state := .trapped (trap0 1), handler := some { floor := 0, depth := 0, trap := trap0 3 } }
  ⟨at' st, st, env0, trap0 1, _, rfl, rfl, noTrace_bench _, rfl, by decide +kernel, rfl⟩

/-- A strand that POISON stops in a region: its first return address is a region's, whose record stands at 0xF200. -/
def recordStrand : Strand := { benchStrand with state := .trapped (trap0 0x20), rets := [{ ra := 0xF201, cm := 3 }] }

def recordState : State :=
  let s := at' recordStrand
  { s with mem := (s.mem.putList 0xF200 ([0x40, 0x13] ++ List.replicate 6 0 ++ [0x00, 0x15] ++ List.replicate 6 0 ++ [100])).put 0x1500 1 }

theorem noTrace_record : NoTrace recordState 1 := by
  intro c h
  revert h
  rw [show recordState.ctx? 1 = some benchCtx from rfl]
  rintro ⟨⟩
  rfl

theorem witness_trapsAreDelivered_unwind : ∃ (s : State) (st : Strand) (e : Env) (t : TrapInfo) (u : State), s.strand? st.id = some st ∧ s.env? st = some e ∧
    NoTrace s e.ctx ∧ st.state = .trapped t ∧ (∀ p ∈ s.prods, p.strand ≠ st.id) ∧ st.handler = none ∧ (t.cause = 0x20 ∨ t.cause = 0x21) ∧
    unwound s st e t = some u :=
  let ⟨u, h⟩ := Option.isSome_iff_exists.1 (by decide +kernel : (unwound recordState recordStrand env0 (trap0 0x20)).isSome = true)
  ⟨recordState, recordStrand, env0, trap0 0x20, u, rfl, rfl, noTrace_record, rfl, by decide +kernel, rfl, .inl rfl, h⟩

/-- The bench with a newer map version, and an entry for MAP. -/
def mapState : State :=
  let s := at' benchStrand
  { s with dev := { s.dev with map := { s.dev.map with version := 2 } }
           kernels := [{ ctx := 1, base := benchBase, hdr := { benchHeader with mapEntry := 0x300 }, side := [], table := some [], uses := 1 }] }

theorem noTrace_map : NoTrace mapState 1 := by
  intro c h
  revert h
  rw [show mapState.ctx? 1 = some benchCtx from rfl]
  rintro ⟨⟩
  rfl

theorem witness_trapsAreDelivered_map : ∃ (s : State) (st : Strand) (e : Env) (g : Group) (c : Ctx), s.strand? st.id = some st ∧ s.env? st = some e ∧
    NoTrace s e.ctx ∧ s.group? st.group = some g ∧ s.ctx? e.ctx = some c ∧ c.ack.toNat < s.dev.map.version.toNat ∧ g.mapSeen.toNat < s.dev.map.version.toNat ∧
    e.hdr.mapEntry ≠ 0xFFFFFFFF ∧ st.handler = none ∧ st.cont = none ∧ st.tile = false ∧ g.state = .running ∧ st.live ≠ 0 ∧ st.state = .ready ∧ st.held = none :=
  ⟨mapState, benchStrand, { env0 with hdr := { benchHeader with mapEntry := 0x300 } }, _, _, rfl, rfl, noTrace_map, rfl, rfl, by decide +kernel,
    by decide +kernel, by decide, rfl, rfl, rfl, rfl, by decide, rfl, rfl⟩

/-- The bench's strand with no lane left. -/
def goneStrand : Strand := { benchStrand with live := 0 }

theorem exits_of {s : State} {st : Strand} {g : Group} (h1 : s.strand? st.id = some st) (h2 : s.group? st.group = some g) (hp : s.prods = [])
    (h : (st.live = 0 ∧ st.state ≠ .exited ∧ st.cont = none) ∧ s.tasksOpen st.id = false) : Exits s st g :=
  ⟨h1, h2, h.1.1, h.1.2.1, h.1.2.2, by simp [hp], h.2⟩

theorem witness_strandsGoOn_exit : ∃ (s : State) (st : Strand) (g : Group), Exits s st g ∧ st.tile = false ∧ ∀ n, n < 16 → (vget g.bars n {}).arr = 0 :=
  ⟨at' goneStrand, goneStrand, _, exits_of rfl rfl rfl (by decide +kernel), rfl, by decide +kernel⟩

/-- The second strand of the group, waiting at barrier 15 for the first. -/
def barStrand : Strand := { benchStrand with id := 5, idx := 1, slot := 1, state := .blocked (.bar 15) }

/-- The bench with two strands, of which the first has no lane left and the second waits at a barrier. -/
def barState : State :=
  let s := at' goneStrand
  { s with strands := s.strands ++ [barStrand], groups := s.groups.map fun (g : Group) => { g with bars := vset g.bars 15 { phase := 9, arr := 2 } } }

theorem witness_strandsGoOn_barrier : ∃ (s : State) (st : Strand) (g : Group), Exits s st g ∧ st.tile = false ∧
    (∃ x ∈ (s.without st).strands, x.group = g.id ∧ x.tile = false ∧ x.state ≠ .exited) ∧
    (∀ c ∈ s.ctxs, ∀ n, 11 ≤ n → n < 16 → (vget c.select n 0).extractLsb' 0 16 ≠ 1) ∧ arrivalsMet (s.without st) g 15 = true := by
  refine ⟨barState, goneStrand, _, exits_of rfl rfl rfl (by decide +kernel), rfl, ⟨barStrand, by decide +kernel, rfl, rfl, by decide⟩, fun c hc n lo hi => ?_,
    by decide +kernel⟩
  obtain rfl : c = benchCtx := List.mem_singleton.1 hc
  have : n = 11 ∨ n = 12 ∨ n = 13 ∨ n = 14 ∨ n = 15 := by omega
  rcases this with rfl | rfl | rfl | rfl | rfl <;> decide

/-- The strand waiting at the barrier goes past its BAR, and the phase is counted (R347). -/
theorem test_exitEndsBarrier : (match exec (.strandExited 3) barState with
    | .next t => ((t.strand? 5).map fun x => (x.state, x.pc), (t.group? 2).map fun g => vget g.bars 15 {})
    | _ => (none, none)) = (some (.ready, 0x110C), some { phase := 10, arr := 0 }) := by decide +kernel

theorem witness_strandsGoOn_tile : ∃ (s : State) (st : Strand) (g : Group), Exits s st g ∧ st.tile = true :=
  let st := { benchTile with live := 0 }
  ⟨at' st, st, _, exits_of rfl rfl rfl (by decide +kernel), rfl⟩

/-- A strand whose path has ended at the pop of a return entry. -/
def endedStrand (train : Option TrainRec) : Strand :=
  { benchStrand with state := .blocked .resolve, live := 1, rets := [{ ra := 0x1140, cm := 1, arr := 1, train := train }] }

theorem witness_strandsGoOn_pop : ∃ (s : State) (st : Strand) (e : Env) (top : RetEntry) (rest : List RetEntry), s.strand? st.id = some st ∧
    s.env? st = some e ∧ st.state = .blocked .resolve ∧ st.rets = top :: rest ∧ top.fork = none ∧
    (∀ r, top.train = some r → st.returnFull r.ret = true) ∧ top.train ≠ none ∧ top.arr &&& st.live ≠ 0 :=
  let st := endedStrand (some { index := 255, tag := 1, ret := 31 })
  ⟨at' st, st, env0, _, _, rfl, rfl, rfl, rfl, rfl, by rintro r ⟨⟩; decide +kernel, by decide, by decide⟩

/-- A fork with v0 to v3 as its return. -/
def fork0 : Fork := { cont := 9, ret := 0xF, predV := [(3, .u 0)], predB := none }

/-- A strand that waits at the pop of a return entry with that fork, v3 full or not. -/
def forkedStrand (full : Bool) : Strand :=
  ({ endedStrand none with rets := [{ ra := 0x1140, cm := 1, arr := 1, fork := some 9 }], forks := [fork0] }).setReg 3 { full := full }

/-- Its continuation, started with one live lane, or with two of which one has exited since. -/
def cont0 (live : Mask) : Cont := { owner := 3, depth0 := 0, live0 := live, wset := 0, ret := 0xF }

/-- The machine in which it waits: its continuation is at the return address. -/
def resolveState (full : Bool) (live : Mask) : State :=
  let s := at' (forkedStrand full)
  { s with strands := s.strands ++ [{ benchStrand with id := 9, pc := 0x1180, live := 1, path := 1, cont := some (cont0 live) }] }

theorem witness_strandsGoOn_stall : ∃ s st e top rest f c ct, Resolves s st e top rest f c ct ∧ st.returnFull f.ret = false :=
  ⟨resolveState false 1, forkedStrand false, env0, _, _, fork0, _, _, ⟨rfl, rfl, rfl, rfl, rfl, rfl, rfl, rfl⟩, by decide +kernel⟩

theorem witness_strandsGoOn_commit : ∃ s st e top rest f c ct, Resolves s st e top rest f c ct ∧ st.returnFull f.ret = true ∧ forkReason st top f ct = 0 ∧
    ct.fault = none :=
  ⟨resolveState true 1, forkedStrand true, env0, _, _, fork0, _, cont0 1, ⟨rfl, rfl, rfl, rfl, rfl, rfl, rfl, rfl⟩, by decide +kernel, by decide +kernel, rfl⟩

theorem witness_strandsGoOn_squash : ∃ s st e top rest f c ct st', Resolves s st e top rest f c ct ∧ st.returnFull f.ret = true ∧ forkReason st top f ct ≠ 0 ∧
    State.strand? (((s.trainWith st top.train).setStrand st).squash f.cont (forkReason st top f ct)) st.id = some st' ∧ top.arr &&& st'.live ≠ 0 :=
  ⟨resolveState true 3, forkedStrand true, env0, _, _, fork0, _, cont0 3, _, ⟨rfl, rfl, rfl, rfl, rfl, rfl, rfl, rfl⟩, by decide +kernel, by decide +kernel, rfl,
    by decide⟩

/-- At a commit the strand goes on where its continuation is, which is gone (R290). -/
theorem test_commit : (match exec (.forkResolution 3) (resolveState true 1) with
    | .next t => ((t.strand? 3).map fun x => (x.state, x.pc, x.rets, x.forks), (t.strand? 9).isNone)
    | _ => (none, false)) = (some (.ready, 0x1180, [], []), true) := by decide +kernel

theorem witness_strandsGoOn_sleep : ∃ (s : State) (st : Strand) (start n : Nat), s.strand? st.id = some st ∧ st.state = .blocked .sleep ∧
    st.sleepFrom = some (start, n) ∧ start + n ≤ (s.cluster st.clusterNo).cycles :=
  let st := { benchStrand with state := .blocked .sleep, sleepFrom := some (0, 0) }
  ⟨at' st, st, 0, 0, rfl, rfl, rfl, by decide +kernel⟩

theorem witness_strandsGoOn_sleepOn : ∃ (s : State) (st : Strand) (start n : Nat), s.strand? st.id = some st ∧ st.state = .blocked .sleep ∧
    st.sleepFrom = some (start, n) ∧ (s.cluster st.clusterNo).cycles < start + n :=
  let st := { benchStrand with state := .blocked .sleep, sleepFrom := some (0, 1) }
  ⟨at' st, st, 0, 1, rfl, rfl, rfl, by decide +kernel⟩

theorem witness_strandsGoOn_phaser : ∃ (s : State) (st : Strand) (va : DWord) (ph : Word) (ia : Nat), s.strand? st.id = some st ∧
    st.state = .blocked .phaser ∧ st.held = some (va, ph) ∧ s.recordIa st va.toNat = some ia ∧ phaseOver (s.phaserAt ia) ph = true :=
  let st := { benchStrand with state := .blocked .phaser, held := some (0x5000, 0xFFFFFFFF) }
  ⟨at' st, st, 0x5000, 0xFFFFFFFF, 0x5000, rfl, rfl, rfl, by decide +kernel, by decide +kernel⟩

theorem witness_strandsGoOn_phaserOn : ∃ (s : State) (st : Strand) (va : DWord) (ph : Word) (ia : Nat), s.strand? st.id = some st ∧
    st.state = .blocked .phaser ∧ st.held = some (va, ph) ∧ s.recordIa st va.toNat = some ia ∧ phaseOver (s.phaserAt ia) ph = false :=
  let st := { benchStrand with state := .blocked .phaser, held := some (0x5000, 0) }
  ⟨at' st, st, 0x5000, 0, 0x5000, rfl, rfl, rfl, by decide +kernel, by decide +kernel⟩

theorem witness_strandsGoOn_timeout : ∃ (s : State) (st : Strand) (e : Env) (g : Group) (t : Team), s.strand? st.id = some st ∧ s.env? st = some e ∧
    s.group? st.group = some g ∧ s.team? g.team = some t ∧ t.state = .preempting ∧ 2 ^ 20 < st.runOn ∧ st.state ≠ .exited ∧ s.atPoint st e = false :=
  let st := { benchStrand with runOn := 2 ^ 20 + 1 }
  let s := at' st
  ⟨{ s with teams := s.teams.map fun (t : Team) => { t with state := .preempting } }, st, env0, _, _, rfl, rfl, rfl, rfl, rfl, by decide, by decide,
    by decide +kernel⟩

/-! #### Placement, waiting and pre-emption -/

/-- The bench with a launch of three teams that are all still to be placed. -/
def launchState : State :=
  let s := at' benchStrand
  { s with launches := s.launches.map fun (l : Launch) => { l with started := [], gx := 3 }, teams := [], groups := [], strands := []
           ctxs := [{ benchCtx with savePool := (0x20000, 0x100000), stackPool := (0x180000, 0x10000) }], now := 25000000 }

/-- Its team 0. -/
def pend0 : Pend := launchState.pending.headD { launch := 0, index := 0, level := 0, since := 0 }

/-- Where team 0 of the launch state goes. -/
def place0 : Placement := { cluster := 0, cores := [0], stackAreas := [], saves := [0x20000], ssas := [0x25000], forkSaves := [], tileSave := 0x28000 }

theorem witness_teamsArePlaced : ∃ (s : State) (launch index : Nat) (w : Placement) (p : Pend) (l : Launch) (k : Kernel) (c : Ctx) (u : State) (l' : Launch)
    (c' : Ctx), FirstPlaced s launch index w p l k c u ∧ u.launch? launch = some l' ∧ u.ctx? l.ctx = some c' ∧ c'.trace.on = false ∧ l'.ctx = l.ctx :=
  ⟨launchState, 6, 0, place0, _, _, _, _, _, _, _,
    ⟨by unfold NoWaits; decide +kernel, rfl, rfl, rfl, rfl, by decide +kernel, by decide +kernel, rfl, by decide +kernel, by decide +kernel, by decide +kernel, rfl⟩,
    rfl, rfl, rfl, rfl⟩

/-- The bench's team, saved and waiting to be placed again. -/
def savedState : State :=
  let s := at' benchStrand
  { s with teams := s.teams.map fun (t : Team) => { t with state := .saved, since := 0 }, now := 25000000
           groups := s.groups.map fun (g : Group) => { g with state := .saved, away := true } }

theorem witness_teamsWaitAndGoAway_rise : ∃ (s : State) (launch index : Nat) (tm : Team),
    s.teams.find? (fun t => t.launch == launch && t.index == index && t.state == .saved) = some tm ∧ tm.since + 10000000 * (tm.risen + 1) ≤ s.now ∧
    tm.level + tm.risen < 10 :=
  ⟨savedState, 6, 0, _, rfl, by decide +kernel, by decide +kernel⟩

theorem witness_teamsWaitAndGoAway_launch : ∃ (s : State) (launch index : Nat) (l : Launch),
    s.teams.find? (fun t => t.launch == launch && t.index == index && t.state == .saved) = none ∧ s.launch? launch = some l ∧
    l.since + 10000000 * (l.risen + 1) ≤ s.now ∧ l.prio + l.risen < 10 ∧ index < l.gx * l.gy * l.gz ∧ index ∉ l.started :=
  ⟨launchState, 6, 2, _, rfl, rfl, by decide +kernel, by decide +kernel, by decide +kernel, by decide +kernel⟩

/-- The bench with every core but core 0 out of use, and a launch of a higher level that has waited above the bench's group. -/
def aboveState : State :=
  let s := at' benchStrand
  { s with now := 50000, dev := { s.dev with map := { s.dev.map with liveCore := 1 } }
           kernels := s.kernels.map fun (k : Kernel) => { k with hdr := { k.hdr with floorW := 8 } }
           groups := s.groups.map fun (g : Group) => { g with scratchLen := 393216 }
           launches := s.launches ++ s.launches.map fun (l : Launch) => { l with id := 7, prio := 7, dynScr := 389120, started := [], above := [(0, 0)] } }

/-- Its group. -/
def victim0 : Group := { startGroup 2 1 0 0 0 5 393216 0x30000 with mapSeen := 1 }

theorem witness_teamsWaitAndGoAway_preempt : ∃ (s : State) (launch index : Nat) (p : Pend) (g : Group) (tm : Team) (since : Nat),
    s.pending.find? (fun p => p.launch == launch && p.index == index) = some p ∧ s.group? g.id = some g ∧ s.aboveAt p = some since ∧
    since + 50000 ≤ s.now ∧ s.isVictim p g = true ∧ (∀ t ∈ s.teams, t.state = .preempting → t.preemptor ≠ some (launch, index)) ∧
    (s.preempt g.team).team? g.team = some tm :=
  ⟨aboveState, 7, 0, { launch := 7, index := 0, level := 7, since := 0 }, victim0, _, 0, by decide +kernel, by decide +kernel, by decide +kernel, by decide, by decide +kernel, by decide +kernel, rfl⟩

/-- The bench's team draining at a listed point. -/
def drainedState : State :=
  let s := at' benchStrand
  { s with teams := s.teams.map fun (t : Team) => { t with state := .preempting, leases := [], tile := none, tileSave := 0 }
           strands := [benchStrand]
           groups := s.groups.map fun (g : Group) => { g with state := .preempting, saveAt := 0x60000 }
           pages := (List.range 16).map fun n => { page := n, frame := n + 1 }
           kernels := s.kernels.map fun (k : Kernel) => { k with side := [{ off := 0x100, blive := 0xFFFF, klive := 0xFE, jlive := 0xFF, vlive := 5 }] } }

/-- Its group. -/
def drained0 : Group := { startGroup 2 1 0 0 0 5 4096 0x60000 with mapSeen := 1, state := .preempting }

/-- What a save of that group asks of the machine, with whether its areas are ready. -/
def Saves (s : State) (g : Group) (tm : Team) (l : Launch) (h : Header) (c : Ctx) (ready : Bool) : Prop :=
  s.group? g.id = some g ∧ s.team? g.team = some tm ∧ (∃ scr, s.teamShape tm = some (l, h, scr)) ∧ tm.state = .preempting ∧ g.away = false ∧ g.ended = false ∧
    tm.tile = none ∧ tm.tileSave = 0 ∧ s.readyToSave tm = true ∧ s.ctx? l.ctx = some c ∧ c.trace.on = false ∧ (s.readyAreas c (savedAreas s g)).2 = ready

/-- The same as one check. -/
def savesCheck (s : State) (g : Group) (ready : Bool) : Bool :=
  s.group? g.id = some g && !g.away && !g.ended && (s.team? g.team).any fun tm => tm.state == .preempting && tm.tile.isNone && tm.tileSave == 0 && s.readyToSave tm &&
    (s.teamShape tm).any fun x => (s.ctx? x.1.ctx).any fun c => !c.trace.on && (s.readyAreas c (savedAreas s g)).2 == ready

theorem saves_of {s : State} {g : Group} {ready : Bool} (h : savesCheck s g ready = true) : ∃ tm l hd c, Saves s g tm l hd c ready := by
  simp only [savesCheck, Bool.and_eq_true, Option.any_eq_true, decide_eq_true_eq, beq_iff_eq, Bool.not_eq_true', Option.isNone_iff_eq_none] at h
  obtain ⟨⟨⟨h1, h2⟩, h3⟩, tm, h4, ⟨⟨⟨h5, h6⟩, h6'⟩, h7⟩, x, h8, c, h9, h10, h11⟩ := h
  exact ⟨tm, x.1, x.2.1, c, h1, h4, ⟨x.2.2, h8⟩, h5, h2, h3, h6, h6', h7, h9, h10, h11⟩

theorem witness_teamsWaitAndGoAway_save : ∃ (s : State) (g : Group) (tm : Team) (l : Launch) (h : Header) (c : Ctx), Saves s g tm l h c true :=
  ⟨drainedState, drained0, saves_of (by decide +kernel)⟩

theorem witness_teamsWaitAndGoAway_savable : (savedAreas drainedState drained0).Pairwise (fun a b => a.1 + a.2 ≤ b.1 ∨ b.1 + b.2 ≤ a.1) ∧
    drainedState.l1 = [] ∧ (∀ x ∈ drainedState.strands, x.cont = none) ∧ drainedState.mem.wf = true ∧ (savedAreas drainedState drained0).length = 2 := by
  decide +kernel

theorem witness_teamsWaitAndGoAway_saveWaits : ∃ (s : State) (g : Group) (tm : Team) (l : Launch) (h : Header) (c : Ctx), Saves s g tm l h c false :=
  ⟨{ drainedState with pages := [{ page := 0, frame := 1 }], frames := [] }, drained0, saves_of (by decide +kernel)⟩

/-- The machine after that save, 25 ms on: the team is pending again. -/
def goneState : State := { drainedState.groupSave 2 with now := 25000000 }

/-- The group's record and its strand's image are in memory, and the strand is gone (R335, R338). -/
theorem test_groupSave : ([(0x60000, 4), (0x60004, 4), (0x60008, 8), (0x22E40, 8), (0x22E48, 4)].map (fun f => goneState.field f.1 f.2),
    goneState.strands.length, goneState.teams.map (·.state)) = ([0x31525347, 0x4800, 0x1000, 0x1100, 0xFFFFFFFF], 0, [.saved]) := by decide +kernel

/-- A team that returns, as one check: with whether its areas are ready, and the member whose image is bad. -/
def returnsCheck (s : State) (launch index : Nat) (w : Placement) (ready : Bool) (bad : Option Nat) : Bool :=
  (s.launches.all fun l => l.waiting == []) && (s.teams.all fun t => t.owed == []) && s.l1 == [] &&
    (s.pending.find? fun p => p.launch == launch && p.index == index).any fun p => (s.launch? launch).any fun l => (s.kernel? l.ctx l.kernel).any fun k =>
      (s.ctx? l.ctx).any fun c => p.saved.any fun tid => (s.team? tid).any fun tm =>
        !c.trace.on && s.fitsAt p l k.hdr w.cluster w.cores && !(s.pending.any fun q => q.before p && (s.couldPlace q).isSome) &&
          tm.groups == [2] && ((s.group? 2).any fun g => g.id == 2 && g.state == .saved && (s.readyAreas c (s.restoreAreas tm)).1.restoreFails g tm.kept == bad) &&
          (tm.kept.all fun x => !x.tile) && (s.readyAreas c (s.restoreAreas tm)).2 == ready

theorem returns_of {s : State} {launch index : Nat} {w : Placement} {ready : Bool} {bad : Option Nat} (h : returnsCheck s launch index w ready bad = true) :
    ∃ p l k c tm g u, Returns s launch index w p l k c tm ∧ s.readyAreas c (s.restoreAreas tm) = (u, ready) ∧ tm.groups = [g.id] ∧ s.group? g.id = some g ∧
      u.restoreFails g tm.kept = bad := by
  simp only [returnsCheck, Bool.and_eq_true, Option.any_eq_true, List.all_eq_true, beq_iff_eq, Bool.not_eq_true'] at h
  obtain ⟨⟨⟨h1, h2⟩, h3⟩, p, h4, l, h5, k, h6, c, h7, tid, h8, tm, h9, ⟨⟨⟨⟨⟨h10, h12⟩, h13⟩, h14⟩, g, h15, ⟨h16, h17⟩, h18⟩, h19⟩, h20⟩ := h
  refine ⟨p, l, k, c, tm, g, _, ⟨⟨h1, h2⟩, h4, h5, h6, h7, h10, h12, h13, ⟨tid, h8, h9⟩, ?_, h19, h3⟩, Prod.ext rfl h20, h16 ▸ h14, h16 ▸ h15, h18⟩
  rw [h14]
  exact ⟨by simp, fun gid hg => ⟨g, by rw [List.mem_singleton.1 hg]; exact h15, h17⟩⟩

theorem witness_teamsWaitAndGoAway_placed : ∃ s launch index w p l k c tm g u, Returns s launch index w p l k c tm ∧
    s.readyAreas c (s.restoreAreas tm) = (u, true) ∧ tm.groups = [g.id] ∧ s.group? g.id = some g ∧ u.restoreFails g tm.kept = none :=
  ⟨goneState, 6, 0, place0, returns_of (by decide +kernel)⟩

theorem witness_teamsWaitAndGoAway_bad : ∃ s launch index w p l k c tm g u, Returns s launch index w p l k c tm ∧
    s.readyAreas c (s.restoreAreas tm) = (u, true) ∧ tm.groups = [g.id] ∧ s.group? g.id = some g ∧ u.restoreFails g tm.kept = some 0xFF :=
  ⟨{ goneState with mem := [] }, 6, 0, place0, returns_of (by decide +kernel)⟩

theorem witness_teamsWaitAndGoAway_placeWaits : ∃ s launch index w p l k c tm g u, Returns s launch index w p l k c tm ∧
    s.readyAreas c (s.restoreAreas tm) = (u, false) ∧ tm.groups = [g.id] ∧ s.group? g.id = some g ∧ u.restoreFails g tm.kept = none :=
  ⟨{ goneState with pages := [], frames := [] }, 6, 0, place0, returns_of (by decide +kernel)⟩

/-- The restored strand has its pc and masks back, on the core that the placement names (R339). -/
theorem test_teamPlaceSaved : (match exec (.teamPlace 6 0 { place0 with cores := [3] }) goneState with
    | .next t => (t.strands.map fun x => (x.id, x.core, x.pc), t.groups.map fun g => (g.core, g.state))
    | _ => ([], [])) = ([(3, 3, 0x1100)], [(3, .running)]) := by decide +kernel

/-! #### Charge, copies and matrix tasks -/

theorem witness_enginesGoOn_grant : ∃ (s : State) (cl : Nat) (r : ChargeReq) (before after : List ChargeReq),
    (s.cluster cl).requests = before ++ r :: after ∧ (∀ x ∈ before, x.level < r.level) ∧ (∀ x ∈ after, x.level ≤ r.level) ∧
    (r.cost ≤ (s.cluster cl).level ∨ (s.cluster cl).level = 2 ^ 20) :=
  let a : ChargeReq := { level := 5, cls := 0, cost := 64, who := (0, 0, 1) }
  let r : ChargeReq := { level := 7, cls := 1, cost := 5000, who := (0, 1, 1) }
  ⟨(at' benchStrand).setCluster { (at' benchStrand).cluster 0 with level := 5000, requests := [a, r, { r with cost := 1 }] }, 0, r, [a], [{ r with cost := 1 }],
    by decide +kernel, by decide, by decide, .inl (by decide +kernel)⟩

/-- A copy of 16 bytes from 0x6000 to 0x7000, in group 2. -/
def copy0 (moved : Bool) : Copy :=
  { id := 20, strand := 3, ctx := 1, group := 2, src := 0x6000, dst := 0x7000, rows := 1, rowLen := 16, sstr := 16, dstr := 16, ctl := 0
    windows := benchCtx.windows, srcGroup := 2, dstGroup := 2, moved := moved }

theorem witness_enginesGoOn_copied : ∃ (s : State) (k : Copy) (g : Group), s.copies.find? (fun x => x.id == k.id) = some k ∧ k.bursts = 0 ∧ k.moved = true ∧
    s.copyHeld k = false ∧ (s.copyRing k).group? k.group = some g :=
  ⟨{ at' benchStrand with copies := [copy0 true] }, copy0 true, _, rfl, rfl, rfl, by decide +kernel, rfl⟩

theorem witness_enginesGoOn_moves : ∃ (s : State) (k : Copy), s.copies.find? (fun x => x.id == k.id) = some k ∧ k.bursts = 0 ∧ k.moved = false ∧
    (k.rows = 0 ∨ ∀ a ∈ s.flight, a.strand = k.strand → a.id < k.id → a.holdsClass 1 = false) ∧ (s.copyReady k).2 = true ∧ State.copyHeld
      { (s.copyReady k).1.copyMove k with copies := ((s.copyReady k).1.copyMove k).copies.map fun x => if x.id = k.id then { x with moved := true } else x } k = true :=
  ⟨{ at' benchStrand with copies := [{ copy0 true with id := 19 }, copy0 false], flight := [{ access .load [elem1] with id := 5 }] }, copy0 false, rfl, rfl, rfl,
    .inr (by decide), by decide +kernel, by decide +kernel⟩

theorem witness_enginesGoOn_placeless : ∃ (s : State) (k : Copy), s.copies.find? (fun x => x.id == k.id) = some k ∧ k.bursts = 0 ∧ k.moved = false ∧
    (k.rows = 0 ∨ ∀ a ∈ s.flight, a.strand = k.strand → a.id < k.id → a.holdsClass 1 = false) ∧ (s.copyReady k).2 = false :=
  ⟨{ at' benchStrand with copies := [copy0 false], pages := [], frames := [] }, copy0 false, rfl, rfl, rfl, .inr (by decide), by decide +kernel⟩

/-- A copy of a row from 0x6000 to 0x7000 of memory, or of the scratchpad of group 2, moves its bytes. -/
theorem witness_enginesGoOn_copyMove : ∃ (s : State) (k : Copy) (c : Ctx) (src dst : Nat) (g : Group), s.ctx? k.ctx = some c ∧ Bare s ∧ k.rows = 1 ∧
    k.rowLen % 4 = 0 ∧ k.src < 2 ^ 64 ∧ k.dst < 2 ^ 64 ∧ k.ctl.toNat % 4 = 0 ∧ PlainBytes s src k.rowLen ∧ PlainBytes s dst k.rowLen ∧
    (∀ i, i < k.rowLen → (({ c with windows := k.windows } : Ctx).translate (k.src + i)).map (·.2.2) = some (src + i)) ∧
    (∀ i, i < k.rowLen → (({ c with windows := k.windows } : Ctx).translate (k.dst + i)).map (·.2.2) = some (dst + i)) ∧
    s.group? k.dstGroup = some g ∧ g.poison = [] :=
  ⟨at' benchStrand, copy0 false, _, 0x6000, 0x7000, _, rfl, ⟨rfl, rfl, rfl, by decide +kernel⟩, rfl, rfl, by decide, by decide, by decide,
    by unfold PlainBytes; decide +kernel, by unfold PlainBytes; decide +kernel, by decide +kernel, by decide +kernel, rfl, rfl⟩

theorem test_copyMove : ((State.copyMove { at' benchStrand with mem := Memory.putList [] 0x6000 [1, 2, 3, 4, 5] } (copy0 false)).mem.getList 0x7000 6,
    ((State.copyMove { at' benchStrand with mem := Memory.putList [] 0x6000 [1, 2, 3, 4, 5] } { copy0 false with ctl := 4 }).group? 2).map
      fun g => Memory.getList g.scratch 0x7000 6) = ([1, 2, 3, 4, 5, 0], some [1, 2, 3, 4, 5, 0]) := by decide +kernel

/-- A task of the bench's tile strand on bands 0 and 1. -/
def task0 (kind : TaskKind) (imm : BitVec 32) (lit : DWord) (ts : TaskState) : Task :=
  { entry := 2, seq := 100, ticket := 66, strand := 4, kind := kind, x := { ty := .bf16, imm := imm }, lit := lit, predA := 0, predB := 0, bands := [0, 1]
    state := ts, charged := true }

/-- The bench with that task in its table, the strand's bands, and ring 0 of group 2. -/
def taskState (t : Task) (q : Ring) (poison : List Nat) (valid : Bool) : State :=
  let s := at' benchStrand
  let bands : List Band := [{ logical := 0, physical := 1, active := { valid := valid, fmt := .bf16, rows := 4, vals := [(3, 0x3F80)] } },
    { logical := 1, physical := 2, active := { valid := true, rows := 4, fmt := .bf16, vals := [(0, 0x3F80)] } }]
  let s := s.setStrand { benchTile with bands := bands }
  { s.setCluster { s.cluster 0 with tasks := [t], pbands := [{ n := 1, owner := 4, powered := true }, { n := 2, owner := 4, powered := true }] } with
    groups := s.groups.map fun (g : Group) => { g with rings := vset g.rings 0 q, poison := poison } }

def ring0 : Ring := { defd := true, pcls := 4, ccls := 4, free := 1, filled := 1, off := 1, lsz := 10, cnt := 2 }

theorem witness_enginesGoOn_issueBad : ∃ (s : State) (cl : Nat) (t : Task) (st : Strand) (e : Env) (tm : Team) (g : Group) (b : RingBad),
    (s.cluster cl).tasks.find? (fun x => x.entry == t.entry && x.state == .waiting) = some t ∧ s.strand? t.strand = some st ∧ s.env? st = some e ∧
    s.team? e.team = some tm ∧ tm.state = .running ∧ e.debug = false ∧ (t.predA = 0 ∨ (s.cluster cl).satisfied t.predA = true) ∧
    (t.predB = 0 ∨ (s.cluster cl).satisfied t.predB = true) ∧ (∀ b ∈ (s.cluster cl).tasks, t.follows b = false ∧ t.queues b = false) ∧
    (∀ l ∈ t.bands, ∃ b ∈ st.bands, b.logical = l ∧ ∃ p ∈ (s.cluster cl).pbands, p.n = b.physical ∧ p.owner = st.id ∧ p.powered = true) ∧
    s.teamGroup? e t.desc.sel.gi = some g ∧ (if t.desc.drain then (g.ring t.desc.sel.q).free else (g.ring t.desc.sel.q).filled) ≠ 0 ∧
    ringBad s e t.desc.sel t.desc.drain (slotBytes t.kind t.x t.lit t.bands) = some b :=
  ⟨taskState (task0 .mma 0 (2 + 3 * 128) .waiting) { ring0 with ccls := 1 } [] true, 0, task0 .mma 0 (2 + 3 * 128) .waiting, _, _, _, _, .classes,
    by decide +kernel, rfl, rfl, rfl, rfl, rfl, .inl rfl, .inl rfl, by decide +kernel, by decide +kernel, rfl, by decide +kernel, rfl⟩

theorem witness_enginesGoOn_issue : ∃ (s : State) (cl : Nat) (t : Task) (st : Strand) (e : Env) (tm : Team) (g : Group),
    (s.cluster cl).tasks.find? (fun x => x.entry == t.entry && x.state == .waiting) = some t ∧ s.strand? t.strand = some st ∧ s.env? st = some e ∧
    s.team? e.team = some tm ∧ tm.state = .running ∧ e.debug = false ∧ (t.predA = 0 ∨ (s.cluster cl).satisfied t.predA = true) ∧
    (t.predB = 0 ∨ (s.cluster cl).satisfied t.predB = true) ∧ (∀ b ∈ (s.cluster cl).tasks, t.follows b = false ∧ t.queues b = false) ∧
    (∀ l ∈ t.bands, ∃ b ∈ st.bands, b.logical = l ∧ ∃ p ∈ (s.cluster cl).pbands, p.n = b.physical ∧ p.owner = st.id ∧ p.powered = true) ∧
    ringBad s e t.desc.sel t.desc.drain (slotBytes t.kind t.x t.lit t.bands) = none ∧ s.teamGroup? e t.desc.sel.gi = some g ∧
    (if t.desc.drain then (g.ring t.desc.sel.q).free else (g.ring t.desc.sel.q).filled) ≠ 0 :=
  ⟨taskState (task0 .mma 0 (2 + 3 * 128) .waiting) ring0 [] true, 0, task0 .mma 0 (2 + 3 * 128) .waiting, _, _, _, _,
    by decide +kernel, rfl, rfl, rfl, rfl, rfl, .inl rfl, .inl rfl, by decide +kernel, by decide +kernel, rfl, rfl, by decide +kernel⟩

/-- What the clauses about an issued task ask of it. -/
def Retiring (s : State) (cl : Nat) (t : Task) (st : Strand) (g : Group) : Prop :=
  (s.cluster cl).tasks.find? (fun x => x.entry == t.entry && x.state == .issued) = some t ∧ s.strand? t.strand = some st ∧
    (∃ e, s.env? st = some e ∧ s.teamGroup? e t.desc.sel.gi = some g ∧ e.debug = false) ∧ t.charged = true ∧
    ∀ b ∈ (s.cluster cl).tasks, b.seq < t.seq → b.strand = t.strand → b.state = .issued → b.desc.sel ≠ t.desc.sel

theorem witness_enginesGoOn_poisoned : ∃ s cl t st g, Retiring s cl t st g ∧ t.poisoned g ((g.ring t.desc.sel.q).slotAddr t.slot) = true :=
  ⟨taskState (task0 .mma 0 (2 + 3 * 128) .issued) ring0 [4] true, 0, task0 .mma 0 (2 + 3 * 128) .issued, _, _,
    ⟨by decide +kernel, rfl, ⟨_, rfl, rfl, rfl⟩, rfl, by decide +kernel⟩, by decide +kernel⟩

theorem witness_enginesGoOn_wld : ∃ s cl t st g x, Retiring s cl t st g ∧ t.poisoned g ((g.ring t.desc.sel.q).slotAddr t.slot) = false ∧ t.kind = .wld ∧
    wldWork g ((g.ring t.desc.sel.q).slotAddr t.slot) t st = .done x :=
  ⟨taskState (task0 .wld 0x1300 0 .issued) ring0 [] true, 0, task0 .wld 0x1300 0 .issued, _, _, _,
    ⟨by decide +kernel, rfl, ⟨_, rfl, rfl, rfl⟩, rfl, by decide +kernel⟩, by decide +kernel, rfl, rfl⟩

/-- A WLD of sparse weights, whose metadata are all zeros. -/
def sparse0 : Task := { task0 .wld 0x3100 0 .issued with x := { ty := .bf16, imm := 0x3100, x2 := true } }

theorem witness_enginesGoOn_wldBad : ∃ s cl t st g k d x, Retiring s cl t st g ∧ t.poisoned g ((g.ring t.desc.sel.q).slotAddr t.slot) = false ∧ t.kind = .wld ∧
    wldWork g ((g.ring t.desc.sel.q).slotAddr t.slot) t st = .bad k d x :=
  ⟨taskState sparse0 ring0 [] true, 0, sparse0, _, _, _, _, _, ⟨by decide +kernel, rfl, ⟨_, rfl, rfl, rfl⟩, rfl, by decide +kernel⟩, by decide +kernel, rfl, rfl⟩

theorem witness_enginesGoOn_mma : ∃ s cl t st g, Retiring s cl t st g ∧ t.poisoned g ((g.ring t.desc.sel.q).slotAddr t.slot) = false ∧ t.kind = .mma ∧
    ∀ l ∈ t.bands, ∀ b ∈ st.bands, b.logical = l → b.active.valid = true :=
  ⟨taskState (task0 .mma 0 (2 + 3 * 128) .issued) ring0 [] true, 0, task0 .mma 0 (2 + 3 * 128) .issued, _, _,
    ⟨by decide +kernel, rfl, ⟨_, rfl, rfl, rfl⟩, rfl, by decide +kernel⟩, by decide +kernel, rfl, by decide +kernel⟩

theorem witness_enginesGoOn_mdrain : ∃ s cl t st g, Retiring s cl t st g ∧ t.poisoned g ((g.ring t.desc.sel.q).slotAddr t.slot) = false ∧ t.kind = .mdrain ∧
    t.x.x2 = false :=
  ⟨taskState (task0 .mdrain 0x8080 0 .issued) ring0 [] true, 0, task0 .mdrain 0x8080 0 .issued, _, _,
    ⟨by decide +kernel, rfl, ⟨_, rfl, rfl, rfl⟩, rfl, by decide +kernel⟩, by decide +kernel, rfl, rfl⟩

theorem witness_enginesGoOn_mmaBad : ∃ s cl t st g l, Retiring s cl t st g ∧ t.poisoned g ((g.ring t.desc.sel.q).slotAddr t.slot) = false ∧ t.kind = .mma ∧
    t.bands.find? (fun l => st.bands.any fun b => b.logical == l && !b.active.valid) = some l :=
  ⟨taskState (task0 .mma 0 (2 + 3 * 128) .issued) ring0 [] false, 0, task0 .mma 0 (2 + 3 * 128) .issued, _, _, 0,
    ⟨by decide +kernel, rfl, ⟨_, rfl, rfl, rfl⟩, rfl, by decide +kernel⟩, by decide +kernel, rfl, by decide +kernel⟩

/-- An MDRAIN that updates an amax register. -/
def drained1 : Task := { task0 .mdrain 0x8080 0 .issued with x := { ty := .bf16, imm := 0x8080, x2 := true } }

theorem witness_enginesGoOn_mdrainAmax : ∃ (s : State) (cl : Nat) (t : Task) (st : Strand) (g h : Group), Retiring s cl t st g ∧
    t.poisoned g ((g.ring t.desc.sel.q).slotAddr t.slot) = false ∧ t.kind = .mdrain ∧ t.x.x2 = true ∧
    State.group? (s.scratchStore g.id st.id ((List.range (drainBytes t (drainValues t st)).length).map fun i =>
      { addr := (g.ring t.desc.sel.q).slotAddr t.slot + i, width := 1, lane := 0, slot := 0
        data := ((drainBytes t (drainValues t st)).getD i 0).toNat })) g.id = some h :=
  ⟨taskState drained1 ring0 [] true, 0, drained1, _, _, _, ⟨by decide +kernel, rfl, ⟨_, rfl, rfl, rfl⟩, rfl, by decide +kernel⟩, by decide +kernel, rfl, rfl, rfl⟩

/-! #### Contexts and code objects -/

/-- A descriptor of context 7 of function 1. -/
def descriptor0 : List Byte :=
  bytesLE 2 7 ++ bytesLE 1 1 ++ bytesLE 1 0 ++ bytesLE 4 0 ++ bytesLE 1 10 ++ bytesLE 1 4 ++ List.replicate 6 0 ++ bytesLE 8 0x8000 ++ bytesLE 8 hostMem ++
    bytesLE 8 0x30000 ++ List.replicate 984 0

theorem witness_contextsAreManaged_create : ∃ (s : State) (func : Nat) (d : List Byte), s.hostServed = true ∧
    descriptorOk d (if s.dev.map.version = 0 then none else some (pageOf s.dev.mapPage)) = true ∧ (func = 0 ∨ func = entryNum d 2 1) ∧
    s.ctx? (entryNum d 0 2) = none ∧ (entryNum d 2 1 = 0 ∨ s.freeSlot (entryNum d 2 1) < 64) :=
  ⟨hubWith none, 1, descriptor0, by decide +kernel, by decide +kernel, .inr (by decide +kernel), by decide +kernel, .inr (by decide +kernel)⟩

theorem witness_contextsAreManaged_refused : ∃ (s : State) (func : Nat) (d : List Byte), s.hostServed = true ∧
    ¬(descriptorOk d (if s.dev.map.version = 0 then none else some (pageOf s.dev.mapPage)) = true ∧ (func = 0 ∨ func = entryNum d 2 1) ∧
      s.ctx? (entryNum d 0 2) = none ∧ (entryNum d 2 1 = 0 ∨ s.freeSlot (entryNum d 2 1) < 64)) :=
  ⟨hubWith none, 2, descriptor0, by decide +kernel, by decide +kernel⟩

theorem witness_contextsAreManaged : ∃ (s : State) (i : Instr) (func ctx : Nat) (c : Ctx) (t : State), contextNamed i = some (func, ctx) ∧
    s.hostServed = true ∧ s.ctx? ctx = some c ∧ reaches func c ∧ contextRule s c i = some t :=
  ⟨hubWith none, .counterClaim 0 1 15, 0, 1, _, _, rfl, by decide +kernel, rfl, .inl rfl, rfl⟩

/-- The bench with its context sliced and current, its slice over, and its grace period over. -/
def slicedState : State :=
  let s := at' benchStrand
  { s with now := 10000000, ctxs := [{ benchCtx with sliced := true, slice := 200, grace := some 0 }], dev := { s.dev with current := some 1 } }

theorem witness_contextsAreManaged_slice : ∃ (s : State) (c : Ctx), s.dev.current = some c.id ∧ s.ctx? c.id = some c ∧ s.dev.switching = false ∧
    c.id ∈ s.rotation ∧ c.id < 4096 ∧ s.dev.sliceFrom + 1000 * c.slice ≤ s.now :=
  ⟨slicedState, { benchCtx with sliced := true, slice := 200, grace := some 0 }, rfl, rfl, rfl, by decide +kernel, by decide, by decide +kernel⟩

theorem witness_contextsAreManaged_grace : ∃ (s : State) (c : Ctx) (since : Nat), s.ctx? c.id = some c ∧ c.state = .running ∧ c.grace = some since ∧
    since + 10000000 ≤ s.now ∧ s.dev.switching = false ∧ s.dev.current = some c.id :=
  ⟨slicedState, { benchCtx with sliced := true, slice := 200, grace := some 0 }, 0, rfl, rfl, rfl, by decide +kernel, rfl, rfl⟩

theorem witness_contextsAreManaged_graceWaits : ∃ (s : State) (c : Ctx) (since : Nat), s.ctx? c.id = some c ∧ c.state = .running ∧ c.grace = some since ∧
    since + 10000000 ≤ s.now ∧ s.dev.switching = true :=
  ⟨{ slicedState with dev := { slicedState.dev with switching := true } }, { benchCtx with sliced := true, slice := 200, grace := some 0 }, 0, rfl, rfl, rfl,
    by decide +kernel, rfl⟩

theorem witness_contextsAreManaged_quiesce : ∃ (s : State) (t : Team) (g : Group), (s.teams.map (·.id)).Nodup ∧ (s.groups.map (·.id)).Nodup ∧
    (∀ x ∈ s.strands, x.cont = none ∧ x.mapDue = false) ∧ t ∈ s.teamsOf 1 ∧ t.state = .running ∧ g ∈ s.groups ∧ g.team = t.id ∧ g.ended = false :=
  ⟨at' benchStrand, _, _, by decide +kernel, by decide +kernel, by decide +kernel, .head _, rfl, .head _, rfl, rfl⟩

theorem witness_contextsAreManaged_counters : ∃ (s u : State) (c : Ctx) (lack : List Nat), s.ctx? c.id = some c ∧ s.reachable c.ctxSave = true ∧
    s.touchRange c.conf false c.ctxSave 128 = (u, true, lack) ∧ Bare u ∧ PlainBytes u c.ctxSave 128 :=
  ⟨at' benchStrand, at' benchStrand, benchCtx, [], rfl, by decide +kernel, rfl, ⟨rfl, rfl, rfl, by decide +kernel⟩, by unfold PlainBytes; decide +kernel⟩

/-- A context whose counters are read back at once, as it is resumed, and one whose counters wait for a page. -/
theorem witness_contextsAreManaged_resume : ∃ (s : State) (c : Ctx), s.ctx? 1 = some c ∧ c.state = .suspended ∧ c.destroyWaits = false ∧ c.saveDue = false ∧
    (s.countersReady c).2 = true ∧ (resumes s c).isSome = true :=
  ⟨{ at' benchStrand with ctxs := [{ benchCtx with state := .suspended }] }, _, rfl, rfl, rfl, rfl, by decide +kernel, by decide +kernel⟩

theorem witness_contextsAreManaged_resumeWaits : ∃ (s : State) (c : Ctx), s.ctx? 1 = some c ∧ c.state = .suspended ∧ c.destroyWaits = false ∧ c.saveDue = false ∧
    (s.countersReady c).2 = false ∧ (resumes s c).isSome = true :=
  ⟨{ at' benchStrand with ctxs := [{ benchCtx with state := .suspended }], pages := [], frames := [] }, _, rfl, rfl, rfl, rfl, by decide +kernel, by decide +kernel⟩

/-- A destroyed context leaves no work and no lease (R433). -/
theorem test_destroyed : (match exec (.contextDestroy 0 1) { hubWith none with
      ctxs := [{ benchCtx with state := .suspended }], teams := (hubWith none).teams.map fun (t : Team) => { t with state := .saved }
      pages := [{ page := 0, frame := 1, leases := 1, state := 2 }] } with
    | .next t => ([t.ctxs.length, t.launches.length, t.teams.length, t.strands.length, t.kernels.length], t.pages.map fun p => (p.leases, p.state))
    | _ => ([], [])) = ([0, 0, 0, 0, 0], [(0, 1)]) := by decide +kernel

/-- The image of a kernel of one strand without a side table. -/
def image0 : List Byte :=
  bytesLE 4 0x314B4847 ++ bytesLE 2 1 ++ bytesLE 2 0 ++ [1, 0, 1, 0, 0, 0, 8, 64] ++ bytesLE 4 0 ++ bytesLE 4 0 ++ bytesLE 4 0x100 ++
    bytesLE 12 (2 ^ 96 - 1) ++ bytesLE 4 0x140 ++ List.replicate 276 0

def object0 : CodeObject :=
  { kernels := [image0], datas := [], symbols := [], relocs := [], codeRange := (0x2000, 0x1000), dataRange := (0, 0), spillTrap := false, debug := false, stack := none }

/-- An empty image fails the first check. -/
theorem witness_kernelsComeAndGo_refused : ∃ (s : State) (ctx : Nat) (obj : CodeObject) (c : Ctx) (b : List Byte) (check : LoadCheck) (p : Prop)
    (after : List (LoadCheck × Prop)), s.ctx? ctx = some c ∧ s.dev.state = .running ∧ obj.kernels[0]? = some b ∧ loadRule s b obj.stack = (check, p) :: after ∧ ¬p :=
  ⟨hubWith none, 1, { object0 with kernels := [[]] }, _, [], .ident, _, _, rfl, rfl, rfl, rfl, by decide⟩

theorem checks_image0 : ∀ x ∈ loadRule (hubWith none) image0 none, x.2 := by
  simp only [loadRule, List.forall_mem_append, List.forall_mem_cons, List.forall_mem_map, List.mem_range, coresFor]
  refine ⟨⟨⟨?_, ?_⟩, ?_⟩, ?_⟩
  · refine ⟨?_, ?_, ?_, ?_, ?_, ?_, ?_, ?_, ?_, ?_, ?_, ?_, ?_, ?_, ?_, ?_, ?_, ?_, ?_, ?_, ?_, ?_, ?_, ?_, ?_, by simp⟩ <;> decide +kernel
  · decide +kernel
  · decide +kernel
  · refine ⟨by simp, ?_, ?_, ⟨by decide +kernel, fun i h => absurd h (by rw [show entryNum image0 0x30 4 = 0 from by decide +kernel]; omega)⟩,
      fun p q hpq hq hp _ => absurd ((by decide +kernel : ∀ p < 16, entryNum image0 (0x40 + 4 * p) 1 % 128 = 0) p (by omega)) hp,
      ?_, ?_, ?_, ?_, ?_, by simp⟩ <;> decide +kernel

theorem witness_kernelsComeAndGo : ∃ (s : State) (ctx : Nat) (obj : CodeObject) (c : Ctx) (bases : List Nat) (u : State), s.ctx? ctx = some c ∧
    s.dev.state = .running ∧ (∀ b ∈ obj.kernels, ∀ x ∈ loadRule s b obj.stack, x.2) ∧ obj.kernels.length = 1 ∧
    placeAll obj.codeRange 4096 (s.loadedAreas c) (obj.kernels.map List.length) = some bases ∧
    (∀ a ∈ bases.zip (obj.kernels.map List.length), rangeMapped c true a.1 a.2 = true) ∧ (∀ b ∈ obj.kernels, entryNum b 6 2 % 4 = 0) ∧
    (bases.zip obj.kernels).foldl (fun (x : State × Bool) a => let y := x.1.loadBytes c a.1 a.2; (y.1, x.2 && y.2)) (s, true) = (u, true) := by
  obtain ⟨c, hc⟩ := Option.isSome_iff_exists.1 (by decide +kernel : ((hubWith none).ctx? 1).isSome = true)
  have h : ((hubWith none).ctx? 1).all (fun c => decide (placeAll object0.codeRange 4096 ((hubWith none).loadedAreas c) [image0.length] = some [0x2000]) &&
    rangeMapped c true 0x2000 image0.length && ((hubWith none).loadBytes c 0x2000 image0).2) = true := by decide +kernel
  rw [hc] at h
  simp only [Option.all_some, Bool.and_eq_true, decide_eq_true_eq] at h
  refine ⟨hubWith none, 1, object0, c, [0x2000], ((hubWith none).loadBytes c 0x2000 image0).1, hc, by decide +kernel, fun b hb => ?_, rfl, h.1.1, fun a ha => ?_,
    by decide +kernel, ?_⟩
  · rw [List.mem_singleton.1 hb]; exact checks_image0
  · rw [List.mem_singleton.1 ha]; exact h.1.2
  · simp only [object0, List.zip_cons_cons, List.zip_nil_left, List.foldl_cons, List.foldl_nil, Bool.true_and, h.2]

/-- An image with the address of its entry, plus 5, at 0x120. -/
def object1 : CodeObject :=
  { object0 with symbols := [.own true 0 0x100], debug := true
                 relocs := [{ inKernel := true, object := 0, bytes := bytesLE 8 0x120 ++ bytesLE 4 0 ++ bytesLE 4 1 ++ bytesLE 8 5 }] }

theorem witness_kernelsComeAndGo_relocated : ∃ (obj : CodeObject) (b img : List Byte) (base : Nat), Written obj b img base ∧ obj.kernels = [b] ∧
    obj.relocs.length = 1 :=
  ⟨object1, image0, image0.take 6 ++ [1] ++ (image0.drop 7).take 0x119 ++ bytesLE 8 0x2105 ++ image0.drop 0x128, 0x2000,
    ⟨by decide +kernel, by decide +kernel, by decide +kernel, fun r hr => ⟨0x100, by rw [List.mem_singleton.1 hr]; decide +kernel⟩, by decide +kernel⟩, rfl, rfl⟩

theorem witness_kernelsComeAndGo_place : placeAll (0x2800, 0x4000) 4096 [(0x3000, 0x100)] [0x140] = some [0x4000] := by decide +kernel

theorem witness_kernelsComeAndGo_table : (hubWith none).buildTable { benchHeader with vcl := 1, vspan := 1 } = some [0] ∧
    (hubWith none).buildTable { benchHeader with vcl := 2, vspan := 1 } = none := by decide +kernel

theorem witness_kernelsComeAndGo_unload : ∃ s ctx base k, State.kernel? s ctx base = some k := ⟨hubWith none, 1, 0x1000, _, rfl⟩

/-! #### Errors and bring-up -/

theorem witness_errorsAreContained_shadow : ∃ (s : State) (st : Strand), s.dev.map.shadow = true ∧ s.strand? st.id = some st :=
  let s := at' benchStrand
  ⟨{ s with dev := { s.dev with map := { s.dev.map with shadow := true } } }, benchStrand, rfl, rfl⟩

/-- An error in storage spoils v63 of the bench's strand and the last sector of its group's scratchpad (R457). -/
theorem test_coreStorage : (match exec (.errorDetected (.coreStorage 0 (some (3, 63)) [(2, 127)] [])) (at' benchStrand) with
    | .next t => ((t.strand? 3).map fun x => ((x.reg 63).poison, (x.reg 62).poison), (t.group? 2).map (·.poison))
    | _ => (none, none)) = (some (true, false), some [127]) := by decide +kernel

theorem witness_errorsAreContained_test : ∃ (s : State) (u : UnitId), (∃ t ∈ s.dev.tests, t.unit = u) ∧
    (∀ n, u = .core n → ∀ g ∈ s.groups, g.core = n → g.ended = true ∨ g.away = true) ∧
    (∀ n, u = .mcc n → ∀ x ∈ s.strands, x.tile = true → x.core = n → x.state = .exited) ∧ ∀ cl b, u = .band cl b → ∀ p ∈ (s.cluster cl).pbands, p.n ≠ b :=
  let s := at' benchStrand
  ⟨{ s with dev := { s.dev with tests := [{ unit := .mcc 47, since := 0 }] } }, .mcc 47, ⟨_, .head _, rfl⟩, by simp, by rintro n ⟨⟩; decide +kernel, by simp⟩

/-- The bench's strand in a region that opened as its move 7. -/
def inRegion : Strand := { benchStrand with rets := [{ ra := 0x1141, cm := BitVec.allOnes 32, opened := 7 }] }

/-- A replayed instruction of it, issued in a region. -/
def replay0 (region : Option Nat) : Replay :=
  { strand := 3, group := 2, addr := 0x1100, region := region, op := 1, x := {}, mask := 1, srcs := [], preds := vtab 8 fun _ => 0, sr := 0 }

/-- The machine with that in a queue, and after it has been taken out and charged to the core. -/
def replayState (region : Option Nat) : State :=
  let s := at' inRegion
  s.setCore { s.core 0 with replay := vset (s.core 0).replay 3 [replay0 none, replay0 region] }

def replayed (region : Option Nat) : State :=
  let t := replayState region
  State.chargeUnit (t.setCore { t.core 0 with replay := vset (t.core 0).replay 3 ((vget (t.core 0).replay 3 []).eraseIdx 1) }) (.core 0)

theorem witness_errorsAreContained_replay : ∃ (s : State) (n : Nat) (r : Replay) (st : Strand), (vget (s.core 0).replay 3 [])[n]? = some r ∧
    State.strand? (State.chargeUnit (s.setCore { s.core 0 with
      replay := vset (s.core 0).replay 3 ((vget (s.core 0).replay 3 []).eraseIdx n) }) (.core 0)) r.strand = some st ∧ st.state ≠ .exited ∧
    ∃ x ∈ st.rets, x.ra.getLsbD 0 = true ∧ r.region = some x.opened := by
  obtain ⟨st, h⟩ := Option.isSome_iff_exists.1 (by decide +kernel : ((replayed (some 7)).strand? 3).isSome = true)
  have h' : (((replayed (some 7)).strand? 3).all fun st => decide (st.state ≠ .exited ∧
    ∃ x ∈ st.rets, x.ra.getLsbD 0 = true ∧ (replay0 (some 7)).region = some x.opened)) = true := by decide +kernel
  rw [h] at h'
  have h' := of_decide_eq_true h'
  exact ⟨replayState (some 7), 1, replay0 (some 7), st, by decide +kernel, h, h'.1, h'.2⟩

theorem witness_errorsAreContained_replayFault : ∃ (u : State) (r : Replay) (st : Strand) (g : Group) (tm : Team), u.strand? r.strand = some st ∧
    ¬(∃ x ∈ st.rets, x.ra.getLsbD 0 = true ∧ r.region = some x.opened) ∧ u.group? r.group = some g ∧ g.ended = false ∧
    State.team? (u.groupFault st 2 0x85 r.addr.toNat 0 r.addr.lo 0 0) g.team = some tm := by
  obtain ⟨st, h1⟩ := Option.isSome_iff_exists.1 (by decide +kernel : ((replayed none).strand? 3).isSome = true)
  obtain ⟨g, h2⟩ := Option.isSome_iff_exists.1 (by decide +kernel : ((replayed none).group? 2).isSome = true)
  have h3 : (((replayed none).strand? 3).all fun st => ((replayed none).group? 2).all fun g => !g.ended &&
    (State.team? ((replayed none).groupFault st 2 0x85 0x1100 0 0x1100 0 0) g.team).isSome) = true := by decide +kernel
  rw [h1, h2] at h3
  simp only [Option.all_some, Bool.and_eq_true, Bool.not_eq_true'] at h3
  obtain ⟨tm, h4⟩ := Option.isSome_iff_exists.1 h3.2
  exact ⟨replayed none, replay0 none, st, g, tm, h1, by rintro ⟨_, _, _, h⟩; simp [replay0] at h, h2, h3.1, h4⟩

/-- The bench's group saved, with the strand of the replayed instruction among what its team keeps. -/
theorem witness_errorsAreContained_replaySaved : ∃ (u : State) (r : Replay) (g : Group) (t : Team) (st : Strand), u.strand? r.strand = none ∧
    u.group? r.group = some g ∧ g.ended = false ∧ u.team? g.team = some t ∧ t.kept.find? (fun x => x.id == r.strand) = some st :=
  ⟨{ at' benchStrand with strands := [], teams := (at' benchStrand).teams.map fun (t : Team) => { t with kept := [benchStrand] } }, replay0 none, _, _, _, rfl, rfl, rfl,
    rfl, rfl⟩

/-- Reset, with bring-up at a stage. -/
def stageState (stage : Nat) : State := { State.reset with dev := { State.reset.dev with state := .bringup stage } }

theorem witness_devicesComeUp_stage3 : ∃ (s : State), s.dev.state = .bringup 3 ∧ ∀ l ∈ s.dev.links, 2 ≤ l.n → l.n < 10 → l.state ≠ .training :=
  ⟨stageState 3, rfl, by decide +kernel⟩

theorem witness_devicesComeUp_stage5 : ∃ (s : State) (t : TestOutcome), s.dev.state = .bringup 5 ∧ s.dev.map = {} ∧ s.ctxs = [] ∧ s.launches = [] ∧ s.teams = [] ∧
    ∀ k, k < 8 → (t.failed.foldl SMap.retire SMap.first).pairDead k = false :=
  ⟨stageState 5, { failed := [.core 383, .band 0 3], coreLacks := [], mccLacks := [] }, rfl, rfl, rfl, rfl, rfl, by decide +kernel⟩

theorem witness_devicesComeUp_test : ∃ (s : State) (t : TestOutcome), s.dev.state = .running ∧ s.dev.tested = false ∧ s.dev.map.version ≠ 0 ∧
    s.dev.map.full = false ∧ t.failed = [] ∧
    s.ctxs = [] ∧ s.launches = [] ∧ s.teams = [] :=
  ⟨{ State.reset with dev := { State.reset.dev with state := .running, map := { benchMap with full := false } } }, { failed := [], coreLacks := [], mccLacks := [] },
    rfl, rfl, by decide, rfl, rfl, rfl, rfl, rfl⟩

theorem witness_devicesComeUp_report : ∃ (s : State) (nonce : List Byte), s.hostServed = true ∧ nonce.length = 64 :=
  ⟨hubWith none, List.replicate 64 0, by decide +kernel, by decide⟩

/-! #### Encodings, steps and the invariant -/

theorem witness_encodingsDecode : ∃ i : Instr, i.wf = true ∧ encode i ≠ [] :=
  ⟨.faddX96 { w0 := { k := 7, wb := true, a := 63, b := 6, d := 63 }, ty := .f32, rnd := .rz }, by decide, by decide⟩

/-- The bench, with a move that issues its strand, and memory that holds an FADD at its pc. -/
def fetchState : State :=
  let s := at' benchStrand
  { s with agenda := [.issue 3, .elapse 2], mem := s.mem.putList 0x1100 [0xE2, 0x88, 0xC2, 0x90, 0x80, 0x09] }

theorem witness_stepsRunTheDecodedInstruction : ∃ (s : State) (rest : List Move) (st : Strand) (e : Env) (g : Group) (c : Ctx) (ia : Nat) (w : Window),
    s.agenda = .issue st.id :: rest ∧ Fetching s st e g c ia w ∧ st.pc.toNat % 64 + formBytes ((wordsAt s ia).headD 0) ≤ 64 :=
  ⟨fetchState, _, benchStrand, env0, _, _, 0x1100, benchWindow, rfl,
    ⟨rfl, rfl, rfl, rfl, by decide, rfl, by decide +kernel, by decide +kernel, ⟨0, by decide +kernel⟩, rfl, by decide +kernel, by decide +kernel, rfl,
      by decide +kernel⟩, by decide +kernel⟩

/-- The bench with its strand four bytes before the end of a block, where a form of 12 bytes stands. -/
def straddleState : State :=
  let s := at' { benchStrand with pc := 0x113C }
  { s with agenda := [.issue 3], mem := s.mem.putList 0x113C [0xE2, 0x88, 0xC2, 0x90, 0x80, 0x09] }

theorem witness_stepsRunTheDecodedInstruction_straddle : ∃ (s : State) (rest : List Move) (st : Strand) (e : Env) (g : Group) (c : Ctx) (ia : Nat) (w : Window),
    s.agenda = .issue st.id :: rest ∧ Fetching s st e g c ia w ∧ 64 < st.pc.toNat % 64 + formBytes ((wordsAt s ia).headD 0) :=
  ⟨straddleState, _, { benchStrand with pc := 0x113C }, env0, _, _, 0x113C, benchWindow, rfl,
    ⟨rfl, rfl, rfl, rfl, by decide, rfl, by decide +kernel, by decide +kernel, ⟨0, by decide +kernel⟩, rfl, by decide +kernel, by decide +kernel, rfl,
      by decide +kernel⟩, by decide +kernel⟩

theorem test_straddle : (match step straddleState with | .next t => (t.strand? 3).map fun x => (x.pc, x.handler.map (·.trap)) | _ => none) =
    some (0x1200, some { cause := 4, addr := 0x113C, lanes := 0xFFFFFFFF, detail := 0 }) := by decide +kernel

theorem witness_stepsOfTheAgenda : ∃ (s : State) (rest : List Move) (i : Instr), s.agenda = .event i :: rest ∧ encode i = [] :=
  ⟨{ State.reset with agenda := [.event .deviceReset] }, [], .deviceReset, rfl, rfl⟩

theorem witness_stepsOfTheAgenda_command : ∃ (s : State) (i : Instr) (func : Nat), encode i = [] ∧ hostCommand? i = some func ∧ func ≤ s.dev.vfs ∧
    s.linkHolds 2 = false ∧ s.dev.held = [] :=
  ⟨{ hubWith none with agenda := [.event (.shadowSet 0 true)] }, .shadowSet 0 true, 0, rfl, rfl, by decide +kernel, by decide +kernel, rfl⟩

theorem witness_stepsOfTheAgenda_held : ∃ (s : State) (i : Instr) (func : Nat), encode i = [] ∧ hostCommand? i = some func ∧ func ≤ s.dev.vfs ∧
    s.linkHolds 2 = true :=
  ⟨{ hubWith none with dev := { (hubWith none).dev with links := [{ n := 0, state := .training, retraining := true }, { n := 1 }] } }, .shadowSet 0 true, 0, rfl, rfl,
    by decide +kernel, by decide +kernel⟩

theorem witness_stepsOfTheAgenda_elapse : ∃ (s : State) (rest : List Move) (n : Nat), s.agenda = .elapse n :: rest ∧ s.ctxs ≠ [] ∧
    ∀ c ∈ s.ctxs, ∀ ev ∈ [2, 3, 6, 7, 8, 9], c.counts ev = false :=
  ⟨{ at' benchStrand with agenda := [.elapse 7] }, [], 7, rfl, by decide, by decide⟩

theorem witness_stepsOfTheAgenda_evict : ∃ (s : State) (rest : List Move) (core line : Nat) (l : L1Line),
    s.agenda = .evict core line :: rest ∧ s.l1? core line = some l ∧ l.dirty = 0 :=
  ⟨{ State.reset with agenda := [.evict 383 5]
                      l1 := [{ core := 383, line := 5, valid := 1, dirty := 0, rs := 1, reg := true, data := 7 }] }, [], 383, 5, _, rfl, rfl, rfl⟩

/-- A dirty byte of a line given up as a victim is in memory (R244). -/
theorem test_evict_writes_back :
    (match step { State.reset with
        agenda := [.evict 0 5]
        dev := { State.reset.dev with map := { benchMap with version := 0 } }
        l1 := [{ core := 0, line := 5, valid := 0, dirty := 1, rs := 0, reg := false, data := 0x5A }] } with
      | .next t => t.mem | _ => []) = [(640, 0x5A)] := by decide +kernel

theorem witness_memoryStaysCanonical : ∃ s t, Safety.Sound s ∧ step s = .next t :=
  ⟨{ State.reset with agenda := [.event .deviceReset] }, _, by unfold Safety.Sound; decide, rfl⟩

/-! ### Words read

A word of every encoding, field by field as R36 and R38 lay them out, with OP and selectors from R53 and R54. -/

/-- Word 0: WB, WA, K, B, A, D, OP and LEN (R36). -/
def word0 (wb : BitVec 1) (wa : BitVec 1) (k : BitVec 3) (b a d : BitVec 6) (op : BitVec 7) (len : BitVec 2) : Word :=
  wb ++ wa ++ k ++ b ++ a ++ d ++ op ++ len

/-- Word 1: FUNC, TYPE, WC and C, with the other fields 0 (R38). -/
def word1 (func : BitVec 8) (ty : BitVec 4) (wc : BitVec 1) (c : BitVec 6) : Word := 0b0000#4 ++ func ++ 0b000000000#9 ++ ty ++ wc ++ c

/-- Every list of words decodes to its instruction. -/
def reads (l : List (List Word × Instr)) : Bool := l.all fun p => decode p.1 = some p.2

theorem test_decodesInteger_1 : reads
    [ ([word0 1 1 5 25 38 43 0x01 0], .iadd { k := 5, wa := true, wb := true, a := 38, b := 25, d := 43 })
    , ([word0 1 1 5 25 38 43 0x01 2, word1 0 2 0 0, 0x0], .iaddX96 { w0 := { k := 5, wa := true, wb := true, a := 38, b := 25, d := 43 }, ty := .u32 })
    , ([word0 1 1 5 25 38 43 0x02 0], .isub { k := 5, wa := true, wb := true, a := 38, b := 25, d := 43 })
    , ([word0 1 1 5 25 38 43 0x02 2, word1 0 2 0 0, 0x0], .isubX96 { w0 := { k := 5, wa := true, wb := true, a := 38, b := 25, d := 43 }, ty := .u32 })
    , ([word0 1 1 5 25 38 43 0x03 0], .imul { k := 5, wa := true, wb := true, a := 38, b := 25, d := 43 })
    , ([word0 1 1 5 25 38 43 0x03 2, word1 0 2 0 0, 0x0], .imulX96 { w0 := { k := 5, wa := true, wb := true, a := 38, b := 25, d := 43 }, ty := .u32 })
    , ([word0 1 1 5 25 38 43 0x04 0], .imulh { k := 5, wa := true, wb := true, a := 38, b := 25, d := 43 })
    , ([word0 1 1 5 25 38 43 0x04 2, word1 0 2 0 0, 0x0], .imulhX96 { w0 := { k := 5, wa := true, wb := true, a := 38, b := 25, d := 43 }, ty := .u32 })
    , ([word0 1 1 5 25 38 43 0x05 2, word1 0 2 1 21, 0x0], .imad { w0 := { k := 5, wa := true, wb := true, a := 38, b := 25, d := 43 }, ty := .u32, wc := true, c := 21 })
    , ([word0 1 1 5 25 38 43 0x06 0], .imin { k := 5, wa := true, wb := true, a := 38, b := 25, d := 43 })
    , ([word0 1 1 5 25 38 43 0x06 2, word1 0 2 0 0, 0x0], .iminX96 { w0 := { k := 5, wa := true, wb := true, a := 38, b := 25, d := 43 }, ty := .u32 })
    , ([word0 1 1 5 25 38 43 0x07 0], .imax { k := 5, wa := true, wb := true, a := 38, b := 25, d := 43 })
    , ([word0 1 1 5 25 38 43 0x07 2, word1 0 2 0 0, 0x0], .imaxX96 { w0 := { k := 5, wa := true, wb := true, a := 38, b := 25, d := 43 }, ty := .u32 })
    , ([word0 1 1 5 25 38 43 0x08 0], .and { k := 5, wa := true, wb := true, a := 38, b := 25, d := 43 })
    , ([word0 1 1 5 25 38 43 0x08 2, word1 0 0 0 0, 0x0], .andX96 { w0 := { k := 5, wa := true, wb := true, a := 38, b := 25, d := 43 } })
    , ([word0 1 1 5 25 38 43 0x09 0], .or { k := 5, wa := true, wb := true, a := 38, b := 25, d := 43 }) ] = true := by decide +kernel

theorem test_decodesInteger_2 : reads
    [ ([word0 1 1 5 25 38 43 0x09 2, word1 0 0 0 0, 0x0], .orX96 { w0 := { k := 5, wa := true, wb := true, a := 38, b := 25, d := 43 } })
    , ([word0 1 1 5 25 38 43 0x0A 0], .xor { k := 5, wa := true, wb := true, a := 38, b := 25, d := 43 })
    , ([word0 1 1 5 25 38 43 0x0A 2, word1 0 0 0 0, 0x0], .xorX96 { w0 := { k := 5, wa := true, wb := true, a := 38, b := 25, d := 43 } })
    , ([word0 1 1 5 25 38 43 0x0B 0], .andn { k := 5, wa := true, wb := true, a := 38, b := 25, d := 43 })
    , ([word0 1 1 5 25 38 43 0x0B 2, word1 0 0 0 0, 0x0], .andnX96 { w0 := { k := 5, wa := true, wb := true, a := 38, b := 25, d := 43 } })
    , ([word0 1 1 5 25 38 43 0x0C 0], .shl { k := 5, wa := true, wb := true, a := 38, b := 25, d := 43 })
    , ([word0 1 1 5 25 38 43 0x0C 2, word1 0 0 0 0, 0x0], .shlX96 { w0 := { k := 5, wa := true, wb := true, a := 38, b := 25, d := 43 } })
    , ([word0 1 1 5 25 38 43 0x0D 0], .shr { k := 5, wa := true, wb := true, a := 38, b := 25, d := 43 })
    , ([word0 1 1 5 25 38 43 0x0D 2, word1 0 0 0 0, 0x0], .shrX96 { w0 := { k := 5, wa := true, wb := true, a := 38, b := 25, d := 43 } })
    , ([word0 1 1 5 25 38 43 0x0E 0], .sar { k := 5, wa := true, wb := true, a := 38, b := 25, d := 43 })
    , ([word0 1 1 5 25 38 43 0x0E 2, word1 0 0 0 0, 0x0], .sarX96 { w0 := { k := 5, wa := true, wb := true, a := 38, b := 25, d := 43 } })
    , ([word0 0 0 5 0 0 0 0x00 0], .nop { k := 5 })
    , ([word0 0 0 5 0 0 0 0x00 2, word1 0 0 0 0, 0x0], .nopX96 { w0 := { k := 5 } }) ] = true := by decide +kernel

theorem test_decodesUnaryAndFields_1 : reads
    [ ([word0 0 1 5 0 38 43 0x0F 0], .ineg { k := 5, wa := true, a := 38, d := 43 })
    , ([word0 0 1 5 0 38 43 0x0F 2, word1 0 2 0 0, 0x0], .inegX96 { w0 := { k := 5, wa := true, a := 38, d := 43 }, ty := .u32 })
    , ([word0 0 1 5 1 38 43 0x0F 0], .iabs { k := 5, wa := true, a := 38, b := 1, d := 43 })
    , ([word0 0 1 5 1 38 43 0x0F 2, word1 0 2 0 0, 0x0], .iabsX96 { w0 := { k := 5, wa := true, a := 38, b := 1, d := 43 }, ty := .u32 })
    , ([word0 0 1 5 2 38 43 0x0F 0], .not { k := 5, wa := true, a := 38, b := 2, d := 43 })
    , ([word0 0 1 5 2 38 43 0x0F 2, word1 0 0 0 0, 0x0], .notX96 { w0 := { k := 5, wa := true, a := 38, b := 2, d := 43 } })
    , ([word0 0 1 5 3 38 43 0x0F 0], .popc { k := 5, wa := true, a := 38, b := 3, d := 43 })
    , ([word0 0 1 5 3 38 43 0x0F 2, word1 0 0 0 0, 0x0], .popcX96 { w0 := { k := 5, wa := true, a := 38, b := 3, d := 43 } })
    , ([word0 0 1 5 4 38 43 0x0F 0], .clz { k := 5, wa := true, a := 38, b := 4, d := 43 })
    , ([word0 0 1 5 4 38 43 0x0F 2, word1 0 0 0 0, 0x0], .clzX96 { w0 := { k := 5, wa := true, a := 38, b := 4, d := 43 } })
    , ([word0 0 1 5 5 38 43 0x0F 0], .brev { k := 5, wa := true, a := 38, b := 5, d := 43 })
    , ([word0 0 1 5 5 38 43 0x0F 2, word1 0 0 0 0, 0x0], .brevX96 { w0 := { k := 5, wa := true, a := 38, b := 5, d := 43 } })
    , ([word0 1 1 5 25 38 43 0x10 0], .bfe { k := 5, wa := true, wb := true, a := 38, b := 25, d := 43 })
    , ([word0 1 1 5 25 38 43 0x10 2, word1 0 2 0 0, 0x0], .bfeX96 { w0 := { k := 5, wa := true, wb := true, a := 38, b := 25, d := 43 }, ty := .u32 })
    , ([word0 1 1 5 25 38 43 0x11 2, word1 0 0 1 21, 0x0], .bfi { w0 := { k := 5, wa := true, wb := true, a := 38, b := 25, d := 43 }, wc := true, c := 21 })
    , ([word0 1 1 5 25 38 5 0x12 0], .icmp { k := 5, wa := true, wb := true, a := 38, b := 25, d := 5 }) ] = true := by decide +kernel

theorem test_decodesUnaryAndFields_2 : reads
    [ ([word0 1 1 5 25 38 5 0x12 2, word1 1 2 0 0, 0x0], .icmpX96 { w0 := { k := 5, wa := true, wb := true, a := 38, b := 25, d := 5 }, func := 1, ty := .u32 })
    , ([word0 1 1 5 25 38 43 0x13 0], .isel { k := 5, wa := true, wb := true, a := 38, b := 25, d := 43 })
    , ([word0 1 1 5 25 38 43 0x13 2, word1 0 0 0 0, 0x0], .iselX96 { w0 := { k := 5, wa := true, wb := true, a := 38, b := 25, d := 43 } }) ] = true := by decide +kernel

theorem test_decodesBasePair : reads
    [ ([word0 1 1 5 25 12 11 0x18 0], .badd { k := 5, wa := true, wb := true, a := 12, b := 25, d := 11 })
    , ([word0 1 1 5 25 12 11 0x18 2, word1 0 0 0 0, 0x0], .baddX96 { w0 := { k := 5, wa := true, wb := true, a := 12, b := 25, d := 11 } })
    , ([word0 0 1 5 0 38 11 0x19 0], .bmov { k := 5, wa := true, a := 38, d := 11 })
    , ([word0 0 1 5 0 38 11 0x19 2, word1 0 0 0 0, 0x0], .bmovX96 { w0 := { k := 5, wa := true, a := 38, d := 11 } })
    , ([word0 0 1 5 0 12 43 0x1A 0], .bget { k := 5, wa := true, a := 12, d := 43 })
    , ([word0 0 1 5 0 12 43 0x1A 2, word1 0 0 0 0, 0x0], .bgetX96 { w0 := { k := 5, wa := true, a := 12, d := 43 } })
    , ([word0 0 0 5 0 0 11 0x1B 1, 0x3, 0x80000000], .blit { w0 := { k := 5, d := 11 }, lit := 0x8000000000000003 }) ] = true := by decide +kernel

theorem test_decodesMoves_1 : reads
    [ ([word0 0 1 5 0 38 43 0x20 0], .mov { k := 5, wa := true, a := 38, d := 43 })
    , ([word0 0 1 5 0 38 43 0x20 2, word1 0 0 0 0, 0x0], .movX96 { w0 := { k := 5, wa := true, a := 38, d := 43 } })
    , ([word0 0 0 5 0 0 43 0x21 1, 0x80000003, 0x0], .movi { w0 := { k := 5, d := 43 }, lit := 0x80000003 })
    , ([word0 1 1 5 25 38 43 0x22 0], .lane { k := 5, wa := true, wb := true, a := 38, b := 25, d := 43 })
    , ([word0 1 1 5 25 38 43 0x22 2, word1 0 0 0 0, 0x0], .laneX96 { w0 := { k := 5, wa := true, wb := true, a := 38, b := 25, d := 43 } })
    , ([word0 0 1 5 0 38 43 0x23 0], .shape { k := 5, wa := true, a := 38, d := 43 })
    , ([word0 0 1 5 0 38 43 0x23 2, word1 0 0 0 0, 0x0], .shapeX96 { w0 := { k := 5, wa := true, a := 38, d := 43 } })
    , ([word0 0 1 5 5 38 0 0x24 0], .shapea { k := 5, wa := true, a := 38, b := 5 })
    , ([word0 0 1 5 5 38 0 0x24 2, word1 0 0 0 0, 0x0], .shapeaX96 { w0 := { k := 5, wa := true, a := 38, b := 5 } })
    , ([word0 0 1 5 3 38 43 0x25 0], .shapef { k := 5, wa := true, a := 38, b := 3, d := 43 })
    , ([word0 0 1 5 3 38 43 0x25 2, word1 0 0 0 0, 0x0], .shapefX96 { w0 := { k := 5, wa := true, a := 38, b := 3, d := 43 } })
    , ([word0 0 1 5 0 38 43 0x26 0], .sqz { k := 5, wa := true, a := 38, d := 43 })
    , ([word0 0 1 5 0 38 43 0x26 2, word1 0 0 0 0, 0x0], .sqzX96 { w0 := { k := 5, wa := true, a := 38, d := 43 } })
    , ([word0 0 1 5 25 38 43 0x27 0], .bcast { k := 5, wa := true, a := 38, b := 25, d := 43 })
    , ([word0 0 1 5 25 38 43 0x27 2, word1 0 0 0 0, 0x0], .bcastX96 { w0 := { k := 5, wa := true, a := 38, b := 25, d := 43 } })
    , ([word0 1 1 5 25 38 43 0x28 0], .shfl { k := 5, wa := true, wb := true, a := 38, b := 25, d := 43 }) ] = true := by decide +kernel

theorem test_decodesMoves_2 : reads
    [ ([word0 1 1 5 25 38 43 0x28 2, word1 1 0 0 0, 0x0], .shflX96 { w0 := { k := 5, wa := true, wb := true, a := 38, b := 25, d := 43 }, func := 1 })
    , ([word0 0 1 5 0 38 5 0x29 0], .vote { k := 5, wa := true, a := 38, d := 5 })
    , ([word0 0 1 5 0 38 5 0x29 2, word1 1 0 0 0, 0x0], .voteX96 { w0 := { k := 5, wa := true, a := 38, d := 5 }, func := 1 })
    , ([word0 0 1 5 0 38 43 0x2A 0], .lred { k := 5, wa := true, a := 38, d := 43 })
    , ([word0 0 1 5 0 38 43 0x2A 2, word1 1 3 0 0, 0x0], .lredX96 { w0 := { k := 5, wa := true, a := 38, d := 43 }, func := 1, ty := .f32 })
    , ([word0 0 0 5 0 0 43 0x2B 0], .gid { k := 5, d := 43 })
    , ([word0 0 0 5 0 0 43 0x2B 2, word1 9 0 0 0, 0x0], .gidX96 { w0 := { k := 5, d := 43 }, func := 9 }) ] = true := by decide +kernel

theorem test_decodesMasks_1 : reads
    [ ([word0 0 1 5 5 5 5 0x30 0], .kand { k := 5, wa := true, a := 5, b := 5, d := 5 })
    , ([word0 0 1 5 5 5 5 0x30 2, word1 0 0 0 0, 0x0], .kandX96 { w0 := { k := 5, wa := true, a := 5, b := 5, d := 5 } })
    , ([word0 0 1 5 13 5 5 0x30 0], .kor { k := 5, wa := true, a := 5, b := 13, d := 5 })
    , ([word0 0 1 5 13 5 5 0x30 2, word1 0 0 0 0, 0x0], .korX96 { w0 := { k := 5, wa := true, a := 5, b := 13, d := 5 } })
    , ([word0 0 1 5 21 5 5 0x30 0], .kxor { k := 5, wa := true, a := 5, b := 21, d := 5 })
    , ([word0 0 1 5 21 5 5 0x30 2, word1 0 0 0 0, 0x0], .kxorX96 { w0 := { k := 5, wa := true, a := 5, b := 21, d := 5 } })
    , ([word0 0 1 5 29 5 5 0x30 0], .kandn { k := 5, wa := true, a := 5, b := 29, d := 5 })
    , ([word0 0 1 5 29 5 5 0x30 2, word1 0 0 0 0, 0x0], .kandnX96 { w0 := { k := 5, wa := true, a := 5, b := 29, d := 5 } })
    , ([word0 0 1 5 32 5 5 0x30 0], .knot { k := 5, wa := true, a := 5, b := 32, d := 5 })
    , ([word0 0 1 5 32 5 5 0x30 2, word1 0 0 0 0, 0x0], .knotX96 { w0 := { k := 5, wa := true, a := 5, b := 32, d := 5 } })
    , ([word0 0 1 5 40 5 5 0x30 0], .kmov { k := 5, wa := true, a := 5, b := 40, d := 5 })
    , ([word0 0 1 5 40 5 5 0x30 2, word1 0 0 0 0, 0x0], .kmovX96 { w0 := { k := 5, wa := true, a := 5, b := 40, d := 5 } })
    , ([word0 0 1 5 0 38 5 0x31 0], .kset { k := 5, wa := true, a := 38, d := 5 })
    , ([word0 0 1 5 0 38 5 0x31 2, word1 0 0 0 0, 0x0], .ksetX96 { w0 := { k := 5, wa := true, a := 38, d := 5 } })
    , ([word0 0 1 5 0 5 43 0x32 0], .kpop { k := 5, wa := true, a := 5, d := 43 })
    , ([word0 0 1 5 0 5 43 0x32 2, word1 0 0 0 0, 0x0], .kpopX96 { w0 := { k := 5, wa := true, a := 5, d := 43 } }) ] = true := by decide +kernel

theorem test_decodesMasks_2 : reads
    [ ([word0 0 1 5 0 5 43 0x33 0], .kget { k := 5, wa := true, a := 5, d := 43 })
    , ([word0 0 1 5 0 5 43 0x33 2, word1 0 0 0 0, 0x0], .kgetX96 { w0 := { k := 5, wa := true, a := 5, d := 43 } }) ] = true := by decide +kernel

theorem test_decodesFloat : reads
    [ ([word0 1 1 5 25 38 43 0x38 0], .fadd { k := 5, wa := true, wb := true, a := 38, b := 25, d := 43 })
    , ([word0 1 1 5 25 38 43 0x38 2, word1 0 5 0 0, 0x0], .faddX96 { w0 := { k := 5, wa := true, wb := true, a := 38, b := 25, d := 43 }, ty := .bf16x2 })
    , ([word0 1 1 5 25 38 43 0x39 0], .fsub { k := 5, wa := true, wb := true, a := 38, b := 25, d := 43 })
    , ([word0 1 1 5 25 38 43 0x39 2, word1 0 5 0 0, 0x0], .fsubX96 { w0 := { k := 5, wa := true, wb := true, a := 38, b := 25, d := 43 }, ty := .bf16x2 })
    , ([word0 1 1 5 25 38 43 0x3A 0], .fmul { k := 5, wa := true, wb := true, a := 38, b := 25, d := 43 })
    , ([word0 1 1 5 25 38 43 0x3A 2, word1 0 5 0 0, 0x0], .fmulX96 { w0 := { k := 5, wa := true, wb := true, a := 38, b := 25, d := 43 }, ty := .bf16x2 })
    , ([word0 1 1 5 25 38 43 0x3B 0], .ffma { k := 5, wa := true, wb := true, a := 38, b := 25, d := 43 })
    , ([word0 1 1 5 25 38 43 0x3B 2, word1 0 5 1 21, 0x0], .ffmaX96 { w0 := { k := 5, wa := true, wb := true, a := 38, b := 25, d := 43 }, ty := .bf16x2, wc := true, c := 21 })
    , ([word0 1 1 5 25 38 43 0x3C 0], .fmin { k := 5, wa := true, wb := true, a := 38, b := 25, d := 43 })
    , ([word0 1 1 5 25 38 43 0x3C 2, word1 0 5 0 0, 0x0], .fminX96 { w0 := { k := 5, wa := true, wb := true, a := 38, b := 25, d := 43 }, ty := .bf16x2 })
    , ([word0 1 1 5 25 38 43 0x3D 0], .fmax { k := 5, wa := true, wb := true, a := 38, b := 25, d := 43 })
    , ([word0 1 1 5 25 38 43 0x3D 2, word1 0 5 0 0, 0x0], .fmaxX96 { w0 := { k := 5, wa := true, wb := true, a := 38, b := 25, d := 43 }, ty := .bf16x2 })
    , ([word0 1 1 5 25 38 5 0x3E 0], .fcmp { k := 5, wa := true, wb := true, a := 38, b := 25, d := 5 })
    , ([word0 1 1 5 25 38 5 0x3E 2, word1 1 3 0 0, 0x0], .fcmpX96 { w0 := { k := 5, wa := true, wb := true, a := 38, b := 25, d := 5 }, func := 1, ty := .f32 }) ] = true := by decide +kernel

theorem test_decodesFloatUnary_1 : reads
    [ ([word0 0 1 5 0 38 43 0x3F 0], .fneg { k := 5, wa := true, a := 38, d := 43 })
    , ([word0 0 1 5 0 38 43 0x3F 2, word1 0 5 0 0, 0x0], .fnegX96 { w0 := { k := 5, wa := true, a := 38, d := 43 }, ty := .bf16x2 })
    , ([word0 0 1 5 1 38 43 0x3F 0], .fabs { k := 5, wa := true, a := 38, b := 1, d := 43 })
    , ([word0 0 1 5 1 38 43 0x3F 2, word1 0 5 0 0, 0x0], .fabsX96 { w0 := { k := 5, wa := true, a := 38, b := 1, d := 43 }, ty := .bf16x2 })
    , ([word0 0 1 5 2 38 43 0x3F 0], .frcp { k := 5, wa := true, a := 38, b := 2, d := 43 })
    , ([word0 0 1 5 2 38 43 0x3F 2, word1 0 3 0 0, 0x0], .frcpX96 { w0 := { k := 5, wa := true, a := 38, b := 2, d := 43 }, ty := .f32 })
    , ([word0 0 1 5 3 38 43 0x3F 0], .frsq { k := 5, wa := true, a := 38, b := 3, d := 43 })
    , ([word0 0 1 5 3 38 43 0x3F 2, word1 0 3 0 0, 0x0], .frsqX96 { w0 := { k := 5, wa := true, a := 38, b := 3, d := 43 }, ty := .f32 })
    , ([word0 0 1 5 4 38 43 0x3F 0], .fsqrt { k := 5, wa := true, a := 38, b := 4, d := 43 })
    , ([word0 0 1 5 4 38 43 0x3F 2, word1 0 3 0 0, 0x0], .fsqrtX96 { w0 := { k := 5, wa := true, a := 38, b := 4, d := 43 }, ty := .f32 })
    , ([word0 0 1 5 5 38 43 0x3F 0], .fexp2 { k := 5, wa := true, a := 38, b := 5, d := 43 })
    , ([word0 0 1 5 5 38 43 0x3F 2, word1 0 3 0 0, 0x0], .fexp2X96 { w0 := { k := 5, wa := true, a := 38, b := 5, d := 43 }, ty := .f32 })
    , ([word0 0 1 5 6 38 43 0x3F 0], .flog2 { k := 5, wa := true, a := 38, b := 6, d := 43 })
    , ([word0 0 1 5 6 38 43 0x3F 2, word1 0 3 0 0, 0x0], .flog2X96 { w0 := { k := 5, wa := true, a := 38, b := 6, d := 43 }, ty := .f32 })
    , ([word0 0 1 5 7 38 43 0x3F 0], .fsin { k := 5, wa := true, a := 38, b := 7, d := 43 })
    , ([word0 0 1 5 7 38 43 0x3F 2, word1 0 3 0 0, 0x0], .fsinX96 { w0 := { k := 5, wa := true, a := 38, b := 7, d := 43 }, ty := .f32 }) ] = true := by decide +kernel

theorem test_decodesFloatUnary_2 : reads
    [ ([word0 0 1 5 8 38 43 0x3F 0], .fcos { k := 5, wa := true, a := 38, b := 8, d := 43 })
    , ([word0 0 1 5 8 38 43 0x3F 2, word1 0 3 0 0, 0x0], .fcosX96 { w0 := { k := 5, wa := true, a := 38, b := 8, d := 43 }, ty := .f32 })
    , ([word0 0 1 5 9 38 43 0x3F 0], .ftanh { k := 5, wa := true, a := 38, b := 9, d := 43 })
    , ([word0 0 1 5 9 38 43 0x3F 2, word1 0 3 0 0, 0x0], .ftanhX96 { w0 := { k := 5, wa := true, a := 38, b := 9, d := 43 }, ty := .f32 })
    , ([word0 0 1 5 10 38 43 0x3F 0], .fclass { k := 5, wa := true, a := 38, b := 10, d := 43 })
    , ([word0 0 1 5 10 38 43 0x3F 2, word1 0 3 0 0, 0x0], .fclassX96 { w0 := { k := 5, wa := true, a := 38, b := 10, d := 43 }, ty := .f32 }) ] = true := by decide +kernel

theorem test_decodesConversions : reads
    [ ([word0 0 1 5 0 38 43 0x40 0], .cvt { k := 5, wa := true, a := 38, d := 43 })
    , ([word0 0 1 5 0 38 43 0x40 2, word1 1 13 0 0, 0x0], .cvtX96 { w0 := { k := 5, wa := true, a := 38, d := 43 }, func := 1, ty := .s4x8 })
    , ([word0 1 1 5 25 38 43 0x41 2, word1 1 13 0 0, 0x0], .cvtq { w0 := { k := 5, wa := true, wb := true, a := 38, b := 25, d := 43 }, func := 1, ty := .s4x8 })
    , ([word0 1 1 5 25 38 43 0x42 0], .cvtd { k := 5, wa := true, wb := true, a := 38, b := 25, d := 43 })
    , ([word0 1 1 5 25 38 43 0x42 2, word1 0 7 0 0, 0x0], .cvtdX96 { w0 := { k := 5, wa := true, wb := true, a := 38, b := 25, d := 43 }, ty := .bf16 })
    , ([word0 0 1 5 0 38 11 0x43 0], .amax { k := 5, wa := true, a := 38, d := 11 })
    , ([word0 0 1 5 0 38 11 0x43 2, word1 0 11 0 0, 0x0], .amaxX96 { w0 := { k := 5, wa := true, a := 38, d := 11 }, ty := .q4x8 })
    , ([word0 0 1 5 0 12 43 0x44 0], .amget { k := 5, wa := true, a := 12, d := 43 })
    , ([word0 0 1 5 0 12 43 0x44 2, word1 0 0 0 0, 0x0], .amgetX96 { w0 := { k := 5, wa := true, a := 12, d := 43 } }) ] = true := by decide +kernel

theorem test_decodesControl_1 : reads
    [ ([word0 0 0 5 0 0 5 0x52 2, word1 0 0 0 0, 0xFFFF0010], .br { w0 := { k := 5, d := 5 }, imm := 0xFFFF0010 })
    , ([word0 0 0 5 0 0 0 0x53 2, word1 0 0 0 0, 0xFFFF0010], .bru { w0 := { k := 5 }, imm := 0xFFFF0010 })
    , ([word0 0 0 0 0 0 5 0x54 0], .join { d := 5 })
    , ([word0 0 0 0 0 0 5 0x54 2, word1 0 0 0 0, 0x0], .joinX96 { w0 := { d := 5 } })
    , ([word0 0 0 0 0 0 0 0x56 0], .ret {})
    , ([word0 0 0 0 0 0 0 0x56 2, word1 0 0 0 0, 0x0], .retX96 {})
    , ([word0 0 1 0 0 12 0 0x57 0], .jmpi { wa := true, a := 12 })
    , ([word0 0 1 0 0 12 0 0x57 2, word1 0 0 0 0, 0x0], .jmpiX96 { w0 := { wa := true, a := 12 } })
    , ([word0 0 1 0 0 12 0 0x58 0], .calli { wa := true, a := 12 })
    , ([word0 0 1 0 0 12 0 0x58 2, word1 0 0 0 0, 0x0], .calliX96 { w0 := { wa := true, a := 12 } })
    , ([word0 0 0 0 25 0 0 0x59 3, word1 0 0 0 0, 0xFFFF0010, 0x3, 0x80000000], .fcall { x := { w0 := { b := 25 }, imm := 0xFFFF0010 }, lit := 0x8000000000000003 })
    , ([word0 0 0 5 0 0 0 0x5A 0], .exit { k := 5 })
    , ([word0 0 0 5 0 0 0 0x5A 2, word1 0 0 0 0, 0x0], .exitX96 { w0 := { k := 5 } })
    , ([word0 0 1 5 0 5 43 0x5B 0], .jget { k := 5, wa := true, a := 5, d := 43 })
    , ([word0 0 1 5 0 5 43 0x5B 2, word1 0 0 0 0, 0x0], .jgetX96 { w0 := { k := 5, wa := true, a := 5, d := 43 } })
    , ([word0 0 1 5 0 38 5 0x5B 2, word1 1 0 0 0, 0x0], .jput { w0 := { k := 5, wa := true, a := 38, d := 5 }, func := 1 }) ] = true := by decide +kernel

theorem test_decodesControl_2 : reads
    [ ([word0 0 0 5 25 0 0 0x5C 0], .trap { k := 5, b := 25 })
    , ([word0 0 0 5 25 0 0 0x5C 2, word1 0 0 0 0, 0x0], .trapX96 { w0 := { k := 5, b := 25 } })
    , ([word0 0 0 0 0 0 0 0x5D 0], .thret {})
    , ([word0 0 0 0 0 0 0 0x5D 2, word1 0 0 0 0, 0x0], .thretX96 {}) ] = true := by decide +kernel

theorem test_decodesPlainMemory : reads
    [ ([word0 1 1 5 25 12 43 0x60 0], .ld { k := 5, wa := true, wb := true, a := 12, b := 25, d := 43 })
    , ([word0 1 1 5 25 12 43 0x60 2, word1 9 14 0 0, 0xFFFF0010], .ldX96 { w0 := { k := 5, wa := true, wb := true, a := 12, b := 25, d := 43 }, func := 9, ty := .b64, imm := 0xFFFF0010 })
    , ([word0 1 1 5 25 12 43 0x61 0], .st { k := 5, wa := true, wb := true, a := 12, b := 25, d := 43 })
    , ([word0 1 1 5 25 12 43 0x61 2, word1 9 14 0 0, 0xFFFF0010], .stX96 { w0 := { k := 5, wa := true, wb := true, a := 12, b := 25, d := 43 }, func := 9, ty := .b64, imm := 0xFFFF0010 })
    , ([word0 0 1 5 0 38 43 0x62 0], .lds { k := 5, wa := true, a := 38, d := 43 })
    , ([word0 0 1 5 0 38 43 0x62 2, word1 8 14 0 0, 0xFFFF0010], .ldsX96 { w0 := { k := 5, wa := true, a := 38, d := 43 }, func := 8, ty := .b64, imm := 0xFFFF0010 })
    , ([word0 0 1 5 0 38 43 0x63 0], .sts { k := 5, wa := true, a := 38, d := 43 })
    , ([word0 0 1 5 0 38 43 0x63 2, word1 8 14 0 0, 0xFFFF0010], .stsX96 { w0 := { k := 5, wa := true, a := 38, d := 43 }, func := 8, ty := .b64, imm := 0xFFFF0010 })
    , ([word0 1 1 5 25 38 43 0x64 0], .ldp { k := 5, wa := true, wb := true, a := 38, b := 25, d := 43 })
    , ([word0 1 1 5 25 38 43 0x64 2, word1 8 14 0 0, 0xFFFF0010], .ldpX96 { w0 := { k := 5, wa := true, wb := true, a := 38, b := 25, d := 43 }, func := 8, ty := .b64, imm := 0xFFFF0010 })
    , ([word0 1 1 5 25 38 43 0x65 0], .stp { k := 5, wa := true, wb := true, a := 38, b := 25, d := 43 })
    , ([word0 1 1 5 25 38 43 0x65 2, word1 8 14 0 0, 0xFFFF0010], .stpX96 { w0 := { k := 5, wa := true, wb := true, a := 38, b := 25, d := 43 }, func := 8, ty := .b64, imm := 0xFFFF0010 }) ] = true := by decide +kernel

theorem test_decodesFormattedMemory_1 : reads
    [ ([word0 0 1 5 0 38 43 0x66 0], .ldf { k := 5, wa := true, a := 38, d := 43 })
    , ([word0 0 1 5 0 38 43 0x66 2, word1 0 14 0 0, 0xFFFF0010], .ldfX96 { w0 := { k := 5, wa := true, a := 38, d := 43 }, ty := .b64, imm := 0xFFFF0010 })
    , ([word0 0 1 5 0 38 43 0x67 0], .ldfk { k := 5, wa := true, a := 38, d := 43 })
    , ([word0 0 1 5 0 38 43 0x67 2, word1 0 14 0 0, 0xFFFF0010], .ldfkX96 { w0 := { k := 5, wa := true, a := 38, d := 43 }, ty := .b64, imm := 0xFFFF0010 })
    , ([word0 0 1 5 0 38 43 0x68 0], .stf { k := 5, wa := true, a := 38, d := 43 })
    , ([word0 0 1 5 0 38 43 0x68 2, word1 0 14 0 0, 0xFFFF0010], .stfX96 { w0 := { k := 5, wa := true, a := 38, d := 43 }, ty := .b64, imm := 0xFFFF0010 })
    , ([word0 0 1 5 0 38 0 0x69 0], .feset { k := 5, wa := true, a := 38 })
    , ([word0 0 1 5 0 38 0 0x69 2, word1 8 14 0 0, 0xFFFF0010], .fesetX96 { w0 := { k := 5, wa := true, a := 38 }, func := 8, ty := .b64, imm := 0xFFFF0010 })
    , ([word0 0 1 5 0 38 43 0x6A 0], .ldt { k := 5, wa := true, a := 38, d := 43 })
    , ([word0 0 1 5 0 38 43 0x6A 2, word1 8 7 0 0, 0xFFFF0010], .ldtX96 { w0 := { k := 5, wa := true, a := 38, d := 43 }, func := 8, ty := .bf16, imm := 0xFFFF0010 })
    , ([word0 1 1 5 25 12 43 0x6B 2, word1 9 13 0 0, 0x0], .stct { w0 := { k := 5, wa := true, wb := true, a := 12, b := 25, d := 43 }, func := 9, ty := .s4x8 })
    , ([word0 1 1 5 25 12 43 0x6C 0], .stz { k := 5, wa := true, wb := true, a := 12, b := 25, d := 43 })
    , ([word0 1 1 5 25 12 43 0x6C 2, word1 8 7 0 0, 0xFFFF0010], .stzX96 { w0 := { k := 5, wa := true, wb := true, a := 12, b := 25, d := 43 }, func := 8, ty := .bf16, imm := 0xFFFF0010 })
    , ([word0 1 1 5 25 12 43 0x6D 0], .ldz { k := 5, wa := true, wb := true, a := 12, b := 25, d := 43 })
    , ([word0 1 1 5 25 12 43 0x6D 2, word1 8 7 0 0, 0xFFFF0010], .ldzX96 { w0 := { k := 5, wa := true, wb := true, a := 12, b := 25, d := 43 }, func := 8, ty := .bf16, imm := 0xFFFF0010 })
    , ([word0 1 1 5 25 12 0 0x6E 0], .pref { k := 5, wa := true, wb := true, a := 12, b := 25 }) ] = true := by decide +kernel

theorem test_decodesFormattedMemory_2 : reads
    [ ([word0 1 1 5 25 12 0 0x6E 2, word1 1 0 0 0, 0xFFFF0010], .prefX96 { w0 := { k := 5, wa := true, wb := true, a := 12, b := 25 }, func := 1, imm := 0xFFFF0010 })
    , ([word0 1 1 5 25 12 0 0x6F 0], .cwb { k := 5, wa := true, wb := true, a := 12, b := 25 })
    , ([word0 1 1 5 25 12 0 0x6F 2, word1 1 0 0 0, 0xFFFF0010], .cwbX96 { w0 := { k := 5, wa := true, wb := true, a := 12, b := 25 }, func := 1, imm := 0xFFFF0010 }) ] = true := by decide +kernel

theorem test_decodesAtomicsAndFences : reads
    [ ([word0 1 1 5 25 12 43 0x70 2, word1 1 2 1 21, 0x0], .atom { w0 := { k := 5, wa := true, wb := true, a := 12, b := 25, d := 43 }, func := 1, ty := .u32, wc := true, c := 21 })
    , ([word0 1 1 5 25 12 43 0x71 0], .red { k := 5, wa := true, wb := true, a := 12, b := 25, d := 43 })
    , ([word0 1 1 5 25 12 43 0x71 2, word1 1 2 0 0, 0xFFFF0010], .redX96 { w0 := { k := 5, wa := true, wb := true, a := 12, b := 25, d := 43 }, func := 1, ty := .u32, imm := 0xFFFF0010 })
    , ([word0 1 1 5 25 12 43 0x72 2, word1 0 14 1 21, 0x0], .acas { w0 := { k := 5, wa := true, wb := true, a := 12, b := 25, d := 43 }, ty := .b64, wc := true, c := 21 })
    , ([word0 0 0 5 0 0 0 0x73 0], .fence { k := 5 })
    , ([word0 0 0 5 0 0 0 0x73 2, word1 1 0 0 0, 0x0], .fenceX96 { w0 := { k := 5 }, func := 1 }) ] = true := by decide +kernel

theorem test_decodesLaunch : reads
    [ ([word0 0 1 5 0 12 0 0x75 0], .publish { k := 5, wa := true, a := 12 })
    , ([word0 0 1 5 0 12 0 0x75 2, word1 0 0 0 0, 0xFFFF0010], .publishX96 { w0 := { k := 5, wa := true, a := 12 }, imm := 0xFFFF0010 })
    , ([word0 0 1 5 0 12 43 0x76 0], .chunk { k := 5, wa := true, a := 12, d := 43 })
    , ([word0 0 1 5 0 12 43 0x76 2, word1 0 0 0 0, 0xFFFF0010], .chunkX96 { w0 := { k := 5, wa := true, a := 12, d := 43 }, imm := 0xFFFF0010 })
    , ([word0 0 1 5 25 12 43 0x77 0], .launch { k := 5, wa := true, a := 12, b := 25, d := 43 })
    , ([word0 0 1 5 25 12 43 0x77 2, word1 0 0 0 0, 0xFFFF0010], .launchX96 { w0 := { k := 5, wa := true, a := 12, b := 25, d := 43 }, imm := 0xFFFF0010 })
    , ([word0 0 0 5 0 0 11 0x78 0], .bar { k := 5, d := 11 })
    , ([word0 0 0 5 0 0 11 0x78 2, word1 1 0 0 0, 0x0], .barX96 { w0 := { k := 5, d := 11 }, func := 1 }) ] = true := by decide +kernel

theorem test_decodesEngines : reads
    [ ([word0 1 1 5 25 12 0 0x79 2, word1 2 0 0 0, 0x0], .phsig { w0 := { k := 5, wa := true, wb := true, a := 12, b := 25 }, func := 2 })
    , ([word0 1 1 5 25 12 0 0x79 2, word1 3 0 0 0, 0x0], .phwait { w0 := { k := 5, wa := true, wb := true, a := 12, b := 25 }, func := 3 })
    , ([word0 1 1 5 25 12 0 0x79 2, word1 4 0 0 0, 0x0], .phsw { w0 := { k := 5, wa := true, wb := true, a := 12, b := 25 }, func := 4 })
    , ([word0 0 1 5 0 12 43 0x79 2, word1 5 0 0 0, 0x0], .phq { w0 := { k := 5, wa := true, a := 12, d := 43 }, func := 5 })
    , ([word0 0 1 5 0 12 0 0x7A 2, word1 0 0 0 0, 0x10], .rdef { w0 := { k := 5, wa := true, a := 12 }, imm := 0x10 })
    , ([word0 0 1 5 0 12 43 0x7A 2, word1 1 0 0 0, 0x0], .racq { w0 := { k := 5, wa := true, a := 12, d := 43 }, func := 1 })
    , ([word0 0 1 5 0 12 0 0x7A 2, word1 2 0 0 0, 0x0], .rpub { w0 := { k := 5, wa := true, a := 12 }, func := 2 })
    , ([word0 0 1 5 0 12 43 0x7A 2, word1 3 0 0 0, 0x0], .rget { w0 := { k := 5, wa := true, a := 12, d := 43 }, func := 3 })
    , ([word0 0 1 5 0 12 0 0x7A 2, word1 4 0 0 0, 0x0], .rrel { w0 := { k := 5, wa := true, a := 12 }, func := 4 })
    , ([word0 0 1 5 0 12 43 0x7B 2, word1 0 0 0 0, 0x10], .cpy { w0 := { k := 5, wa := true, a := 12, d := 43 }, imm := 0x10 })
    , ([word0 0 0 5 12 0 0 0x7B 2, word1 1 0 0 0, 0x0], .cpyw { w0 := { k := 5, b := 12 }, func := 1 }) ] = true := by decide +kernel

theorem test_decodesTile : reads
    [ ([word0 1 1 5 25 38 43 0x7C 0], .wld { k := 5, wa := true, wb := true, a := 38, b := 25, d := 43 })
    , ([word0 1 1 5 25 38 43 0x7C 2, word1 0 13 0 0, 0x10], .wldX96 { w0 := { k := 5, wa := true, wb := true, a := 38, b := 25, d := 43 }, ty := .s4x8, imm := 0x10 })
    , ([word0 0 0 5 0 0 0 0x7C 2, word1 1 0 0 0, 0x0], .wswap { w0 := { k := 5 }, func := 1 })
    , ([word0 1 1 5 25 38 43 0x7C 2, word1 3 13 0 0, 0x10], .mdrain { w0 := { k := 5, wa := true, wb := true, a := 38, b := 25, d := 43 }, func := 3, ty := .s4x8, imm := 0x10 })
    , ([word0 1 0 5 25 0 43 0x7C 2, word1 4 0 0 0, 0x0], .ashape { w0 := { k := 5, wb := true, b := 25, d := 43 }, func := 4 })
    , ([word0 0 1 5 0 38 0 0x7C 2, word1 5 0 0 0, 0x0], .twait { w0 := { k := 5, wa := true, a := 38 }, func := 5 })
    , ([word0 0 1 5 0 38 43 0x7C 2, word1 6 0 0 0, 0x0], .tqry { w0 := { k := 5, wa := true, a := 38, d := 43 }, func := 6 }) ] = true := by decide +kernel

theorem test_decodesSystem : reads
    [ ([word0 0 0 5 0 0 0 0x7D 0], .yield { k := 5 })
    , ([word0 0 0 5 0 0 0 0x7D 2, word1 0 0 0 0, 0x0], .yieldX96 { w0 := { k := 5 } })
    , ([word0 1 0 5 25 0 0 0x7D 2, word1 1 0 0 0, 0x0], .sleep { w0 := { k := 5, wb := true, b := 25 }, func := 1 })
    , ([word0 0 1 5 0 12 0 0x7D 2, word1 2 0 0 0, 0x0], .cropen { w0 := { k := 5, wa := true, a := 12 }, func := 2 })
    , ([word0 0 0 5 0 0 0 0x7D 2, word1 3 0 0 0, 0x0], .crclose { w0 := { k := 5 }, func := 3 })
    , ([word0 0 0 5 0 0 43 0x7D 2, word1 4 0 0 0, 0x0], .mapv { w0 := { k := 5, d := 43 }, func := 4 })
    , ([word0 0 1 5 0 38 43 0x7D 2, word1 5 0 0 0, 0x0], .mapack { w0 := { k := 5, wa := true, a := 38, d := 43 }, func := 5 })
    , ([word0 0 0 5 0 0 43 0x7D 2, word1 6 0 0 0, 0x0], .feat { w0 := { k := 5, d := 43 }, func := 6 })
    , ([word0 0 0 5 0 0 43 0x7D 2, word1 7 0 0 0, 0x0], .clk { w0 := { k := 5, d := 43 }, func := 7 })
    , ([word0 0 0 5 12 0 43 0x7D 2, word1 8 0 0 0, 0x0], .pmrd { w0 := { k := 5, b := 12, d := 43 }, func := 8 })
    , ([word0 0 1 5 12 38 43 0x7D 2, word1 9 0 0 0, 0x0], .pmcfg { w0 := { k := 5, wa := true, a := 38, b := 12, d := 43 }, func := 9 })
    , ([word0 0 0 5 25 0 0 0x7D 2, word1 10 0 0 0, 0x0], .prog { w0 := { k := 5, b := 25 }, func := 10 }) ] = true := by decide +kernel

/-- The literal forms, the jump form, and words that use every field of word 1 (R37, R38, R43). -/
theorem test_decodesOther : reads
    [ ([0xFFFFFF40], .jmp { off := BitVec.ofInt 23 (-1) })
    , ([0b00000000000000000000011#23 ++ 0x51#7 ++ 0b00#2], .call { off := 3 })
    , ([word0 0 0 0 0 0 0 0x55 0], .yieldp)
    , ([word0 0 0 0 0 0 0 0x55 2, 0, 0], .yieldpX96)
    , ([word0 1 0 0 0 0 0 0x7F 3], .udf (word0 1 0 0 0 0 0 0x7F 3))
    , ([word0 0 0 0 0 0 0 0x00 0], .nop {})
    , ([0x40018DE6, 0x20000000, 0], .phreg { w0 := { wa := true, a := 3, d := 6 }, x1 := true })
    , ([0xC0C181E6, 0x60100000, 0], .phdrop { w0 := { wa := true, wb := true, a := 3, b := 6 }, x1 := true, x2 := true, func := 1 })
    , ([word0 0 0 5 0 0 0 0x74 2, word1 0x21 0 0 0, 0], .xfence { w0 := { k := 5 }, func := 0x21 })
    , ([word0 0 0 5 0 0 0 0x7C 3, word1 2 0 0 0, 0, 0x03000003, 0x5], .mma { x := { w0 := { k := 5 }, func := 2 }, lit := 0x503000003 })
    , ([0x90C288E2, 0x980, 0], .faddX96 { w0 := { k := 2, wb := true, a := 5, b := 6, d := 4 }, ty := .f32, rnd := .rz })
    , ([0xC0A21506, 0x20200443, 0], .cvtq { w0 := { wa := true, wb := true, a := 4, b := 5, d := 10 }, x1 := true, func := 2, ty := .e4m3x4, wc := true, c := 3 })
    , ([0x4010C206, 0x10000080, 1], .iaddX96 { w0 := { wa := true, a := 33, d := 33 }, immb := true, ty := .s32, imm := 1 })
    , ([word0 1 1 0 5 3 4 0x01 2, 0b0000#4 ++ 0#8 ++ 0b00#2 ++ 0b000#3 ++ 0b1#1 ++ 0b000#3 ++ 0b0001#4 ++ 0#7, 0],
        .iaddX96 { w0 := { wa := true, wb := true, a := 3, b := 5, d := 4 }, sat := true, ty := .s32 })
    , ([word0 1 1 0 5 3 4 0x70 2, 0b0000#4 ++ 6#8 ++ 0b11#2 ++ 0b100#3 ++ 0b0#1 ++ 0b000#3 ++ 0b1110#4 ++ 0b1#1 ++ 7#6, 0],
        .atom { w0 := { wa := true, wb := true, a := 3, b := 5, d := 4 }, func := 6, ord := .acqRel, scope := .system, ty := .b64, wc := true, c := 7 })
    , ([0x000001F4], .yield {}), ([0x80A001F6, 0x00100000, 0], .sleep { w0 := { wb := true, b := 5 }, func := 1 })
    , ([0x000001F6, 0x10100000, 0x7D0], .sleep { immb := true, func := 1, imm := 0x7D0 })
    , ([0x400102C4], .kset { wa := true, a := 2, d := 1 }) ] = true := by decide +kernel

/-- Words that stand for no instruction (R34, R41-R44, R53, R54, R56): reserved majors, unassigned functions, and fields that the entry does not
allow. -/
theorem test_refusesWords : [ [word0 0 0 0 0 0 0 0x14 0], [word0 0 0 0 0 0 0 0x7E 0], [word0 0 0 0 6 0 0 0x0F 0], [word0 0 0 0 0 0 0 0x05 0]
    , [word0 0 0 0 0 0 0 0x79 2, word1 6 0 0 0, 0], [word0 0 0 0 0 0 0 0x7D 2, word1 11 0 0 0, 0], [word0 0 0 0 0 0 0 0x01 1, 0, 0]
    , [word0 0 0 0 0 0 0 0x01 3, 0, 0, 0, 0], [word0 0 0 0 0 0 0 0x01 2, word1 0 15 0 0, 0], [word0 0 0 0 0 0 0 0x01 2, 0x80000080, 0]
    , [word0 0 0 0 0 0 0 0x01 2, 0x80], [word0 0 0 0 0 0 0 0x1B 1, 0], [] ].all (fun ws => decode ws = none) = true := by decide +kernel

/-! ### Well-formed and ill-formed instructions -/

/-- Terms that pass, at the ends of their ranges. -/
theorem test_wellFormed : ([ .iadd { a := 63, b := 63, d := 63, wa := true, wb := true }, .bmov { a := 62, d := 15 }, .shapea { a := 1, b := 7 }
    , .kand { a := 7, b := 7, d := 7, wa := true }, .trap { b := 63 }, .ldX96 { w0 := { a := 15, b := 1, d := 60, wa := true }, func := 0x14, ty := .b32 }
    , .movi { w0 := { d := 63 }, lit := 0xFFFFFFFF }, .udf 0xFFFFFFFF ] : List Instr).all Instr.wf = true := by decide +kernel

/-- One ill-formed term for each check: a D, A, B or C field out of range, a wait bit, K, TYPE, FUNC, RND, SAT, SCOPE, ORD, IMMB, XMOD[1], XMOD[2],
word 2, the B field beside IMMB, each limit that an entry adds, a literal, and the words of what is no instruction. -/
theorem test_illFormed : ([ .bmov { a := 2, d := 16, wa := true }, .bmov { a := 63, d := 1, wa := true }, .shapea { a := 1, b := 8, wa := true }
    , .iaddX96 { ty := .s32, c := 1 }, .badd { a := 1, b := 1, d := 1 }, .ret { k := 1 }, .iaddX96 { ty := .f32 }, .iaddX96 { ty := .s32, func := 1 }
    , .iaddX96 { ty := .s32, rnd := .rz }, .andX96 { sat := true }, .iaddX96 { ty := .s32, scope := .cluster }, .iaddX96 { ty := .s32, ord := .acquire }
    , .movX96 { immb := true }, .iaddX96 { ty := .s32, x1 := true }, .iaddX96 { ty := .s32, x2 := true }, .iaddX96 { ty := .s32, imm := 1 }
    , .iaddX96 { w0 := { b := 1 }, ty := .s32, immb := true }, .kset { d := 0 }, .voteX96 { w0 := { d := 8 }, func := 1 }, .amget { b := 1, d := 1, wa := true }
    , .ldX96 { w0 := { a := 1, d := 61, wa := true }, func := 0x10 }, .ldX96 { w0 := { a := 1, d := 1, wa := true }, func := 5 }
    , .cvtX96 { func := 8, ty := .s32 }, .cvtdX96 { func := 1 }, .atom { w0 := { a := 1, d := 1, wa := true }, func := 7 }
    , .redX96 { w0 := { a := 1, d := 1, wa := true }, func := 1, ty := .b64 }, .phreg { w0 := { a := 1, wa := true } }
    , .cpy { w0 := { a := 1, b := 1, wa := true, wb := true }, imm := 3 }, .mdrain { func := 3, ty := .f32, imm := 0x2000000 }
    , .movi { lit := 0x100000000 }, .mma { x := { func := 2 }, lit := 0 }, .udf 0, .nonInstruction 0 ] : List Instr).all (fun i => !i.wf) = true := by
  decide +kernel

/-! ### What instructions do

Expected values are those of the spec's worked examples, or computed by hand from its tables. -/

/-- The strand after an instruction on the bench. -/
def after (st : Strand) (i : Instr) : Option Strand :=
  match exec i (at' st) with
  | .next t => t.strand? 3
  | _ => none

/-- v[n] after an instruction. -/
def reg (st : Strand) (i : Instr) (n : Nat) : Option Shape := (after st i).map fun x => (x.reg n).shape

/-- Lane `l` of v[n] after an instruction. -/
def lane (st : Strand) (i : Instr) (n l : Nat) : Option Word := (after st i).map fun x => x.lane n l

/-- A lane value made from 32 values. -/
def lanesOf (f : Nat → Word) : Shape := .v ((List.range 32).foldl (fun l i => l.set! i (f i)) (Lanes.const 0)) 9

/-- The bench's strand with v1, v2 and v3 replaced, and k1. -/
def with3 (a b c : Shape) (k1 : Mask := 0xF) : Strand :=
  let st := ((benchStrand.setReg 1 { shape := a }).setReg 2 { shape := b }).setReg 3 { shape := c }
  { st with k := vset st.k 1 k1 }

-- 05_arith.md, after R131: the sequence of shapes.
theorem test_iadd_affine : reg (with3 (.a 0 4) (.u 3) (.u 384)) (.iadd { a := 1, b := 3, d := 4 }) 4 = some (.a 384 4) := by decide +kernel
theorem test_iadd_partial : let st := (with3 (.a 384 4) (.u 0) (.u 384) 0xFFFF)
    lane st (.iadd { k := 1, a := 1, b := 3, d := 1 }) 1 15 = some 828 ∧ lane st (.iadd { k := 1, a := 1, b := 3, d := 1 }) 1 16 = some 448 := by decide +kernel
theorem test_iadd_sat : lane (with3 (.u 0x7FFFFFFF) (.u 1) (.u 0)) (.iaddX96 { w0 := { a := 1, b := 2, d := 4 }, ty := .s32, sat := true }) 4 0 =
    some 0x7FFFFFFF := by decide +kernel
theorem test_isub_affine : reg (with3 (.u 5) (.a 0 1) (.u 0)) (.isub { a := 1, b := 2, d := 4 }) 4 = some (.a 5 0xFFFFFFFF) := by decide +kernel
theorem test_imul_uniform : reg (with3 (.u 3) (.u 128) (.u 0)) (.imul { a := 1, b := 2, d := 4 }) 4 = some (.u 384) := by decide +kernel
theorem test_imulh_signed : reg (with3 (.u 0x80000000) (.u 2) (.u 0)) (.imulh { a := 1, b := 2, d := 4 }) 4 = some (.u 0xFFFFFFFF) := by decide +kernel
theorem test_shl_affine : reg (with3 (.a 0 1) (.u 2) (.u 0)) (.shl { a := 1, b := 2, d := 4 }) 4 = some (.a 0 4) := by decide +kernel
theorem test_shl_32 : reg (with3 (.u 1) (.u 32) (.u 0)) (.shl { a := 1, b := 2, d := 4 }) 4 = some (.u 0) := by decide +kernel
theorem test_isel_mixed : let st := with3 (.u 1) (.u 2) (.u 0)
    lane st (.isel { k := 1, a := 1, b := 2, d := 4 }) 4 3 = some 1 ∧ lane st (.isel { k := 1, a := 1, b := 2, d := 4 }) 4 4 = some 2 := by decide +kernel

-- 04_register.md, after R95: the trace of the merge rules.
theorem test_movi_merge : reg (with3 (.u 7) (.u 0) (.u 0)) (.movi { w0 := { k := 1, d := 1 }, lit := 7 }) 1 = some (.u 7) := by decide +kernel
theorem test_lane : reg (with3 (.u 7) (.u 0) (.u 4)) (.lane { a := 2, b := 3, d := 4 }) 4 = some (.a 0 4) := by decide +kernel
theorem test_shape : reg (with3 (lanesOf fun _ => 7) (.u 0) (.u 0)) (.shape { a := 1, d := 4 }) 4 = some (.u 2) := by decide +kernel
theorem test_sqz : reg (with3 (lanesOf fun i => BitVec.ofNat 32 (768 + 4 * i)) (.u 0) (.u 0)) (.sqz { a := 1, d := 1 }) 1 = some (.a 768 4) := by decide +kernel

-- 05_arith.md, R136: rotations and segments of A(100, 1).
theorem test_shfl_rot : lane (with3 (.a 100 1) (.u 3) (.u 0)) (.shflX96 { w0 := { a := 1, b := 2, d := 4 }, func := 1 }) 4 29 = some 100 := by decide +kernel
theorem test_shfl_seg : lane (with3 (.a 100 1) (.u 0x203) (.u 0)) (.shflX96 { w0 := { a := 1, b := 2, d := 4 }, func := 2 }) 4 15 = some 110 := by
  decide +kernel
theorem test_vote_ballot : lane (with3 (.a 0 1) (.u 0) (.u 0)) (.voteX96 { w0 := { k := 1, a := 1, d := 4 }, func := 2 }) 4 0 = some 0xE := by decide +kernel
theorem test_lred_add : reg (with3 (.u 5) (.u 0) (.u 0)) (.lredX96 { w0 := { a := 1, d := 4 }, ty := .s32 }) 4 = some (.u 160) := by decide +kernel
theorem test_gid_lane : reg benchStrand (.gid { d := 4 }) 4 = some (.a 0 1) := by decide +kernel
theorem test_gid_core : reg benchStrand (.gidX96 { w0 := { d := 4 }, func := 9 }) 4 = some (.u 0) := by decide +kernel

-- R132, R133, R134: masks.
theorem test_kandn : (after (with3 (.u 0) (.u 0) (.u 0)) (.kandn { wa := true, a := 0, b := 0x19, d := 2 })).map (fun x => vget x.k 2 0) = some 0xFFFFFFF0 := by decide +kernel
theorem test_kset_lanes : (after (with3 (.a 0 1) (.u 0) (.u 0)) (.ksetX96 { w0 := { a := 1, d := 2 }, x1 := true })).map (fun x => vget x.k 2 0) =
    some 0xFFFFFFFE := by decide +kernel
theorem test_kpop : reg (with3 (.u 0) (.u 0) (.u 0)) (.kpop { a := 1, d := 4, wa := true }) 4 = some (.u 4) := by decide +kernel

-- R140 to R145: floating point, with bit patterns of binary32.
theorem test_fadd_zero : reg (with3 (.u 0x3F800000) (.u 0xBF800000) (.u 0)) (.faddX96 { w0 := { a := 1, b := 2, d := 4 }, ty := .f32, rnd := .rd }) 4 =
    some (.u 0x80000000) := by decide +kernel
theorem test_fmul_infZero : reg (with3 (.u 0x7F800000) (.u 0) (.u 0)) (.fmul { a := 1, b := 2, d := 4 }) 4 = some (.u 0x7FC00000) := by decide +kernel
theorem test_ffma_once : reg (with3 (.u 0x3F800001) (.u 0x3F800001) (.u 0xBF800002)) (.ffma { a := 1, b := 2, d := 3 }) 3 = some (.u 0x28800000) := by
  decide +kernel
theorem test_fmin_nan : reg (with3 (.u 0x7FC00001) (.u 0x40000000) (.u 0)) (.fmin { a := 1, b := 2, d := 4 }) 4 = some (.u 0x40000000) := by decide +kernel
theorem test_fcmp_unordered : (after (with3 (.u 0x7FC00000) (.u 0) (.u 0)) (.fcmpX96 { w0 := { a := 1, b := 2, d := 2 }, func := 1, ty := .f32 })).map
    (fun x => vget x.k 2 0) = some 0xFFFFFFFF := by decide +kernel
theorem test_fsqrt : reg (with3 (.u 0x40000000) (.u 0) (.u 0)) (.fsqrt { a := 1, b := 4, d := 4 }) 4 = some (.u 0x3FB504F3) := by decide +kernel
theorem test_fclass : reg (with3 (.u 0x80000001) (.u 0) (.u 0)) (.fclass { a := 1, b := 10, d := 4 }) 4 = some (.u 4) := by decide +kernel

/-- The lanes of the worked example of R149: 100.0, 300.0, -0.01 and 0.001. -/
def quantized : Strand :=
  with3 (lanesOf fun i => [0x42C80000, 0x43960000, 0xBC23D70A, 0x3A83126F].getD i 0) (.u 0x40000000) (.u 0)

def cvtq0 : Instr := .cvtq { w0 := { k := 1, a := 1, b := 2, d := 10 }, x1 := true, func := 2, ty := .e4m3x4, wc := true, c := 3 }

theorem test_cvtq_lanes : [lane quantized cvtq0 10 0, lane quantized cvtq0 10 1, lane quantized cvtq0 10 2, lane quantized cvtq0 10 3, lane quantized cvtq0 10 4] =
    [some 0x00740000, some 0x007F0000, some 0x008A0000, some 0x00010000, some 0] := by decide +kernel
theorem test_cvtq_amax : (match exec cvtq0 (at' quantized) with
    | .next t => (t.group? 2).map fun g => vget g.amax 3 {}
    | _ => none) = some { mixed := false, nanSeen := false, fmt := 8, max := 0x43960000 } := by decide +kernel
theorem test_cvt_clamp : reg (with3 (.u 0x4F000000) (.u 0) (.u 0)) (.cvtX96 { w0 := { a := 1, d := 4 }, ty := .s32 }) 4 = some (.u 0x7FFFFFFF) := by decide +kernel
theorem test_cvtd_q4x8 : reg (with3 (.u 0x0F295C38) (.u 0x3F000000) (.u 0)) (.cvtdX96 { w0 := { a := 1, b := 2, d := 4 }, func := 0xA4, ty := .f32 }) 4 =
    some (.u 0xC0600000) := by decide +kernel

-- R154 to R172: control.
theorem test_jmp_back : (after benchStrand (.jmp { off := BitVec.ofInt 23 (-1) })).map (·.pc) = some 0x10C0 := by decide +kernel
theorem test_call : (after benchStrand (.call { off := 3 })).map (fun x => (x.pc, x.rets.map (·.ra))) = some (0x11C0, [0x1140]) := by decide +kernel
theorem test_exit : (after (with3 (.u 0) (.u 0) (.u 0)) (.exit { k := 1 })).map (fun x => (x.live, x.path, x.pc)) =
    some (0xFFFFFFF0, 0xFFFFFFF0, 0x1104) := by decide +kernel
theorem test_trap : (after benchStrand (.trap { b := 7 })).map (fun x => (x.pc, x.handler.map (·.trap))) =
    some (0x1200, some { cause := 0x14, addr := 0x1100, lanes := 0xFFFFFFFF, detail := 7 }) := by decide +kernel
theorem test_badd : (after { benchStrand with b := vset benchStrand.b 2 0x1FFFFFFFF } (.baddX96 { w0 := { wa := true, a := 2, d := 3 }, immb := true, imm := 0xFFFFFFFF })).map
    (fun x => vget x.b 3 0) = some 0x1FFFFFFFE := by decide +kernel

-- FIPS 180-4: SHA-512 of "abc", its first word (R466 takes this digest of the map image).
theorem test_sha512 : (sha512 [0x61, 0x62, 0x63]).toNat / 2 ^ 448 = 0xDDAF35A193617ABA := by decide +kernel

-- R493, R429: DEVSTATE reads 1 while the device runs, and a TAIL written in the control block of context 1.
theorem test_barStatus : (match step { hubWith none with agenda := [.barRead 0 4 4] } with
    | .next t => t.dev.replies
    | _ => []) = [.data [1, 0, 0, 0]] := by decide +kernel
theorem test_barTail : (match step { hubWith none with agenda := [.barWrite 0 0x2002054 [9, 0, 0, 0]] } with
    | .next t => (t.ctx? 1).map fun c => (c.queue 0).tail
    | _ => none) = some 9 := by decide +kernel

-- R259: a store of two bytes, little-endian, at its place in memory.
theorem test_storePerformed : (match exec (.accessPerformed 100) (flying (access .store [elem1])) with
    | .next t => some (t.mem.getList 0x10 3, t.flight.length)
    | _ => none) = some ([0xEF, 0xBE, 0], 0) := by decide +kernel

-- 07_widen and R156: a step fetches, decodes and runs; the first step after reset with a CALL placed where it fetches.
theorem test_stepRuns : (match step (State.reset.withFetchWord 32 0x744) with
    | .next t => (t.strand? 3).map fun x => (x.pc, x.rets.map (·.ra))
    | _ => none) = some (0x11C0, [0x1140]) := by decide +kernel

theorem test_tableWord : decodeTableWord 32 0x744 = some (.call { off := 3 }) := by decide +kernel

end Sys2Proof.Tests
end

section
/-!
PROOF. The decoder reads what the encoder writes (R33-R56): the fields of words 0 and 1 come back, OP and the selectors of R53 and R54 name the
instruction again, and so a well-formed instruction is the one its words decode to.
-/

namespace Sys2Proof

open Laws

/-! ### Field codes (R18, R49, R70) -/

theorem Ty.ofCode?_code (t : Ty) : Ty.ofCode? t.code = some t := by cases t <;> rfl
theorem Rnd.ofCode?_code (r : Rnd) : Rnd.ofCode? r.code = some r := by cases r <;> rfl
theorem Scope.ofCode?_code (c : Scope) : Scope.ofCode? c.code = some c := by cases c <;> rfl
theorem Ord.ofCode_code (o : Ord) : Ord.ofCode o.code = o := by cases o <;> rfl

theorem Ty.code_lt (t : Ty) : t.code < 16 := by cases t <;> decide
theorem Rnd.code_lt (r : Rnd) : r.code < 8 := by cases r <;> decide
theorem Scope.code_lt (c : Scope) : c.code < 8 := by cases c <;> decide
theorem Ord.code_lt (o : Ord) : o.code < 4 := by cases o <;> decide

/-! ### Fields of a word (R36-R38, R43) -/

theorem getLsbD_append_of_lt {n m : Nat} {x : BitVec n} {y : BitVec m} {i : Nat} (h : i < m) : (x ++ y).getLsbD i = y.getLsbD i := by
  rw [BitVec.getLsbD_append, if_pos h]

theorem getLsbD_append_of_le {n m : Nat} {x : BitVec n} {y : BitVec m} {i : Nat} (h : m ≤ i) : (x ++ y).getLsbD i = x.getLsbD (i - m) := by
  rw [BitVec.getLsbD_append, if_neg (Nat.not_lt.mpr h)]

theorem opOf_toWord (o : W0) (op len : Nat) (h : op < 128) : opOf (o.toWord op len) = op := by
  simp (disch := omega) only [opOf, W0.toWord, BitVec.extractLsb'_append_eq_of_le, BitVec.extractLsb'_append_eq_of_add_le]
  simp [Nat.mod_eq_of_lt h]

theorem W0.ofWord_toWord (o : W0) (op len : Nat) : W0.ofWord (o.toWord op len) = o := by
  simp (disch := omega) only [W0.ofWord, W0.toWord, BitVec.extractLsb'_append_eq_of_le, BitVec.extractLsb'_append_eq_of_add_le,
    getLsbD_append_of_lt, getLsbD_append_of_le]
  simp

theorem X96.ofWords?_word1 (x : X96) (op len : Nat) : X96.ofWords? (x.w0.toWord op len) x.word1 x.imm = some x := by
  simp (disch := omega) only [X96.ofWords?, X96.word1, W0.ofWord_toWord, BitVec.extractLsb'_append_eq_of_le,
    BitVec.extractLsb'_append_eq_of_add_le, getLsbD_append_of_lt, getLsbD_append_of_le]
  simp [Nat.mod_eq_of_lt x.ty.code_lt, Nat.mod_eq_of_lt x.rnd.code_lt, Nat.mod_eq_of_lt x.scope.code_lt, Nat.mod_eq_of_lt x.ord.code_lt,
    Ty.ofCode?_code, Rnd.ofCode?_code, Scope.ofCode?_code, Ord.ofCode_code]

theorem DWord.pair_lo_hi (x : DWord) : DWord.pair x.lo x.hi = x := by
  apply BitVec.eq_of_getLsbD_eq
  intro i hi
  rw [DWord.pair, BitVec.getLsbD_append]
  split
  · simp [*]
  · simp [show 32 + (i - 32) = i by omega, show i - 32 < 32 by omega]

theorem opOf_encJ (off : BitVec 23) (op : Nat) (h : op < 128) : opOf (off ++ BitVec.ofNat 7 op ++ 0#2) = op := by
  simp (disch := omega) only [opOf, BitVec.extractLsb'_append_eq_of_le, BitVec.extractLsb'_append_eq_of_add_le]
  simp [Nat.mod_eq_of_lt h]

theorem lenOf_encJ (off : BitVec 23) (op : Nat) : lenOf (off ++ BitVec.ofNat 7 op ++ 0#2) = 0 := by
  simp (disch := omega) only [lenOf, BitVec.extractLsb'_append_eq_of_add_le]
  simp

theorem off_encJ (off : BitVec 23) (op : Nat) : (off ++ BitVec.ofNat 7 op ++ 0#2).extractLsb' 9 23 = off := by
  simp (disch := omega) only [BitVec.extractLsb'_append_eq_of_le]
  exact BitVec.extractLsb'_eq_self

/-! ### The words of each form (R34): where OP and the selectors name a well-formed instruction, the decoder answers it -/

section Forms
variable {op : Nat} {i : Instr} (hop : op < 0x7F) (hw : i.wf = true) (rest : List Word)
include hop hw

theorem decode_encB32 {o : W0} (hd : dispB32 op o = some i) : decode (encB32 op o ++ rest) = some i := by
  -- majors 0x50 and 0x51 are of the B32-J form
  have h50 : op ≠ 0x50 := fun h => by rw [h] at hd; cases hd
  have h51 : op ≠ 0x51 := fun h => by rw [h] at hd; cases hd
  simp [decode, encB32, opOf_toWord o op 0 (by omega), lenOf_toWord, hop.ne, h50, h51, W0.ofWord_toWord, hd, keepWf, hw]

theorem decode_encX96 {o : X96} (hd : dispX96 op o = some i) : decode (encX96 op o ++ rest) = some i := by
  simp [decode, encX96, opOf_toWord o.w0 op 2 (by omega), lenOf_toWord, hop.ne, X96.ofWords?_word1, hd, keepWf, hw]

theorem decode_encBL {o : BL} (hd : dispBL op o = some i) : decode (encBL op o ++ rest) = some i := by
  simp [decode, encBL, opOf_toWord o.w0 op 1 (by omega), lenOf_toWord, hop.ne, W0.ofWord_toWord, DWord.pair_lo_hi, hd, keepWf, hw]

theorem decode_encXL {o : XL} (hd : dispXL op o = some i) : decode (encXL op o ++ rest) = some i := by
  simp [decode, encXL, opOf_toWord o.x.w0 op 3 (by omega), lenOf_toWord, hop.ne, X96.ofWords?_word1, DWord.pair_lo_hi, hd, keepWf, hw]

end Forms

theorem decode_jmp (o : J) (rest : List Word) : decode (encJ 0x50 o ++ rest) = some (.jmp o) := by
  simp [decode, encJ, opOf_encJ, lenOf_encJ, off_encJ]

theorem decode_call (o : J) (rest : List Word) : decode (encJ 0x51 o ++ rest) = some (.call o) := by
  simp [decode, encJ, opOf_encJ, lenOf_encJ, off_encJ]

theorem decode_udf {w : Word} (hw : (Instr.udf w).wf = true) (rest : List Word) : decode (w :: rest) = some (.udf w) := by
  have hop : opOf w = 0x7F := by
    have : w.toNat / 4 % 128 = 0x7F := of_decide_eq_true hw
    simpa [opOf, Nat.shiftRight_eq_div_pow] using this
  simp [decode, hop]

/-! ### Legality fixes the fields that select an instruction (R53, R54) -/

/-- The parts of legality that concern the selectors: the range of B where the entry takes no immediate, and FUNC. -/
theorem Enc.legal_selectors {e : Enc} {x : X96} (h : e.legal x = true) :
    (e.immb = false → e.b.rangeOk x x.w0.b.toNat = true) ∧ e.funcOk x.func = true := by
  simp only [Enc.legal, Bool.and_eq_true] at h
  obtain ⟨⟨⟨⟨⟨⟨⟨⟨⟨⟨⟨⟨⟨⟨⟨-, hb⟩, -⟩, -⟩, -⟩, -⟩, hf⟩, -⟩, -⟩, -⟩, -⟩, hi⟩, -⟩, -⟩, -⟩, -⟩ := h
  refine ⟨fun hn => ?_, hf⟩
  have hx : x.immb = false := by simpa [hn] using hi
  simp only [hx, Bool.false_eq_true, if_false, Bool.and_eq_true] at hb
  exact hb.1

theorem Enc.b_of_code {e : Enc} {x : X96} {n : Nat} (h : e.legal x = true) (hi : e.immb = false) (hb : e.b = .code n) :
    x.w0.b.toNat = n := by
  simpa [hb, Use.rangeOk] using (legal_selectors h).1 hi

theorem Enc.b_of_kop {e : Enc} {x : X96} {n : Nat} (h : e.legal x = true) (hi : e.immb = false) (hb : e.b = .kop n) :
    x.w0.b.toNat / 8 = n := by
  have hr := (legal_selectors h).1 hi
  simp only [hb, Use.rangeOk, Bool.and_eq_true, decide_eq_true_eq] at hr
  exact hr.1

theorem Enc.func_of_legal {e : Enc} {x : X96} {n : BitVec 8} (h : e.legal x = true) (hf : e.funcOk = fun f => f == n) : x.func = n := by
  simpa [hf] using (legal_selectors h).2

/-! ### Dispatch once a selector is known: it is that of the fields with the selector's value written in -/

theorem dispB32_of_b {op n : Nat} {o : W0} {i : W0 → Instr} (hb : o.b.toNat = n)
    (hd : ∀ o : W0, dispB32 op { o with b := BitVec.ofNat 6 n } = some (i { o with b := BitVec.ofNat 6 n })) : dispB32 op o = some (i o) := by
  subst hb
  simpa using hd o

theorem dispX96_of_b {op n : Nat} {x : X96} {i : X96 → Instr} (hb : x.w0.b.toNat = n)
    (hd : ∀ x : X96, dispX96 op { x with w0.b := BitVec.ofNat 6 n } = some (i { x with w0.b := BitVec.ofNat 6 n })) :
    dispX96 op x = some (i x) := by
  subst hb
  simpa using hd x

theorem dispX96_of_func {op : Nat} {n : BitVec 8} {x : X96} {i : X96 → Instr} (hf : x.func = n)
    (hd : ∀ x : X96, dispX96 op { x with func := n } = some (i { x with func := n })) : dispX96 op x = some (i x) := by
  subst hf
  exact hd x

/-! ### Every instruction -/

theorem decode_encode (i : Instr) (rest : List Word) (hw : i.wf = true) (he : encode i ≠ []) : decode (encode i ++ rest) = some i := by
  cases i with
  -- OP alone names the instruction
  | nop o | iadd o | isub o | imul o | imulh o | imin o | imax o | and o | or o | xor o | andn o | shl o | shr o | sar o | bfe o | icmp o
  | isel o | badd o | bmov o | bget o | mov o | lane o | shape o | shapea o | shapef o | sqz o | bcast o | shfl o | vote o | lred o | gid o
  | kset o | kpop o | kget o | fadd o | fsub o | fmul o | ffma o | fmin o | fmax o | fcmp o | cvt o | cvtd o | amax o | amget o | join o
  | ret o | jmpi o | calli o | exit o | jget o | trap o | thret o | ld o | st o | lds o | sts o | ldp o | stp o | ldf o | ldfk o | stf o
  | feset o | ldt o | stz o | ldz o | pref o | cwb o | red o | fence o | publish o | chunk o | launch o | bar o | wld o | yield o =>
    exact decode_encB32 (by decide) hw rest rfl
  | nopX96 o | iaddX96 o | isubX96 o | imulX96 o | imulhX96 o | imad o | iminX96 o | imaxX96 o | andX96 o | orX96 o | xorX96 o | andnX96 o
  | shlX96 o | shrX96 o | sarX96 o | bfeX96 o | bfi o | icmpX96 o | iselX96 o | baddX96 o | bmovX96 o | bgetX96 o | movX96 o | laneX96 o
  | shapeX96 o | shapeaX96 o | shapefX96 o | sqzX96 o | bcastX96 o | shflX96 o | voteX96 o | lredX96 o | gidX96 o | ksetX96 o | kpopX96 o
  | kgetX96 o | faddX96 o | fsubX96 o | fmulX96 o | ffmaX96 o | fminX96 o | fmaxX96 o | fcmpX96 o | cvtX96 o | cvtq o | cvtdX96 o
  | amaxX96 o | amgetX96 o | br o | bru o | joinX96 o | retX96 o | jmpiX96 o | calliX96 o | exitX96 o | trapX96 o | thretX96 o | ldX96 o
  | stX96 o | ldsX96 o | stsX96 o | ldpX96 o | stpX96 o | ldfX96 o | ldfkX96 o | stfX96 o | fesetX96 o | ldtX96 o | stct o | stzX96 o
  | ldzX96 o | prefX96 o | cwbX96 o | atom o | redX96 o | acas o | fenceX96 o | xfence o | publishX96 o | chunkX96 o | launchX96 o
  | barX96 o =>
    exact decode_encX96 (by decide) hw rest rfl
  | blit o | movi o => exact decode_encBL (by decide) hw rest rfl
  | fcall o => exact decode_encXL (by decide) hw rest rfl
  -- B does
  | ineg o | iabs o | not o | popc o | clz o | brev o | fneg o | fabs o | frcp o | frsq o | fsqrt o | fexp2 o | flog2 o | fsin o | fcos o
  | ftanh o | fclass o =>
    exact decode_encB32 (by decide) hw rest (dispB32_of_b (Enc.b_of_code hw rfl rfl) fun _ => rfl)
  | inegX96 o | iabsX96 o | notX96 o | popcX96 o | clzX96 o | brevX96 o | fnegX96 o | fabsX96 o | frcpX96 o | frsqX96 o | fsqrtX96 o
  | fexp2X96 o | flog2X96 o | fsinX96 o | fcosX96 o | ftanhX96 o | fclassX96 o =>
    exact decode_encX96 (by decide) hw rest (dispX96_of_b (Enc.b_of_code hw rfl rfl) fun _ => rfl)
  -- the upper bits of KOP do, above the number of its second k register (R132)
  | kand o | kor o | kxor o | kandn o | knot o | kmov o =>
    have hb : o.b.toNat / 8 = _ := Enc.b_of_kop hw rfl rfl
    exact decode_encB32 (by decide) hw rest (by simp only [dispB32, hb])
  | kandX96 o | korX96 o | kxorX96 o | kandnX96 o | knotX96 o | kmovX96 o =>
    have hb : o.w0.b.toNat / 8 = _ := Enc.b_of_kop hw rfl rfl
    exact decode_encX96 (by decide) hw rest (by simp only [dispX96, hb])
  -- FUNC does
  | jgetX96 o | jput o | phreg o | phdrop o | phsig o | phwait o | phsw o | phq o | rdef o | racq o | rpub o | rget o | rrel o | cpy o
  | cpyw o | wldX96 o | wswap o | mdrain o | ashape o | twait o | tqry o | yieldX96 o | sleep o | cropen o | crclose o | mapv o | mapack o
  | feat o | clk o | pmrd o | pmcfg o | prog o =>
    exact decode_encX96 (by decide) hw rest (dispX96_of_func (Enc.func_of_legal hw rfl) fun _ => rfl)
  | mma o =>
    have hl : Enc.mma'.legal o.x = true := (Bool.and_eq_true_iff.mp hw).1
    exact decode_encXL (by decide) hw rest (by simp only [dispXL, Enc.func_of_legal hl rfl, if_true])
  -- YIELDP has no fields, JMP and CALL have one, and UDF is its word
  | yieldp => exact decode_encB32 (by decide) hw rest rfl
  | yieldpX96 => exact decode_encX96 (by decide) hw rest rfl
  | jmp o => exact decode_jmp o rest
  | call o => exact decode_call o rest
  | udf w => exact decode_udf hw rest
  | nonInstruction w => exact absurd hw Bool.false_ne_true
  -- an event has no words
  | _ => exact absurd rfl he

/-- Settles O55: the selectors that legality fixes lead the decoder back to the instruction, and the words behind it are not looked at. -/
theorem encodingsDecode : Obligations.EncodingsDecode := by
  unfold Obligations.EncodingsDecode
  exact decode_encode

/-- Words that are those of a well-formed instruction decode to it. -/
theorem decode_of_encode {i : Instr} {w : Word} {ws : List Word} (h : encode i = w :: ws) (hw : i.wf = true) : decode (w :: ws) = some i := by
  have hd := decode_encode i [] hw (by simp [h])
  rwa [List.append_nil, h] at hd

/-- Settles O56: each of the words is what the encoder makes of its instruction, and no instruction has major 0x05 in B32 form. -/
theorem wordsDecode : Obligations.WordsDecode := by
  unfold Obligations.WordsDecode
  refine ⟨?_, ?_, ?_, ?_, ?_, ?_, ?_, ?_, ?_, rfl⟩
  all_goals exact decode_of_encode (by decide) (by decide)

end Sys2Proof
end

section
/-!
PROOF. Traps: an instruction that stops is taken to its trap, its wait or its group fault (O17).
-/

namespace Sys2Proof.Machine

/-! ### Taking a trap (R180-R183) -/

theorem traceOf_untraced {s : State} {st : Strand} {e : Env} (he : s.env? st = some e)
    (hu : ∀ c, s.ctx? e.ctx = some c → c.trace.on = false) (kind tag addr : Nat) : s.traceOf st kind tag addr = s := by
  have post : ∀ t, s.tracePost e.ctx t = s := fun t => by
    unfold State.tracePost
    cases hc : s.ctx? e.ctx with
    | none => rfl
    | some c => simp [hu c hc]
  simp only [State.traceOf, he, post]
  split <;> rfl

theorem readBy_noCont {st new : Strand} (h : st.cont = none) : st.readBy new = st := by
  simp [Strand.readBy, h]

/-- A trap but POISON, SHADOW and MAP, delivered to a strand that is not in its handler. -/
theorem deliver_enters {s : State} {x : Strand} {e : Env} {t : TrapInfo} (hx : s.strand? x.id = some x) (hs : x.state = .trapped t)
    (he : s.env? x = some e) (hh : x.handler = none) (hentry : e.hdr.trapEntry ≠ 0xFFFFFFFF)
    (hu : ∀ c, s.ctx? e.ctx = some c → c.trace.on = false) (h20 : t.cause ≠ 0x20) (h21 : t.cause ≠ 0x21) (h22 : t.cause ≠ 0x22) :
    s.deliver x.id = s.setStrand (x.enterHandler t (BitVec.ofNat 64 (e.base + e.hdr.trapEntry))) := by
  have htrace : ∀ y k tag a, (s.setStrand y).traceOf x k tag a = s.setStrand y := fun y => traceOf_untraced (s := s.setStrand y) he hu
  simp only [State.deliver, hx, hs, he, hh, h20, h21, h22, hentry, decide_false, Bool.or_false, Bool.false_and, Bool.false_eq_true, if_false,
    htrace]

/-- Such a trap raised where it may be taken at once: the strand is in its handler and nothing else has changed. -/
theorem raise_takesTraps {s : State} {st : Strand} {e : Env} (h : TakesTraps s st e) (t : TrapInfo) (h20 : t.cause ≠ 0x20)
    (h21 : t.cause ≠ 0x21) (h22 : t.cause ≠ 0x22) : s.raise st t = s.setStrand (inHandler st t (e.base + e.hdr.trapEntry)) := by
  have hprods : (s.prods.any fun p => p.strand == st.id) = false := by simpa using h.quiet
  simp only [State.raise, h21, if_false]
  split
  · next hc => exact absurd (h.noCont.symm.trans hc) nofun
  · simp only [setStrand_prods, hprods, Bool.false_eq_true, if_false]
    have hfound := strand_setStrand s { st with state := .trapped t } (by simp [strand_id h.cur, h.cur])
    exact (deliver_enters hfound rfl h.env h.free h.entry h.untraced h20 h21 h22).trans (setStrand_setStrand _ _ _ rfl)

theorem trapWith_eq {α : Type} (cause : Nat) (detail : Word) (lanes : Mask) (va : Nat) (j : Job) :
    (trapWith cause detail lanes va : M α) j =
      .error (.trap { cause := cause, addr := j.st.pc, lanes := lanes, detail := detail, va := va }) j := rfl

/-- An instruction whose body stops with such a trap. -/
theorem run_trapped {s : State} {st : Strand} {e : Env} {f : Form} (hq : Quiet s st e f) (ht : TakesTraps s st e) {body : M Unit}
    {cause : Nat} {detail : Word} {lanes : Mask} {va : Nat}
    (hb : body (jobOf s st e f) =
      .error (.trap { cause := cause, addr := st.pc, lanes := lanes, detail := detail, va := va }) (jobOf s st e f))
    (h20 : cause ≠ 0x20 := by decide) (h21 : cause ≠ 0x21 := by decide) (h22 : cause ≠ 0x22 := by decide) :
    run f body s = .next (s.setStrand (st.trapped e cause detail lanes va)) := by
  rw [run_quiet hq, hb]
  simp only [settle, readBy_noCont hq.noCont]
  exact congrArg _ (raise_takesTraps ht _ h20 h21 h22)

/-- An instruction whose body blocks. -/
theorem run_blocked {s : State} {st : Strand} {e : Env} {f : Form} (hq : Quiet s st e f) {body : M Unit} {b : Block} {j : Job}
    (hb : body (jobOf s st e f) = .error (.block b) j) : run f body s = .next (s.setStrand { st with state := .blocked b }) := by
  rw [run_quiet hq, hb]
  rfl

/-- An instruction whose body stops with a group fault but that of an unbalanced handler. -/
theorem run_groupFault {s : State} {st : Strand} {e : Env} {f : Form} (hq : Quiet s st e f) {body : M Unit} {g : GFault} {j : Job}
    (hb : body (jobOf s st e f) = .error (.group g) j) (hg : g.code ≠ 0x81) :
    run f body s = .next (s.groupFault st 2 g.code st.pc.toNat g.lanes g.detail g.va g.ia) := by
  rw [run_quiet hq, hb]
  simp only [settle, hg, if_false, readBy_noCont hq.noCont, State.raiseGroup, hq.noCont]

/-! ### TRAP (R179) -/

theorem trapBody_trapped {s : State} {st : Strand} {e : Env} {f : Form} (hq : Quiet s st e f) (ht : TakesTraps s st e)
    (hm : st.mask f.pred ≠ 0) :
    run f trapBody s = .next (s.setStrand (st.trapped e 0x14 (f.x.w0.b.setWidth 32) (st.mask f.pred))) := by
  have hd : BitVec.ofNat 32 f.b = f.x.w0.b.setWidth 32 := by simp [Form.b]
  apply run_trapped hq ht
  simp only [trapBody, m_bind, m_form, effMask_quiet hq, m_ite, if_neg hm, trapWith_eq]
  rw [← hd]
  rfl

/-- TRAP under a mask that is not empty is taken with cause 0x14 and B as detail. -/
theorem trapRule_trapped {i : Instr} {f : Form} {c : Nat} {d : Word} (hi : trapRule i = some (f, c, d)) {s : State} {st : Strand} {e : Env}
    (hq : Quiet s st e f) (ht : TakesTraps s st e) (hm : st.mask f.pred ≠ 0) :
    exec i s = .next (s.setStrand (st.trapped e c d (st.mask f.pred))) := by
  cases i with
  | trap o | trapX96 o =>
    cases hi
    exact trapBody_trapped hq ht hm
  | _ => cases hi

/-! ### A read of an empty register (R28, R111, R124) -/

/-- What an instruction of form `f` stops with at an empty register. -/
def emptyStop (st : Strand) (f : Form) (n : Nat) (wait : Bool) : Stop :=
  if wait then .block (.reg n)
  else .trap { cause := 0x05, addr := st.pc, lanes := st.trapLanes f, detail := BitVec.ofNat 32 n }

theorem trapM_still {α : Type} {j : Job} (h : j.Still) (cause : Nat) (detail : Word) (va : Nat) :
    (trapM cause detail va : M α) j =
      .error (.trap { cause := cause, addr := j.st.pc, lanes := j.st.trapLanes j.f, detail := detail, va := va }) j := by
  simp only [trapM, m_bind, m_get, m_ite, noteUse_still h, ite_self, trapWith_eq]
  rfl

theorem ready_empty {j : Job} (h : j.Still) {n : Nat} (wait : Bool) (hn : (j.st.reg n).full = false) :
    ready n wait j = .error (emptyStop j.st j.f n wait) j := by
  cases wait with
  | true => simp [ready, hn, emptyStop]
  | false =>
    simp only [ready, m_bind, m_get, hn, Bool.false_eq_true, if_false, trapM_still h]
    rfl

/-- Run from `j`, the action stops at the first of the sources that is empty, before it does anything else. -/
def StopsAtEmpty (j : Job) (rs : List (Nat × Bool)) (act : M Unit) : Prop :=
  ∀ n wait, rs.find? (fun r => !(j.st.reg r.1).full) = some (n, wait) → act j = .error (emptyStop j.st j.f n wait) j

theorem stopsAtEmpty_nil (j : Job) (act : M Unit) : StopsAtEmpty j [] act := nofun

theorem StopsAtEmpty.form {j : Job} {rs : List (Nat × Bool)} {g : Form → M Unit} (h : StopsAtEmpty j rs (g j.f)) :
    StopsAtEmpty j rs (form >>= g) := fun n wait hr => by
  rw [m_bind, m_form]
  exact h n wait hr

section Waits
variable {j : Job} (hj : j.Still) {rs : List (Nat × Bool)} {rest : M Unit} (h : StopsAtEmpty j rs rest)
include hj h

theorem StopsAtEmpty.ready (n : Nat) (w : Bool) : StopsAtEmpty j ((n, w) :: rs) (ready n w >>= fun _ => rest) := fun n' wait hr => by
  rw [List.find?_cons] at hr
  rw [m_bind]
  cases hf : (j.st.reg n).full with
  | true =>
    simp only [hf, Bool.not_true] at hr
    rw [ready_full n w hf]
    exact h n' wait hr
  | false =>
    simp only [hf, Bool.not_false, Option.some.injEq, Prod.mk.injEq] at hr
    obtain ⟨rfl, rfl⟩ := hr
    rw [ready_empty hj w hf]

theorem StopsAtEmpty.readyA : StopsAtEmpty j ((j.f.a, j.f.x.w0.wa) :: rs) (readyA >>= fun _ => rest) := h.ready hj _ _

theorem StopsAtEmpty.readyB :
    StopsAtEmpty j ((if j.f.x.immb then [] else [(j.f.b, j.f.x.w0.wb)]) ++ rs) (readyB >>= fun _ => rest) := fun n wait hr => by
  have hb : (Machine.readyB >>= fun _ => rest) j = ((if j.f.x.immb then pure () else Machine.ready j.f.b j.f.x.w0.wb) >>= fun _ => rest) j := rfl
  rw [hb]
  split at hr
  · next hi => rw [if_pos hi]; exact h n wait hr
  · next hi => rw [if_neg hi]; exact h.ready hj _ _ n wait hr

theorem StopsAtEmpty.readyC : StopsAtEmpty j ((j.f.c, j.f.x.wc) :: rs) (readyC >>= fun _ => rest) := h.ready hj _ _

end Waits

section Sources
variable {j : Job} {f : Form} (hj : j.Still) (hf : j.f = f) (ha : f.enc.a = .vs)
include hj hf ha

theorem stopsAtEmpty_a (hb : f.enc.b ≠ .vs) (hc : f.enc.c ≠ .vs) (rest : M Unit) :
    StopsAtEmpty j (sourcesOf f) (readyA >>= fun _ => rest) := by
  subst hf
  simpa [sourcesOf, ha, hb, hc] using (stopsAtEmpty_nil j rest).readyA hj

theorem stopsAtEmpty_ab (hb : f.enc.b = .vs) (hc : f.enc.c ≠ .vs) (rest : M Unit) :
    StopsAtEmpty j (sourcesOf f) (readyA >>= fun _ => readyB >>= fun _ => rest) := by
  subst hf
  simpa [sourcesOf, ha, hb, hc] using ((stopsAtEmpty_nil j rest).readyB hj).readyA hj

theorem stopsAtEmpty_abc (hb : f.enc.b = .vs) (hc : f.enc.c = .vs) (rest : M Unit) :
    StopsAtEmpty j (sourcesOf f) (readyA >>= fun _ => readyB >>= fun _ => readyC >>= fun _ => rest) := by
  subst hf
  simpa [sourcesOf, ha, hb, hc] using (((stopsAtEmpty_nil j rest).readyC hj).readyB hj).readyA hj

end Sources

/-- The comparisons and the instructions of the integer, floating-point and conversion tables wait for their sources before all else. -/
theorem compute_waits {i : Instr} {f : Form} (hi : computeForm i = some f) :
    ∃ body, (∀ s, exec i s = run f body s) ∧ ∀ j : Job, j.Still → j.f = f → StopsAtEmpty j (sourcesOf f) body := by
  cases i with
  -- one source; the second body has read the fields a step earlier
  | ineg o | inegX96 o | not o | notX96 o | popc o | popcX96 o | clz o | clzX96 o | brev o | brevX96 o | frcp o | frcpX96 o | frsq o
  | frsqX96 o | fsqrt o | fsqrtX96 o | fexp2 o | fexp2X96 o | flog2 o | flog2X96 o | fsin o | fsinX96 o | fcos o | fcosX96 o | ftanh o
  | ftanhX96 o | fclass o | fclassX96 o | cvt o | cvtX96 o =>
    cases hi
    exact ⟨_, fun _ => rfl, fun j hj hf => .form (stopsAtEmpty_a hj hf rfl nofun nofun _)⟩
  | iabs o | iabsX96 o | fneg o | fnegX96 o | fabs o | fabsX96 o =>
    cases hi
    exact ⟨_, fun _ => rfl, fun j hj hf => .form (.form (stopsAtEmpty_a hj hf rfl nofun nofun _))⟩
  -- two
  | and o | andX96 o | or o | orX96 o | xor o | xorX96 o | andn o | andnX96 o | shl o | shlX96 o | shr o | shrX96 o | sar o | sarX96 o
  | isel o | iselX96 o | fadd o | faddX96 o | fsub o | fsubX96 o | fmul o | fmulX96 o | fmin o | fminX96 o | fmax o | fmaxX96 o | fcmp o
  | fcmpX96 o | cvtd o | cvtdX96 o =>
    cases hi
    exact ⟨_, fun _ => rfl, fun j hj hf => .form (stopsAtEmpty_ab hj hf rfl rfl nofun _)⟩
  | iadd o | iaddX96 o | isub o | isubX96 o | imul o | imulX96 o | imulh o | imulhX96 o | imin o | iminX96 o | imax o | imaxX96 o | bfe o
  | bfeX96 o | icmp o | icmpX96 o =>
    cases hi
    exact ⟨_, fun _ => rfl, fun j hj hf => .form (.form (stopsAtEmpty_ab hj hf rfl rfl nofun _))⟩
  | cvtq o =>
    have hx : o.x1 = false ∧ Form.x96 Enc.cvtq' o = f := by simpa [computeForm, integerRule, floatRule, conversionRule] using hi
    obtain ⟨-, rfl⟩ := hx
    exact ⟨_, fun _ => rfl, fun j hj hf => .form (stopsAtEmpty_ab hj hf rfl rfl nofun _)⟩
  -- three
  | bfi o | ffma o | ffmaX96 o =>
    cases hi
    exact ⟨_, fun _ => rfl, fun j hj hf => .form (stopsAtEmpty_abc hj hf rfl rfl rfl _)⟩
  | imad o =>
    cases hi
    exact ⟨_, fun _ => rfl, fun j hj hf => .form (.form (stopsAtEmpty_abc hj hf rfl rfl rfl _))⟩
  | _ => cases hi

theorem compute_empty {i : Instr} {f : Form} (hi : computeForm i = some f) {s : State} {st : Strand} {e : Env} (hq : Quiet s st e f)
    {n : Nat} {wait : Bool} (hn : (sourcesOf f).find? (fun r => !(st.reg r.1).full) = some (n, wait)) :
    (wait = true → exec i s = .next (s.setStrand { st with state := .blocked (.reg n) })) ∧
    (wait = false → TakesTraps s st e → exec i s = .next (s.setStrand (st.trapped e 0x05 (BitVec.ofNat 32 n) (st.trapLanes f)))) := by
  obtain ⟨body, hx, hw⟩ := compute_waits hi
  have hstop := hw (jobOf s st e f) (quiet_still hq) rfl n wait hn
  rw [hx]
  refine ⟨?_, ?_⟩
  · rintro rfl
    exact run_blocked hq hstop
  · rintro rfl ht
    exact run_trapped hq ht hstop

/-! ### Masks of lanes -/

/-- Some lanes of a mask, as a mask, are those lanes. -/
theorem lanes_maskOf (m : Mask) (p : Nat → Bool) : (maskOf (m.lanes.filter p)).lanes = m.lanes.filter p := by
  simp only [Mask.lanes, List.filter_filter]
  apply List.filter_congr
  intro i hi
  have hi : i < 32 := by simpa using hi
  rw [Mask.has, maskOf, mask_of_has _ _ hi]
  simp [hi]

/-! ### Addresses (R217) -/

/-- The model adds in the integers and the statement in 64-bit words. -/
theorem globalAddr_eq (f : Form) (base : DWord) (x : Word) (scale : Nat) :
    globalAddr f base x scale =
      (base + (if f.x.x1 then x.setWidth 64 else x.signExtend 64) * BitVec.ofNat 64 scale + f.x.imm.signExtend 64).toNat := by
  have hx : (if f.x.x1 then x.setWidth 64 else x.signExtend 64) = BitVec.ofInt 64 (indexOf f x) := by
    unfold indexOf
    split
    · rw [BitVec.ofInt_natCast, BitVec.ofNat_toNat]
    · rfl
  have hi : f.x.imm.signExtend 64 = BitVec.ofInt 64 f.x.imm.toInt := rfl
  have hb : base = BitVec.ofInt 64 (base.toNat : Int) := by rw [BitVec.ofInt_natCast, BitVec.ofNat_toNat, BitVec.setWidth_eq]
  have hs : BitVec.ofNat 64 scale = BitVec.ofInt 64 (scale : Int) := (BitVec.ofInt_natCast ..).symm
  rw [hx, hi, hs, ← BitVec.ofInt_mul]
  conv_rhs => rw [hb, ← BitVec.ofInt_add, ← BitVec.ofInt_add]
  rw [BitVec.toNat_ofInt, globalAddr]
  rfl

/-- The lanes of M with their addresses are those of the statement. -/
theorem globalLanes_eq (st : Strand) (f : Form) (scale : Nat) :
    globalLanes f (vget st.b f.a 0) (st.valB f) (st.mask f.pred) scale =
      (st.mask f.pred).lanes.map fun i => (i, laneAddr st f scale i) := by
  apply List.map_congr_left
  intro i hi
  rw [globalAddr_eq, valB_at st f i ((mem_lanes _ _).mp hi).1]
  rfl

/-! ### The condition that decides (R196) -/

/-- The model's condition for a lane is that of the statement. -/
theorem laneCause_eq (s : State) (e : Env) (c : Ctx) (need : Need) (width span a : Nat) :
    laneCause c (s.leaseSet e) need width span a = firstMet s e c need width span a := by
  simp only [laneCause, firstMet, bne_iff_ne, pageOf, Bool.not_eq_true']
  rfl

/-- What the search of the statement finds is the least condition that holds. -/
theorem find_least {p : Nat → Bool} {k : Nat} (h : [1, 2, 3, 4, 5].find? p = some k) :
    1 ≤ k ∧ k ≤ 5 ∧ p k = true ∧ ∀ n, 1 ≤ n → n < k → p n = false := by
  have hm := List.mem_of_find?_eq_some h
  have hp := List.find?_some h
  obtain ⟨-, as, bs, heq, has⟩ := List.find?_eq_some_iff_append.mp h
  refine ⟨by simp at hm; omega, by simp at hm; omega, hp, fun n h1 hn => ?_⟩
  have hsorted : (as ++ k :: bs).Pairwise (· < ·) := heq ▸ by decide
  have hmem : n ∈ as ++ k :: bs := heq ▸ by simp at hm ⊢; omega
  rcases List.mem_append.mp hmem with h | h
  · simpa using has n h
  · have hk := (List.pairwise_append.mp hsorted).2.1
    rcases List.mem_cons.mp h with rfl | h
    · omega
    · exact absurd ((List.pairwise_cons.mp hk).1 n h) (by omega)

/-- One step of the search of checkAsks for the least cause. -/
def lesserCause {α : Type} (acc : Nat) (t : α × Nat) : Nat := if t.2 != 0 && (acc = 0 || t.2 < acc) then t.2 else acc

section LeastCause
variable {k acc : Nat} {α : Type} {t : α × Nat}

theorem lesserCause_ge (hacc : acc = 0 ∨ k ≤ acc) (ht : t.2 ≠ 0 → k ≤ t.2) : lesserCause acc t = 0 ∨ k ≤ lesserCause acc t := by
  simp only [lesserCause, Bool.and_eq_true, bne_iff_ne, Bool.or_eq_true, decide_eq_true_eq]
  split <;> omega

theorem lesserCause_eq (hk : 1 ≤ k) (hacc : acc = 0 ∨ k ≤ acc) (ht : t.2 ≠ 0 → k ≤ t.2) (h : acc = k ∨ t.2 = k) :
    lesserCause acc t = k := by
  simp only [lesserCause, Bool.and_eq_true, bne_iff_ne, Bool.or_eq_true, decide_eq_true_eq]
  split <;> omega

/-- The search finds the least cause that is not 0. -/
theorem foldl_lesserCause (hk : 1 ≤ k) : ∀ (l : List (α × Nat)) (acc : Nat), (∀ t ∈ l, t.2 ≠ 0 → k ≤ t.2) → (acc = 0 ∨ k ≤ acc) →
    (acc = k ∨ ∃ t ∈ l, t.2 = k) → l.foldl lesserCause acc = k
  | [], _, _, _, h => h.resolve_right (by simp)
  | t :: l, acc, hle, hacc, h => by
    have ht := hle t List.mem_cons_self
    have h : (acc = k ∨ t.2 = k) ∨ ∃ u ∈ l, u.2 = k := by simpa [or_assoc] using h
    exact foldl_lesserCause hk l _ (fun u hu => hle u (List.mem_cons_of_mem t hu)) (lesserCause_ge hacc ht)
      (h.imp_left (lesserCause_eq hk hacc ht))

end LeastCause

/-! ### The checks of an access (R196-R199) -/

/-- What an access stops with at condition `k` of R196, met by the lanes `m`. -/
def accessStop (st : Strand) (c : Ctx) (k : Nat) (m : Mask) (va : Nat) (detail : Word) : Stop :=
  if k = 5 then .group { code := 0x0F, detail := detail, lanes := m, va := va, ia := match c.translate va with | some t => t.2.2 | none => 0 }
  else .trap { cause := causeCode k, addr := st.pc, lanes := m, detail := detail, va := va }

/-- The number of the window that translates an address, 16 for none (R197). -/
def windowOf (c : Ctx) (va : Nat) : Nat := match c.translate va with | some t => t.1 | none => 16

/-- The condition of R196 that an access meets. -/
def Ask.cause (c : Ctx) (lease : List Nat) (width : Nat) (p : Ask) : Nat := laneCause c lease p.need width p.span p.va

/-- The checks find the least condition that an access meets, at the accesses that meet it. -/
theorem checkAsks_error {j : Job} {c : Ctx} {width k : Nat} {asks : List Ask} {low : Ask} {rest : List Ask}
    (hc : j.s.ctx? j.e.ctx = some c) (hw : j.s.windowMoves c.id = false) (hk : 1 ≤ k)
    (hbad : asks.filter (fun p => p.cause c (j.s.leaseSet j.e) width = k) = low :: rest)
    (hle : ∀ p ∈ asks, p.cause c (j.s.leaseSet j.e) width ≠ 0 → k ≤ p.cause c (j.s.leaseSet j.e) width) :
    checkAsks width asks none j =
      .error (accessStop j.st c k (maskOf ((low :: rest).map Ask.lane)) low.va
        (accessDetail (windowOf c low.va) (causeReason k) (maskOf ((low :: rest).map Ask.lane)).lowest)) j := by
  have hlow : low ∈ asks ∧ low.cause c (j.s.leaseSet j.e) width = k := by
    have hmem := List.mem_filter.mp (hbad ▸ List.mem_cons_self : low ∈ asks.filter _)
    exact ⟨hmem.1, of_decide_eq_true hmem.2⟩
  have hworst := foldl_lesserCause hk (asks.map fun p => (p, p.cause c (j.s.leaseSet j.e) width)) 0 (by simpa using hle) (.inl rfl)
    (.inr (by simpa using ⟨low, hlow⟩))
  unfold lesserCause at hworst
  unfold Ask.cause at hworst hbad
  have hk0 : k ≠ 0 := by omega
  simp only [checkAsks, m_bind, m_get, hc, hw, hworst, Bool.false_eq_true, if_false, hk0, List.filter_map, Function.comp_def, List.map_map, hbad,
    accessStop]
  split <;> rfl

/-- What a fault of an access consists of: the least condition `k` that a lane of M meets, the lanes that meet it, and the address of the lowest. -/
theorem accessFault_eq {s : State} {st : Strand} {e : Env} {c : Ctx} {f : Form} {need : Need} {width span scale k va : Nat} {m : Mask}
    {detail : Word} (h : accessFault s st e c f need width span scale = some (k, m, va, detail)) :
    1 ≤ k ∧ (∀ i ∈ (st.mask f.pred).lanes, firstMet s e c need width span (laneAddr st f scale i) ≠ 0 →
      k ≤ firstMet s e c need width span (laneAddr st f scale i)) ∧
    ∃ low rest, (st.mask f.pred).lanes.filter (fun i => firstMet s e c need width span (laneAddr st f scale i) = k) = low :: rest ∧
      m = maskOf (low :: rest) ∧ va = laneAddr st f scale low ∧ detail = accessDetail (windowOf c va) (causeReason k) low := by
  unfold accessFault at h
  dsimp only at h
  split at h
  · cases h
  · next k' hk =>
    simp only [Option.some.injEq, Prod.mk.injEq] at h
    obtain ⟨rfl, rfl, rfl, rfl⟩ := h
    obtain ⟨h1, h5, hany, hleast⟩ := find_least hk
    refine ⟨h1, fun i hi h0 => ?_, ?_⟩
    · by_contra hlt
      have := List.any_eq_false.mp (hleast _ (Nat.one_le_iff_ne_zero.mpr h0) (Nat.lt_of_not_le hlt)) i hi
      simp at this
    · obtain ⟨i, hi, hik⟩ := List.any_eq_true.mp hany
      have hne : (st.mask f.pred).lanes.filter (fun i => firstMet s e c need width span (laneAddr st f scale i) = k') ≠ [] :=
        List.ne_nil_of_mem (List.mem_filter.mpr ⟨hi, hik⟩)
      obtain ⟨low, rest, hbad⟩ := List.exists_cons_of_ne_nil hne
      have hreason : causeReason k' = if k' = 2 then 1 else if k' = 3 then 2 else if k' = 4 then 3 else 0 := by
        interval_cases k' <;> rfl
      refine ⟨low, rest, hbad, ?_⟩
      rw [Mask.lanes] at hbad
      simp only [Strand.srcs, hbad, hreason]
      exact ⟨rfl, rfl, rfl⟩

/-- The access of lane `i`. -/
def laneAsk (st : Strand) (f : Form) (need : Need) (span scale i : Nat) : Ask :=
  { lane := i, va := laneAddr st f scale i, span := span, need := need }

/-- The checks of an access stop with what the statement's tables give for it. -/
theorem checkGlobal_fault {j : Job} {c : Ctx} {need : Need} {width span scale k va : Nat} {m : Mask} {detail : Word}
    (hc : j.s.ctx? j.e.ctx = some c) (hw : j.s.windowMoves c.id = false)
    (hf : accessFault j.s j.st j.e c j.f need width span scale = some (k, m, va, detail)) :
    checkGlobal need width span (globalLanes j.f (vget j.st.b j.f.a 0) (j.st.valB j.f) (j.st.mask j.f.pred) scale) none j =
      .error (accessStop j.st c k m va detail) j := by
  obtain ⟨h1, hleast, low, rest, hbad, rfl, rfl, rfl⟩ := accessFault_eq hf
  have hlowest : (maskOf (low :: rest)).lowest = low := by rw [← hbad, Mask.lowest, lanes_maskOf, hbad]; rfl
  have hlanes : ((low :: rest).map (laneAsk j.st j.f need span scale)).map Ask.lane = low :: rest := by
    simp [Function.comp_def, laneAsk]
  have hcause : ∀ i, (laneAsk j.st j.f need span scale i).cause c (j.s.leaseSet j.e) width =
      firstMet j.s j.e c need width span (laneAddr j.st j.f scale i) := fun i => laneCause_eq ..
  have hasks : ((j.st.mask j.f.pred).lanes.map (laneAsk j.st j.f need span scale)).filter
      (fun p => p.cause c (j.s.leaseSet j.e) width = k) = (low :: rest).map (laneAsk j.st j.f need span scale) := by
    simp only [List.filter_map, Function.comp_def, hcause, hbad]
  have hstop := checkAsks_error hc hw h1 hasks (by simpa [hcause] using hleast)
  rw [← List.map_cons, hlanes, hlowest] at hstop
  rw [checkGlobal, globalLanes_eq, List.map_map]
  exact hstop

/-! ### Up to its checks, an access in calm changes nothing -/

/-- No window update of the context is under way, so translation does not wait (R206). -/
theorem windowMoves_eq_false {s : State} {ctx : Nat} (h : ∀ ch ∈ s.changes, ch.ctx = ctx → ∀ n w, ch.change ≠ .window n w) :
    s.windowMoves ctx = false := by
  refine List.any_eq_false.mpr fun ch hch => ?_
  rw [Bool.and_eq_true, beq_iff_eq]
  rintro ⟨hctx, hwin⟩
  split at hwin
  · next n w hcw => exact h ch hch hctx n w hcw
  · cases hwin

/-- The memory instructions take no charge (R468). -/
theorem charged_of_lt {op : Nat} (h : 0x4F < op) (s : State) (st : Strand) : s.charged st op = s := by simp [State.charged, h]

theorem forM_ok {j : Job} {act : Nat → M Unit} : ∀ {l : List Nat}, (∀ n ∈ l, act n j = .ok () j) → l.forM act j = .ok () j
  | [], _ => rfl
  | n :: l, h => by
    change (act n >>= fun _ => l.forM act) j = _
    rw [m_bind, h n List.mem_cons_self]
    exact forM_ok fun m hm => h m (List.mem_cons_of_mem n hm)

section Bodies
variable {s : State} {st : Strand} {e : Env} {f : Form}

theorem readyWaits_calm (h : Calm s st e f) {regs : List Nat} (hr : ∀ n ∈ regs, n ∈ f.vregs) :
    regs.forM readyWait (jobOf s st e f) = .ok () (jobOf s st e f) :=
  forM_ok fun n hn => ready_full n true ((plain_iff _).mp (h.plain n (hr n hn))).1

theorem readyRun_calm (h : Calm s st e f) {n count : Nat} {wait : Bool} (hr : ∀ i < count, n + i ∈ f.vregs) :
    readyRun n count wait (jobOf s st e f) = .ok () (jobOf s st e f) :=
  forM_ok fun i hi => ready_full _ wait ((plain_iff _).mp (h.plain _ (hr i (List.mem_range.mp hi)))).1

theorem vregs_memRun (hd : f.enc.d = .memRun) : ∀ n ∈ f.runRegs, n ∈ f.vregs := by
  simp +contextual [Form.vregs, Form.runRegs, hd, useVregs, Form.d]

theorem vregs_atomRun (hd : f.enc.d = .atomRun) : ∀ n ∈ f.atomRegs f.d, n ∈ f.vregs := by
  simp +contextual [Form.vregs, Form.atomRegs, hd, useVregs, Form.d]

theorem vregs_atomCRun {n : Nat} (hc : f.enc.c = .atomCRun n) : ∀ i < n * (if f.x.ty = .b64 then 2 else 1), f.c + i ∈ f.vregs := by
  intro i hi
  have hrun : i < if f.x.ty = .b64 then 2 * n else n := by split_ifs at hi ⊢ <;> omega
  have hmem : f.c + i ∈ useVregs f.enc.c f.x f.x.c.toNat := by simpa [hc, useVregs, Form.c] using hrun
  exact List.mem_eraseDups.mpr (List.mem_append_right _ hmem)

theorem jobOf_st (s : State) (st : Strand) (e : Env) (f : Form) : (jobOf s st e f).st = st := rfl

/-- The checks of an access of the lanes of M stop with `x`. -/
def CheckStops (s : State) (st : Strand) (e : Env) (f : Form) (need : Need) (width span scale : Nat) (x : Stop) : Prop :=
  checkGlobal need width span (globalLanes f (vget st.b f.a 0) (st.valB f) (st.mask f.pred) scale) none (jobOf s st e f) =
    .error x (jobOf s st e f)

theorem bind_ok {α β : Type} {act : M α} {g : α → M β} {a : α} {j j' : Job} (h : act j = .ok a j') : (act >>= g) j = g a j' := by
  rw [m_bind, h]

section Checked
variable {x : Stop} (h : Calm s st e f) (hm : st.mask f.pred ≠ 0) (hb : f.enc.b = .vs)
include h hm hb

/-- What a body does once its other sources are ready: it goes to the checks. -/
theorem checked_stops {need : Need} {width span scale : Nat} (hx : CheckStops s st e f need width span scale x)
    (rest : Mask → Val → List Piece → M Unit) :
    (effMask >>= fun m => if m = 0 then pure () else srcB >>= fun idx => getB f.a >>= fun base =>
      checkGlobal need width span (globalLanes f base idx m scale) >>= rest m idx) (jobOf s st e f) = .error x (jobOf s st e f) := by
  unfold CheckStops at hx
  simp only [m_bind, effMask_quiet h.toQuiet, m_ite, if_neg hm, srcB_calm h hb, getB_still (quiet_still h.toQuiet), jobOf_st, hx]

theorem ldBody_stops (hx : CheckStops s st e f .read (tyWidth f.x.ty) (tyWidth f.x.ty * f.x.count) (scaleOf f) x) :
    ldBody (jobOf s st e f) = .error x (jobOf s st e f) :=
  (bind_ok (m_form _)).trans <| (bind_ok (readyB_calm h hb)).trans <| checked_stops h hm hb hx _

theorem stBody_stops (hd : f.enc.d = .memRun)
    (hx : CheckStops s st e f .write (tyWidth f.x.ty) (tyWidth f.x.ty * f.x.count) (scaleOf f) x) :
    stBody (jobOf s st e f) = .error x (jobOf s st e f) :=
  (bind_ok (m_form _)).trans <| (bind_ok (readyB_calm h hb)).trans <| (bind_ok (readyWaits_calm h (vregs_memRun hd))).trans <|
    checked_stops h hm hb hx _

theorem prefBody_stops (hx : CheckStops s st e f (if f.x.func = 2 then .write else .read) (if f.x.func = 2 then 128 else 1)
      (if f.x.func = 2 then 128 else 1) 1 x) :
    prefBody (jobOf s st e f) = .error x (jobOf s st e f) :=
  (bind_ok (m_form _)).trans <| (bind_ok (readyB_calm h hb)).trans <| checked_stops h hm hb hx _

theorem cwbBody_stops (hx : CheckStops s st e f .read 1 1 1 x) : cwbBody (jobOf s st e f) = .error x (jobOf s st e f) :=
  (bind_ok (m_form _)).trans <| (bind_ok (readyB_calm h hb)).trans <| checked_stops h hm hb hx _

theorem atomBody_stops {n : Nat} (hc : f.enc.c = .atomCRun n) (hx : CheckStops s st e f .atomic f.atomWidth f.atomWidth 1 x)
    (kind : X96 → AccKind) : atomBody kind n (jobOf s st e f) = .error x (jobOf s st e f) :=
  (bind_ok (m_form _)).trans <| (bind_ok (readyB_calm h hb)).trans <| (bind_ok (readyRun_calm h (vregs_atomCRun hc))).trans <|
    checked_stops h hm hb hx _

theorem redBody_stops (hd : f.enc.d = .atomRun) (hx : CheckStops s st e f .write f.atomWidth f.atomWidth 1 x) :
    redBody (jobOf s st e f) = .error x (jobOf s st e f) :=
  (bind_ok (m_form _)).trans <| (bind_ok (readyB_calm h hb)).trans <| (bind_ok (readyWaits_calm h (vregs_atomRun hd))).trans <|
    checked_stops h hm hb hx _

end Checked
end Bodies

/-! ### The instructions (R196-R199) -/

theorem tyWidth_eq (t : Ty) : tyWidth t = if t = .b64 then 8 else if t = .f16 ∨ t = .bf16 then 2 else 4 := by
  cases t <;> rfl

theorem prefs_eq (f : Form) : laneAccess.prefs f = some (f, if f.x.func = 2 then .write else .read, if f.x.func = 2 then 128 else 1,
    if f.x.func = 2 then 128 else 1, 1) := by
  unfold laneAccess.prefs
  split <;> rfl

/-- An instruction that accesses global memory lane by lane stops where its checks do. -/
theorem laneAccess_stops {i : Instr} {f : Form} {need : Need} {width span scale : Nat} (hi : laneAccess i = some (f, need, width, span, scale)) :
    0x4F < f.enc.op ∧ ∃ body, (∀ s, exec i s = run f body s) ∧
      ∀ {s st e} (x : Stop), Calm s st e f → st.mask f.pred ≠ 0 → CheckStops s st e f need width span scale x →
        body (jobOf s st e f) = .error x (jobOf s st e f) := by
  cases i with
  | ld o | ldX96 o =>
    simp only [laneAccess, laneAccess.runs, ← tyWidth_eq] at hi
    cases hi
    exact ⟨of_decide_eq_true rfl, _, fun _ => rfl, fun _ h hm hx => ldBody_stops h hm rfl hx⟩
  | st o | stX96 o =>
    simp only [laneAccess, laneAccess.runs, ← tyWidth_eq] at hi
    cases hi
    exact ⟨of_decide_eq_true rfl, _, fun _ => rfl, fun _ h hm hx => stBody_stops h hm rfl rfl hx⟩
  | pref o | prefX96 o =>
    simp only [laneAccess, prefs_eq] at hi
    cases hi
    exact ⟨of_decide_eq_true rfl, _, fun _ => rfl, fun _ h hm hx => prefBody_stops h hm rfl hx⟩
  | cwb o | cwbX96 o =>
    cases hi
    exact ⟨of_decide_eq_true rfl, _, fun _ => rfl, fun _ h hm hx => cwbBody_stops h hm rfl hx⟩
  | atom o =>
    cases hi
    exact ⟨of_decide_eq_true rfl, _, fun _ => rfl, fun _ h hm hx => atomBody_stops h hm rfl rfl hx _⟩
  | acas o =>
    cases hi
    exact ⟨of_decide_eq_true rfl, _, fun _ => rfl, fun _ h hm hx => atomBody_stops h hm rfl rfl hx _⟩
  | red o | redX96 o =>
    cases hi
    exact ⟨of_decide_eq_true rfl, _, fun _ => rfl, fun _ h hm hx => redBody_stops h hm rfl rfl hx⟩
  | _ => cases hi

theorem causeCode_eq {k : Nat} (h1 : 1 ≤ k) (h5 : k < 5) : causeCode k = if k = 1 then 0x0C else if k = 4 then 0x0E else 0x0D := by
  interval_cases k <;> rfl

theorem accessStop_trap {st : Strand} {c : Ctx} {k va : Nat} {m : Mask} {detail : Word} (h : k < 5) :
    accessStop st c k m va detail = .trap { cause := causeCode k, addr := st.pc, lanes := m, detail := detail, va := va } :=
  if_neg (by omega)

theorem accessStop_group {st : Strand} {c : Ctx} {va n ia : Nat} {w : Window} {m : Mask} {detail : Word} (h : c.translate va = some (n, w, ia)) :
    accessStop st c 5 m va detail = .group { code := 0x0F, detail := detail, lanes := m, va := va, ia := ia } := by
  simp [accessStop, h]

/-- A lane that breaks a rule of R196 traps, or faults the group for LEASE. -/
theorem laneAccess_faults {i : Instr} {f : Form} {need : Need} {width span scale : Nat}
    (hi : laneAccess i = some (f, need, width, span, scale)) {s : State} {st : Strand} {e : Env} {c : Ctx} {k va : Nat} {m : Mask} {detail : Word}
    (hcalm : Calm s st e f) (hc : s.ctx? e.ctx = some c) (hw : ∀ ch ∈ s.changes, ch.ctx = c.id → ∀ n w, ch.change ≠ .window n w)
    (hf : accessFault s st e c f need width span scale = some (k, m, va, detail)) :
    (k < 5 → TakesTraps s st e → exec i s = .next (s.setStrand (st.trapped e (if k = 1 then 0x0C else if k = 4 then 0x0E else 0x0D) detail m va))) ∧
    (k = 5 → ∀ n w ia, c.translate va = some (n, w, ia) → exec i s = .next (s.groupFault st 2 0x0F st.pc.toNat m detail va ia)) := by
  obtain ⟨hop, body, hx, hbody⟩ := laneAccess_stops hi
  obtain ⟨h1, -, low, rest, hbad, -⟩ := accessFault_eq hf
  have hm : st.mask f.pred ≠ 0 := by
    intro h0
    rw [h0] at hbad
    simp [Mask.lanes] at hbad
  have hs : (jobOf s st e f).s = s := charged_of_lt hop s st
  have hstop : body (jobOf s st e f) = .error (accessStop st c k m va detail) (jobOf s st e f) :=
    hbody _ hcalm hm (checkGlobal_fault (j := jobOf s st e f) (by rwa [hs]) (by rw [hs]; exact windowMoves_eq_false hw) (by rwa [hs]))
  rw [hx]
  refine ⟨fun hk ht => ?_, ?_⟩
  · rw [accessStop_trap hk] at hstop
    rw [← causeCode_eq h1 hk]
    have hcause : causeCode k < 0x20 := by interval_cases k <;> decide
    exact run_trapped hcalm.toQuiet ht hstop (by omega) (by omega) (by omega)
  · rintro rfl n w ia hia
    rw [accessStop_group hia] at hstop
    have hrun := run_groupFault hcalm.toQuiet hstop (by simp)
    exact hrun

/-- Settles O17. Every body concerned stops before it changes anything, and what it stops with becomes the trap state, the wait or the group fault:
TRAP by its own body; a computing instruction at the first empty source in the order in which it waits for them; an access at the least condition
of R196, which the search of its checks finds. -/
theorem trapsAreTaken : Obligations.TrapsAreTaken := by
  unfold Obligations.TrapsAreTaken
  exact ⟨fun _ _ _ _ hi _ _ _ hq ht hm => trapRule_trapped hi hq ht hm, fun _ _ hi _ _ _ _ _ hq hn => compute_empty hi hq hn,
    fun _ _ _ _ _ _ hi _ _ _ _ _ _ _ _ h hc hw hf => laneAccess_faults hi h hc hw hf⟩

end Sys2Proof.Machine
end

section
/-!
PROOF. Words that are no instruction, and encodings that are not legal, take their traps (O18, O19).
-/

namespace Sys2Proof.Machine

/-! ### A trap before the body (R57, R181) -/

theorem noteUse_noCont {j : Job} (h : j.st.cont = none) (r : RegId) : noteUse r j = .ok () j := by
  simp [noteUse, h]

/-- A precise trap of a strand that is no continuation changes nothing of the job, and names the lanes of M, or the path mask where M is empty
(R181). -/
theorem trapM_noCont {α : Type} {j : Job} (h : j.st.cont = none) (cause : Nat) (detail : Word) (va : Nat) :
    (trapM cause detail va : M α) j =
      .error (.trap { cause := cause, addr := j.st.pc, lanes := j.st.trapLanes j.f, detail := detail, va := va }) j := by
  simp only [trapM, m_bind, m_get, m_ite, noteUse_noCont h, ite_self]
  rfl

/-- The first condition of R57: of an encoding that is not legal, or that its unit does not have, nothing else is looked at. -/
theorem prelude_illegal {j : Job} (hc : j.st.cont = none)
    (hbad : j.f.enc.legal j.f.x = false ∨ j.f.litOk = false ∨ j.f.foreign j.st.tile = true) :
    prelude j = .error (.trap { cause := 0x01, addr := j.st.pc, lanes := j.st.trapLanes j.f, detail := j.f.word, va := 0 }) j := by
  have hill : (!(j.f.enc.legal j.f.x && j.f.litOk) || j.f.foreign j.st.tile) = true := by
    rcases hbad with h | h | h <;> simp [h]
  simp only [prelude, m_bind, m_get, m_ite, hill, if_true, illegal, trapM_noCont hc]

/-- An evaluation of a strand that may take a trap, which stops with one of another cause than POISON, SHADOW and MAP before it changes anything. -/
theorem runM_trapped {s : State} {st : Strand} {e : Env} (ht : TakesTraps s st e) {f : Form} {act : M Unit} {cause : Nat} {detail : Word}
    (hact : ∀ j : Job, j.st = st → j.f = f →
      act j = .error (.trap { cause := cause, addr := st.pc, lanes := st.trapLanes f, detail := detail, va := 0 }) j)
    (h20 : cause ≠ 0x20 := by decide) (h21 : cause ≠ 0x21 := by decide) (h22 : cause ≠ 0x22 := by decide) :
    runM f act s = .next (s.setStrand (st.trapped e cause detail (st.trapLanes f))) := by
  have hready : ({ st with state := SState.ready } : Strand) = st := by rw [← ht.ready]
  have hissue : st.mayIssue = true := by simpa [Strand.mayIssue, ht.ready] using ht.live
  simp only [runM, ht.cur, ht.env, hissue, Bool.not_true, Bool.false_eq_true, if_false, hready]
  rw [hact _ rfl rfl]
  simp only [settle, readBy_noCont ht.noCont]
  exact congrArg _ (raise_takesTraps ht _ h20 h21 h22)

/-! ### Words that are no instruction (R56) -/

theorem runM_trapM {s : State} {st : Strand} {e : Env} (ht : TakesTraps s st e) (f : Form) (cause : Nat) (detail : Word)
    (h20 : cause ≠ 0x20 := by decide) (h21 : cause ≠ 0x21 := by decide) (h22 : cause ≠ 0x22 := by decide) :
    runM f (trapM cause detail) s = .next (s.setStrand (st.trapped e cause detail (st.trapLanes f))) := by
  refine runM_trapped ht (fun j hst hf => ?_) h20 h21 h22
  subst hst hf
  exact trapM_noCont ht.noCont cause detail 0

/-- Settles O18: the meaning of either kind of word is its trap. -/
theorem badWordsTrap : Obligations.BadWordsTrap := by
  unfold Obligations.BadWordsTrap
  intro i w c hi s st e ht
  cases i with
  | udf _ | nonInstruction _ =>
    cases hi
    exact runM_trapM ht _ _ _
  | _ => cases hi

/-! ### Encodings that are not legal (R45-R49, R57, R395) -/

/-- The meaning of every instruction is a body of its own behind the conditions of R57. -/
theorem exec_eq_run {i : Instr} {f : Form} (hi : formOf i = some f) : ∃ body, ∀ s, exec i s = run f body s := by
  cases i
  -- an event, and a word that is no instruction, has no form
  all_goals cases hi
  all_goals exact ⟨_, fun _ => rfl⟩

/-- Settles O19: the conditions of R57 stand before the body of every instruction, and this is the first of them. -/
theorem illegalEncodingTraps : Obligations.IllegalEncodingTraps := by
  unfold Obligations.IllegalEncodingTraps
  intro i f hi s st e ht hbad
  obtain ⟨body, hbody⟩ := exec_eq_run hi
  rw [hbody, run]
  refine runM_trapped ht fun j hst hf => ?_
  subst hst hf
  rw [m_bind, prelude_illegal ht.noCont hbad]

end Sys2Proof.Machine
end

section
/-!
PROOF. A step of a strand runs what its fetch decodes (O57).
-/

namespace Sys2Proof

/-! ### Words of bytes, and the words that a form takes (R34) -/

theorem toNat_append_byte {n : Nat} (x : BitVec n) (b : Byte) : (x ++ b).toNat = 256 * x.toNat + b.toNat := by
  rw [BitVec.toNat_append, ← Nat.shiftLeft_add_eq_or_of_lt b.isLt, Nat.shiftLeft_eq, Nat.mul_comm]

theorem ofNat_natLE_four (a b c d : Byte) : BitVec.ofNat 32 (natLE [a, b, c, d]) = d ++ c ++ b ++ a := by
  apply BitVec.eq_of_toNat_eq
  simp only [natLE, BitVec.toNat_ofNat, toNat_append_byte]
  omega

theorem wordsOfLen_pos (n : Nat) : 0 < wordsOfLen n := by
  unfold wordsOfLen
  split <;> decide

theorem wordsOfLen_le (n : Nat) : wordsOfLen n ≤ 5 := by
  unfold wordsOfLen
  split <;> decide

/-- The decoder looks at no word behind those of the form. -/
theorem decode_take (ws : List Word) : decode (ws.take (wordsOfLen (lenOf (ws.headD 0)))) = decode ws := by
  cases ws with
  | nil => rfl
  | cons w rest =>
    have hlen : lenOf w < 4 := (w.extractLsb' 0 2).isLt
    rw [List.headD_cons]
    generalize hl : lenOf w = l at hlen
    match l, rest with
    | 0, _ | 1, [] | 1, [_] | 1, _ :: _ :: _ | 2, [] | 2, [_] | 2, _ :: _ :: _ | 3, [] | 3, [_] | 3, [_, _] | 3, [_, _, _]
    | 3, _ :: _ :: _ :: _ :: _ => simp [decode, hl, wordsOfLen]

namespace Machine

/-- The word that memory holds at place `k` from an IA on. -/
def memWord (m : Memory) (ia k : Nat) : Word := BitVec.ofNat 32 (natLE (m.getList (ia + 4 * k) 4))

theorem getList_succ (m : Memory) (ia n : Nat) : m.getList ia (n + 1) = m.get ia :: m.getList (ia + 1) n := by
  simp [Memory.getList, List.range_succ_eq_map, Nat.add_assoc, Nat.add_comm 1]

theorem wordsOfBytes_getList (m : Memory) (ia n : Nat) : wordsOfBytes (m.getList ia (4 * n)) = (List.range n).map (memWord m ia) := by
  induction n generalizing ia with
  | zero => rfl
  | succ n ih =>
    have hrest : ∀ k, memWord m (ia + 4) k = memWord m ia (k + 1) := fun k => by
      rw [memWord, memWord, show ia + 4 + 4 * k = ia + 4 * (k + 1) by omega]
    rw [show 4 * (n + 1) = 4 * n + 1 + 1 + 1 + 1 by omega]
    simp only [getList_succ, wordsOfBytes]
    rw [ih (ia + 4), List.range_succ_eq_map, List.map_cons, List.map_map]
    congr 1
    · rw [← ofNat_natLE_four]
      rfl
    · exact List.map_congr_left fun k _ => hrest k

/-! ### The fetch (R50, R196, R211) -/

/-- A core takes a line into its instruction cache: it is there, and nothing but the instruction caches has changed. -/
theorem icFill_spec (s : State) (core line : Nat) :
    { core := core, line := line } ∈ (s.icFill core line).icache ∧ s.icFill core line = { s with icache := (s.icFill core line).icache } := by
  unfold State.icFill
  dsimp only
  split
  · next h => exact ⟨by simpa using h, rfl⟩
  · exact ⟨List.mem_cons_self, rfl⟩

/-- The words of the form at an IA are the first of those that memory holds there. -/
theorem codeWords_eq {s : State} {ia : Nat} (hhome : ∀ k, k < 20 → homeOf (ia + k) < 4 ∧ s.inMapPage (ia + k) = false) :
    s.codeWords ia = (wordsAt s ia).take (wordsOfLen (lenOf ((wordsAt s ia).headD 0))) := by
  have hbyte : ∀ k, k < 20 → s.homeByte false (ia + k) = s.mem.get (ia + k) := fun k hk => by
    obtain ⟨hlt, hmap⟩ := hhome k hk
    simp [State.homeByte, hmap, hlt.ne]
  have hword : ∀ k, k < 5 → BitVec.ofNat 32 (natLE ((List.range 4).map fun i => s.homeByte false (ia + 4 * k + i))) = memWord s.mem ia k :=
    fun k hk => by
      rw [memWord, Memory.getList]
      congr 2
      refine List.map_congr_left fun i hi => ?_
      rw [Nat.add_assoc]
      exact hbyte _ (by have := List.mem_range.mp hi; omega)
  have hat : wordsAt s ia = (List.range 5).map (memWord s.mem ia) := wordsOfBytes_getList s.mem ia 5
  have hhead : ((List.range 5).map (memWord s.mem ia)).headD 0 = memWord s.mem ia 0 := rfl
  have hle := wordsOfLen_le (lenOf (memWord s.mem ia 0))
  unfold State.codeWords
  dsimp only
  rw [hat, hhead, hword 0 (by omega), ← List.map_take, List.take_range, Nat.min_eq_left hle]
  exact List.map_congr_left fun k hk => hword k (by have := List.mem_range.mp hk; omega)

theorem decode_codeWords {s : State} {ia : Nat} (hhome : ∀ k, k < 20 → homeOf (ia + k) < 4 ∧ s.inMapPage (ia + k) = false) :
    decode (s.codeWords ia) = decode (wordsAt s ia) := by
  rw [codeWords_eq hhome, decode_take]

theorem headD_codeWords {s : State} {ia : Nat} (hhome : ∀ k, k < 20 → homeOf (ia + k) < 4 ∧ s.inMapPage (ia + k) = false) :
    (s.codeWords ia).headD 0 = (wordsAt s ia).headD 0 := by
  rw [codeWords_eq hhome, List.headD_eq_head?_getD, List.headD_eq_head?_getD, List.head?_take, if_neg (wordsOfLen_pos _).ne']

theorem length_codeWords {s : State} {ia : Nat} (hhome : ∀ k, k < 20 → homeOf (ia + k) < 4 ∧ s.inMapPage (ia + k) = false) :
    4 * (s.codeWords ia).length = formBytes ((wordsAt s ia).headD 0) := by
  have hat : (wordsAt s ia).length = 5 := by simp [wordsAt, wordsOfBytes_getList s.mem ia 5]
  rw [codeWords_eq hhome, List.length_take, hat, Nat.min_eq_left (wordsOfLen_le _), formBytes]

theorem windowsStill_eq (s : State) (c : Ctx) : windowsStill s c = !s.windowMoves c.id := rfl

/-- What a fetch needs of the memory path: the window grants X and holds still, and its page is there (R50, R196, R202, R206). -/
theorem fetch_ready {s : State} {st : Strand} {e : Env} {c : Ctx} {n ia : Nat} {w : Window} (hc : s.ctx? e.ctx = some c)
    (hstill : windowsStill s c = true) (hplace : c.translate st.pc.toNat = some (n, w, ia)) (hx : w.x = true)
    (hpage : s.pageReady (pageOf ia) = true) :
    s.fetch st e = if 64 < st.pc.toNat % 64 + 4 * (s.codeWords ia).length then
        (s, .trap { cause := 0x04, addr := st.pc, lanes := st.path, detail := 0 })
      else (s.icFill st.agentCore (lineOf ia), .words (s.codeWords ia)) := by
  have hmoves : s.windowMoves c.id = false := (Bool.not_eq_true' _).mp ((windowsStill_eq s c).symm.trans hstill)
  have htouch : s.touch (pageOf ia) c.conf w.prefhost = s := by simp [State.touch, hpage]
  simp only [State.fetch, hc, hmoves, hplace, hx, htouch, hpage, Bool.not_true, Bool.false_eq_true, if_false, if_true]

/-! ### The move -/

/-- The state in which a strand fetches, where its team is not being pre-empted and the detector is off: its place in the order of R323 is new. -/
def fetchAt (s : State) (st : Strand) : State :=
  { (s.setStrand { st with lastIssue := s.freshId }) with cur := st.id, freshId := s.freshId + 1 }

theorem issuing_eq_fetchAt {s : State} {st : Strand} {e : Env} (hd : e.debug = false) : s.issuing st e false = fetchAt s st := by
  simp [State.issuing, fetchAt, hd]

theorem strand_fetchAt {s : State} {st : Strand} (h : s.strand? st.id = some st) :
    (fetchAt s st).strand? st.id = some { st with lastIssue := s.freshId } :=
  strand_setStrand s { st with lastIssue := s.freshId } (by simp [h])

/-- The agenda has no part in whether a strand may fetch. -/
theorem Fetching.withAgenda {s : State} {st : Strand} {e : Env} {g : Group} {c : Ctx} {ia : Nat} {w : Window} (h : Fetching s st e g c ia w)
    (rest : List Move) : Fetching { s with agenda := rest } st e g c ia w :=
  ⟨h.strand, h.env, h.group, h.ctx, h.live, h.ready, h.running, h.noMap, h.place, h.exec, h.page, h.still, h.noDetector, h.home⟩

section
variable {s : State} {st : Strand} {e : Env} {g : Group} {c : Ctx} {ia : Nat} {w : Window} (h : Fetching s st e g c ia w)
include h

theorem Fetching.mayIssue : st.mayIssue = true := by
  simpa [Strand.mayIssue, h.ready] using h.live

/-- What a strand that may issue fetches is its next instruction. -/
theorem nextInstr_of_words {t : State} {ws : List Word} (hfetch : (fetchAt s st).fetch st e = (t, .words ws)) :
    s.nextInstr st.id = (t, some ((decode ws).getD (.nonInstruction (ws.headD 0)))) := by
  simp only [State.nextInstr, h.strand, h.env, h.group, h.mayIssue, h.running, h.noMap, issuing_eq_fetchAt h.noDetector, hfetch, Bool.not_true,
    Bool.false_and, Bool.false_eq_true, if_false]

/-- A trap of its fetch is raised as the strand's. -/
theorem nextInstr_of_trap {t : State} {x : TrapInfo} {st' : Strand} (hfetch : (fetchAt s st).fetch st e = (t, .trap x))
    (hfound : t.strand? st.id = some st') : s.nextInstr st.id = (t.raise st' x, none) := by
  simp only [State.nextInstr, h.strand, h.env, h.group, h.mayIssue, h.running, h.noMap, issuing_eq_fetchAt h.noDetector, hfetch, hfound,
    Option.elim_some, Bool.not_true, Bool.false_and, Bool.false_eq_true, if_false]

theorem fetch_fetchAt :
    (fetchAt s st).fetch st e = if 64 < st.pc.toNat % 64 + formBytes ((wordsAt s ia).headD 0) then
        (fetchAt s st, .trap { cause := 0x04, addr := st.pc, lanes := st.path, detail := 0 })
      else ((fetchAt s st).icFill st.agentCore (lineOf ia), .words ((fetchAt s st).codeWords ia)) := by
  obtain ⟨n, hplace⟩ := h.place
  rw [fetch_ready (s := fetchAt s st) h.ctx h.still hplace h.exec h.page, length_codeWords (s := fetchAt s st) h.home]
  rfl

/-- A form within one fetch block is decoded (R50, R56). -/
theorem nextInstr_fits (hfit : st.pc.toNat % 64 + formBytes ((wordsAt s ia).headD 0) ≤ 64) :
    s.nextInstr st.id = ((fetchAt s st).icFill st.agentCore (lineOf ia),
      some ((decode (wordsAt s ia)).getD (.nonInstruction ((wordsAt s ia).headD 0)))) := by
  rw [nextInstr_of_words h ((fetch_fetchAt h).trans (if_neg (by omega))), decode_codeWords (s := fetchAt s st) h.home,
    headD_codeWords (s := fetchAt s st) h.home]
  rfl

/-- A form that leaves its fetch block traps (R181). -/
theorem nextInstr_straddles (hcross : 64 < st.pc.toNat % 64 + formBytes ((wordsAt s ia).headD 0)) :
    s.nextInstr st.id = ((fetchAt s st).raise { st with lastIssue := s.freshId }
      { cause := 0x04, addr := st.pc, lanes := st.path, detail := 0 }, none) :=
  nextInstr_of_trap h ((fetch_fetchAt h).trans (if_pos hcross)) (strand_fetchAt h.strand)

end

/-- Settles O57: the move of the agenda is the strand's issue, and that is its fetch. -/
theorem stepsRunTheDecodedInstruction : Obligations.StepsRunTheDecodedInstruction := by
  unfold Obligations.StepsRunTheDecodedInstruction
  intro s rest st e g c ia w hagenda hf u v
  have hstep : step s = State.issueMove { s with agenda := rest } st.id := by rw [step, hagenda]; rfl
  have hf' := hf.withAgenda rest
  refine ⟨fun hfit => ⟨?_, icFill_spec u st.agentCore (lineOf ia)⟩, fun hcross => ?_⟩
  · rw [hstep, State.issueMove, nextInstr_fits hf' hfit]
    rfl
  · rw [hstep, State.issueMove, nextInstr_straddles hf' hcross]
    rfl

end Machine
end Sys2Proof
end

section
/-!
PROOF. Shapes read and asserted, and b registers (R117, R118, R122): what each body comes to in calm, and where it traps (O6, O8, O9, O10, O21, O22).
-/

namespace Sys2Proof.Machine

/-! ### An instruction that completes -/

/-- An instruction whose body replaces the strand, and at most uses up numbers of new objects. -/
theorem run_done {s : State} {st : Strand} {e : Env} {f : Form} (h : Quiet s st e f) {body : M Unit} (st' : Strand) (k : Nat)
    (hb : body (jobOf s st e f) = .ok () ((jobOf s st e f).put st' k)) (hl : st'.live ≠ 0) (hc : st'.core = st.core) :
    ∃ t, run f body s = .next t ∧ OnlyStrand s t { st' with pc := st'.pc + BitVec.ofNat 64 f.size } :=
  ⟨_, by rw [run_quiet h, hb]; rfl, settle_ok h st' k false hl hc⟩

/-- An instruction whose body changes nothing. -/
theorem run_past {s : State} {st : Strand} {e : Env} {f : Form} (h : Quiet s st e f) {body : M Unit}
    (hb : body (jobOf s st e f) = .ok () (jobOf s st e f)) : ∃ t, run f body s = .next t ∧ OnlyStrand s t (st.past f) :=
  run_done h st (jobOf s st e f).s.freshId hb h.live rfl

/-- An instruction that writes one v register, which is plain, whatever other registers it names are. -/
theorem write_quiet {s : State} {st : Strand} {e : Env} {f : Form} (h : Quiet s st e f) {body : M Unit} {n : Nat} {t : Val} (hn : n < 64)
    (hp : (st.reg n).plain = true) (hroom : st.slabIds.length + 8 ≤ e.floor st) (hr : st.srAfter f = st.sr)
    (hb : body (jobOf s st e f) = writeV n t (st.mask f.pred) (jobOf s st e f)) :
    ∃ u st', run f body s = .next u ∧ OnlyStrand s u st' ∧ Writes st st' f [(n, t.at)] := by
  obtain ⟨r, o, k, hw, hpl, h0, -, hl⟩ :=
    writeV_plain (quiet_still h) n t (st.mask f.pred) hn hp (show st.slabIds.length < e.floor st by omega)
  obtain ⟨u, hu, hs⟩ := run_done h { st.setReg n r with order := o } k (hb.trans hw) h.live rfl
  exact ⟨u, _, hu, hs, writes_one hn hpl hr h0 hl⟩

/-! ### Shapes (R117, R118) -/

theorem shapeRule_full {r : VReg} (h : r.full = true) : shapeRule r = r.shape.code := by
  simp only [shapeRule, h, if_true]
  cases r.shape <;> rfl

theorem shapeRule_eq (r : VReg) : shapeRule r = if r.full then r.shape.code else 3 := by
  split
  · next h => exact shapeRule_full h
  · next h => simp [shapeRule, h]

/-- SHAPEA whose assertion M leaves open, or the shape of v[A] meets. -/
theorem shapeaBody_holds {s : State} {st : Strand} {e : Env} {f : Form} (h : Calm s st e f) (ha : f.enc.a = .vs)
    (hok : st.mask f.pred = 0 ∨ f.x.w0.b.getLsbD (shapeRule (st.reg f.a)) = true) :
    shapeaBody (jobOf s st e f) = .ok () (jobOf s st e f) := by
  have hfull := ((plain_iff _).mp (h.plain _ (vregs_a ha))).1
  rw [shapeRule_full hfull] at hok
  have hcond : (st.mask f.pred != 0 && !f.x.w0.b.getLsbD (st.reg f.a).shape.code) = false := by
    rcases hok with h | h <;> simp [h]
  simp only [shapeaBody, m_bind, m_form, readyA_calm h ha, effMask_quiet h.toQuiet, noteRead_still (quiet_still h.toQuiet), m_get]
  exact congrFun (if_neg (Bool.eq_false_iff.mp hcond)) _

theorem shapeaBody_fails {s : State} {st : Strand} {e : Env} {f : Form} (h : Calm s st e f) (ha : f.enc.a = .vs)
    (hm : st.mask f.pred ≠ 0) (hbad : f.x.w0.b.getLsbD (shapeRule (st.reg f.a)) = false) :
    shapeaBody (jobOf s st e f) =
      .error (.trap { cause := 0x06, addr := st.pc, lanes := st.mask f.pred
                      detail := BitVec.ofNat 32 (f.a + 256 * shapeRule (st.reg f.a) + 65536 * f.b), va := 0 }) (jobOf s st e f) := by
  have hfull := ((plain_iff _).mp (h.plain _ (vregs_a ha))).1
  rw [shapeRule_full hfull] at hbad ⊢
  have hcond : (st.mask f.pred != 0 && !f.x.w0.b.getLsbD (st.reg f.a).shape.code) = true := by
    rw [hbad, bne_iff_ne.mpr hm]
    rfl
  have hlanes : st.trapLanes f = st.mask f.pred := if_neg hm
  simp only [shapeaBody, m_bind, m_form, readyA_calm h ha, effMask_quiet h.toQuiet, noteRead_still (quiet_still h.toQuiet), m_get]
  refine (congrFun (if_pos hcond) _).trans ?_
  rw [trapM_still (quiet_still h.toQuiet), ← hlanes]
  rfl

/-- Settles O10: NOP reads its predicate and SHAPEA the shape of v[A], and neither does anything else. -/
theorem noEffect : Obligations.NoEffect := by
  unfold Obligations.NoEffect
  rintro i f s st e (⟨hi, h⟩ | ⟨hi, h, hok⟩)
  · have hb : nopBody (jobOf s st e f) = .ok () (jobOf s st e f) := by
      simp only [nopBody, m_bind, effMask_quiet h, m_pure]
    cases i with
    | nop o | nopX96 o => cases hi; exact run_past h hb
    | _ => cases hi
  · cases i with
    | shapea o | shapeaX96 o => cases hi; exact run_past h.toQuiet (shapeaBody_holds h rfl hok)
    | _ => cases hi

/-- Settles O22: SHAPEA looks at the shape of v[A], which is full, and traps before anything has changed. -/
theorem shapeAssertTraps : Obligations.ShapeAssertTraps := by
  unfold Obligations.ShapeAssertTraps
  intro i f hi s st e h ht hm hbad
  cases i with
  | shapea o | shapeaX96 o => cases hi; exact run_trapped h.toQuiet ht (shapeaBody_fails h rfl hm hbad)
  | _ => cases hi

/-- Settles O9: SHAPE notes that it reads v[A], and reads of it the full bit and the shape alone. -/
theorem shapeReads : Obligations.ShapeReads := by
  unfold Obligations.ShapeReads
  intro i f hi s st e h hd hroom
  have hb : shapeBody (jobOf s st e f) =
      writeV f.d (.u (BitVec.ofNat 32 (shapeRule (st.reg f.a)))) (st.mask f.pred) (jobOf s st e f) := by
    simp only [shapeBody, m_bind, m_form, effMask_quiet h, noteRead_still (quiet_still h), m_get, shapeRule_eq]
    rfl
  cases i with
  | shape o | shapeX96 o => cases hi; exact write_quiet h (d_lt _) hd hroom (srAfter_keep h rfl) hb
  | _ => cases hi

/-! ### b registers (R122) -/

theorem isUniform_still {j : Job} (h : j.Still) (n : Nat) : isUniform n j = .ok (j.st.uniform n) j := by
  simp only [isUniform, m_bind, noteUse_still h, m_get, Strand.uniform, Strand.val]
  cases (j.st.reg n).shape <;> rfl

theorem needUniform_ok {j : Job} (h : j.Still) {n : Nat} (hu : j.st.uniform n = true) : needUniform n j = .ok () j := by
  simp [needUniform, isUniform_still h, hu]

theorem needUniform_fails {j : Job} (h : j.Still) {n : Nat} (hu : j.st.uniform n = false) :
    needUniform n j =
      .error (.trap { cause := 0x07, addr := j.st.pc, lanes := j.st.trapLanes j.f, detail := BitVec.ofNat 32 n, va := 0 }) j := by
  simp [needUniform, isUniform_still h, hu, shapeBase, trapM_still h]

/-- A uniform register that is plain gives its one value. -/
theorem readU_uniform {j : Job} (h : j.Still) {n : Nat} (hp : (j.st.reg n).plain = true) (hu : j.st.uniform n = true) :
    readU n j = .ok (j.st.lane n 0) j := by
  obtain ⟨-, hpoison, -, -⟩ := (plain_iff _).mp hp
  rw [lane_at _ _ _ (by decide)]
  simp only [Strand.uniform, Strand.val] at hu
  simp only [readU, m_bind, noteRead_still h, m_get, Strand.val]
  cases hs : (j.st.reg n).shape <;> simp [hs, Val.isU] at hu
  simp [checkPoison, hpoison, Val.at]

/-- b[n] written under a mask. -/
theorem setB_still {j : Job} (h : j.Still) (n : Nat) (x : DWord) (m : Mask) :
    setB n x m j = .ok () (j.put { j.st with b := if m = 0 then j.st.b else vset j.st.b n x } j.s.freshId) := by
  unfold setB
  split
  · rfl
  · simp only [m_upd, Strand.bwrite, noteWrite_still h.noCont h.noForks h.noDead]
    rfl

section Bodies
variable {s : State} {st : Strand} {e : Env} {f : Form}

theorem needUniformB_immediate (h : f.x.immb = true) : needUniformB (jobOf s st e f) = .ok () (jobOf s st e f) := by
  simp only [needUniformB, m_bind, m_form]
  exact congrFun (if_pos (c := f.x.immb = true) h) _

theorem needUniformB_register (h : f.x.immb = false) : needUniformB (jobOf s st e f) = needUniform f.b (jobOf s st e f) := by
  simp only [needUniformB, m_bind, m_form]
  exact congrFun (if_neg (c := f.x.immb = true) (Bool.eq_false_iff.mp h)) _

theorem uniformB_calm (h : Calm s st e f) (hb : f.enc.b = .vs) (hu : f.x.immb = false → st.uniform f.b = true) :
    uniformB (jobOf s st e f) = .ok ((st.srcs f).b 0) (jobOf s st e f) := by
  simp only [uniformB, m_bind, m_form, m_ite, m_pure, Strand.srcs]
  cases hi : f.x.immb with
  | true => exact if_pos (c := f.x.immb = true) hi
  | false =>
    exact (if_neg (c := f.x.immb = true) (Bool.eq_false_iff.mp hi)).trans
      (readU_uniform (quiet_still h.toQuiet) (h.plain _ (vregs_b hb hi)) (hu hi))

theorem vregs_pairA (h : f.enc.a = .vsRun 2) : ∀ i < 2, f.a + i ∈ f.vregs := by
  intro i hi
  have hrun : f.a + i ∈ useVregs f.enc.a f.x f.x.w0.a.toNat := by simpa [h, useVregs, Form.a] using Nat.le_of_lt_succ hi
  exact List.mem_eraseDups.mpr (List.mem_append_left _ (List.mem_append_left _ (List.mem_append_right _ hrun)))

/-- What a body that writes b[D] of `x` under M leaves. -/
abbrev basePut (s : State) (st : Strand) (e : Env) (f : Form) (x : DWord) : Job :=
  (jobOf s st e f).put { st with b := if st.mask f.pred = 0 then st.b else vset st.b f.d x } (jobOf s st e f).s.freshId

theorem baddBody_calm (h : Calm s st e f) (hb : f.enc.b = .vs) (hu : f.x.immb = false → st.uniform f.b = true) :
    baddBody (jobOf s st e f) = .ok () (basePut s st e f (vget st.b f.a 0 + ((st.srcs f).b 0).signExtend 64)) := by
  have hs := quiet_still h.toQuiet
  have hneed : needUniformB (jobOf s st e f) = .ok () (jobOf s st e f) := by
    cases hi : f.x.immb with
    | true => exact needUniformB_immediate hi
    | false => exact (needUniformB_register hi).trans (needUniform_ok hs (hu hi))
  simp only [baddBody, m_bind, m_form, readyB_calm h hb, effMask_quiet h.toQuiet, hneed]
  split
  · next hm => simp only [basePut, hm, if_true]; rfl
  · simp only [m_bind, uniformB_calm h hb hu, getB_still hs, setB_still hs]
    rfl

theorem bmovBody_calm (h : Calm s st e f) (ha : f.enc.a = .vsRun 2) (hlo : st.uniform f.a = true) (hhi : st.uniform (f.a + 1) = true) :
    bmovBody (jobOf s st e f) = .ok () (basePut s st e f (st.lane (f.a + 1) 0 ++ st.lane f.a 0)) := by
  have hs := quiet_still h.toQuiet
  have hregs := vregs_pairA ha
  have hreadLo : readU f.a (jobOf s st e f) = .ok (st.lane f.a 0) (jobOf s st e f) :=
    readU_uniform hs (h.plain _ (hregs 0 (by decide))) hlo
  have hreadHi : readU (f.a + 1) (jobOf s st e f) = .ok (st.lane (f.a + 1) 0) (jobOf s st e f) :=
    readU_uniform hs (h.plain _ (hregs 1 (by decide))) hhi
  simp only [bmovBody, m_bind, m_form]
  rw [show (jobOf s st e f).f = f from rfl]
  simp only [readyRun_calm h hregs, effMask_quiet h.toQuiet, needUniform_ok hs hlo, needUniform_ok hs hhi]
  split
  · next hm => simp only [basePut, hm, if_true]; rfl
  · simp only [m_bind, hreadLo, hreadHi, setB_still hs]
    rfl

theorem blitBody_calm (h : Quiet s st e f) (x : DWord) : blitBody x (jobOf s st e f) = .ok () (basePut s st e f x) := by
  simp only [blitBody, m_bind, m_form, effMask_quiet h, setB_still (quiet_still h)]
  rfl

/-- What an instruction that writes b[D] of `x` under M comes to. -/
theorem run_base (h : Quiet s st e f) {body : M Unit} {x : DWord} (hb : body (jobOf s st e f) = .ok () (basePut s st e f x)) :
    ∃ t, run f body s = .next t ∧
      OnlyStrand s t { st.past f with b := if st.mask f.pred = 0 then st.b else vset st.b f.d x } :=
  run_done h _ _ hb h.live rfl

end Bodies

/-- Settles O6: the registers that must be uniform are, so the body reaches its write of b[D]. -/
theorem baseResult : Obligations.BaseResult := by
  unfold Obligations.BaseResult
  intro i f g us hi s st e h hu
  cases i with
  | badd o =>
    cases hi
    exact run_base h.toQuiet (baddBody_calm h rfl fun _ => hu _ List.mem_cons_self)
  | baddX96 o =>
    cases hi
    refine run_base h.toQuiet (baddBody_calm h rfl fun himm => hu _ ?_)
    exact (if_neg (c := o.immb = true) (Bool.eq_false_iff.mp himm)) ▸ List.mem_cons_self
  | bmov o | bmovX96 o =>
    cases hi
    exact run_base h.toQuiet (bmovBody_calm h rfl (hu _ List.mem_cons_self) (hu _ (List.mem_cons_of_mem _ List.mem_cons_self)))
  | blit o =>
    cases hi
    exact run_base h.toQuiet (blitBody_calm h.toQuiet _)
  | _ => cases hi

/-! ### Sources that must be uniform and are not (R122) -/

section Traps
variable {s : State} {st : Strand} {e : Env} {f : Form}

/-- Where an instruction that needs v[n] uniform stops. -/
abbrev BaseStop (s : State) (st : Strand) (e : Env) (f : Form) (n : Nat) (body : M Unit) : Prop :=
  body (jobOf s st e f) =
    .error (.trap { cause := 0x07, addr := st.pc, lanes := st.trapLanes f, detail := BitVec.ofNat 32 n, va := 0 }) (jobOf s st e f)

theorem baddBody_fails (h : Calm s st e f) (hb : f.enc.b = .vs) (hi : f.x.immb = false) (hu : st.uniform f.b = false) :
    BaseStop s st e f f.b baddBody := by
  have hneed : BaseStop s st e f f.b needUniformB := (needUniformB_register hi).trans (needUniform_fails (quiet_still h.toQuiet) hu)
  simp only [BaseStop] at hneed ⊢
  simp only [baddBody, m_bind, m_form, readyB_calm h hb, effMask_quiet h.toQuiet, hneed]

/-- BMOV stops at the first of its two registers that is not uniform. -/
theorem bmovBody_fails (h : Calm s st e f) (ha : f.enc.a = .vsRun 2) {n : Nat}
    (hn : [f.a, f.a + 1].find? (fun n => !st.uniform n) = some n) : BaseStop s st e f n bmovBody := by
  have hs := quiet_still h.toQuiet
  simp only [BaseStop, bmovBody, m_bind, m_form]
  rw [show (jobOf s st e f).f = f from rfl]
  simp only [readyRun_calm h (vregs_pairA ha), effMask_quiet h.toQuiet]
  cases hlo : st.uniform f.a with
  | false =>
    obtain rfl : f.a = n := by simpa [hlo] using hn
    simp only [needUniform_fails hs hlo]
    rfl
  | true =>
    obtain ⟨hhi, rfl⟩ : st.uniform (f.a + 1) = false ∧ f.a + 1 = n := by simpa [hlo] using hn
    simp only [needUniform_ok hs hlo, needUniform_fails hs hhi]
    rfl

end Traps

/-- Settles O21: the test of the sources stands before that of M, and nothing before it changes the job. -/
theorem nonUniformBaseTraps : Obligations.NonUniformBaseTraps := by
  unfold Obligations.NonUniformBaseTraps
  intro i f g us hi s st e n h ht hn
  cases i with
  | badd o =>
    cases hi
    obtain ⟨hu, rfl⟩ : st.uniform (Form.b32 Enc.badd' o).b = false ∧ (Form.b32 Enc.badd' o).b = n := by simpa using hn
    exact run_trapped h.toQuiet ht (baddBody_fails h rfl rfl hu)
  | baddX96 o =>
    cases hi
    split at hn
    · cases hn
    · next himm =>
      obtain ⟨hu, rfl⟩ : st.uniform (Form.x96 Enc.badd' o).b = false ∧ (Form.x96 Enc.badd' o).b = n := by simpa using hn
      exact run_trapped h.toQuiet ht (baddBody_fails h rfl (Bool.eq_false_iff.mpr himm) hu)
  | bmov o | bmovX96 o =>
    cases hi
    exact run_trapped h.toQuiet ht (bmovBody_fails h rfl hn)
  | blit o =>
    cases hi
    cases hn
  | _ => cases hi

/-! ### Two registers written at once (R98, R122) -/

theorem reg_holds_ne (st : Strand) {n k : Nat} (held : Option Nat) (h : n ≠ k) : (st.holds n held).reg k = st.reg k :=
  reg_setReg_ne st n k _ h

theorem lane_congr {a b : Strand} {n : Nat} (hr : a.reg n = b.reg n) (hv : a.vecArea = b.vecArea) : a.lane n = b.lane n := by
  have hval : a.val n = b.val n := val_congr (by rw [hr]) hv
  funext i
  rw [Strand.lane, hval, Strand.lane]

theorem setReg_comm (st : Strand) {a b : Nat} (x y : VReg) (h : a ≠ b) :
    (st.setReg a x).setReg b y = (st.setReg b y).setReg a x := by
  rcases hv : st.v with ⟨⟨l⟩, hl⟩
  simp only [Strand.setReg, vset, hv]
  congr 1
  simp [List.set_comm _ _ h]

theorem slabIds_holds (st : Strand) {n : Nat} (held : Option Nat) (hn : n < 64) (h : (st.reg n).held = none) :
    (st.holds n held).slabIds.length ≤ st.slabIds.length + 1 := by
  have hslabs := slabs_setReg st n { st.reg n with held := held } hn
  have hreg : ({ st.reg n with held := held } : VReg).slabIds.length ≤ (st.reg n).slabIds.length + 1 := by
    simp only [VReg.slabIds, h]
    cases held with
    | none => cases (st.reg n).shape <;> simp
    | some k =>
      cases (st.reg n).shape with
      | v l s => simpa using List.length_filter_le (· != s) [k]
      | _ => simp
  rw [Strand.holds]
  omega

/-- Two different registers made ready, one after the other. -/
theorem prepWrite_two {j : Job} (h : j.Still) {a b : Nat} (x y : Val) (m : Mask) (hab : a ≠ b) (ha : a < 64) (hb : b < 64)
    (hpa : (j.st.reg a).plain = true) (hpb : (j.st.reg b).plain = true) (hr : j.st.slabIds.length + 1 < j.e.floor j.st) :
    ∃ ha' hb' k, (prepWrite a x m >>= fun _ => prepWrite b y m) j = .ok () (j.put ((j.st.holds a ha').holds b hb') k) := by
  obtain ⟨held, k, -, h1⟩ := prepWrite_plain h a x m ha hpa (by omega)
  have hheld := ((plain_iff _).mp hpa).2.2.1
  have hslabs := slabIds_holds j.st held ha hheld
  obtain ⟨held', k', -, h2⟩ := prepWrite_plain (h.put (j.st.holds a held) k rfl rfl rfl rfl rfl rfl) b y m hb
    (by rw [put_st, reg_holds_ne _ _ hab]; exact hpb) (show (j.st.holds a held).slabIds.length < j.e.floor j.st by omega)
  exact ⟨held, held', k', by rw [m_bind, h1]; exact h2⟩

/-- Two registers committed under a mask that is not empty. -/
theorem commit_two (st : Strand) {a b : Nat} (ha' hb' : Option Nat) (x y : Val) (m : Mask) (hab : a ≠ b) (ha : a < 64) (hb : b < 64)
    (hpa : (st.reg a).plain = true) (hpb : (st.reg b).plain = true) (hc : st.cont = none) (hf : st.forks = []) (hd : st.dead = {})
    (hm : m ≠ 0) (hone : st.tile = true → st.live = 1) :
    ∃ ra rb o, (((st.holds a ha').holds b hb').commit a x m).commit b y m = { (st.setReg a ra).setReg b rb with order := o } ∧
      ra.plain = true ∧ rb.plain = true ∧
      ∀ i, i < 32 → st.live.has i = true →
        (st.setReg a ra).lane a i = (if m.has i then x.at i else st.lane a i) ∧
        ((st.setReg a ra).setReg b rb).lane b i = if m.has i then y.at i else st.lane b i := by
  have hswap : (st.holds a ha').holds b hb' = (st.holds b hb').holds a ha' := by
    simp only [Strand.holds, reg_setReg_ne st a b _ hab, reg_setReg_ne st b a _ hab.symm]
    exact setReg_comm _ _ _ hab
  have hra : (st.holds b hb').reg a = st.reg a := reg_holds_ne _ _ hab.symm
  obtain ⟨ra, o, hca, hpra, -, hla⟩ :=
    commit_plain (st.holds b hb') a ha' x m ha (by rw [hra]; exact hpa) hc hf hd hm hone
  have hback : ({ (st.holds b hb').setReg a ra with order := o } : Strand) = ({ st.setReg a ra with order := o } : Strand).holds b hb' := by
    have hrb : ({ st.setReg a ra with order := o } : Strand).reg b = st.reg b := reg_setReg_ne st a b ra hab
    simp only [Strand.holds, hrb, setReg_comm st _ ra hab.symm]
    rfl
  obtain ⟨rb, o', hcb, hprb, -, hlb⟩ := commit_plain { st.setReg a ra with order := o } b hb' y m hb
    (by rw [show ({ st.setReg a ra with order := o } : Strand).reg b = st.reg b from reg_setReg_ne st a b ra hab]; exact hpb) hc hf hd hm hone
  refine ⟨ra, rb, o', by rw [hswap, hca, hback, hcb]; rfl, hpra, hprb, fun i hi hl => ⟨?_, ?_⟩⟩
  · have hthere := hla i hi hl
    have h1 : ((st.holds b hb').setReg a ra).lane a = (st.setReg a ra).lane a := lane_congr (by simp [ha]) rfl
    have h2 : (st.holds b hb').lane a = st.lane a := lane_congr hra rfl
    rwa [h1, h2] at hthere
  · have hthere := hlb i hi hl
    have h2 : ({ st.setReg a ra with order := o } : Strand).lane b = st.lane b := lane_congr (reg_setReg_ne st a b ra hab) rfl
    rw [h2] at hthere
    exact hthere

/-- The halves of a 64-bit value written to a pair of registers under a mask that is not empty. -/
theorem writePair_plain {j : Job} (h : j.Still) {n : Nat} (x : DWord) {m : Mask} (hn : n + 1 < 64) (hlo : (j.st.reg n).plain = true)
    (hhi : (j.st.reg (n + 1)).plain = true) (hr : j.st.slabIds.length + 1 < j.e.floor j.st) (hm : m ≠ 0) :
    ∃ ra rb o k, writePair n x m j = .ok () (j.put { (j.st.setReg n ra).setReg (n + 1) rb with order := o } k) ∧
      ra.plain = true ∧ rb.plain = true ∧
      ∀ i, i < 32 → j.st.live.has i = true →
        (j.st.setReg n ra).lane n i = (if m.has i then x.lo else j.st.lane n i) ∧
        ((j.st.setReg n ra).setReg (n + 1) rb).lane (n + 1) i = if m.has i then x.hi else j.st.lane (n + 1) i := by
  have hne : n ≠ n + 1 := n.lt_succ_self.ne
  obtain ⟨ha, hb, k, hprep⟩ := prepWrite_two h (.u x.lo) (.u x.hi) m hne (by omega) hn hlo hhi hr
  obtain ⟨ra, rb, o, hcommit, hpa, hpb, hlanes⟩ :=
    commit_two j.st ha hb (.u x.lo) (.u x.hi) m hne (by omega) hn hlo hhi h.noCont h.noForks h.noDead hm h.oneLane
  refine ⟨ra, rb, o, k, ?_, hpa, hpb, hlanes⟩
  have hprep' := hprep
  simp only [m_bind] at hprep'
  cases h1 : prepWrite n (.u x.lo) m j with
  | error x j' => rw [h1] at hprep'; cases hprep'
  | ok _ j' =>
    rw [h1] at hprep'
    simp only [writePair, writeAll, List.forM_eq_forM, List.forM_cons, List.forM_nil, m_bind, m_pure, h1, hprep', m_upd, put_st, hcommit]
    rfl

/-- What a body leaves that has written two v registers. -/
theorem writes_two {st : Strand} {f : Form} {a b : Nat} {ra rb : VReg} {o : List Nat} {g g' : Nat → Word} (hab : a ≠ b) (ha : a < 64)
    (hb : b < 64) (hpa : ra.plain = true) (hpb : rb.plain = true) (hr : st.srAfter f = st.sr) (hm : st.mask f.pred ≠ 0)
    (hl : ∀ i, i < 32 → st.live.has i = true →
      (st.setReg a ra).lane a i = (if (st.mask f.pred).has i then g i else st.lane a i) ∧
      ((st.setReg a ra).setReg b rb).lane b i = if (st.mask f.pred).has i then g' i else st.lane b i) :
    Writes st { ({ (st.setReg a ra).setReg b rb with order := o } : Strand) with pc := st.pc + BitVec.ofNat 64 f.size } f
      [(a, g), (b, g')] := by
  have hrega : ((st.setReg a ra).setReg b rb).reg a = (st.setReg a ra).reg a := reg_setReg_ne _ _ _ _ hab.symm
  obtain ⟨fa, pa, ka, -⟩ := (plain_iff _).mp hpa
  obtain ⟨fb, pb, kb, -⟩ := (plain_iff _).mp hpb
  have wroteA : Wrote st ((st.setReg a ra).setReg b rb) (st.mask f.pred) a g := by
    have hra := hrega.trans (reg_setReg_same st a ra ha)
    refine ⟨by rw [hra, fa], by rw [hra, pa], by rw [hra, ka], fun h => absurd h hm, fun i hi h => ?_⟩
    rw [lane_congr hrega rfl]
    exact (hl i hi h).1
  have wroteB : Wrote st ((st.setReg a ra).setReg b rb) (st.mask f.pred) b g' := by
    have hrb := reg_setReg_same (st.setReg a ra) b rb hb
    exact ⟨by rw [hrb, fb], by rw [hrb, pb], by rw [hrb, kb], fun h => absurd h hm, fun i hi h => (hl i hi h).2⟩
  refine ⟨by rw [hr]; rfl, fun k hk => ?_, ?_⟩
  · obtain ⟨hka, hkb⟩ : k ≠ a ∧ k ≠ b := by simpa using hk
    have hreg : ((st.setReg a ra).setReg b rb).reg k = st.reg k :=
      (reg_setReg_ne _ _ _ _ hkb.symm).trans (reg_setReg_ne _ _ _ _ hka.symm)
    exact ⟨hreg, lane_congr hreg rfl⟩
  · rintro d hd
    obtain rfl | rfl : d = (a, g) ∨ d = (b, g') := by simpa using hd
    · exact wroteA
    · exact wroteB

/-- Under an empty mask registers that are plain count as written when nothing has changed. -/
theorem writes_none {st : Strand} {f : Form} {ds : List (Nat × (Nat → Word))} (hm : st.mask f.pred = 0) (hr : st.srAfter f = st.sr)
    (hp : ∀ d ∈ ds, (st.reg d.1).plain = true) : Writes st (st.past f) f ds := by
  refine ⟨by rw [hr]; rfl, fun _ _ => ⟨rfl, rfl⟩, fun d hd => ?_⟩
  obtain ⟨hfull, hpoison, hheld, -⟩ := (plain_iff _).mp (hp d hd)
  refine ⟨hfull, hpoison, hheld, fun _ => rfl, fun i _ _ => ?_⟩
  rw [hm]
  simp
  rfl

theorem vregs_pairD {f : Form} (h : f.enc.d = .vRun 2) : ∀ i < 2, f.d + i ∈ f.vregs := by
  intro i hi
  have hrun : f.d + i ∈ useVregs f.enc.d f.x f.x.w0.d.toNat := by simpa [h, useVregs, Form.d] using Nat.le_of_lt_succ hi
  exact List.mem_eraseDups.mpr (List.mem_append_left _ (List.mem_append_left _ (List.mem_append_left _ hrun)))

theorem d_pair_lt {s : State} {st : Strand} {e : Env} {f : Form} (h : Quiet s st e f) (hd : f.enc.d = .vRun 2) : f.d + 1 < 64 := by
  have hl := h.legal
  simp only [Enc.legal, hd, Use.rangeOk, Bool.and_eq_true, decide_eq_true_eq] at hl
  have : f.x.w0.d.toNat + 2 ≤ 64 := by tauto
  exact this

/-- What an instruction comes to that writes the halves of a 64-bit value into v[D] and v[D+1], unless M is empty. -/
theorem writePair_calm {s : State} {st : Strand} {e : Env} {f : Form} (h : Calm s st e f) (hd : f.enc.d = .vRun 2)
    (hr : f.enc.rnd = false) {body : M Unit} {x : DWord}
    (hb : body (jobOf s st e f) =
      if st.mask f.pred = 0 then .ok () (jobOf s st e f) else writePair f.d x (st.mask f.pred) (jobOf s st e f)) :
    ∃ u st', run f body s = .next u ∧ OnlyStrand s u st' ∧ Writes st st' f [(f.d, fun _ => x.lo), (f.d + 1, fun _ => x.hi)] := by
  have hsr := srAfter_keep h.toQuiet hr
  have hlo := h.plain _ (vregs_pairD hd 0 (by decide))
  have hhi := h.plain _ (vregs_pairD hd 1 (by decide))
  have hlt := d_pair_lt h.toQuiet hd
  by_cases hm : st.mask f.pred = 0
  · obtain ⟨u, hu, hs⟩ := run_past h.toQuiet (hb.trans (if_pos hm))
    exact ⟨u, _, hu, hs, writes_none hm hsr (by simpa using ⟨hlo, hhi⟩)⟩
  · have hroom : st.slabIds.length + 1 < e.floor st := by have := h.room; omega
    obtain ⟨ra, rb, o, k, hw, hpa, hpb, hl⟩ := writePair_plain (quiet_still h.toQuiet) x hlt hlo hhi hroom hm
    obtain ⟨u, hu, hs⟩ := run_done h.toQuiet _ k ((hb.trans (if_neg hm)).trans hw) h.live rfl
    exact ⟨u, _, hu, hs, writes_two f.d.lt_succ_self.ne (d_lt f) hlt hpa hpb hsr hm hl⟩

/-- Settles O8: BGET writes the halves of b[A] as a pair, and nothing under an empty M. -/
theorem basePairReads : Obligations.BasePairReads := by
  unfold Obligations.BasePairReads
  intro i f hi s st e h
  have hb : bgetBody (jobOf s st e f) =
      if st.mask f.pred = 0 then .ok () (jobOf s st e f)
      else writePair f.d (vget st.b f.a 0) (st.mask f.pred) (jobOf s st e f) := by
    simp only [bgetBody, m_bind, m_form, effMask_quiet h.toQuiet, m_ite, m_pure, getB_still (quiet_still h.toQuiet)]
    rfl
  cases i with
  | bget o | bgetX96 o => cases hi; exact writePair_calm h rfl rfl hb
  | _ => cases hi

end Sys2Proof.Machine
end

section
/-!
PROOF. Moves, lane exchange and reads of k registers (R114-R121, R134-R138): the value of each in the terms of moveRule, and a copy that is left in
the vector area (O2).
-/

namespace Sys2Proof.Machine

/-! ### Values by lane -/

theorem laneVal_at (a b : Val) (i : Nat) (h : i < 32) : (laneVal a b).at i = a.at i + BitVec.ofNat 32 i * b.at i := by
  unfold laneVal
  split
  · exact at_affine _ _ _
  · next x s y =>
    rw [at_affine, BitVec.mul_add, ← BitVec.add_assoc]
    rfl
  · exact lanes_get_tab _ _ h

/-- The lane that SHFL takes by the model is that of R136. -/
theorem shflLane_eq {fn : Nat} (hfn : fn ≤ 3) (n : Word) (i : Nat) : shflLane fn n i = shuffleFrom fn n i := by
  match fn, hfn with
  | 0, _ | 1, _ | 3, _ => rfl
  | 2, _ =>
    have hdown : i / 2 ^ (n.toNat % 8) * 2 ^ (n.toNat % 8) = i - i % 2 ^ (n.toNat % 8) := by
      have := Nat.div_add_mod i (2 ^ (n.toNat % 8))
      rw [Nat.mul_comm] at this
      omega
    simp only [shflLane, shuffleFrom, hdown]
    by_cases hg : n.toNat % 8 ≤ 5
    · simp [hg, Nat.not_lt.mpr hg]
    · simp [hg, Nat.lt_of_not_le hg]

theorem shuffleFrom_lt {fn : Nat} (n : Word) {i : Nat} (hi : i < 32) : shuffleFrom fn n i < 32 := by
  unfold shuffleFrom
  split
  · exact Nat.mod_lt _ (by decide)
  split
  · exact Nat.mod_lt _ (by decide)
  split
  · generalize n.toNat % 8 = g
    dsimp only
    split
    · exact hi
    · next hg =>
      -- i and 32 agree to a multiple of the group, which o does not leave
      have hpow : 2 ^ g * 2 ^ (5 - g) = 32 := by rw [← Nat.pow_add, show g + (5 - g) = 5 by omega]
      have hdiv : i / 2 ^ g < 2 ^ (5 - g) := Nat.div_lt_of_lt_mul (by omega)
      have ho : n.toNat / 256 % 32 % 2 ^ g < 2 ^ g := Nat.mod_lt _ (Nat.two_pow_pos g)
      have hdown : i - i % 2 ^ g = 2 ^ g * (i / 2 ^ g) := by have := Nat.div_add_mod i (2 ^ g); omega
      calc i - i % 2 ^ g + n.toNat / 256 % 32 % 2 ^ g < 2 ^ g * (i / 2 ^ g) + 2 ^ g := by omega
        _ = 2 ^ g * (i / 2 ^ g + 1) := by rw [Nat.mul_add, Nat.mul_one]
        _ ≤ 2 ^ g * 2 ^ (5 - g) := Nat.mul_le_mul_left _ hdiv
        _ = 32 := hpow
  · exact Nat.xor_lt_two_pow (n := 5) hi (Nat.mod_lt _ (by decide))

theorem shflVal_at {fn : Nat} (hfn : fn ≤ 3) (a b : Val) (i : Nat) (hi : i < 32) :
    (shflVal fn a b).at i = a.at (shuffleFrom fn (b.at i) i) := by
  cases a with
  | u x => rfl
  | a _ _ | v _ =>
    rw [← shflLane_eq hfn]
    exact lanes_get_tab _ _ hi

/-- SQZ chooses a shape that has the lanes it was given, where a lane is live (R120). -/
theorem squeeze_at (u : Lanes) (live : Mask) {i : Nat} (hi : i < 32) (hl : live.has i = true) : (squeeze u live).at i = u.get i := by
  have hmem : i ∈ live.lanes := (mem_lanes live i).mpr ⟨hi, hl⟩
  unfold squeeze
  split
  · rfl
  · next l0 rest hlanes =>
    rw [hlanes] at hmem
    dsimp only
    split
    · next hall =>
      rcases List.mem_cons.mp hmem with rfl | hr
      · rfl
      · exact (beq_iff_eq.mp (List.all_eq_true.mp hall i hr)).symm
    split
    · next hall => exact absurd rfl hall
    split
    · next l1 _ s _ =>
      split
      · next hc =>
        obtain ⟨-, hall⟩ := Bool.and_eq_true_iff.mp hc
        have heq := beq_iff_eq.mp (List.all_eq_true.mp hall i (hlanes ▸ hmem))
        rw [heq, Val.at]
        ring
      · rfl
    · rfl

/-! ### The tree of LRED (R79, R138) -/

theorem combine_eq_joinLanes (g : Word → Word → Word) (x y : Option Word) : combine g x y = joinLanes g x y := by
  cases x <;> cases y <;> rfl

/-- One level joins each lane pair of a list given by number. -/
theorem treeLevel_range (g : Word → Word → Word) (n : Nat) (p : Nat → Option Word) :
    treeLevel g ((List.range (2 * n)).map p) = (List.range n).map fun i => joinLanes g (p (2 * i)) (p (2 * i + 1)) := by
  induction n generalizing p with
  | zero => rfl
  | succ n ih =>
    rw [show 2 * (n + 1) = 2 * n + 1 + 1 by omega, List.range_succ_eq_map, List.range_succ_eq_map, List.range_succ_eq_map (n := n)]
    simp only [List.map_cons, List.map_map, treeLevel, combine_eq_joinLanes]
    congr 1
    exact ih (p ∘ (· + 2))

/-- After k levels each element is the tree over the 2^k lanes from its own on. -/
theorem treeLevel_laneTree (g : Word → Word → Word) (m : Mask) (x : Nat → Word) (k n : Nat) :
    treeLevel g ((List.range (2 * n)).map fun i => laneTree g m x k (2 ^ k * i)) =
      (List.range n).map fun i => laneTree g m x (k + 1) (2 ^ (k + 1) * i) := by
  rw [treeLevel_range]
  apply List.map_congr_left
  intro i _
  rw [laneTree]
  congr 2 <;> rw [Nat.pow_succ] <;> ring

/-- The tree reads no lane but its own. -/
theorem laneTree_congr (g : Word → Word → Word) (m : Mask) {x y : Nat → Word} {k i : Nat} (h : ∀ j, j < i + 2 ^ k → x j = y j) :
    laneTree g m x k i = laneTree g m y k i := by
  induction k generalizing i with
  | zero => rw [laneTree, laneTree, h i (by omega)]
  | succ k ih =>
    rw [Nat.pow_succ] at h
    rw [laneTree, laneTree, ih fun j hj => h j (by omega), ih fun j hj => h j (by omega)]

theorem lredTree_eq (g : Word → Word → Word) (m : Mask) (a : Val) : lredTree g m a = (laneTree g m a.at 5 0).getD 0 := by
  have hbase : ((List.range 32).map fun i => if m.has i then some (a.at i) else none) =
      (List.range (2 * 16)).map fun i => laneTree g m a.at 0 (2 ^ 0 * i) := by
    apply List.map_congr_left
    intro i _
    rw [Nat.pow_zero, Nat.one_mul, laneTree]
  have htree := treeLevel_laneTree g m a.at
  simp only [lredTree, hbase, htree 0 16, show (16 : Nat) = 2 * 8 from rfl, htree 1 8, show (8 : Nat) = 2 * 4 from rfl, htree 2 4,
    show (4 : Nat) = 2 * 2 from rfl, htree 3 2]
  rw [show (2 : Nat) = 2 * 1 from rfl, htree 4 1, List.range_one, List.map_singleton, Nat.mul_zero]
  cases laneTree g m a.at 5 0 <;> rfl

/-- The legal functions of LRED combine as R138 says. -/
theorem lredFn_eq {fn : Nat} {t : Ty} (h : t = .f32 → fn < 3) : lredFn fn t = combineRule fn t := by
  funext x y
  unfold lredFn combineRule
  split
  · next ht =>
    match fn, h ht with
    | 0, _ | 1, _ | 2, _ => rfl
  · match fn with
    | 0 | 3 | 4 => rfl
    | 1 => exact min_eq t x y
    | 2 => exact max_eq t x y
    | n + 5 => simp

/-- No error stands, so no combine is struck (R458). -/
theorem lredChecked_still {j : Job} (h : j.Still) (hn : j.f.d < 64) (hp : (j.st.reg j.f.d).plain = true)
    (hr : j.st.slabIds.length < j.e.floor j.st) (g : Word → Word → Word) (m : Mask) (a : Val) :
    lredChecked g m a j = writeV j.f.d (.u (lredTree g m a)) m j := by
  obtain ⟨held, k, -, hw⟩ := prepWrite_plain h j.f.d (.u (lredTree g m a)) m hn hp hr
  have hempty : (j.put (j.st.holds j.f.d held) k).st.shadowHit.isEmpty = true := by
    rw [put_st]
    exact List.isEmpty_iff.mpr h.noShadow
  simp only [lredChecked, writeV, m_bind, m_form, hw, m_get, hempty, Bool.true_or, if_true]

/-! ### The bodies (R114-R121, R134-R138) -/

section Bodies
variable {s : State} {st : Strand} {e : Env} {f : Form} {i : Instr} {g : LaneRule} {body : M Unit}

/-- What an instruction comes to that writes v[D] alone, when every live lane is given by a rule. -/
abbrev Comes (s : State) (st : Strand) (f : Form) (body : M Unit) (r : Nat → Word) : Prop :=
  ∃ t st', run f body s = .next t ∧ OnlyStrand s t st' ∧ Writes st st' f [(f.d, r)]

theorem comes_of_write (h : Calm s st e f) (hd : f.d ∈ f.vregs) (hr : f.enc.rnd = false) {t : Val} {r : Nat → Word}
    (hb : body (jobOf s st e f) = writeV f.d t (st.mask f.pred) (jobOf s st e f))
    (ht : ∀ k, k < 32 → st.live.has k = true → t.at k = r k) : Comes s st f body r := by
  obtain ⟨u, st', hu, hs, hw⟩ := write_quiet h.toQuiet (d_lt f) (h.plain _ hd) h.room (srAfter_keep h.toQuiet hr) hb
  exact ⟨u, st', hu, hs, hw.congr ht⟩

theorem comes_of_binary (h : Calm s st e f) (F : Val → Val → Val) {r : Nat → Word} (hd : f.enc.d = .v) (ha : f.enc.a = .vs)
    (hb : f.enc.b = .vs) (hr : f.enc.rnd = false) (ht : ∀ k, k < 32 → (F (st.val f.a) (st.valB f)).at k = r k) :
    Comes s st f (binaryBody F) r := by
  obtain ⟨u, st', hu, hs, hw, -⟩ := binary_calm h F hd ha hb hr
  exact ⟨u, st', hu, hs, hw.congr fun k hk _ => ht k hk⟩

theorem moviBody_calm (h : Calm s st e f) (x : DWord) :
    moviBody x (jobOf s st e f) = writeV f.d (.u x.lo) (st.mask f.pred) (jobOf s st e f) := by
  simp only [moviBody, m_bind, m_form, effMask_quiet h.toQuiet]
  rfl

theorem bcastBody_calm (h : Calm s st e f) (ha : f.enc.a = .vs) :
    bcastBody (jobOf s st e f) = writeV f.d (.u ((st.val f.a).at f.b)) (st.mask f.pred) (jobOf s st e f) := by
  simp only [bcastBody, m_bind, m_form, readyA_calm h ha, effMask_quiet h.toQuiet, m_ite, srcA_calm h ha]
  exact ite_write _ _ _ _

theorem lredBody_calm (h : Calm s st e f) (hd : f.enc.d = .v) (ha : f.enc.a = .vs) :
    lredBody (jobOf s st e f) =
      writeV f.d (.u (lredTree (lredFn f.x.func.toNat f.x.ty) (st.mask f.pred) (st.val f.a))) (st.mask f.pred) (jobOf s st e f) := by
  have hroom : st.slabIds.length < e.floor st := by have := h.room; omega
  have hchecked := lredChecked_still (quiet_still h.toQuiet) (d_lt f) (h.plain _ (vregs_d hd)) hroom
    (lredFn f.x.func.toNat f.x.ty) (st.mask f.pred) (st.val f.a)
  refine Eq.trans ?_ (ite_write _ _ _ _)
  simp only [lredBody, m_bind, m_form, readyA_calm h ha, effMask_quiet h.toQuiet, m_ite, srcA_calm h ha]
  split
  · rfl
  split
  · exact hchecked
  · rfl

theorem kpopBody_calm (h : Calm s st e f) :
    kpopBody (jobOf s st e f) = writeV f.d (.u (popcount (st.kreg f.a))) (st.mask f.pred) (jobOf s st e f) := by
  simp only [kpopBody, m_bind, m_form, effMask_quiet h.toQuiet, m_ite, getK_still (quiet_still h.toQuiet)]
  exact ite_write _ _ _ _

theorem kgetBody_calm (h : Calm s st e f) :
    kgetBody (jobOf s st e f) = writeV f.d (.u (st.kreg f.a)) (st.mask f.pred) (jobOf s st e f) := by
  simp only [kgetBody, m_bind, m_form, effMask_quiet h.toQuiet, m_ite, getK_still (quiet_still h.toQuiet)]
  exact ite_write _ _ _ _

/-- VOTE ballot (R137). -/
theorem voteBody_ballot (h : Calm s st e f) (ha : f.enc.a = .vs) (hfn : f.x.func = 2) :
    voteBody (jobOf s st e f) =
      writeV f.d (.u (Mask.of fun i => (st.mask f.pred).has i && (st.val f.a).at i != 0)) (st.mask f.pred) (jobOf s st e f) := by
  have hfn' : (jobOf s st e f).f.x.func.toNat = 2 := by
    rw [show (jobOf s st e f).f.x.func = 2 from hfn]
    rfl
  simp only [voteBody, m_bind, m_form, readyA_calm h ha, effMask_quiet h.toQuiet, m_ite, srcA_calm h ha, hfn']
  exact ite_write _ _ _ _

/-- SHAPEF whose copy has been written: it goes to the vector area with B = 3, but not on an MCC (R119, R394). -/
theorem shapefBody_written (h : Calm s st e f) (ha : f.enc.a = .vs) (hm : st.mask f.pred ≠ 0) {j : Job}
    (hw : writeV f.d (.v (st.val f.a).lanes) (st.mask f.pred) (jobOf s st e f) = .ok () j) :
    shapefBody (jobOf s st e f) = if (decide (f.b = 3) && !j.st.tile) = true then spillReg f.d j else .ok () j := by
  have hw' : writeV (jobOf s st e f).f.d (.v (st.val f.a).lanes) (st.mask f.pred) (jobOf s st e f) = .ok () j := hw
  simp only [shapefBody, m_bind, m_form, readyA_calm h ha, effMask_quiet h.toQuiet, m_ite, if_neg hm, srcA_calm h ha, hw', m_get, m_pure]
  rfl

theorem shapefBody_empty (h : Calm s st e f) (ha : f.enc.a = .vs) (hm : st.mask f.pred = 0) :
    shapefBody (jobOf s st e f) = .ok () (jobOf s st e f) := by
  simp only [shapefBody, m_bind, m_form, readyA_calm h ha, effMask_quiet h.toQuiet, m_ite, if_pos hm, m_pure]

/-- SHAPEF that leaves its copy resident. -/
theorem shapefBody_resident (h : Calm s st e f) (ha : f.enc.a = .vs) (hd : f.enc.d = .v) (hres : f.b ≠ 3 ∨ st.tile = true) :
    shapefBody (jobOf s st e f) = writeV f.d (.v (st.val f.a).lanes) (st.mask f.pred) (jobOf s st e f) := by
  rw [← ite_write]
  split
  · next hm => exact shapefBody_empty h ha hm
  · next hm =>
    have hroom : st.slabIds.length < e.floor st := by have := h.room; omega
    obtain ⟨r, o, k, hw, -⟩ := writeV_plain (quiet_still h.toQuiet) f.d (.v (st.val f.a).lanes) (st.mask f.pred) (d_lt f)
      (h.plain _ (vregs_d hd)) hroom
    have hstay : (decide (f.b = 3) && !st.tile) = false := by rcases hres with h | h <;> simp [h]
    rw [shapefBody_written h ha hm hw, hw]
    exact if_neg (Bool.eq_false_iff.mp hstay)

/-- SQZ writes every live lane: those of M from v[A], and the others as they were (R120). -/
theorem run_sqz (h : Calm s st e f) (ha : f.enc.a = .vs) (hd : f.enc.d = .v) (hr : f.enc.rnd = false) :
    ∃ t st', run f sqzBody s = .next t ∧ OnlyStrand s t st' ∧ Writes st st' f [(f.d, st.lane f.a)] := by
  have hsr := srAfter_keep h.toQuiet hr
  have hdp := h.plain _ (vregs_d hd)
  by_cases hm : st.mask f.pred = 0
  · have hb : sqzBody (jobOf s st e f) = .ok () (jobOf s st e f) := by
      simp only [sqzBody, m_bind, m_form, readyA_calm h ha, effMask_quiet h.toQuiet, hm, if_true, m_pure]
    obtain ⟨u, hu, hs⟩ := run_past h.toQuiet hb
    exact ⟨u, _, hu, hs, writes_none hm hsr (by simpa using hdp)⟩
  · have hroom : st.slabIds.length < e.floor st := by have := h.room; omega
    obtain ⟨r, o, k, hw, hpl, -, -, hl⟩ := writeV_plain (quiet_still h.toQuiet) f.d
      (squeeze (mergeLanes (st.val f.d).lanes (st.val f.a).lanes (st.mask f.pred)) st.live) st.live (d_lt f) hdp hroom
    have hb : sqzBody (jobOf s st e f) = writeV f.d
        (squeeze (mergeLanes (st.val f.d).lanes (st.val f.a).lanes (st.mask f.pred)) st.live) st.live (jobOf s st e f) := by
      have hready : readyWait f.d (jobOf s st e f) = .ok () (jobOf s st e f) := ready_full _ _ ((plain_iff _).mp hdp).1
      have hread : readV f.d (jobOf s st e f) = .ok (st.val f.d) (jobOf s st e f) := readV_plain (quiet_still h.toQuiet) _ hdp
      simp only [sqzBody, m_bind, m_form, readyA_calm h ha, effMask_quiet h.toQuiet, m_ite, if_neg hm, srcA_calm h ha, m_get, m_pure]
      rw [show (jobOf s st e f).f = f from rfl]
      simp only [hready, hread, ite_self]
      rfl
    obtain ⟨u, hu, hs⟩ := run_done h.toQuiet _ k (hb.trans hw) h.live rfl
    refine ⟨u, _, hu, hs, writes_one (d_lt f) hpl hsr (fun h0 => absurd h0 hm) fun i hi hlive => ?_⟩
    refine (hl i hi hlive).trans ?_
    rw [if_pos hlive, squeeze_at _ _ hi hlive, mergeLanes_get _ _ _ _ hi]
    rfl

theorem vregs_voteD (hd : f.enc.d = .voteD) (hfn : f.x.func = 2) : f.d ∈ f.vregs := by
  simp [Form.vregs, hd, hfn, useVregs, Form.d]

theorem legal_func (h : Quiet s st e f) : f.enc.funcOk f.x.func = true := by
  have hl := h.legal
  simp only [Enc.legal, Bool.and_eq_true] at hl
  tauto

theorem legal_extra (h : Quiet s st e f) : f.enc.extra f.x = true := by
  have hl := h.legal
  simp only [Enc.legal, Bool.and_eq_true] at hl
  tauto

/-- B is in its range where an immediate may not stand for it. -/
theorem legal_b (h : Quiet s st e f) (hi : f.enc.immb = false) : f.enc.b.rangeOk f.x f.b = true := by
  have hl := h.legal
  have himm : f.x.immb = false := by
    simp only [Enc.legal, Bool.and_eq_true, hi, Bool.false_or, Bool.not_eq_true'] at hl
    tauto
  simp only [Enc.legal, Bool.and_eq_true, himm, Bool.false_eq_true, if_false] at hl
  tauto

end Bodies

/-! ### The instructions of moveRule -/

section Instructions
variable {s : State} {st : Strand} {e : Env} {f : Form} (h : Calm s st e f)
include h

theorem run_mov (he : f.enc = Enc.mov') : Comes s st f movBody (st.lane f.a) := by
  obtain ⟨u, st', hu, hs, hw, -⟩ := unary_calm h id (by rw [he]; rfl) (by rw [he]; rfl) (by rw [he]; rfl)
  exact ⟨u, st', hu, hs, hw.congr fun k hk _ => (lane_at st _ k hk).symm⟩

theorem run_lane (he : f.enc = Enc.lane') :
    Comes s st f laneBody fun i => st.lane f.a i + BitVec.ofNat 32 i * (st.srcs f).b i := by
  refine comes_of_binary h laneVal (by rw [he]; rfl) (by rw [he]; rfl) (by rw [he]; rfl) (by rw [he]; rfl) fun k hk => ?_
  rw [laneVal_at _ _ _ hk, lane_at _ _ _ hk, valB_at _ _ _ hk]

theorem run_shapef (he : f.enc = Enc.shapef') (hres : f.b ≠ 3 ∨ st.tile = true) : Comes s st f shapefBody (st.lane f.a) :=
  comes_of_write h (vregs_d (by rw [he]; rfl)) (by rw [he]; rfl)
    (shapefBody_resident h (by rw [he]; rfl) (by rw [he]; rfl) hres) fun _ _ _ => rfl

theorem run_bcast (he : f.enc = Enc.bcast') : Comes s st f bcastBody fun _ => st.lane f.a f.x.w0.b.toNat := by
  have hlt : f.x.w0.b.toNat < 32 := by
    have hb := legal_b h.toQuiet (by rw [he]; rfl)
    rw [he] at hb
    have hb : decide (f.b ≤ 31) = true := by simpa [Enc.bcast', Use.rangeOk] using hb
    exact Nat.lt_succ_of_le (of_decide_eq_true hb)
  exact comes_of_write h (vregs_d (by rw [he]; rfl)) (by rw [he]; rfl) (bcastBody_calm h (by rw [he]; rfl)) fun _ _ _ =>
    (lane_at st _ _ hlt).symm

theorem run_shfl (he : f.enc = Enc.shfl') :
    Comes s st f shflBody fun i => st.lane f.a (shuffleFrom f.x.func.toNat ((st.srcs f).b i) i) := by
  have hfn : f.x.func.toNat ≤ 3 := by
    have hf := legal_func h.toQuiet
    rw [he] at hf
    exact of_decide_eq_true hf
  have hbody : shflBody (jobOf s st e f) = binaryBody (shflVal f.x.func.toNat) (jobOf s st e f) := by
    simp only [shflBody, m_bind, m_form]
    rw [show (jobOf s st e f).f = f from rfl]
  have hrun : run f shflBody s = run f (binaryBody (shflVal f.x.func.toNat)) s := by
    rw [run_quiet h.toQuiet, run_quiet h.toQuiet, hbody]
  rw [Comes, hrun]
  refine comes_of_binary h _ (by rw [he]; rfl) (by rw [he]; rfl) (by rw [he]; rfl) (by rw [he]; rfl) fun k hk => ?_
  rw [shflVal_at hfn _ _ _ hk, lane_at _ _ _ (shuffleFrom_lt _ hk), valB_at _ _ _ hk]

theorem run_lred (he : f.enc = Enc.lred') : Comes s st f lredBody fun _ =>
    (laneTree (combineRule f.x.func.toNat f.x.ty) (st.mask f.pred) (st.lane f.a) 5 0).getD 0 := by
  have hfn : f.x.ty = .f32 → f.x.func.toNat < 3 := by
    intro hty
    have hx := legal_extra h.toQuiet
    rw [he] at hx
    simpa [Enc.lred', hty] using hx
  refine comes_of_write h (vregs_d (by rw [he]; rfl)) (by rw [he]; rfl) (lredBody_calm h (by rw [he]; rfl) (by rw [he]; rfl)) fun k _ _ => ?_
  rw [lredFn_eq hfn, lredTree_eq, Val.at]
  exact congrArg (Option.getD · 0) (laneTree_congr _ _ fun j hj => (lane_at st _ j (by omega)).symm)

theorem run_kpop (he : f.enc = Enc.kpop') :
    Comes s st f kpopBody fun _ => BitVec.ofNat 32 ((List.range 32).countP (st.kreg f.a).has) :=
  comes_of_write h (vregs_d (by rw [he]; rfl)) (by rw [he]; rfl) (kpopBody_calm h) fun _ _ _ => popc_eq _

theorem run_kget (he : f.enc = Enc.kget') : Comes s st f kgetBody fun _ => st.kreg f.a :=
  comes_of_write h (vregs_d (by rw [he]; rfl)) (by rw [he]; rfl) (kgetBody_calm h) fun _ _ _ => rfl

theorem run_ballot (he : f.enc = Enc.vote') (hfn : f.x.func = 2) :
    Comes s st f voteBody fun _ => wordOf fun j => (st.mask f.pred).has j && st.lane f.a j != 0 := by
  refine comes_of_write h (vregs_voteD (by rw [he]; rfl) hfn) (by rw [he]; rfl) (voteBody_ballot h (by rw [he]; rfl) hfn) fun k _ _ => ?_
  refine mask_ext _ _ fun j hj => ?_
  exact (mask_of_has _ _ hj).trans (.trans (by rw [lane_at _ _ _ hj]) (mask_of_has _ _ hj).symm)

end Instructions

/-- Every form of the table moveRule. -/
theorem moveRule_calm {i : Instr} {f : Form} {g : LaneRule} (hi : moveRule i = some (f, g)) {s : State} {st : Strand} {e : Env}
    (h : Calm s st e f) : ∃ t st', exec i s = .next t ∧ OnlyStrand s t st' ∧ Writes st st' f [(f.d, g f.x (st.srcs f))] := by
  cases i with
  | mov o | movX96 o => cases hi; exact run_mov h rfl
  | movi o =>
    cases hi
    exact comes_of_write h (vregs_d rfl) rfl (moviBody_calm h _) fun _ _ _ => rfl
  | lane o | laneX96 o => cases hi; exact run_lane h rfl
  | shapef o | shapefX96 o =>
    obtain ⟨hb, heq⟩ := Option.ite_none_left_eq_some.mp hi
    cases heq
    exact run_shapef h rfl (.inl fun hb3 => hb (BitVec.eq_of_toNat_eq hb3))
  | sqz o | sqzX96 o => cases hi; exact run_sqz h rfl rfl rfl
  | bcast o | bcastX96 o => cases hi; exact run_bcast h rfl
  | shfl o | shflX96 o => cases hi; exact run_shfl h rfl
  | lred o | lredX96 o => cases hi; exact run_lred h rfl
  | kpop o | kpopX96 o => cases hi; exact run_kpop h rfl
  | kget o | kgetX96 o => cases hi; exact run_kget h rfl
  | voteX96 o =>
    obtain ⟨hfn, heq⟩ := Option.ite_none_right_eq_some.mp hi
    cases heq
    exact run_ballot h rfl hfn
  | _ => cases hi

/-! ### A copy left in the vector area (R102, R106, R119) -/

/-- A completed instruction settles onto the state that its body has left, where that differs from another only in the cores' bursts and in the
next free number. -/
theorem settle_coreOnly {s t : State} {st : Strand} {j : Job} (hs : CoreOnly { t with freshId := j.s.freshId } j.s st.core)
    (hjumped : j.jumped = false) (hafter : j.after = none) (hl : j.st.live ≠ 0) (hc : j.st.core = st.core)
    (hcounts : ∀ c, t.ctx? j.e.ctx = some c → ∀ n, 11 ≤ n → n < 16 → (vget c.select n 0).extractLsb' 0 16 ≠ 1) :
    OnlyStrand t (settle s st (.ok () j)) { j.st with pc := j.st.pc + BitVec.ofNat 64 j.f.size } := by
  generalize hx : ({ j.st with pc := j.st.pc + BitVec.ofNat 64 j.f.size } : Strand) = x
  have hxc : x.core = st.core := by rw [← hx]; exact hc
  have hlive : x.live ≠ 0 := by rw [← hx]; exact hl
  have h0 : CoreOnly { t.setStrand x with freshId := j.s.freshId } ((j.s.setStrand x).replayPush st j.f) st.core := by
    apply replayPush_coreOnly
    exact ⟨by simp only [State.setStrand]; rw [hs.same], hs.others, hs.core⟩
  generalize hy : (j.s.setStrand x).replayPush st j.f = y at h0
  have hcnt : y.count j.e.ctx 1 1 = y := by
    apply count_none y j.e.ctx 1 1 (by decide)
    intro c hc' n h1 h2
    have : y.ctxs = t.ctxs := by rw [h0.same]; rfl
    exact hcounts c (by simpa only [State.ctx?, this] using hc') n h1 h2
  have hset : settle s st (.ok () j) = y := by
    simp only [settle, hjumped, Bool.false_eq_true, if_false, hx, hlive, hafter, State.raiseAfter]
    rw [hy, hcnt]
  rw [hset]
  refine ⟨?_, fun n hn => h0.others n (by rw [← hxc]; exact hn), by rw [hxc]; exact h0.core⟩
  rw [h0.same]

theorem touch_ready {s : State} {page : Nat} (h : s.pageReady page = true) (conf pref : Bool) : s.touch page conf pref = s := by
  simp [State.touch, h]

/-- A save changes memory and the poison tags alone. -/
theorem saveBytes_cores (s : State) (cs : List Core) (k ia : Nat) (bytes : List Byte) :
    ({ s with cores := cs, freshId := k } : State).saveBytes ia bytes = { s.saveBytes ia bytes with cores := cs, freshId := k } := by
  unfold State.saveBytes State.clearTags
  simp only [State.reachable, State.dieLive, State.hostLinkUp]
  split
  · split <;> rfl
  · rfl

theorem saveBytes_ctxs (s : State) (ia : Nat) (bytes : List Byte) : (s.saveBytes ia bytes).ctxs = s.ctxs := by
  unfold State.saveBytes State.clearTags
  split
  · split <;> rfl
  · rfl

theorem saveBytes_core (s : State) (ia : Nat) (bytes : List Byte) : (s.saveBytes ia bytes).core = s.core := by
  unfold State.saveBytes State.clearTags
  split
  · split <;> rfl
  · rfl

theorem laneBytes_eq (l : Lanes) : laneBytes l = slotBytesOf l := by
  have hlist : l.toArray.toList = (List.range 32).map l.get := by
    apply List.ext_getElem (by simp)
    intro i h1 h2
    simp [Lanes.get, List.getD_eq_getElem?_getD, List.getElem?_eq_getElem h1]
  rw [laneBytes, hlist, List.flatMap_map, slotBytesOf]

/-- A spill keeps what every register holds. -/
theorem val_spill (st : Strand) {n : Nat} (hn : n < 64) (k : Nat) : (st.spill n).val k = st.val k := by
  unfold Strand.spill
  split
  · next l s hs =>
    by_cases hk : n = k
    · subst hk
      have hreg : ({ st.setReg n { st.reg n with shape := .spilled } with vecArea := vset st.vecArea n l } : Strand).reg n =
          { st.reg n with shape := .spilled } := reg_setReg_same st n _ hn
      simp only [Strand.val, hreg, hs, vget_vset_same _ _ _ _ hn]
    · have hreg : ({ st.setReg n { st.reg n with shape := .spilled } with vecArea := vset st.vecArea n l } : Strand).reg k =
          st.reg k := reg_setReg_ne st n k _ hk
      simp only [Strand.val, hreg, vget_vset_ne _ _ _ _ _ hk]
  · rfl

/-- A spill into a page that is in place: the lanes go to the slot, and the register reads them from there. -/
theorem spillReg_ready {j : Job} (n : Nat) (h : j.s.pageReady (pageOf (j.st.ssa + 128 * n)) = true) :
    ∃ j', spillReg n j = .ok () j' ∧ j'.s = j.s.saveBytes (j.st.ssa + 128 * n) (slotBytesOf (j.st.val n).lanes) ∧
      j'.st = j.st.spill n ∧ j'.e = j.e ∧ j'.f = j.f ∧ j'.jumped = j.jumped ∧ j'.after = j.after := by
  have hb : spillReg n j = updKept (fun s => (s.touch (pageOf (j.st.ssa + 128 * n)) j.e.conf false).saveLanes j.st n)
      (fun st => st.spill n) j := by
    simp only [spillReg, m_bind, m_get, touch_ready h, h, Bool.not_true, Bool.false_eq_true, if_false]
  refine ⟨_, hb, ?_, rfl, rfl, rfl, rfl, rfl⟩
  show (j.s.touch (pageOf (j.st.ssa + 128 * n)) j.e.conf false).saveLanes j.st n = _
  rw [touch_ready h, State.saveLanes, laneBytes_eq]

/-- A value that is not compact is kept lane by lane on a core. -/
theorem commit_lanes_shape (st : Strand) {n : Nat} (x : Lanes) {m : Mask} (hn : n < 64) (ht : st.tile = false) (hm : m ≠ 0) :
    ∃ l s, ((st.commit n (.v x) m).reg n).shape = .v l s := by
  simp only [Strand.commit, if_neg hm, ht, Bool.false_eq_true, if_false, Strand.same]
  split
  · exact ⟨_, _, by rw [reg_wroteLast, reg_setReg_same _ _ _ hn]⟩
  · exact ⟨_, _, by rw [reg_wroteLast, reg_setReg_same _ _ _ hn]⟩

/-- A strand with v[n] and the order of last writes replaced, as a write leaves it. -/
def Strand.rewritten (st : Strand) (n : Nat) (r : VReg) (o : List Nat) : Strand := { st.setReg n r with order := o }

theorem reg_rewritten_same (st : Strand) {n : Nat} (r : VReg) (o : List Nat) (hn : n < 64) : (st.rewritten n r o).reg n = r :=
  reg_setReg_same st n r hn

theorem reg_rewritten_ne (st : Strand) {n k : Nat} (r : VReg) (o : List Nat) (h : n ≠ k) : (st.rewritten n r o).reg k = st.reg k :=
  reg_setReg_ne st n k r h

theorem val_rewritten_lanes (st : Strand) {n : Nat} {r : VReg} (o : List Nat) {l : Lanes} {k : Nat} (hn : n < 64) (hr : r.shape = .v l k) :
    (st.rewritten n r o).val n = .v l := by
  simp [Strand.val, reg_rewritten_same st r o hn, hr]

/-- The register just written, spilled. -/
theorem spill_rewritten (st : Strand) {n : Nat} {r : VReg} (o : List Nat) {l : Lanes} {k : Nat} (hn : n < 64) (hr : r.shape = .v l k) :
    (st.rewritten n r o).spill n =
      { st.rewritten n { r with shape := .spilled } o with vecArea := vset st.vecArea n l } := by
  have hreg := reg_rewritten_same st r o hn
  rw [Strand.spill, hreg, hr]
  simp only [Strand.rewritten, Strand.setReg, vset_vset]

section Spilled
variable {s : State} {st : Strand} {e : Env} {f : Form}

/-- The write of a copy on a core: v[D] is V. -/
theorem writeCopy_calm (h : Calm s st e f) (hd : f.enc.d = .v) (x : Lanes) (ht : st.tile = false) (hm : st.mask f.pred ≠ 0) :
    ∃ r o k l n, writeV f.d (.v x) (st.mask f.pred) (jobOf s st e f) = .ok () ((jobOf s st e f).put (st.rewritten f.d r o) k) ∧
      r.plain = true ∧ r.shape = .v l n ∧
      ∀ i, i < 32 → st.live.has i = true → l.get i = if (st.mask f.pred).has i then x.get i else st.lane f.d i := by
  have hroom : st.slabIds.length < e.floor st := by have := h.room; omega
  have hp := h.plain _ (vregs_d hd)
  obtain ⟨held, k', -, hprep⟩ := prepWrite_plain (quiet_still h.toQuiet) f.d (.v x) (st.mask f.pred) (d_lt f) hp hroom
  obtain ⟨r, o, hc, hpl, -, hl⟩ :=
    commit_plain st f.d held (.v x) (st.mask f.pred) (d_lt f) hp h.noCont h.noForks h.noDetector.2 hm h.oneLane
  obtain ⟨l, n, hshape⟩ := commit_lanes_shape (st.holds f.d held) x (d_lt f) ht hm
  have hr : r.shape = .v l n := by
    rw [hc] at hshape
    exact (congrArg VReg.shape (reg_setReg_same st f.d r (d_lt f))).symm.trans hshape
  refine ⟨r, o, k', l, n, ?_, hpl, hr, fun i hi hlive => ?_⟩
  · rw [writeV, m_bind, hprep]
    exact congrArg (fun st' => EStateM.Result.ok () ((jobOf s st e f).put st' k')) hc
  · have hlane : (st.setReg f.d r).lane f.d i = l.get i := congrArg (fun v : Val => v.lanes.get i) (val_rewritten_lanes st o (d_lt f) hr)
    exact hlane.symm.trans (hl i hi hlive)

/-- The body of SHAPEF with B = 3 on a core, under a mask that is not empty. -/
theorem shapefBody_spilled (h : Calm s st e f) (he : f.enc = Enc.shapef') (hb : f.b = 3) (ht : st.tile = false)
    (hm : st.mask f.pred ≠ 0) (hpage : s.pageReady (pageOf (st.ssa + 128 * f.d)) = true) :
    ∃ j r o k l n, shapefBody (jobOf s st e f) = .ok () j ∧
      j.s = { s.saveBytes (st.ssa + 128 * f.d) (slotBytesOf l) with cores := (s.charged st f.enc.op).cores, freshId := k } ∧
      j.st = (st.rewritten f.d r o).spill f.d ∧ j.e = e ∧ j.f = f ∧ j.jumped = false ∧ j.after = none ∧
      r.plain = true ∧ r.shape = .v l n ∧
      ∀ i, i < 32 → st.live.has i = true → l.get i = if (st.mask f.pred).has i then st.lane f.a i else st.lane f.d i := by
  obtain ⟨r, o, k, l, n, hw, hpl, hr, hl⟩ := writeCopy_calm h (by rw [he]; rfl) (st.val f.a).lanes ht hm
  have hs : ((jobOf s st e f).put (st.rewritten f.d r o) k).s = { s with cores := (s.charged st f.enc.op).cores, freshId := k } :=
    congrArg (fun u : State => { u with freshId := k }) (charged_coreOnly s st f.enc.op).same
  obtain ⟨j, hspill, hjs, hjst, hje, hjf, hjumped, hafter⟩ :=
    spillReg_ready (j := (jobOf s st e f).put (st.rewritten f.d r o) k) f.d (by rw [hs]; exact hpage)
  have hcond : (decide (f.b = 3) && !st.tile) = true := by simp [hb, ht]
  refine ⟨j, r, o, k, l, n, ?_, ?_, hjst, hje, hjf, hjumped, hafter, hpl, hr, hl⟩
  · rw [shapefBody_written h (by rw [he]; rfl) hm hw]
    exact (if_pos hcond).trans hspill
  · rw [hjs, put_st, val_rewritten_lanes st o (d_lt f) hr, hs, saveBytes_cores]
    rfl

/-- What a spill of the register just written leaves of the strand. -/
theorem writes_spilled {r : VReg} {o : List Nat} {l : Lanes} {n : Nat} {g : Nat → Word} (hp : r.plain = true) (hr : r.shape = .v l n)
    (hsr : st.srAfter f = st.sr) (hm : st.mask f.pred ≠ 0)
    (hl : ∀ i, i < 32 → st.live.has i = true → l.get i = if (st.mask f.pred).has i then g i else st.lane f.d i) {st' : Strand}
    (hst : st' = { (st.rewritten f.d r o).spill f.d with pc := st.pc + BitVec.ofNat 64 f.size }) :
    Writes st st' f [(f.d, g)] ∧ (st'.reg f.d).shape = .spilled ∧ st'.val f.d = .v l := by
  have hd := d_lt f
  have hval : ∀ k, st'.val k = (st.rewritten f.d r o).val k := fun k => by
    rw [← val_spill (st.rewritten f.d r o) hd k, hst]
    rfl
  have hvald : st'.val f.d = .v l := (hval f.d).trans (val_rewritten_lanes st o hd hr)
  rw [spill_rewritten st o hd hr] at hst
  have hreg : ∀ k, st'.reg k = (st.rewritten f.d { r with shape := .spilled } o).reg k := fun k => by rw [hst]; rfl
  have hregd : st'.reg f.d = { r with shape := .spilled } := (hreg f.d).trans (reg_rewritten_same st _ o hd)
  obtain ⟨hfull, hpoison, hheld, -⟩ := (plain_iff _).mp hp
  refine ⟨⟨?_, fun k hk => ?_, fun d hmem => ?_⟩, by rw [hregd], hvald⟩
  · rw [hst, hsr]
    rfl
  · have hne : f.d ≠ k := by simpa [eq_comm] using hk
    refine ⟨(hreg k).trans (reg_rewritten_ne st _ o hne), funext fun i => ?_⟩
    rw [Strand.lane, hval]
    exact congrFun (lane_congr (b := st) (reg_rewritten_ne st r o hne) rfl) i
  · obtain rfl : d = (f.d, g) := by simpa using hmem
    refine ⟨by rw [hregd]; exact hfull, by rw [hregd]; exact hpoison, by rw [hregd]; exact hheld, fun h0 => absurd h0 hm, fun i hi hlive => ?_⟩
    rw [Strand.lane, hvald]
    exact hl i hi hlive

theorem saveBytes_coreOnly {s t : State} {n : Nat} (h : CoreOnly s t n) (ia k : Nat) (bytes : List Byte) :
    CoreOnly { s.saveBytes ia bytes with freshId := k } { s.saveBytes ia bytes with cores := t.cores, freshId := k } n := by
  have hcore : ∀ m, ({ s.saveBytes ia bytes with freshId := k } : State).core m = s.core m := fun m => congrFun (saveBytes_core s ia bytes) m
  exact ⟨rfl, fun m hm => (h.others m hm).trans (hcore m).symm, by rw [hcore]; exact h.core⟩

/-- SHAPEF with B = 3 on a core, under a mask that is not empty. -/
theorem run_shapef_spilled (h : Calm s st e f) (he : f.enc = Enc.shapef') (hb : f.b = 3) (ht : st.tile = false) (hm : st.mask f.pred ≠ 0)
    (hpage : s.pageReady (pageOf (st.ssa + 128 * f.d)) = true) :
    ∃ t st' l, run f shapefBody s = .next t ∧ Writes st st' f [(f.d, st.lane f.a)] ∧
      OnlyStrand (s.saveBytes (st.ssa + 128 * f.d) (slotBytesOf l)) t st' ∧ (st'.reg f.d).shape = .spilled ∧ st'.val f.d = .v l := by
  obtain ⟨j, r, o, k, l, n, hbody, hjs, hjst, hje, hjf, hjumped, hafter, hpl, hr, hl⟩ := shapefBody_spilled h he hb ht hm hpage
  have hstrand := hjst.trans (spill_rewritten st o (d_lt f) hr)
  have hcore : CoreOnly { s.saveBytes (st.ssa + 128 * f.d) (slotBytesOf l) with freshId := j.s.freshId } j.s st.core := by
    rw [hjs]
    exact saveBytes_coreOnly (charged_coreOnly s st f.enc.op) _ _ _
  have honly := settle_coreOnly (s := s) hcore hjumped hafter (by rw [hstrand]; exact h.live) (by rw [hstrand]; rfl) (by
    rw [hje]
    intro c hc
    exact (h.noCounters c (by simpa only [State.ctx?, saveBytes_ctxs] using hc)).2)
  have hpc : j.st.pc = st.pc := by rw [hstrand]; rfl
  rw [hpc, hjf, hjst] at honly
  obtain ⟨hwrites, hspilled, hval⟩ := writes_spilled (o := o) hpl hr (srAfter_keep h.toQuiet (by rw [he]; rfl)) hm hl rfl
  exact ⟨_, _, l, by rw [run_quiet h.toQuiet, hbody], hwrites, honly, hspilled, hval⟩

/-- SHAPEF with B = 3: on a core the copy goes to the vector area unless M is empty; an MCC keeps it (R119, R394). -/
theorem run_shapef_copy (h : Calm s st e f) (he : f.enc = Enc.shapef') (hb : f.b = 3)
    (hpage : s.pageReady (pageOf (st.ssa + 128 * f.d)) = true) :
    ∃ t st' l, run f shapefBody s = .next t ∧ Writes st st' f [(f.d, st.lane f.a)] ∧
      if st.mask f.pred = 0 ∨ st.tile = true then OnlyStrand s t st'
      else OnlyStrand (s.saveBytes (st.ssa + 128 * f.d) (slotBytesOf l)) t st' ∧ (st'.reg f.d).shape = .spilled ∧ st'.val f.d = .v l := by
  have ha : f.enc.a = .vs := by rw [he]; rfl
  have hd : f.enc.d = .v := by rw [he]; rfl
  by_cases hm : st.mask f.pred = 0
  · obtain ⟨u, hu, hs⟩ := run_past h.toQuiet (shapefBody_empty h ha hm)
    have hsr := srAfter_keep h.toQuiet (by rw [he]; rfl)
    exact ⟨u, _, Lanes.const 0, hu, writes_none hm hsr (by simpa using h.plain _ (vregs_d hd)), by rw [if_pos (.inl hm)]; exact hs⟩
  cases ht : st.tile with
  | true =>
    obtain ⟨u, st', hu, hs, hw⟩ := run_shapef h he (.inr ht)
    exact ⟨u, st', Lanes.const 0, hu, hw, by rw [if_pos (.inr rfl)]; exact hs⟩
  | false =>
    obtain ⟨t, st', l, ht', hw, hs⟩ := run_shapef_spilled h he hb ht hm hpage
    exact ⟨t, st', l, ht', hw, by rw [if_neg (by simpa using hm)]; exact hs⟩

end Spilled

/-- Settles O2: each body comes to one write of v[D], whose value the laws above put into the terms of the table; SQZ writes every live lane, and
SHAPEF with B = 3 spills what it has written. -/
theorem moveResultPerLane : Obligations.MoveResultPerLane := by
  unfold Obligations.MoveResultPerLane
  refine ⟨fun i f g hi s st e h => moveRule_calm hi h, fun i f hi s st e h hpage => ?_⟩
  cases i with
  | shapef o | shapefX96 o =>
    obtain ⟨hb, heq⟩ := Option.ite_none_right_eq_some.mp hi
    cases heq
    exact run_shapef_copy h rfl (congrArg BitVec.toNat hb) hpage
  | _ => cases hi

end Sys2Proof.Machine
end

section
/-!
PROOF. The merge of a producer's values into its destinations (O44).
-/

namespace Sys2Proof.Machine

/-! ### The write of a value into a register of any contents (R93) -/

theorem noteWrite_free {st : Strand} (hc : st.cont = none) (hf : st.forks = []) (r : RegId) (full : Bool) :
    st.noteWrite r full = { st with dead := (st.noteWrite r full).dead } := by
  simp [Strand.noteWrite, hc, hf]

/-- A live lane is one of a mask that covers. -/
theorem has_of_covers {st : Strand} {m : Mask} (hcov : st.covers m = true) {i : Nat} (hi : i < 32) (hl : st.live.has i = true) :
    m.has i = true := by
  have hzero : (st.live &&& ~~~m).getLsbD i = false := by rw [beq_iff_eq.mp hcov]; simp
  rw [BitVec.getLsbD_and, BitVec.getLsbD_not, show st.live.getLsbD i = true from hl] at hzero
  simpa [hi] using hzero

/-- The one lane of a tile strand is lane 0. -/
theorem eq_zero_of_oneLane {live : Mask} (h1 : live = 1) {i : Nat} (hl : live.has i = true) : i = 0 := by
  subst h1
  have hl : (1#32).getLsbD i = true := hl
  simp only [BitVec.getLsbD_one, Bool.and_eq_true, decide_eq_true_eq] at hl
  exact hl.2

/-- A value that is the register's own has its lanes. -/
theorem lane_of_same {st : Strand} {n : Nat} {t : Val} (h : st.same n t = true) : st.val n = t := by
  revert h
  simp only [Strand.same, Strand.val]
  cases t <;> cases (st.reg n).shape <;> simp_all

/-- A strand with v[n], the order of last writes and the registers that the detector takes for dead replaced. -/
def Strand.merged (st : Strand) (n : Nat) (r : VReg) (o : List Nat) (d : RegSet) : Strand := { st.setReg n r with order := o, dead := d }

theorem reg_merged_same (st : Strand) {n : Nat} (r : VReg) (o : List Nat) (d : RegSet) (hn : n < 64) : (st.merged n r o d).reg n = r :=
  reg_setReg_same st n r hn

theorem reg_merged_ne (st : Strand) {n k : Nat} (r : VReg) (o : List Nat) (d : RegSet) (h : n ≠ k) :
    (st.merged n r o d).reg k = st.reg k :=
  reg_setReg_ne st n k r h

/-- The shape of a register decides its lanes, but for those in the vector area. -/
theorem lane_merged (st : Strand) {n : Nat} {r : VReg} (o : List Nat) (d : RegSet) {t : Val} {k : Nat} (hn : n < 64) (hr : r.shape = t.shapeOn k)
    {i : Nat} (hi : i < 32) : (st.merged n r o d).lane n i = t.at i := by
  have hval : (st.merged n r o d).val n = t := by
    rw [Strand.val, reg_merged_same st r o d hn, hr]
    cases t <;> rfl
  rw [Strand.lane, hval, val_at_lanes _ _ hi]

/-- What the write of a value leaves in a register, whatever that held. -/
theorem commit_any (st : Strand) {n : Nat} (t : Val) {m : Mask} (hn : n < 64) (hc : st.cont = none) (hf : st.forks = []) (hm : m ≠ 0)
    (hone : st.tile = true → st.live = 1) :
    ∃ r o d, st.commit n t m = st.merged n r o d ∧
      ∀ i, i < 32 → st.live.has i = true → (st.merged n r o d).lane n i = if m.has i then t.at i else st.lane n i := by
  simp only [Strand.commit, if_neg hm]
  rw [noteWrite_free hc hf (.v n) true, noteWrite_free hc hf (.v n) false, noteWrite_free hc hf (.v n) (st.covers m)]
  split
  · next ht =>
    refine ⟨_, _, _, rfl, fun i hi hl => ?_⟩
    obtain rfl := eq_zero_of_oneLane (hone ht) hl
    rw [lane_merged st _ _ (t := .u ((mergeLanes (st.val n).lanes t.lanes m).get 0)) (k := 0) hn rfl hi, Val.at, mergeLanes_get _ _ _ _ hi,
      ← val_at_lanes _ _ hi]
    rfl
  split
  · next hcov =>
    refine ⟨_, _, _, rfl, fun i hi hl => ?_⟩
    rw [if_pos (has_of_covers hcov hi hl)]
    exact lane_merged st _ _ hn (by cases t <;> rfl) hi
  split
  · next hsame =>
    refine ⟨{ st.reg n with full := true, held := none }, st.order, _, rfl, fun i hi hl => ?_⟩
    have hkeep : (st.merged n { st.reg n with full := true, held := none } st.order (st.noteWrite (.v n) false).dead).val n = st.val n :=
      val_congr (by rw [reg_merged_same st _ _ _ hn]) rfl
    rw [Strand.lane, hkeep, lane_of_same hsame, val_at_lanes _ _ hi, lane_at _ _ _ hi, lane_of_same hsame, ite_self]
  · refine ⟨_, _, _, rfl, fun i hi _ => ?_⟩
    rw [lane_merged st _ _ (t := .v (mergeLanes (st.val n).lanes t.lanes m)) hn rfl hi, Val.at, mergeLanes_get _ _ _ _ hi,
      ← val_at_lanes _ _ hi]
    rfl

/-! ### The merge (R110) -/

/-- One destination of a producer takes its value. -/
def Strand.mergeReg (st : Strand) (p : Producer) (d : Nat × Lanes) : Strand :=
  let t : Val := if p.uniform then .u (d.2.get 0) else .v (mergeLanes (st.val d.1).lanes d.2 p.mask)
  let st' := st.commit d.1 t p.mask
  st'.setReg d.1 { st'.reg d.1 with full := true, held := none, poison := p.poison || ((st.reg d.1).poison && !st.covers p.mask) }

theorem merge_eq_foldl (st : Strand) (p : Producer) : st.merge p = p.dests.foldl (fun st d => st.mergeReg p d) st := rfl

/-- What lane `i` of a destination holds after the merge. -/
def mergedLane (st : Strand) (p : Producer) (d : Nat × Lanes) (i : Nat) : Word :=
  if p.mask.has i then (if p.uniform then d.2.get 0 else d.2.get i) else st.lane d.1 i

/-- A strand after some destinations, which are listed, have taken their values. -/
structure MergedInto (st st' : Strand) (p : Producer) (ds : List (Nat × Lanes)) : Prop where
  rest : st' = { st with v := st'.v, order := st'.order, dead := st'.dead }
  frame : ∀ n, n ∉ ds.map Prod.fst → st'.reg n = st.reg n
  taken : ∀ d ∈ ds, (st'.reg d.1).full = true ∧ (st'.reg d.1).held = none ∧
    ∀ i, i < 32 → st.live.has i = true → st'.lane d.1 i = mergedLane st p d i

theorem mergeReg_into (st : Strand) (p : Producer) (d : Nat × Lanes) (hn : d.1 < 64) (hc : st.cont = none) (hf : st.forks = [])
    (hm : p.mask ≠ 0) (hone : st.tile = true → st.live = 1) : MergedInto st (st.mergeReg p d) p [d] := by
  obtain ⟨r, o, dead, hcommit, hl⟩ := commit_any st
    (if p.uniform then .u (d.2.get 0) else .v (mergeLanes (st.val d.1).lanes d.2 p.mask)) hn hc hf hm hone
  have hr := reg_merged_same st r o dead hn
  have heq : st.mergeReg p d = st.merged d.1
      { r with full := true, held := none, poison := p.poison || ((st.reg d.1).poison && !st.covers p.mask) } o dead := by
    simp only [Strand.mergeReg, hcommit, hr]
    simp only [Strand.merged, Strand.setReg, vset_vset]
  rw [heq]
  refine ⟨rfl, fun n hn' => reg_merged_ne st _ o dead (by simpa [eq_comm] using hn'), fun d' hd => ?_⟩
  obtain rfl := List.mem_singleton.mp hd
  refine ⟨by rw [reg_merged_same st _ o dead hn], by rw [reg_merged_same st _ o dead hn], fun i hi hlive => ?_⟩
  have hval : (st.merged d'.1 { r with full := true, held := none, poison := p.poison || ((st.reg d'.1).poison && !st.covers p.mask) } o dead).val
      d'.1 = (st.merged d'.1 r o dead).val d'.1 := val_congr (by rw [reg_merged_same st _ o dead hn, hr]) rfl
  rw [Strand.lane, hval]
  refine (hl i hi hlive).trans ?_
  unfold mergedLane
  split
  · next hmask =>
    split
    · rfl
    · rw [Val.at, mergeLanes_get _ _ _ _ hi, if_pos hmask]
  · rfl

/-- The destinations of a producer are different registers, so each keeps what it has taken. -/
theorem foldl_mergeReg (p : Producer) (hm : p.mask ≠ 0) : ∀ (ds : List (Nat × Lanes)) (st : Strand), (ds.map Prod.fst).Nodup →
    (∀ d ∈ ds, d.1 < 64) → st.cont = none → st.forks = [] → (st.tile = true → st.live = 1) →
    MergedInto st (ds.foldl (fun st d => st.mergeReg p d) st) p ds
  | [], st, _, _, _, _, _ => ⟨rfl, fun _ _ => rfl, nofun⟩
  | d :: ds, st, hnd, hlt, hc, hf, hone => by
    obtain ⟨hd, hnd⟩ : d.1 ∉ ds.map Prod.fst ∧ (ds.map Prod.fst).Nodup := List.nodup_cons.mp hnd
    obtain ⟨hrest, hframe, htaken⟩ := mergeReg_into st p d (hlt d List.mem_cons_self) hc hf hm hone
    obtain ⟨hrest', hframe', htaken'⟩ := foldl_mergeReg p hm ds (st.mergeReg p d) hnd (fun x hx => hlt x (List.mem_cons_of_mem _ hx))
      (by rw [hrest]; exact hc) (by rw [hrest]; exact hf) (by rw [hrest]; exact hone)
    rw [List.foldl_cons]
    generalize ds.foldl (fun st d => st.mergeReg p d) (st.mergeReg p d) = st' at *
    generalize st.mergeReg p d = st₁ at *
    have hlive : st₁.live = st.live := by rw [hrest]
    have harea₁ : st₁.vecArea = st.vecArea := by rw [hrest]
    have harea : st'.vecArea = st₁.vecArea := by rw [hrest']
    refine ⟨by rw [hrest', hrest], fun n hn => ?_, fun x hx => ?_⟩
    · obtain ⟨hnd', hnds⟩ : n ≠ d.1 ∧ n ∉ ds.map Prod.fst := by simpa using hn
      exact (hframe' n hnds).trans (hframe n (by simpa using hnd'))
    · rcases List.mem_cons.mp hx with rfl | hx
      · obtain ⟨hfull, hheld, hl⟩ := htaken x List.mem_cons_self
        have hkeep := hframe' x.1 hd
        exact ⟨by rw [hkeep]; exact hfull, by rw [hkeep]; exact hheld, fun i hi h => by rw [lane_congr hkeep harea]; exact hl i hi h⟩
      · obtain ⟨hfull, hheld, hl⟩ := htaken' x hx
        have hne : x.1 ≠ d.1 := fun h => hd (h ▸ List.mem_map_of_mem hx)
        have hsame : st₁.lane x.1 = st.lane x.1 := lane_congr (hframe x.1 (by simpa using hne)) harea₁
        exact ⟨hfull, hheld, fun i hi h => (hl i hi (hlive ▸ h)).trans (by rw [mergedLane, mergedLane, hsame])⟩

/-- The values that a producer installs. -/
theorem shaped_eq (p : Producer) :
    p.shaped = { p with dests := if p.ldt.isSome then p.dests.map fun d => (d.1, transposeLanes d.2) else p.dests } := by
  obtain ⟨_, _, _, _, _, _, _, ldt, _⟩ := p
  cases ldt <;> rfl

theorem completeProducer_done {s : State} {p : Producer} {st : Strand} (hp : s.prods.find? (fun q => q.id == p.id) = some p)
    (hw : p.waiting = []) (hs : s.strand? p.strand = some st) (shape : Producer → Producer) :
    s.completeProducer p.id shape = ({ s with prods := s.prods.filter fun q => q.id != p.id }).setStrand (st.merge (shape p)) := by
  have hs' : ({ s with prods := s.prods.filter fun q => q.id != p.id } : State).strand? p.strand = some st := hs
  simp only [State.completeProducer, hp, hw, List.isEmpty_nil, Bool.not_true, Bool.false_eq_true, if_false, hs']

/-- Settles O44: the merge takes the destinations one by one, and they are different registers. -/
theorem producersComplete : Obligations.ProducersComplete := by
  unfold Obligations.ProducersComplete
  intro s p st hp hw hs hm hnd hlt hc hf hone
  generalize hds : (if p.ldt.isSome then p.dests.map fun d => (d.1, transposeLanes d.2) else p.dests) = ds
  have hfst : ds.map Prod.fst = p.dests.map Prod.fst := by
    rw [← hds]
    split
    · rw [List.map_map]; rfl
    · rfl
  have hlt' : ∀ d ∈ ds, d.1 < 64 := fun d hd => by
    obtain ⟨d', hd', heq⟩ := List.mem_map.mp (hfst ▸ List.mem_map_of_mem hd : d.1 ∈ p.dests.map Prod.fst)
    exact heq ▸ hlt d' hd'
  have hshape : p.shaped = { p with dests := ds } := by rw [shaped_eq, hds]
  obtain ⟨hrest, hframe, htaken⟩ := foldl_mergeReg p hm ds st (hfst ▸ hnd) hlt' hc hf hone
  refine ⟨st.merge p.shaped, congrArg _ (completeProducer_done hp hw hs _), ?_⟩
  rw [hshape, merge_eq_foldl]
  exact ⟨hrest, fun n hn => hframe n (hfst ▸ hn), htaken⟩

end Sys2Proof.Machine
end

section
/-!
PROOF. A group of two strands with one index is saved with a mask of living strands that says none (O49, refuted): what a world switch leaves of the
current context, and the state that shows it.
-/

namespace Sys2Proof.Machine

/-! ### What leaves the current context as it is: the memory side -/

/-- What every step of a fold keeps, the fold keeps. -/
theorem foldl_keeps {α β γ : Type} (p : β → γ) {f : β → α → β} (hf : ∀ b a, p (f b a) = p b) (l : List α) (b : β) :
    p (l.foldl f b) = p b := by
  induction l generalizing b with
  | nil => rfl
  | cons a l ih => rw [List.foldl_cons, ih, hf]

/-- A fold of state changes that each leave the current context leaves it. -/
theorem foldl_current {α : Type} {f : State → α → State} (hf : ∀ s a, (f s a).dev.current = s.dev.current) (l : List α) (s : State) :
    (l.foldl f s).dev.current = s.dev.current :=
  foldl_keeps (fun t => t.dev.current) hf l s

@[simp] theorem touch_current (s : State) (page : Nat) (conf pref : Bool) : (s.touch page conf pref).dev.current = s.dev.current := by
  unfold State.touch
  split
  · rfl
  · split <;> rfl

@[simp] theorem touchRange_current (s : State) (conf pref : Bool) (ia n die : Nat) :
    (s.touchRange conf pref ia n die).1.dev.current = s.dev.current := by
  refine foldl_keeps (fun acc : State × Bool × List Nat => acc.1.dev.current) (fun acc i => ?_) _ _
  dsimp only
  split_ifs <;> exact touch_current _ _ _ _

@[simp] theorem countLost_current (s : State) (ia : Nat) : (s.countLost ia).dev.current = s.dev.current := by
  unfold State.countLost
  split <;> rfl

@[simp] theorem h4Clean_current (s : State) (line : Nat) : (s.h4Clean line).dev.current = s.dev.current := by
  unfold State.h4Clean
  split
  · rfl
  · dsimp only
    split
    · rfl
    · exact countLost_current _ _

@[simp] theorem h4Sys_current (s : State) (line : Nat) : (s.h4Sys line).dev.current = s.dev.current := h4Clean_current s line

@[simp] theorem sliceRoom_current (s : State) (line : Nat) : (s.sliceRoom line).dev.current = s.dev.current := by
  simp only [State.sliceRoom]
  split
  · rfl
  · split
    · rfl
    · split
      · exact h4Clean_current _ _
      · rfl

@[simp] theorem lose_current (s : State) (src : ReadCopy) (hits : Sector → Bool) (who : Nat) : (s.lose src hits who).dev.current = s.dev.current := by
  unfold State.lose
  split <;> rfl

@[simp] theorem dropOthers_current (s : State) (core line : Nat) : (s.dropOthers core line).dev.current = s.dev.current := by
  refine foldl_current (fun t c => ?_) _ _
  unfold State.l1Drop
  split
  · rfl
  · exact lose_current _ _ _ _

@[simp] theorem homePut_current (s : State) (sys : Bool) (ia : Nat) (b : Byte) : (s.homePut sys ia b).dev.current = s.dev.current := by
  unfold State.homePut
  split
  · rfl
  · split <;> rfl

@[simp] theorem clearTags_current (s : State) (ia n : Nat) : (s.clearTags ia n).dev.current = s.dev.current := by
  unfold State.clearTags
  split <;> rfl

@[simp] theorem homeStore_current (s : State) (core who : Nat) (sys : Bool) (ia : Nat) (bytes : List Byte) :
    (s.homeStore core who sys ia bytes).dev.current = s.dev.current := by
  have zero : ∀ (t : State) (p : Nat → Bool),
      (if t.zeroLines.isEmpty then t else { t with zeroLines := t.zeroLines.filter p }).dev.current = t.dev.current := by
    intro t p
    split <;> rfl
  unfold State.homeStore
  rw [lose_current, clearTags_current, zero, foldl_current fun t i => homePut_current t _ _ _]
  have dropped := fun ls => foldl_current (fun t l => dropOthers_current t core l) ls s
  split
  · cases sys
    · exact (foldl_current sliceRoom_current _ _).trans (dropped _)
    · exact (foldl_current h4Sys_current _ _).trans (dropped _)
  · exact dropped _

@[simp] theorem homeWrite_current (s : State) (core who : Nat) (sys : Bool) (ia : Nat) (bytes : List Byte) :
    (s.homeWrite core who sys ia bytes).dev.current = s.dev.current := by
  simp [State.homeWrite]

@[simp] theorem vtouch_current (s : State) (c : Ctx) (va n : Nat) : (s.vtouch c va n).1.dev.current = s.dev.current := by
  unfold State.vtouch
  split
  · rfl
  · dsimp only
    split
    · rw [foldl_current fun t i => h4Sys_current t _, touchRange_current]
    · exact touchRange_current _ _ _ _ _ _

theorem vwrite_current {s t : State} {c : Ctx} {va : Nat} {bytes : List Byte} (h : s.vwrite c va bytes = some t) :
    t.dev.current = s.dev.current := by
  unfold State.vwrite at h
  split at h
  · cases h
  · split at h
    · unfold State.vput at h
      split at h
      · cases h
      · split at h
        · cases h
          exact homeWrite_current _ _ _ _ _ _
        · cases h
    · cases h

/-! ### Contexts, their events and their faults -/

@[simp] theorem bump_current (s : State) (ctx n k : Nat) : (s.bump ctx n k).dev.current = s.dev.current := by
  unfold State.bump
  split <;> rfl

@[simp] theorem noteLack_current (s : State) (ctx : Nat) (pref : Bool) (pages : List Nat) :
    (s.noteLack ctx pref pages).dev.current = s.dev.current := by
  refine foldl_current (fun t p => ?_) _ _
  unfold State.postNoFrames
  split
  · rfl
  · dsimp only
    split_ifs <;> rfl

@[simp] theorem readyRange_current (s : State) (c : Ctx) (lo len : Nat) : (s.readyRange c lo len).1.dev.current = s.dev.current := by
  have touched := touchRange_current s c.conf false lo len 4
  unfold State.readyRange
  split <;> rename_i h <;> rw [h] at touched
  · exact touched
  · rw [noteLack_current]
    exact touched

@[simp] theorem traceWrite_current (s : State) (c : Ctx) (item : List Byte) (count : Nat) :
    (s.traceWrite c item count).dev.current = s.dev.current := by
  unfold State.traceWrite
  split
  · rfl
  · exact homeWrite_current _ _ _ _ _ _

@[simp] theorem traceSeal_current (s : State) (ctx : Nat) : (s.traceSeal ctx).dev.current = s.dev.current := by
  unfold State.traceSeal
  split
  · rfl
  · split
    · rfl
    · exact traceWrite_current _ _ _ _

@[simp] theorem tracePost_current (s : State) (ctx : Nat) (t : TraceItem) : (s.tracePost ctx t).dev.current = s.dev.current := by
  unfold State.tracePost
  split
  · rfl
  · dsimp only
    split
    · rfl
    · split
      · split
        · exact traceSeal_current _ _
        · rfl
      · exact traceWrite_current _ _ _ _

@[simp] theorem traceOf_current (s : State) (st : Strand) (kind tag addr : Nat) : (s.traceOf st kind tag addr).dev.current = s.dev.current := by
  unfold State.traceOf
  split
  · rfl
  · split
    · exact tracePost_current _ _ _
    · rfl

@[simp] theorem dropCont_current (s : State) (cid : Nat) : (s.dropCont cid).dev.current = s.dev.current := rfl

@[simp] theorem squash_current (s : State) (cid code : Nat) : (s.squash cid code).dev.current = s.dev.current := by
  unfold State.squash
  split
  · rfl
  · rw [dropCont_current]
    split
    · rw [bump_current, traceOf_current]
    · rw [traceOf_current]

@[simp] theorem squashWhere_current (s : State) (p : Strand → Bool) : (s.squashWhere p).dev.current = s.dev.current :=
  foldl_current (fun t id => squash_current t id 6) _ _

@[simp] theorem preempt_current (s : State) (team : Nat) : (s.preempt team).dev.current = s.dev.current := by
  unfold State.preempt
  split
  · rfl
  · split
    · rfl
    · exact squashWhere_current _ _

@[simp] theorem quiesce_current (s : State) (ctx : Nat) : (s.quiesce ctx).dev.current = s.dev.current := by
  unfold State.quiesce
  rw [foldl_current preempt_current, squashWhere_current]

@[simp] theorem startSwitch_current (s : State) (ctx : Nat) : (s.startSwitch ctx).dev.current = s.dev.current := by
  unfold State.startSwitch
  split
  · exact bump_current _ _ _ _
  · rfl

@[simp] theorem hubBytes_current (s : State) (ctx ia : Nat) (conf pref : Bool) (data : List Byte) :
    (s.hubBytes ctx ia conf pref data).1.dev.current = s.dev.current := by
  have touched := touchRange_current s conf pref ia data.length 4
  unfold State.hubBytes
  dsimp only
  split
  · rw [homeWrite_current, touched]
  · rw [noteLack_current, touched]

theorem saveCounters_current {s t : State} {c : Ctx} (h : s.saveCounters c = some t) : t.dev.current = s.dev.current := by
  have written := hubBytes_current s c.id c.ctxSave c.conf false (c.counters.toArray.toList.flatMap fun x => bytesLE 8 x.toNat)
  unfold State.saveCounters at h
  split at h
  · dsimp only at h
    split at h <;> rename_i put <;> rw [put] at written <;> cases h <;> exact written
  · cases h

@[simp] theorem contextFault_current (s : State) (ctx cause : Nat) : (s.contextFault ctx cause).dev.current = s.dev.current := by
  unfold State.contextFault
  split
  · rfl
  · dsimp only
    split
    · rfl
    · split
      · rw [traceSeal_current, quiesce_current, startSwitch_current, setCtx_dev]
      · next d _ =>
        cases saved : State.saveCounters _ d with
        | none => rw [Option.getD_none, traceSeal_current, quiesce_current, startSwitch_current, setCtx_dev]
        | some t =>
          rw [Option.getD_some, saveCounters_current saved, traceSeal_current, quiesce_current, startSwitch_current, setCtx_dev]

@[simp] theorem postNow_current (s : State) (ctx type : Nat) (body : List Byte) : (s.postNow ctx type body).1.dev.current = s.dev.current := by
  unfold State.postNow
  split
  · rfl
  · next c _ =>
    have touched := vtouch_current s c (c.eqBase.toNat + 128 * (c.eqTail.toNat % 2 ^ c.eqSize)) 128
    split
    · rfl
    · split
      · rfl
      · dsimp only
        split <;> rename_i vt <;> rw [vt] at touched
        · rw [noteLack_current]
          exact touched
        · split
          · rw [contextFault_current]
            exact touched
          · next hw => exact (vwrite_current hw).trans touched

@[simp] theorem post_current (s : State) (ctx type : Nat) (body : List Byte) : (s.post ctx type body).dev.current = s.dev.current := by
  have now := postNow_current s ctx type body
  unfold State.post
  split
  · rfl
  · split <;> rename_i h <;> rw [h] at now <;> exact now

@[simp] theorem ctxTo_current (s : State) (ctx : Nat) (st : CState) (cause : Nat) : (s.ctxTo ctx st cause).dev.current = s.dev.current := by
  unfold State.ctxTo
  split
  · rfl
  · exact post_current _ _ _ _

/-! ### What a world switch that goes on leaves -/

@[simp] theorem countersReady_current (s : State) (c : Ctx) : (s.countersReady c).1.dev.current = s.dev.current := by
  unfold State.countersReady
  split
  · rfl
  · split
    · exact readyRange_current _ _ _ _
    · rfl

@[simp] theorem wakeSaved_current (s : State) : s.wakeSaved.dev.current = s.dev.current := by
  unfold State.wakeSaved
  split
  · rfl
  · next c _ =>
    have ready := countersReady_current s c
    split
    · rfl
    · split <;> rename_i h <;> rw [h] at ready
      · split
        · rw [ctxTo_current, setCtx_dev]
          exact ready
        · exact ready
      · exact ready

@[simp] theorem makeCurrent_current (s : State) (id : Option Nat) : (s.makeCurrent id).dev.current = id := by
  unfold State.makeCurrent
  rw [wakeSaved_current]

/-- Where no context becomes current, nothing of the rotation changes. -/
theorem makeCurrent_none_rotation (s : State) : (s.makeCurrent none).rotation = s.rotation := rfl

/-- The rotation is empty where it has no next member. -/
theorem eq_nil_of_nextIn {rot : List Nat} {c : Nat} (h : nextIn rot c = none) : rot = [] := by
  unfold nextIn at h
  split at h
  · cases h
  · exact List.head?_eq_none_iff.mp h

/-- A world switch that goes on leaves a context current, or the rotation is empty (R432). -/
theorem rotation_of_settleWorld {s : State} (h : s.settleWorld.dev.current = none) : s.settleWorld.rotation = [] := by
  revert h
  unfold State.settleWorld
  dsimp only
  split
  · split
    · intro h
      rw [makeCurrent_current] at h
      cases h
    · next hr => exact fun _ => List.head?_eq_none_iff.mp hr
  · next c hc =>
    split
    · intro h
      rw [wakeSaved_current, hc] at h
      cases h
    · intro h
      rw [makeCurrent_current] at h
      rw [h, makeCurrent_none_rotation]
      exact eq_nil_of_nextIn h

/-- A team's settling leaves the machine as it is, or ends with a world switch that goes on (R333, R432). -/
theorem settleSaved_or (s : State) (tid : Nat) : s.settleSaved tid = s ∨ ∃ x : State, s.settleSaved tid = x.settleWorld := by
  unfold State.settleSaved
  split
  · exact Or.inl rfl
  · dsimp only
    split
    · exact Or.inr ⟨_, rfl⟩
    · exact Or.inl rfl

/-- With no context current and a member in the rotation, settling has done nothing. -/
theorem eq_of_settleSaved {s t : State} {tid : Nat} (h : t = s.settleSaved tid) (hnone : t.dev.current = none) (hrot : t.rotation ≠ []) : t = s := by
  rcases settleSaved_or s tid with he | ⟨x, he⟩
  · exact h.trans he
  · rw [h.trans he] at hnone hrot
    exact absurd (rotation_of_settleWorld hnone) hrot

/-! ### A group of two strands with one index -/

/-- The bench's launch. -/
def twinsLaunch : Launch :=
  { id := 6, ctx := 1, q := 0, index := 0, kernel := benchBase, prio := 5, dynScr := 0, gx := 1, gy := 1, gz := 1, args := 0
    argLen := 0, seed := 0, done := 0, pages := [0], started := [0], since := 0, seq := 0 }

/-- Its team, draining, without a tile strand. -/
def twinsTeam : Team :=
  { id := 1, launch := 6, index := 0, state := .preempting, cluster := 0, level := 5, since := 0, groups := [2], tile := none, tileSave := 0
    leases := [], ssas := [0x20000] }

/-- The group to be saved. -/
def twinsGroup : Group := { startGroup 2 1 0 0 0 5 4096 0x60000 with mapSeen := 1, state := .preempting }

/-- Its context, a member of the rotation. -/
def twinsCtx : Ctx := { benchCtx with sliced := true }

/-- The bench with a strand of index 0 that has exited before the living one of index 0, both of the group to be saved, at a listed point. A second group
of the team is not to be saved yet, and no context is current. -/
def twinsState : State :=
  let s := State.reset.bench false []
  { s with teams := [twinsTeam], strands := [{ benchStrand with id := 5, state := .exited }, benchStrand]
           groups := [twinsGroup, { twinsGroup with id := 20, state := .running }]
           pages := (List.range 16).map fun n => { page := n, frame := n + 1 }
           ctxs := [twinsCtx]
           kernels := s.kernels.map fun k => { k with side := [{ off := 0x100, blive := 0xFFFF, klive := 0xFE, jlive := 0xFF, vlive := 5 }] } }

/-- What is to be saved lies apart and in reach. -/
theorem savable_twins : Savable twinsState (savedAreas twinsState twinsGroup) where
  apart := by decide +kernel
  reach a ha i hi := by
    have inReach : (savedAreas twinsState twinsGroup).all (fun a => (List.range a.2).all fun i => twinsState.reachable (a.1 + i)) = true := by
      decide +kernel
    exact List.all_eq_true.mp (List.all_eq_true.mp inReach a ha) i (List.mem_range.mpr hi)
  l1 := rfl
  conts := by decide +kernel
  wf := by decide +kernel

/-- The areas are ready. -/
theorem readyAreas_twins : (twinsState.readyAreas twinsCtx (savedAreas twinsState twinsGroup)).2 = true := by decide +kernel

/-- The save leaves no context current, and one in the rotation. -/
theorem groupSave_twins_waits : (twinsState.groupSave 2).dev.current = none ∧ (twinsState.groupSave 2).rotation ≠ [] := by decide +kernel

/-- The record that the save writes says that no strand lives. -/
theorem groupSave_twins_mask : (twinsState.groupSave 2).field 0x60030 4 = 0 := by decide +kernel

/-- The record that the statement asks for says that strand 0 lives. -/
theorem saveFields_twins_mask : (0x30, 4, 1) ∈
    saveFields twinsState twinsGroup twinsLaunch benchHeader (twinsState.strands.filter fun x => x.group == twinsGroup.id && !x.tile) := by
  decide +kernel

/-- Refutes O49, in its clause of a drained group that is saved: of two strands of the group with one index, the first has exited and the second lives.
The record's mask of living strands goes by the first (0), the statement's by any (1), and no hypothesis keeps the indices apart. -/
theorem not_teamsWaitAndGoAway : ¬ Obligations.TeamsWaitAndGoAway := by
  unfold Obligations.TeamsWaitAndGoAway
  rintro ⟨-, -, -, -, saves, -⟩
  obtain ⟨-, saved⟩ := saves twinsState (twinsState.readyAreas twinsCtx (savedAreas twinsState twinsGroup)).1 twinsGroup twinsTeam twinsLaunch
    benchHeader 4096 twinsCtx rfl rfl rfl rfl rfl rfl rfl rfl (by decide +kernel) rfl rfl
  obtain ⟨v, hexec, hv⟩ := saved (Prod.ext rfl readyAreas_twins) savable_twins
  have hsettled : twinsState.groupSave 2 = v.settleSaved twinsTeam.id := by
    have hrun : exec (.groupSave 2) twinsState = .next (twinsState.groupSave 2) := rfl
    exact Host.Outcome.next.inj (hrun.symm.trans hexec)
  have hsame : twinsState.groupSave 2 = v := eq_of_settleSaved hsettled groupSave_twins_waits.1 groupSave_twins_waits.2
  have hfield : v.field 0x60030 4 = 1 := hv.record _ saveFields_twins_mask
  rw [← hsame, groupSave_twins_mask] at hfield
  exact absurd hfield (by decide)

end Sys2Proof.Machine
end

section
/-!
PROOF. Transfers of control (O13, refuted): an EXIT that ends a strand's last lanes in a call that is to train, where nothing is in flight to fill the
return registers.
-/

namespace Sys2Proof.Machine

/-! ### A strand whose return register stays empty -/

/-- A strand of the bench inside a call that is to train for v0, which is empty. -/
def unfilledStrand : Strand :=
  { benchStrand.setReg 0 { full := false } with
    rets := [{ ra := 0x1140, cm := BitVec.allOnes 32, train := some { index := 0, tag := 0, ret := 1 } }] }

/-- The bench with that strand about to issue. No producer is in flight. -/
def unfilledState : State :=
  { State.reset.bench false [] with
    cur := 3, strands := [unfilledStrand, benchTile]
    cores := [{ n := 0, replay := vtab 4 fun _ => [], burst := vtab 4 fun _ => 64, burstFrom := vtab 4 fun _ => 0 }] }

/-- Its environment. -/
def unfilledEnv : Env :=
  { group := 2, team := 1, launch := 6, ctx := 1, hdr := benchHeader, base := benchBase, level := 5, conf := false, feed := false }

/-- EXIT under no predicate. -/
abbrev exitForm : Form := Form.b32 Enc.exit' {}

/-- The strand when all its lanes have ended. -/
def unfilledEnded : Strand := { unfilledStrand with live := 0, path := 0 }

theorem noCounters_benchCtx {c : Ctx} (h : unfilledState.ctx? 1 = some c) :
    c.trace.on = false ∧ ∀ n, 11 ≤ n → n < 16 → (vget c.select n 0).extractLsb' 0 16 ≠ 1 := by
  obtain rfl : c = benchCtx := (Option.some.inj h).symm
  refine ⟨rfl, fun n hlo hhi => ?_⟩
  rw [show vget benchCtx.select n 0 = 0 from vget_vtab 16 n _ 0 hhi]
  decide

theorem quiet_unfilled : Quiet unfilledState unfilledStrand unfilledEnv exitForm where
  cur := rfl
  env := rfl
  ready := rfl
  live := by decide
  legal := by decide
  unit := by decide
  declared := by decide
  present := by decide +kernel
  noCont := rfl
  noForks := rfl
  oneLane := nofun
  burst := fun _ => by decide +kernel
  noShadow := rfl
  noDetector := ⟨by decide, rfl⟩
  noCounters _ h := noCounters_benchCtx h

/-- EXIT of every lane ends the path. -/
theorem endRule_unfilled : endRule unfilledState unfilledStrand unfilledEnv (.exit {}) =
    some { form := exitForm, byExit := true, lanes := 0, strand := unfilledEnded } := by
  rfl

/-- By the statement the strand waits at the pop of its return entry: every lane of the call has ended, and v0 is empty. -/
theorem selects_unfilled : Selects unfilledEnv.base true unfilledState unfilledEnded (.waits unfilledState unfilledEnded) :=
  .returnWaits rfl rfl rfl rfl rfl

/-- In the model the strand has exited, for no producer of it is in flight; as the last of its group it is gone with it. -/
theorem exec_exit_unfilled :
    (match exec (.exit {}) unfilledState with
      | .next t => t.strand? 3
      | _ => some unfilledStrand) = none := by
  decide +kernel

/-- Refutes O13, in its clause of paths that end: EXIT ends the last lanes of a strand inside a call with a training record, one of whose return
registers is empty. By Selects the strand waits at the pop of the entry; in the model a strand without live lanes and without producers exits as the
instruction settles. No hypothesis of the statement says that an empty register has a producer in flight. -/
theorem not_transfersOfControl : ¬ Obligations.TransfersOfControl := by
  unfold Obligations.TransfersOfControl
  rintro ⟨-, ends, -⟩
  obtain ⟨t, hexec, honly⟩ := ends _ _ _ _ _ _ endRule_unfilled quiet_unfilled selects_unfilled
  have hgone : t.strand? 3 = none := by simpa only [hexec] using exec_exit_unfilled
  have hfound : t.strand? 3 = some { unfilledEnded with state := .blocked .resolve } := honly.found (st := unfilledStrand) rfl rfl
  rw [hgone] at hfound
  cases hfound

end Sys2Proof.Machine
end

section
/-!
PROOF. j registers read and written (R163, R178): several v registers written as one effect, and JGET and JPUT in calm (O14).
-/

namespace Sys2Proof.Machine

/-! ### Several registers written as one effect (R93, R98) -/

/-- The register is full, resident and without poison; it may hold a slab for a merge. -/
def VReg.prepared (r : VReg) : Bool := ({ r with held := none } : VReg).plain

theorem setReg_holds (st : Strand) {n : Nat} (held : Option Nat) (r : VReg) : (st.holds n held).setReg n r = st.setReg n r :=
  setReg_setReg st n _ r

theorem holds_held (st : Strand) {n : Nat} (hn : n < 64) : (st.holds n none).holds n (st.reg n).held = st := by
  rw [Strand.holds, setReg_holds, Strand.holds, reg_setReg_same _ _ _ hn]
  exact setReg_reg st n hn

/-- The write of a value into a prepared register, under a mask that is not empty. -/
theorem commit_prepared (st : Strand) {n : Nat} (t : Val) {m : Mask} (hn : n < 64) (hp : (st.reg n).prepared = true) (hc : st.cont = none)
    (hf : st.forks = []) (hd : st.dead = {}) (hm : m ≠ 0) (hone : st.tile = true → st.live = 1) :
    ∃ r o, st.commit n t m = { st.setReg n r with order := o } ∧ r.plain = true ∧
      ∀ i, i < 32 → st.live.has i = true → (st.setReg n r).lane n i = if m.has i then t.at i else st.lane n i := by
  have hreg : (st.holds n none).reg n = { st.reg n with held := none } := reg_setReg_same _ _ _ hn
  have hlane : (st.holds n none).lane n = st.lane n := by
    funext i
    exact congrArg (fun v : Val => v.lanes.get i) (val_congr (a := st.holds n none) (by rw [hreg]) rfl)
  obtain ⟨r, o, hcommit, hplain, -, hlanes⟩ :=
    commit_plain (st.holds n none) n (st.reg n).held t m hn (hreg ▸ hp) hc hf hd hm hone
  rw [holds_held st hn, setReg_holds] at hcommit
  rw [setReg_holds, hlane] at hlanes
  exact ⟨r, o, hcommit, hplain, hlanes⟩

/-- `st'` is `st` after some values have been written under a mask, each to its register. -/
structure Merges (st st' : Strand) (m : Mask) (ws : List (Nat × Val)) : Prop where
  rest : st' = { st with v := st'.v, order := st'.order }
  frame : ∀ n, n ∉ ws.map Prod.fst → st'.reg n = st.reg n
  plain : ∀ w ∈ ws, (st'.reg w.1).plain = true
  lanes : ∀ w ∈ ws, ∀ i, i < 32 → st.live.has i = true → st'.lane w.1 i = if m.has i then w.2.at i else st.lane w.1 i

theorem Merges.nil (st : Strand) (m : Mask) : Merges st st m [] := ⟨rfl, fun _ _ => rfl, nofun, nofun⟩

/-- A register that a merge leaves has its lanes as well. -/
theorem Merges.frame_lane {st st' : Strand} {m : Mask} {ws : List (Nat × Val)} (h : Merges st st' m ws) {n : Nat} (hn : n ∉ ws.map Prod.fst) :
    st'.lane n = st.lane n :=
  lane_congr (h.frame n hn) (by rw [h.rest])

/-- Values written to different registers, one after the other. -/
theorem commits_merges (m : Mask) (hm : m ≠ 0) : ∀ (ws : List (Nat × Val)) (st : Strand), (ws.map Prod.fst).Nodup →
    (∀ w ∈ ws, w.1 < 64 ∧ (st.reg w.1).prepared = true) → st.cont = none → st.forks = [] → st.dead = {} →
    (st.tile = true → st.live = 1) → Merges st (ws.foldl (fun x w => x.commit w.1 w.2 m) st) m ws
  | [], st, _, _, _, _, _, _ => .nil st m
  | (n, t) :: ws, st, hnd, hws, hc, hf, hd, hone => by
    obtain ⟨hnotin, hnd'⟩ := List.nodup_cons.mp hnd
    obtain ⟨hn, hp⟩ := hws (n, t) List.mem_cons_self
    obtain ⟨r, o, hcommit, hplain, hlanes⟩ := commit_prepared st t hn hp hc hf hd hm hone
    have hregn : ({ st.setReg n r with order := o } : Strand).reg n = r := reg_setReg_same st n r hn
    have hregs : ∀ k, n ≠ k → ({ st.setReg n r with order := o } : Strand).reg k = st.reg k := fun k => reg_setReg_ne st n k r
    have hne : ∀ w ∈ ws, n ≠ w.1 := fun w hw heq => hnotin (List.mem_map.mpr ⟨w, hw, heq.symm⟩)
    have ih := commits_merges m hm ws { st.setReg n r with order := o } hnd'
      (fun w hw => ⟨(hws w (List.mem_cons_of_mem _ hw)).1, by rw [hregs _ (hne w hw)]; exact (hws w (List.mem_cons_of_mem _ hw)).2⟩)
      hc hf hd hone
    rw [List.foldl_cons, hcommit]
    generalize ws.foldl (fun x w => x.commit w.1 w.2 m) { st.setReg n r with order := o } = st' at ih ⊢
    refine ⟨by rw [ih.rest]; rfl, fun k hk => ?_, List.forall_mem_cons.mpr ⟨?_, ih.plain⟩,
      List.forall_mem_cons.mpr ⟨fun i hi hl => ?_, fun w hw i hi hl => ?_⟩⟩
    · obtain ⟨hkn, hkws⟩ := List.ne_and_not_mem_of_not_mem_cons hk
      exact (ih.frame k hkws).trans (hregs k (Ne.symm hkn))
    · rw [ih.frame n hnotin, hregn]
      exact hplain
    · rw [ih.frame_lane hnotin]
      exact hlanes i hi hl
    · rw [ih.lanes w hw i hi hl]
      exact congrArg (fun x : Word => if m.has i then w.2.at i else x) (congrFun (lane_congr (hregs _ (hne w hw)) rfl) i)

/-- `st'` is `st` with some registers made ready for a write: each may hold a slab. -/
structure Readies (st st' : Strand) (ns : List Nat) : Prop where
  rest : st' = { st with v := st'.v }
  frame : ∀ n, n ∉ ns → st'.reg n = st.reg n
  held : ∀ n ∈ ns, ({ st'.reg n with held := none } : VReg) = st.reg n

theorem forM_cons_ok {α : Type} {act : α → M Unit} {a : α} {l : List α} {j j' : Job} (h : act a j = .ok () j') :
    (a :: l).forM act j = l.forM act j' :=
  bind_ok (g := fun _ => l.forM act) h

/-- Different registers that are plain are made ready one after the other, where the strand has a slab to spare for each. -/
theorem prepWrites_readies (m : Mask) : ∀ (ws : List (Nat × Val)) (j : Job), j.Still → (ws.map Prod.fst).Nodup →
    (∀ w ∈ ws, w.1 < 64 ∧ (j.st.reg w.1).plain = true) → j.st.slabIds.length + ws.length ≤ j.e.floor j.st →
    ∃ st' k, ws.forM (fun w => prepWrite w.1 w.2 m) j = .ok () (j.put st' k) ∧ Readies j.st st' (ws.map Prod.fst)
  | [], j, _, _, _, _ => ⟨j.st, j.s.freshId, rfl, rfl, fun _ _ => rfl, nofun⟩
  | (n, t) :: ws, j, h, hnd, hws, hroom => by
    obtain ⟨hnotin, hnd'⟩ := List.nodup_cons.mp hnd
    obtain ⟨hn, hp⟩ := hws (n, t) List.mem_cons_self
    rw [List.length_cons] at hroom
    obtain ⟨held, k, -, hprep⟩ := prepWrite_plain h n t m hn hp (by omega)
    have hheld := ((plain_iff _).mp hp).2.2.1
    have hslabs : (j.st.holds n held).slabIds.length ≤ j.st.slabIds.length + 1 := slabIds_holds j.st held hn hheld
    have hregs : ∀ i, n ≠ i → (j.st.holds n held).reg i = j.st.reg i := fun i => reg_holds_ne j.st held
    have hne : ∀ w ∈ ws, n ≠ w.1 := fun w hw heq => hnotin (List.mem_map.mpr ⟨w, hw, heq.symm⟩)
    obtain ⟨st', k', hrest, hready⟩ := prepWrites_readies m ws (j.put (j.st.holds n held) k) (h.put _ k rfl rfl rfl rfl rfl rfl) hnd'
      (fun w hw => ⟨(hws w (List.mem_cons_of_mem _ hw)).1, by rw [put_st, hregs _ (hne w hw)]; exact (hws w (List.mem_cons_of_mem _ hw)).2⟩)
      (show (j.st.holds n held).slabIds.length + ws.length ≤ j.e.floor j.st by omega)
    rw [put_st] at hready
    refine ⟨st', k', (forM_cons_ok (act := fun (w : Nat × Val) => prepWrite w.1 w.2 m) hprep).trans hrest, by rw [hready.rest]; rfl, fun i hi => ?_,
      List.forall_mem_cons.mpr ⟨?_, fun i hi => ?_⟩⟩
    · obtain ⟨hin, hiws⟩ := List.ne_and_not_mem_of_not_mem_cons hi
      exact (hready.frame i hiws).trans (hregs i (Ne.symm hin))
    · rw [hready.frame n hnotin, Strand.holds, reg_setReg_same _ _ _ hn, ← hheld]
    · rw [hready.held i hi]
      exact hregs i fun heq => hnotin (heq ▸ hi)

theorem forM_upd {α : Type} (g : α → Strand → Strand) : ∀ (l : List α) (j : Job),
    l.forM (fun a => upd (g a)) j = .ok () { j with st := l.foldl (fun x a => g a x) j.st }
  | [], _ => rfl
  | a :: l, j => (forM_cons_ok (act := fun a => upd (g a)) (m_upd (g a) j)).trans (forM_upd g l _)

/-- Several writes as one effect, under a mask that is not empty: only the registers written differ, and a few numbers of slabs are used. -/
theorem writeAll_plain {j : Job} (h : j.Still) {ws : List (Nat × Val)} {m : Mask} (hm : m ≠ 0) (hnd : (ws.map Prod.fst).Nodup)
    (hws : ∀ w ∈ ws, w.1 < 64 ∧ (j.st.reg w.1).plain = true) (hroom : j.st.slabIds.length + ws.length ≤ j.e.floor j.st) :
    ∃ st' k, writeAll ws m j = .ok () (j.put st' k) ∧ Merges j.st st' m ws := by
  obtain ⟨st1, k, hprep, hready⟩ := prepWrites_readies m ws j h hnd hws hroom
  have hheld : ∀ w ∈ ws, ({ st1.reg w.1 with held := none } : VReg) = j.st.reg w.1 := fun w hw => hready.held _ (List.mem_map_of_mem hw)
  have hmerge := commits_merges m hm ws st1 hnd
    (fun w hw => ⟨(hws w hw).1, by rw [VReg.prepared, hheld w hw]; exact (hws w hw).2⟩)
    (by rw [hready.rest]; exact h.noCont) (by rw [hready.rest]; exact h.noForks) (by rw [hready.rest]; exact h.noDead)
    (by rw [hready.rest]; exact h.oneLane)
  have hlane : ∀ w ∈ ws, st1.lane w.1 = j.st.lane w.1 := fun w hw => by
    have hshape : (st1.reg w.1).shape = (j.st.reg w.1).shape := (congrArg VReg.shape (hheld w hw) :)
    funext i
    exact congrArg (fun v : Val => v.lanes.get i) (val_congr hshape (by rw [hready.rest]))
  refine ⟨_, k, (bind_ok hprep).trans (forM_upd _ ws _), ?_, fun n hn => ?_, hmerge.plain, fun w hw i hi hl => ?_⟩
  · rw [put_st, hmerge.rest, hready.rest]
  · exact (hmerge.frame n hn).trans (hready.frame n hn)
  · rw [← hlane w hw]
    exact hmerge.lanes w hw i hi (by rw [hready.rest]; exact hl)

section Runs
variable {s : State} {st : Strand} {e : Env} {f : Form}

/-- Values merged into registers are what an instruction writes. -/
theorem writes_of_merges {st' : Strand} {ws : List (Nat × Val)} (hm : st.mask f.pred ≠ 0) (hr : st.srAfter f = st.sr)
    (h : Merges st st' (st.mask f.pred) ws) :
    Writes st { st' with pc := st'.pc + BitVec.ofNat 64 f.size } f (ws.map fun w => (w.1, w.2.at)) := by
  have hfst : (ws.map fun w => (w.1, w.2.at)).map Prod.fst = ws.map Prod.fst := by simp
  refine ⟨by rw [hr, h.rest]; rfl, fun n hn => ?_, List.forall_mem_map.mpr fun w hw => ?_⟩
  · rw [hfst] at hn
    exact ⟨h.frame n hn, h.frame_lane hn⟩
  · obtain ⟨hfull, hpoison, hheld, -⟩ := (plain_iff _).mp (h.plain w hw)
    exact ⟨hfull, hpoison, hheld, fun h0 => absurd h0 hm, h.lanes w hw⟩

/-- What an instruction comes to that writes several registers under M, and nothing under an empty M. -/
theorem writeAll_calm (h : Calm s st e f) {body : M Unit} {ws : List (Nat × Val)} (hr : f.enc.rnd = false) (hnd : (ws.map Prod.fst).Nodup)
    (hws : ∀ w ∈ ws, w.1 < 64 ∧ w.1 ∈ f.vregs) (hlen : ws.length ≤ 8)
    (hb : body (jobOf s st e f) =
      if st.mask f.pred = 0 then .ok () (jobOf s st e f) else writeAll ws (st.mask f.pred) (jobOf s st e f)) :
    ∃ t st', run f body s = .next t ∧ OnlyStrand s t st' ∧ Writes st st' f (ws.map fun w => (w.1, w.2.at)) := by
  have hplain : ∀ w ∈ ws, (st.reg w.1).plain = true := fun w hw => h.plain _ (hws w hw).2
  have hsr := srAfter_keep h.toQuiet hr
  by_cases hm : st.mask f.pred = 0
  · rw [if_pos hm] at hb
    obtain ⟨t, ht, honly⟩ := run_past h.toQuiet hb
    exact ⟨t, _, ht, honly, writes_none hm hsr (List.forall_mem_map.mpr hplain)⟩
  · rw [if_neg hm] at hb
    have hroom := h.room
    obtain ⟨st', k, hw, hmerge⟩ := writeAll_plain (quiet_still h.toQuiet) (ws := ws) hm hnd
      (fun w hw => ⟨(hws w hw).1, hplain w hw⟩) (show st.slabIds.length + ws.length ≤ e.floor st by omega)
    obtain ⟨t, ht, honly⟩ := run_done h.toQuiet st' k (hb.trans hw) (by rw [hmerge.rest]; exact h.live) (by rw [hmerge.rest]; rfl)
    exact ⟨t, _, ht, honly, writes_of_merges hm hsr hmerge⟩

/-! ### The words of a j register (R163) -/

theorem words_joinWord (r : JReg) {n : Nat} (hn : n < 4) : r.words.getD n 0 = joinWord r n := by
  match n, hn with
  | 0, _ | 1, _ | 3, _ => rfl
  | 2, _ =>
    have happend : ∀ x : BitVec 24, (x ++ r.depth).toNat = x.toNat * 256 + r.depth.toNat := fun x => by
      rw [BitVec.toNat_append, ← Nat.shiftLeft_add_eq_or_of_lt r.depth.isLt, Nat.shiftLeft_eq]
    have hdepth := r.depth.isLt
    apply BitVec.eq_of_toNat_eq
    cases hr : r.armed <;> simp [JReg.words, joinWord, hr, happend] <;> omega

/-! ### JGET and JPUT (R178) -/

theorem vregs_runD {m : Nat} (h : f.enc.d = .vRun m) : ∀ i < m, f.d + i ∈ f.vregs := fun i hi => by
  have hrun : f.d + i ∈ useVregs f.enc.d f.x f.x.w0.d.toNat := by simpa [h, useVregs, Form.d] using hi
  exact List.mem_eraseDups.mpr (List.mem_append_left _ (List.mem_append_left _ (List.mem_append_left _ hrun)))

theorem vregs_runA {m : Nat} (h : f.enc.a = .vsRun m) : ∀ i < m, f.a + i ∈ f.vregs := fun i hi => by
  have hrun : f.a + i ∈ useVregs f.enc.a f.x f.x.w0.a.toNat := by simpa [h, useVregs, Form.a] using hi
  exact List.mem_eraseDups.mpr (List.mem_append_left _ (List.mem_append_left _ (List.mem_append_right _ hrun)))

theorem legal_rangeD {enc : Enc} {x : X96} (h : enc.legal x = true) : enc.d.rangeOk x x.w0.d.toNat = true := by
  simp only [Enc.legal, Bool.and_eq_true] at h
  tauto

/-- A legal run of destinations ends within the registers (R46). -/
theorem d_run_le (h : Quiet s st e f) {m : Nat} (hd : f.enc.d = .vRun m) : f.d + m ≤ 64 := by
  have hrange := legal_rangeD (Bool.and_eq_true_iff.mp h.legal).1
  rw [hd] at hrange
  exact of_decide_eq_true hrange

/-- The writes of JGET. -/
def jgetWrites (st : Strand) (f : Form) : List (Nat × Val) :=
  (List.range 4).map fun i => (f.d + i, Val.u ((vget st.j f.a {}).words.getD i 0))

theorem jgetWrites_lanes (st : Strand) (f : Form) :
    (jgetWrites st f).map (fun w => (w.1, w.2.at)) = (List.range 4).map fun n => (f.d + n, fun _ => joinWord (vget st.j f.a {}) n) := by
  rw [jgetWrites, List.map_map]
  refine List.map_congr_left fun n hn => ?_
  rw [← words_joinWord _ (List.mem_range.mp hn)]
  rfl

theorem jgetBody_calm (h : Calm s st e f) :
    jgetBody (jobOf s st e f) =
      if st.mask f.pred = 0 then .ok () (jobOf s st e f) else writeAll (jgetWrites st f) (st.mask f.pred) (jobOf s st e f) := by
  simp only [jgetBody, m_bind, m_form, effMask_quiet h.toQuiet, m_ite, m_pure, getJ_still (quiet_still h.toQuiet)]
  rfl

theorem run_jget (h : Calm s st e f) (hd : f.enc.d = .vRun 4) (hr : f.enc.rnd = false) :
    ∃ t st', run f jgetBody s = .next t ∧ OnlyStrand s t st' ∧
      Writes st st' f ((List.range 4).map fun n => (f.d + n, fun _ => joinWord (vget st.j f.a {}) n)) := by
  have hle := d_run_le h.toQuiet hd
  have hnd : ((jgetWrites st f).map Prod.fst).Nodup := by
    simp [jgetWrites, List.range, List.range.loop]
  have hws : ∀ w ∈ jgetWrites st f, w.1 < 64 ∧ w.1 ∈ f.vregs := by
    refine List.forall_mem_map.mpr fun i hi => ?_
    have hi := List.mem_range.mp hi
    exact ⟨show f.d + i < 64 by omega, vregs_runD hd i hi⟩
  have hrun := writeAll_calm h hr hnd hws (show 4 ≤ 8 by decide) (jgetBody_calm h)
  rwa [jgetWrites_lanes] at hrun

/-- JPUT of uniform registers. -/
theorem jputBody_calm (h : Calm s st e f) (ha : f.enc.a = .vsRun 4) (hu : ∀ n, n < 4 → st.uniform (f.a + n) = true) :
    jputBody (jobOf s st e f) = .ok () ((jobOf s st e f).put { st with
      j := if st.mask f.pred = 0 then st.j
           else vset st.j f.d (JReg.ofWords (st.lane f.a 0) (st.lane (f.a + 1) 0) (st.lane (f.a + 2) 0) (st.lane (f.a + 3) 0)) }
      (jobOf s st e f).s.freshId) := by
  have hs := quiet_still h.toQuiet
  have hregs := vregs_runA ha
  have hready : readyRun f.a 4 f.x.w0.wa (jobOf s st e f) = .ok () (jobOf s st e f) := readyRun_calm h hregs
  have huniform : (List.range 4).forM (fun i => needUniform (f.a + i)) (jobOf s st e f) = .ok () (jobOf s st e f) :=
    forM_ok fun n hn => needUniform_ok hs (hu n (List.mem_range.mp hn))
  have hread : ∀ n, n < 4 → readU (f.a + n) (jobOf s st e f) = .ok (st.lane (f.a + n) 0) (jobOf s st e f) := fun n hn =>
    readU_uniform hs (h.plain _ (hregs n hn)) (hu n hn)
  have hread0 : readU f.a (jobOf s st e f) = .ok (st.lane f.a 0) (jobOf s st e f) := hread 0 (by decide)
  simp only [jputBody, m_bind, m_form]
  rw [show (jobOf s st e f).f = f from rfl]
  simp only [hready, effMask_quiet h.toQuiet, huniform, m_ite, m_pure]
  split
  · rfl
  · simp only [m_bind, hread0, hread 1 (by decide), hread 2 (by decide), hread 3 (by decide), m_upd, Strand.jwrite,
      noteWrite_still (st := (jobOf s st e f).st) hs.noCont hs.noForks hs.noDead]
    rfl

end Runs

/-- Settles O14: JGET writes its four registers as one effect, and JPUT finds its four sources uniform. -/
theorem joinRegisters : Obligations.JoinRegisters := by
  unfold Obligations.JoinRegisters
  refine ⟨fun i f hi s st e h => ?_, fun o s st e h hu => ?_⟩
  · cases i with
    | jget o | jgetX96 o => cases hi; exact run_jget h rfl rfl
    | _ => cases hi
  · exact run_done h.toQuiet _ _ (jputBody_calm h rfl hu) h.live rfl

end Sys2Proof.Machine
end

section
/-!
PROOF. What strands wait for between instructions (R177, R280, R288-R291, R334, R344, R347, R359): exits with the barriers that they complete,
resolutions of forks, wakes and polls (O47).
-/

namespace Sys2Proof.Machine

/-! ### Barriers that an exit completes (R345, R347) -/

theorem group_id {s : State} {n : Nat} {g : Group} (h : s.group? n = some g) : g.id = n := by
  simpa using List.find?_some h

/-- The model's test of a barrier is that of the statement. -/
theorem complete_alive (s : State) (g : Group) (n : Nat) : (vget g.bars n {}).complete (s.alive g.id) = arrivalsMet s g n := by
  have hlanes : (s.alive g.id &&& ~~~(vget g.bars n {}).arr) = 0 ↔
      ∀ i, i < 32 → (s.alive g.id).getLsbD i = true → (vget g.bars n {}).arr.getLsbD i = true := by
    constructor
    · intro h i hi halive
      have hbit : (s.alive g.id &&& ~~~(vget g.bars n {}).arr).getLsbD i = false := by rw [h]; simp
      simpa [hi, halive] using hbit
    · intro h
      refine BitVec.eq_of_getLsbD_eq fun i hi => ?_
      have := h i hi
      cases halive : (s.alive g.id).getLsbD i <;> simp_all
  have hmem : ∀ i, i < 32 → ((s.alive g.id).getLsbD i = true ↔
      ∃ x ∈ s.strands, x.group = g.id ∧ x.tile = false ∧ x.cont = none ∧ x.idx = i ∧ x.state ≠ .exited) := fun i hi => by
    simp [State.alive, mask_of_has _ _ hi, and_assoc]
  rw [Bool.eq_iff_iff]
  simp only [Bar.complete, arrivalsMet, Bool.and_eq_true, beq_iff_eq, hlanes, List.all_eq_true]
  refine and_congr_right fun _ => ⟨fun h x hx => ?_, fun h i hi halive => ?_⟩
  · by_contra hno
    simp only [Bool.or_eq_true, bne_iff_ne, beq_iff_eq, decide_eq_true_eq, not_or, not_not, Bool.not_eq_true, Option.isSome_eq_false_iff,
      Option.isNone_iff_eq_none, Nat.not_le] at hno
    obtain ⟨⟨⟨⟨⟨hgroup, htile⟩, hcont⟩, hexit⟩, hidx⟩, harr⟩ := hno
    have hin := h x.idx hidx ((hmem _ hidx).mpr ⟨x, hx, hgroup, htile, hcont, rfl, hexit⟩)
    rw [harr] at hin
    cases hin
  · obtain ⟨x, hx, hgroup, htile, hcont, rfl, hexit⟩ := (hmem i hi).mp halive
    simpa [hgroup, htile, hcont, hexit, Nat.not_le.mpr hi] using h x hx

/-- A strand after the barriers below `k` have been looked at. -/
def pastBarBelow (s : State) (g : Group) (k : Nat) (x : Strand) : Strand :=
  match x.state with
  | .blocked (.bar n) =>
    if x.group = g.id ∧ x.id ≠ 0 ∧ n < k ∧ arrivalsMet s g n = true then { x with pc := x.pc + 12, state := .ready, restored := false } else x
  | _ => x

/-- What the completion of barrier `k` does to a strand: one that is blocked there goes past its BAR. -/
def pastThisBar (g : Group) (k : Nat) (x : Strand) : Strand :=
  if x.group = g.id ∧ x.id ≠ 0 ∧ x.state = .blocked (.bar k) then { x with pc := x.pc + 12, state := .ready, restored := false } else x

theorem pastBarBelow_zero (s : State) (g : Group) : pastBarBelow s g 0 = id := by
  funext x
  unfold pastBarBelow
  split
  · simp
  · rfl

theorem pastBarBelow_all (s : State) (g : Group) : pastBarBelow s g 16 = pastBar s g := rfl

/-- A strand that is not blocked at a barrier below `k` whose arrivals are in is as it was. -/
theorem pastBarBelow_eq {s : State} {g : Group} {k : Nat} {x : Strand}
    (h : ∀ n, n < k → x.state = .blocked (.bar n) → arrivalsMet s g n = false) :
    pastBarBelow s g k x = x := by
  unfold pastBarBelow
  split
  · next n hn =>
    refine if_neg fun ⟨_, _, hlt, hmet⟩ => ?_
    rw [h n hlt hn] at hmet
    cases hmet
  · rfl

theorem pastBarBelow_succ (s : State) (g : Group) (k : Nat) (x : Strand) :
    pastBarBelow s g (k + 1) x = if arrivalsMet s g k then pastThisBar g k (pastBarBelow s g k x) else pastBarBelow s g k x := by
  by_cases hk : x.state = .blocked (.bar k)
  · -- the strand is blocked at this barrier, and no lower one has moved it
    have hbelow : pastBarBelow s g k x = x := pastBarBelow_eq fun n hn hx => by
      rw [hk] at hx
      cases hx
      omega
    rw [hbelow]
    simp only [pastBarBelow, hk, pastThisBar]
    cases arrivalsMet s g k <;> simp
  · have hsame : pastBarBelow s g (k + 1) x = pastBarBelow s g k x := by
      unfold pastBarBelow
      split
      · next n hn =>
        have hne : n ≠ k := fun heq => hk (heq ▸ hn)
        have hlt : n < k + 1 ↔ n < k := by omega
        simp only [hlt]
      · rfl
    have hstays : pastThisBar g k (pastBarBelow s g k x) = pastBarBelow s g k x := by
      refine if_neg fun ⟨_, _, hstate⟩ => ?_
      unfold pastBarBelow at hstate
      split at hstate
      · split at hstate
        · cases hstate
        · exact hk hstate
      · exact hk hstate
    rw [hsame, hstays, ite_self]

/-- Barriers move strands, and change nothing by which the arrivals of a group are counted. -/
theorem pastBarBelow_keeps (s : State) (g : Group) (k : Nat) (x : Strand) :
    let y := pastBarBelow s g k x
    y.group = x.group ∧ y.tile = x.tile ∧ y.cont = x.cont ∧ y.idx = x.idx ∧ (y.state = .exited ↔ x.state = .exited) := by
  dsimp only
  unfold pastBarBelow
  split
  · next hn =>
    split
    · exact ⟨rfl, rfl, rfl, rfl, by simp [hn]⟩
    · exact ⟨rfl, rfl, rfl, rfl, Iff.rfl⟩
  · exact ⟨rfl, rfl, rfl, rfl, Iff.rfl⟩

/-- No counter of any context counts instructions (R473). -/
def Uncounting (s : State) : Prop := ∀ c ∈ s.ctxs, ∀ n, 11 ≤ n → n < 16 → (vget c.select n 0).extractLsb' 0 16 ≠ 1

theorem count_uncounting {s : State} (h : Uncounting s) (ctx k : Nat) : s.count ctx 1 k = s :=
  count_none s ctx 1 k (by decide) fun c hc => h c (List.mem_of_find?_eq_some hc)

/-- A barrier whose arrivals are not all in is left alone. -/
theorem checkBar_incomplete {s : State} {g : Group} {n : Nat} (me : Nat) (hg : s.group? g.id = some g)
    (h : (vget g.bars n {}).complete (s.alive g.id) = false) : s.checkBar g.id n me = s := by
  simp only [State.checkBar, hg, h, Bool.false_eq_true, if_false]

/-- A group with barrier `n` in its next phase, without arrivals. -/
def Group.nextPhase (g : Group) (n : Nat) : Group := { g with bars := vset g.bars n { phase := (vget g.bars n {}).phase + 1, arr := 0 } }

/-- A barrier whose arrivals are all in is in its next phase, and the strands blocked at it go past their BAR. -/
theorem checkBar_complete {s : State} {g : Group} {n : Nat} (hg : s.group? g.id = some g) (hun : Uncounting s)
    (h : (vget g.bars n {}).complete (s.alive g.id) = true) :
    s.checkBar g.id n 0 = { s.setGroup (g.nextPhase n) with strands := s.strands.map (pastThisBar g n) } := by
  have hmoves : ∀ x : Strand, (if (x.group == g.id && x.id != 0 && x.state == .blocked (.bar n)) = true then
      { x with pc := x.pc + 12, state := .ready, restored := false } else x) = pastThisBar g n x := fun x => by
    simp [pastThisBar, and_assoc]
  simp only [State.checkBar, hg, h, if_true, setGroup_strands, hmoves]
  refine List.foldl_fixed' (fun x => ?_) _
  split
  · exact count_uncounting (by exact hun) _ _
  · rfl

/-- The barriers below `k` of a group have been looked at, from `s` on. -/
structure BarsBelow (s : State) (g : Group) (k : Nat) (u : State) : Prop where
  same : u = { s with strands := u.strands, groups := u.groups }
  strands : u.strands = s.strands.map (pastBarBelow s g k)
  group : ∃ g', u.group? g.id = some g' ∧ g' = { g with bars := g'.bars } ∧ ∀ n, n < 16 →
    vget g'.bars n {} = if n < k ∧ arrivalsMet s g n = true then { phase := (vget g.bars n {}).phase + 1, arr := 0 } else vget g.bars n {}

theorem barsBelow_zero {s : State} {g : Group} (hg : s.group? g.id = some g) : BarsBelow s g 0 s :=
  ⟨rfl, by rw [pastBarBelow_zero, List.map_id], g, hg, rfl, fun n _ => by simp⟩

/-- The strands whose arrivals a barrier waits for are the same all along. -/
theorem alive_barsBelow {s u : State} {g : Group} {k : Nat} (h : BarsBelow s g k u) : u.alive g.id = s.alive g.id := by
  refine congrArg Mask.of (funext fun i => ?_)
  rw [h.strands, List.any_map]
  refine congrArg (fun p => s.strands.any p) (funext fun x => ?_)
  obtain ⟨hgroup, htile, hcont, hidx, hexited⟩ := pastBarBelow_keeps s g k x
  simp only [Function.comp_apply, hgroup, htile, hcont, hidx, bne, Bool.beq_eq_decide_eq, hexited]

theorem barsBelow_succ {s u : State} {g : Group} {k : Nat} (hk : k < 16) (hun : Uncounting s) (h : BarsBelow s g k u) :
    BarsBelow s g (k + 1) (u.checkBar g.id k 0) := by
  obtain ⟨g', hg', hbars, hvals⟩ := h.group
  have hid : g'.id = g.id := by rw [hbars]
  have hval : vget g'.bars k {} = vget g.bars k {} := by rw [hvals k hk, if_neg (by omega)]
  have hcomplete : (vget g'.bars k {}).complete (u.alive g'.id) = arrivalsMet s g k := by
    rw [hid, hval, alive_barsBelow h, complete_alive]
  have hg'' : u.group? g'.id = some g' := hid ▸ hg'
  rw [← hid]
  have hlt : ∀ n, n ≠ k → ((n < k + 1 ∧ arrivalsMet s g n = true) ↔ (n < k ∧ arrivalsMet s g n = true)) := fun n hn =>
    and_congr_left fun _ => by omega
  cases hmet : arrivalsMet s g k with
  | false =>
    rw [checkBar_incomplete 0 hg'' (hcomplete.trans hmet)]
    refine ⟨h.same, ?_, g', hg', hbars, fun n hn => ?_⟩
    · rw [h.strands]
      exact List.map_congr_left fun x _ => by rw [pastBarBelow_succ, hmet]; rfl
    · rw [hvals n hn]
      by_cases hnk : n = k
      · subst hnk
        simp [hmet]
      · simp only [hlt n hnk]
  | true =>
    have hunu : Uncounting u := by
      rw [h.same]
      exact hun
    rw [checkBar_complete hg'' hunu (hcomplete.trans hmet)]
    refine ⟨?_, ?_, g'.nextPhase k, ?_, ?_, fun n hn => ?_⟩
    · rw [h.same]
      rfl
    · simp only [h.strands, List.map_map]
      refine List.map_congr_left fun x _ => ?_
      rw [pastBarBelow_succ, hmet]
      simp [pastThisBar, hid]
    · exact hid ▸ group_setGroup u (g'.nextPhase k) (by rw [show (g'.nextPhase k).id = g'.id from rfl, hg'']; rfl)
    · rw [Group.nextPhase, hbars]
    · by_cases hnk : n = k
      · subst hnk
        rw [Group.nextPhase, vget_vset_same _ _ _ _ hn, hval, if_pos ⟨Nat.lt_succ_self n, hmet⟩]
      · rw [Group.nextPhase, vget_vset_ne _ _ _ _ _ (Ne.symm hnk), hvals n hn]
        simp only [hlt n hnk]

/-- All sixteen barriers of a group looked at, one after the other. -/
theorem barsBelow_all {s : State} {g : Group} (hg : s.group? g.id = some g) (hun : Uncounting s) :
    BarsBelow s g 16 ((List.range 16).foldl (fun u n => u.checkBar g.id n 0) s) := by
  suffices h : ∀ k, k ≤ 16 → BarsBelow s g k ((List.range k).foldl (fun u n => u.checkBar g.id n 0) s) from h 16 le_rfl
  intro k hk
  induction k with
  | zero => exact barsBelow_zero hg
  | succ k ih =>
    rw [List.range_succ, List.foldl_concat]
    exact barsBelow_succ (by omega) hun (ih (by omega))

/-! ### Exits (R177, R331, R398) -/

/-- Every strand of a group has exited (R331). -/
theorem all_exited_iff (s : State) (g : Group) :
    (s.strands.all fun x => x.group != g.id || x.tile || x.state == .exited) = true ↔
      ∀ x ∈ s.strands, x.group = g.id → x.tile = false → x.state = .exited := by
  simp only [List.all_eq_true, Bool.or_eq_true, bne_iff_ne, beq_iff_eq, or_assoc]
  refine forall₂_congr fun x _ => ?_
  cases x.tile <;> simp [imp_iff_not_or]

section Exit
variable {s : State} {st : Strand} {g : Group} (h : Exits s st g)
include h

/-- What the exit of a strand comes to. -/
theorem strandExit_of_exits :
    s.strandExit st.id = if st.tile then ((s.without st).releaseBands st.id).settleTeam g.team
      else
        let u := (List.range 16).foldl (fun u n => u.checkBar g.id n 0) (s.without st)
        if u.strands.all fun x => x.group != g.id || x.tile || x.state == .exited then u.retireGroup g.id else u := by
  have hprods : (s.prods.any fun p => p.strand == st.id) = false := by simpa using h.quiet
  have hgate : (st.live != 0 || st.state == .exited || st.cont.isSome || (s.prods.any fun p => p.strand == st.id) || s.tasksOpen st.id) = false := by
    simp [h.dead, h.stays, h.noCont, hprods, h.noTasks]
  have hgroup : (s.setStrand { st with state := .exited }).group? st.group = some g := h.group
  simp only [State.strandExit, h.strand, hgate, Bool.false_eq_true, if_false, hgroup]
  rfl

theorem group_without : (s.without st).group? g.id = some g := by
  have := group_id h.group
  exact this ▸ h.group

/-- The exit of a strand of whose group no barrier has an arrival. -/
theorem strandExit_noArrivals (ht : st.tile = false) (hbars : ∀ n, n < 16 → (vget g.bars n {}).arr = 0) :
    s.strandExit st.id = if ∀ x ∈ (s.without st).strands, x.group = g.id → x.tile = false → x.state = .exited
      then (s.without st).retireGroup g.id else s.without st := by
  have hidle : (List.range 16).foldl (fun u n => u.checkBar g.id n 0) (s.without st) = s.without st := by
    refine List.foldlRecOn (motive := fun u => u = s.without st) _ _ rfl fun u hu n hn => ?_
    rw [hu]
    exact checkBar_incomplete 0 (group_without h) (by rw [Bar.complete, hbars n (List.mem_range.mp hn)]; rfl)
  rw [strandExit_of_exits h, ht, hidle]
  simp only [Bool.false_eq_true, if_false, all_exited_iff]

/-- The exit of a strand while another of its group goes on. -/
theorem strandExit_goesOn (ht : st.tile = false) (hother : ∃ x ∈ (s.without st).strands, x.group = g.id ∧ x.tile = false ∧ x.state ≠ .exited)
    (hun : Uncounting s) : BarsBelow (s.without st) g 16 (s.strandExit st.id) := by
  have hall := barsBelow_all (group_without h) (show Uncounting (s.without st) from hun)
  rw [strandExit_of_exits h, ht]
  simp only [Bool.false_eq_true, if_false]
  generalize (List.range 16).foldl (fun u n => u.checkBar g.id n 0) (s.without st) = u at hall ⊢
  rw [if_neg]
  · exact hall
  rw [all_exited_iff, hall.strands]
  intro hex
  obtain ⟨x, hx, hgroup, htile, hlive⟩ := hother
  obtain ⟨hg', ht', -, -, hexited⟩ := pastBarBelow_keeps (s.without st) g 16 x
  exact hlive (hexited.mp (hex _ (List.mem_map_of_mem hx) (hg'.trans hgroup) (ht'.trans htile)))

end Exit

/-! ### Resolutions at the pop of a return entry (R280, R288-R291) -/

section Resolve
variable {s u : State} {st x : Strand} {e : Env} {top : RetEntry} {rest : List RetEntry} (hst : s.strand? st.id = some st)
  (he : s.env? st = some e) (hwaits : st.state = .blocked .resolve) (hrets : st.rets = top :: rest)
include hst he hwaits hrets

/-- How a strand goes on when the top return entry, popped, leaves lanes live. -/
theorem resolve_popped {m : Mask} {ra : DWord} (hpop : popTop s st e.ctx top rest = .popped u x m ra) (hm : m ≠ 0) :
    s.resolve st.id = u.setStrand { x with pc := ra, path := m, state := .ready } := by
  simp only [State.resolve, hst, hwaits, he, popAndSelect, hrets, hpop, bne_iff_ne, ne_eq, hm, not_false_eq_true, if_true, State.raiseAfter]

theorem resolve_wait (hpop : popTop s st e.ctx top rest = .wait u) : s.resolve st.id = u := by
  simp only [State.resolve, hst, hwaits, he, popAndSelect, hrets, hpop]

theorem resolve_committed (hpop : popTop s st e.ctx top rest = .committed u x none) :
    s.resolve st.id = u.setStrand { x with state := .ready } := by
  simp only [State.resolve, hst, hwaits, he, popAndSelect, hrets, hpop, State.raiseAfter]

end Resolve

theorem returnFull_zero (st : Strand) : st.returnFull 0 = true := by
  simp [Strand.returnFull]

/-- An entry without a fork is popped, and trains, where its return registers are full. -/
theorem popTop_noFork {s : State} {st : Strand} {ctx : Nat} {top : RetEntry} {rest : List RetEntry} (hfork : top.fork = none)
    (hfull : ∀ r, top.train = some r → st.returnFull r.ret = true) :
    popTop s st ctx top rest = .popped (s.trainWith st top.train) { st with rets := rest } (top.arr &&& st.live) top.ra := by
  cases htrain : top.train with
  | none => simp only [popTop, hfork, htrain, Option.bind_none, returnFull_zero, if_true]
  | some r => simp only [popTop, hfork, htrain, Option.bind_none, hfull r htrain, if_true]

section Fork
variable {s : State} {st : Strand} {e : Env} {top : RetEntry} {rest : List RetEntry} {f : Fork} {c : Strand} {ct : Cont}
  (h : Resolves s st e top rest f c ct)
include h

theorem popTop_unfilled (hfull : st.returnFull f.ret = false) :
    popTop s st e.ctx top rest = .wait (s.setStrand { c with state := .stalled }) := by
  simp only [popTop, h.fork, Option.bind_some, h.owns, h.cont, hfull, Bool.not_false, if_true]

theorem popTop_commits (hfull : st.returnFull f.ret = true) (hreason : forkReason st top f ct = 0) :
    popTop s st e.ctx top rest = .committed (s.commitFork st c ct e.ctx top rest).1 (s.commitFork st c ct e.ctx top rest).2.1 ct.fault := by
  simp only [popTop, h.fork, Option.bind_some, h.owns, h.cont, hfull, Bool.not_true, Bool.false_eq_true, if_false, h.isCont, hreason]
  rfl

/-- The machine after a fork has been squashed at its resolution; the call has trained before. -/
theorem popTop_squashes (hfull : st.returnFull f.ret = true) (hreason : forkReason st top f ct ≠ 0) {st' : Strand}
    (hst' : (((s.trainWith st top.train).setStrand st).squash f.cont (forkReason st top f ct)).strand? st.id = some st') :
    popTop s st e.ctx top rest = .popped (((s.trainWith st top.train).setStrand st).squash f.cont (forkReason st top f ct))
      { st' with rets := rest } (top.arr &&& st'.live) top.ra := by
  simp only [popTop, h.fork, Option.bind_some, h.owns, h.cont, hfull, Bool.not_true, Bool.false_eq_true, if_false, h.isCont, hst']

end Fork

/-! ### Phasers (R356, R359) -/

/-- The model tests a phase in the naturals and the statement by a signed word. -/
theorem passed_eq_phaseOver (r : Phaser) (p : Word) : r.passed p.toNat = phaseOver r p := by
  have hp := p.isLt
  have hdiff : (BitVec.ofNat 32 r.phase - p).toNat = (r.phase + 2 ^ 32 - p.toNat) % 2 ^ 32 := by
    rw [BitVec.toNat_sub, BitVec.toNat_ofNat]
    omega
  rw [Bool.eq_iff_iff]
  simp only [Phaser.passed, phaseOver, Bool.and_eq_true, decide_eq_true_eq, BitVec.toInt_eq_toNat_cond, hdiff]
  split <;> omega

theorem wakeWait_phaser {s : State} {st : Strand} {va : DWord} {ph : Word} {ia : Nat} (hstate : st.state = .blocked .phaser)
    (hheld : st.held = some (va, ph)) (hia : s.recordIa st va.toNat = some ia) :
    s.wakeWait st = if phaseOver (s.phaserAt ia) ph then { st with state := .ready } else st := by
  simp only [State.wakeWait, hheld, hia, hstate, beq_self_eq_true, Bool.true_and, passed_eq_phaseOver]

/-- Settles O47: each event looks its strand up and does what the laws above say. -/
theorem strandsGoOn : Obligations.StrandsGoOn := by
  unfold Obligations.StrandsGoOn
  refine ⟨?exitsIdle, ?exitsBars, ?exitsTile, ?pops, ?resolves, ?sleeps, ?polls, ?timeouts⟩
  case exitsIdle =>
    exact fun s st g h ht hbars => congrArg Host.Outcome.next (strandExit_noArrivals h ht hbars)
  case exitsBars =>
    intro s st g h ht hother hun
    have hbars := strandExit_goesOn h ht hother hun
    obtain ⟨g', hg', hsame, hvals⟩ := hbars.group
    exact ⟨_, rfl, hbars.same, pastBarBelow_all (s.without st) g ▸ hbars.strands, g', hg', hsame, fun n hn => by simp only [hvals n hn, hn, true_and]⟩
  case exitsTile =>
    intro s st g h ht
    exact congrArg Host.Outcome.next ((strandExit_of_exits h).trans (if_pos ht))
  case pops =>
    intro s st e top rest hst he hwaits hrets hfork hfull hm
    exact congrArg Host.Outcome.next (resolve_popped hst he hwaits hrets (popTop_noFork hfork hfull) hm)
  case resolves =>
    intro s st e top rest f c ct h
    refine ⟨fun hfull => ?_, fun hfull hreason hfault => ?_, ?_⟩
    · exact congrArg Host.Outcome.next (resolve_wait h.strand h.env h.waits h.rets (popTop_unfilled h hfull))
    · have hpop := popTop_commits h hfull hreason
      rw [hfault] at hpop
      exact congrArg Host.Outcome.next (resolve_committed h.strand h.env h.waits h.rets hpop)
    · intro hfull hreason u st' hst' hm
      exact congrArg Host.Outcome.next (resolve_popped h.strand h.env h.waits h.rets (popTop_squashes h hfull hreason hst') hm)
  case sleeps =>
    intro s st start n hst hstate hfrom
    refine congrArg Host.Outcome.next ?_
    simp only [hst, hstate, hfrom]
  case polls =>
    intro s st va ph ia hst hstate hheld hia
    refine congrArg Host.Outcome.next ?_
    simp only [hst, wakeWait_phaser hstate hheld hia]
  case timeouts =>
    intro s st g t hst hg ht hpre hrun hexited
    have hover : st.overran = true := decide_eq_true hrun
    refine congrArg Host.Outcome.next ?_
    simp [hst, hg, ht, hpre, hover, hexited]

end Sys2Proof.Machine
end

section
/-!
PROOF. Traps delivered (R180, R183, R450, R460, R461): what a delivery comes to, and the strand that an unwind leaves (O46).
-/

namespace Sys2Proof.Machine

/-! ### What tagging an output range leaves of the strands (R457, R461) -/

/-- The strand of a number, where it is no continuation. -/
def State.owner? (s : State) (id : Nat) : Option Strand := (s.strand? id).filter fun x => x.cont.isNone

theorem owner_iff {s : State} {id : Nat} {x : Strand} : s.owner? id = some x ↔ s.strand? id = some x ∧ x.cont = none := by
  simp [State.owner?, Option.filter_eq_some_iff]

theorem foldl_owner {β : Type} {f : State → β → State} {id : Nat} (h : ∀ t b, (f t b).owner? id = t.owner? id) (l : List β) (s : State) :
    (l.foldl f s).owner? id = s.owner? id :=
  foldl_keeps (fun t => t.owner? id) h l s

theorem lose_id (x : Strand) (src : ReadCopy) (hits : Sector → Bool) (who : Nat) : (x.lose src hits who).id = x.id := by
  unfold Strand.lose
  split
  · split <;> rfl
  · rfl

/-- A continuation that loses a sector stays one, and no other strand can lose one. -/
theorem lose_owner_filter (x : Strand) (src : ReadCopy) (hits : Sector → Bool) (who : Nat) :
    (some (x.lose src hits who)).filter (fun y => y.cont.isNone) = (some x).filter fun y => y.cont.isNone := by
  unfold Strand.lose
  split
  · next c hc =>
    split
    · rfl
    · simp [Option.filter, hc]
  · rfl

@[simp] theorem lose_owner (s : State) (src : ReadCopy) (hits : Sector → Bool) (who id : Nat) :
    (s.lose src hits who).owner? id = s.owner? id := by
  unfold State.lose
  split
  · have hfind : (s.strands.map fun x => x.lose src hits who).find? (fun y => y.id == id) =
        (s.strands.find? fun y => y.id == id).map fun x => x.lose src hits who := by
      rw [List.find?_map]
      simp only [Function.comp_def, lose_id]
    simp only [State.owner?, State.strand?, hfind]
    cases s.strands.find? fun y => y.id == id with
    | none => rfl
    | some x => exact lose_owner_filter x src hits who
  · rfl

@[simp] theorem touch_owner (s : State) (page : Nat) (conf pref : Bool) (id : Nat) : (s.touch page conf pref).owner? id = s.owner? id := by
  unfold State.touch
  split
  · rfl
  · split <;> rfl

@[simp] theorem postNoFrames_owner (s : State) (ctx die : Nat) (pref : Bool) (id : Nat) :
    (s.postNoFrames ctx die pref).owner? id = s.owner? id := by
  unfold State.postNoFrames
  split
  · rfl
  · dsimp only
    split_ifs <;> rfl

@[simp] theorem touchBy_owner (s : State) (c : Ctx) (page : Nat) (pref : Bool) (id : Nat) : (s.touchBy c page pref).owner? id = s.owner? id := by
  unfold State.touchBy
  dsimp only
  split
  · exact touch_owner _ _ _ _ _
  · rw [postNoFrames_owner, touch_owner]

@[simp] theorem outputReady_owner (s : State) (st : Strand) (e : Env) (base len id : Nat) :
    (s.outputReady st e base len).1.owner? id = s.owner? id := by
  unfold State.outputReady
  split
  · rfl
  · exact foldl_owner (fun t p => touchBy_owner t _ _ _ _) _ _

@[simp] theorem l1Drop_owner (s : State) (core line id : Nat) : (s.l1Drop core line).owner? id = s.owner? id := by
  unfold State.l1Drop
  split
  · rfl
  · rw [lose_owner]
    rfl

@[simp] theorem dropOthers_owner (s : State) (core line id : Nat) : (s.dropOthers core line).owner? id = s.owner? id :=
  foldl_owner (fun t c => l1Drop_owner t c line id) _ _

@[simp] theorem countLost_owner (s : State) (ia id : Nat) : (s.countLost ia).owner? id = s.owner? id := by
  unfold State.countLost
  split <;> rfl

@[simp] theorem h4Clean_owner (s : State) (line id : Nat) : (s.h4Clean line).owner? id = s.owner? id := by
  unfold State.h4Clean
  split
  · rfl
  · dsimp only
    split
    · rfl
    · exact countLost_owner _ _ _

@[simp] theorem h4Sys_owner (s : State) (line id : Nat) : (s.h4Sys line).owner? id = s.owner? id := h4Clean_owner s line id

@[simp] theorem sliceRoom_owner (s : State) (line id : Nat) : (s.sliceRoom line).owner? id = s.owner? id := by
  simp only [State.sliceRoom]
  split
  · rfl
  · split
    · rfl
    · split
      · exact h4Clean_owner _ _ _
      · rfl

@[simp] theorem homePut_owner (s : State) (sys : Bool) (ia : Nat) (b : Byte) (id : Nat) : (s.homePut sys ia b).owner? id = s.owner? id := by
  unfold State.homePut
  split
  · rfl
  · split <;> rfl

@[simp] theorem clearTags_owner (s : State) (ia n id : Nat) : (s.clearTags ia n).owner? id = s.owner? id := by
  unfold State.clearTags
  split <;> rfl

@[simp] theorem homeStore_owner (s : State) (core who : Nat) (sys : Bool) (ia : Nat) (bytes : List Byte) (id : Nat) :
    (s.homeStore core who sys ia bytes).owner? id = s.owner? id := by
  have zero : ∀ (t : State) (p : Nat → Bool),
      (if t.zeroLines.isEmpty then t else { t with zeroLines := t.zeroLines.filter p }).owner? id = t.owner? id := fun t p => by
    split <;> rfl
  have dropped := fun ls => foldl_owner (id := id) (fun t l => dropOthers_owner t core l id) ls s
  unfold State.homeStore
  rw [lose_owner, clearTags_owner, zero, foldl_owner fun t i => homePut_owner t _ _ _ _]
  split
  · cases sys
    · exact (foldl_owner (fun t l => sliceRoom_owner t l id) _ _).trans (dropped _)
    · exact (foldl_owner (fun t l => h4Sys_owner t l id) _ _).trans (dropped _)
  · exact dropped _

@[simp] theorem clearCovered_owner (s : State) (core : Nat) (rs : List (Nat × Nat)) (id : Nat) :
    (s.clearCovered core rs).owner? id = s.owner? id := by
  unfold State.clearCovered
  split <;> rfl

@[simp] theorem l1Clean_owner (s : State) (core line id : Nat) : (s.l1Clean core line).owner? id = s.owner? id := by
  unfold State.l1Clean
  split
  · rfl
  · split
    · rfl
    · rw [clearCovered_owner, foldl_owner, countLost_owner]
      · rfl
      · intro t i
        split
        · exact homeStore_owner _ _ _ _ _ _ _
        · rfl

@[simp] theorem l1Flush_owner (s : State) (core line id : Nat) : (s.l1Flush core line).owner? id = s.owner? id := by
  rw [State.l1Flush, l1Drop_owner, l1Clean_owner]

@[simp] theorem tagSector_owner (s : State) (core who sec : Nat) (conf pref : Bool) (id : Nat) :
    (s.tagSector core who sec conf pref).owner? id = s.owner? id := by
  have tagged : ∀ t : State, (if t.poison.contains sec then t else { t with poison := sec :: t.poison }).owner? id = t.owner? id := fun t => by
    split <;> rfl
  unfold State.tagSector
  rw [tagged, lose_owner, dropOthers_owner, l1Flush_owner, touch_owner]

/-! ### The unwind of a region (R460, R461) -/

/-- The output range tagged as poisoned, as an unwind begins. -/
def State.tagRange (s : State) (st : Strand) (e : Env) (base len : Nat) : State :=
  match s.ctx? e.ctx with
  | none => s
  | some c =>
    if len = 0 then s
    else (List.range ((base + len - 1) / 32 - base / 32 + 1)).foldl (fun s i =>
      match c.translate (32 * (base / 32 + i)) with
      | some (_, w, ia) => s.tagSector st.agentCore st.id (sectorOf ia) c.conf w.prefhost
      | none => s) s

theorem tagRange_owner (s : State) (st : Strand) (e : Env) (base len id : Nat) : (s.tagRange st e base len).owner? id = s.owner? id := by
  unfold State.tagRange
  split
  · rfl
  · split
    · rfl
    · refine foldl_owner (fun t i => ?_) _ _
      split
      · exact tagSector_owner _ _ _ _ _ _ _
      · rfl

/-- The strand after its region has unwound: its entry and those above it are popped, and the handler of the record runs. -/
def Strand.unwound (st : Strand) (t : TrapInfo) (reg : RetEntry) (rest : List RetEntry) (handler : Nat) : Strand :=
  let pends := st.pends.filter fun p => p.depth ≤ rest.length
  { st with
    rets := rest, pends := pends
    j := vtab 8 fun n => let r := vget st.j n {}; if r.armed && rest.length < r.depth.toNat then {} else r
    path := reg.cm &&& st.live, pc := BitVec.ofNat 64 handler, state := .ready
    handler := some { floor := pends.length, depth := rest.length, trap := t, unwind := true }, held := none, sleepFrom := none, restored := false }

theorem unwind_noForks {s : State} {st : Strand} {e : Env} {t : TrapInfo} {above : List RetEntry} (reg : RetEntry) (rest : List RetEntry)
    (handler base len : Nat) (hforks : ∀ r ∈ above, r.fork = none) (hst : s.owner? st.id = some st) :
    s.unwind st e t above reg rest handler base len = (s.tagRange st e base len).setStrand (st.unwound t reg rest handler) := by
  have hnone : above.filterMap RetEntry.fork = [] := List.filterMap_eq_nil_iff.mpr hforks
  have hfound : (s.tagRange st e base len).strand? st.id = some st := (owner_iff.mp ((tagRange_owner s st e base len st.id).trans hst)).1
  have hget : ((s.tagRange st e base len).strand? st.id).getD st = st := by rw [hfound]; rfl
  simp only [State.unwind, hnone, List.foldl_nil]
  change (s.tagRange st e base len).setStrand (Strand.unwound (((s.tagRange st e base len).strand? st.id).getD st) t reg rest handler) = _
  rw [hget]

/-! ### Delivery (R180, R183, R450, R461) -/

theorem region_mem {s : State} {st : Strand} {e : Env} {above : List RetEntry} {reg : RetEntry} {rest : List RetEntry} {h base len : Nat}
    (hr : s.region? st e = some (above, reg, rest, h, base, len)) : st.rets.any RetEntry.isRegion = true := by
  by_contra hno
  have hall : ∀ r ∈ st.rets, (!r.isRegion) = true := by simpa using hno
  have htake : st.rets.takeWhile (fun r => !r.isRegion) = st.rets := List.takeWhile_eq_self_iff.mpr hall
  simp [State.region?, htake] at hr

/-- Where a strand with a trap goes on that is not unwound: its handler, the map handler for MAP, or the fault of its group (R180, R450). -/
def State.handled (s : State) (st : Strand) (e : Env) (t : TrapInfo) : State :=
  let entry := if t.cause = 0x22 then e.hdr.mapEntry else e.hdr.trapEntry
  if entry = 0xFFFFFFFF then s.groupFault st 1 t.cause t.addr.toNat t.lanes t.detail t.va 0 else s.setStrand (inHandler st t (e.base + entry))

/-- What the unwind of a region needs, and what it comes to. -/
theorem unwound_inv {s u : State} {st : Strand} {e : Env} {t : TrapInfo} (hu : unwound s st e t = some u) :
    ∃ above reg rest h base len, s.windowMoves e.ctx = false ∧ s.region? st e = some (above, reg, rest, h, base, len) ∧
      (s.outputReady st e base len).2 = true ∧ u = (s.outputReady st e base len).1.unwind st e t above reg rest h base len := by
  unfold unwound at hu
  split at hu
  · cases hu
  next hmoves =>
    obtain ⟨⟨above, reg, rest, h, base, len⟩, hregion, hready⟩ := Option.bind_eq_some_iff.mp hu
    obtain ⟨hok, hunwind⟩ := Option.ite_none_right_eq_some.mp hready
    exact ⟨above, reg, rest, h, base, len, Bool.eq_false_iff.mpr hmoves, hregion, hok, (Option.some.inj hunwind).symm⟩

section Delivery
variable {s : State} {st : Strand} {e : Env} {t : TrapInfo} (hst : s.strand? st.id = some st) (he : s.env? st = some e)
  (hstate : st.state = .trapped t)
include hst he hstate

/-- A trap in handler mode is a double trap (R183). -/
theorem deliver_double {h : Handler} (hh : st.handler = some h) :
    s.deliver st.id = s.groupFault st 2 0x82 t.addr.toNat t.lanes (BitVec.ofNat 32 (h.trap.cause + 256 * t.cause)) t.va 0 := by
  simp only [State.deliver, hst, hstate, he, hh]

/-- A trap that no region contains, or whose region's record cannot be used, is handled. -/
theorem deliver_handled (hu : NoTrace s e.ctx) (hh : st.handler = none)
    (hplain : t.cause ≠ 0x20 ∧ t.cause ≠ 0x21 ∨ (∀ r ∈ st.rets, r.ra.getLsbD 0 = false) ∨ s.region? st e = none ∧ s.windowMoves e.ctx = false) :
    s.deliver st.id = s.handled st e t := by
  have htrace : ∀ y k tag a, (s.setStrand y).traceOf st k tag a = s.setStrand y := fun y => traceOf_untraced (s := s.setStrand y) he hu
  simp only [State.deliver, hst, hstate, he, hh, htrace]
  rcases hplain with ⟨h20, h21⟩ | hnone | ⟨hregion, hmoves⟩
  · simp only [h20, h21, decide_false, Bool.or_false, Bool.false_and, Bool.false_eq_true, if_false]
    rfl
  · have hany : st.rets.any RetEntry.isRegion = false := List.any_eq_false.mpr fun r hr => by rw [RetEntry.isRegion, hnone r hr]; decide
    simp only [hany, Bool.and_false, Bool.false_eq_true, if_false]
    rfl
  · simp only [hmoves, Bool.false_eq_true, if_false, hregion, ite_self]
    rfl

/-- A contained trap unwinds its region (R461). -/
theorem deliver_unwinds (hh : st.handler = none) (hc : t.cause = 0x20 ∨ t.cause = 0x21) {u : State} (hu : unwound s st e t = some u) :
    s.deliver st.id = u.traceOf st 4 t.cause t.addr.toNat ∧ st.rets.any RetEntry.isRegion = true := by
  obtain ⟨above, reg, rest, h, base, len, hmoves, hregion, hok, rfl⟩ := unwound_inv hu
  have hany := region_mem hregion
  have hcause : (decide (t.cause = 0x20) || decide (t.cause = 0x21)) = true := by simpa using hc
  refine ⟨?_, hany⟩
  simp only [State.deliver, hst, hstate, he, hh, hcause, hany, Bool.and_self, if_true, hmoves, Bool.false_eq_true, if_false, hregion, hok]

end Delivery

/-- The strand that an unwind leaves, where no fork hangs on the entries popped and it is no continuation. -/
theorem unwound_strand {s u : State} {st : Strand} {e : Env} {t : TrapInfo} (hst : s.strand? st.id = some st) (hcont : st.cont = none)
    (hu : unwound s st e t = some u) {above : List RetEntry} {reg : RetEntry} {rest : List RetEntry} {h base len : Nat}
    (hregion : s.region? st e = some (above, reg, rest, h, base, len)) (hforks : ∀ r ∈ above, r.fork = none) :
    u.strand? st.id = some (st.unwound t reg rest h) := by
  obtain ⟨_, _, _, _, _, _, -, hregion', -, rfl⟩ := unwound_inv hu
  cases hregion'.symm.trans hregion
  have hready : (s.outputReady st e base len).1.owner? st.id = some st := (outputReady_owner ..).trans (owner_iff.mpr ⟨hst, hcont⟩)
  have hfound := (owner_iff.mp ((tagRange_owner _ st e base len st.id).trans hready)).1
  rw [unwind_noForks reg rest h base len hforks hready]
  exact strand_setStrand _ (st.unwound t reg rest h) (Option.isSome_of_mem hfound)

/-! ### MAP (R450) -/

/-- A group that has seen a map version leaves the environment of its strands. -/
theorem env_setGroup {s : State} {st : Strand} {g : Group} (hg : s.group? st.group = some g) (v : DWord) :
    (s.setGroup { g with mapSeen := v }).env? st = s.env? st := by
  have hid : g.id = st.group := group_id hg
  have hfound : (s.setGroup { g with mapSeen := v }).group? st.group = some { g with mapSeen := v } :=
    hid ▸ group_setGroup s { g with mapSeen := v } (by rw [show ({ g with mapSeen := v } : Group).id = st.group from hid, hg]; rfl)
  unfold State.env?
  rw [hfound, hg]
  rfl

theorem mapTrap_due {s : State} {st : Strand} {e : Env} {g : Group} (hst : s.strand? st.id = some st) (he : s.env? st = some e)
    (hg : s.group? st.group = some g) (hstate : st.state = .ready) (hdue : s.mapTrapDue st e g = true) :
    s.mapTrap st.id = s.deliverMap st g := by
  have hready : ({ st with state := .ready } : Strand) = st := by rw [← hstate]
  simp only [State.mapTrap, hst, he, hg, hdue, if_true, hready]

/-- The MAP trap of a strand. -/
def State.mapInfo (s : State) (st : Strand) : TrapInfo := { cause := 0x22, addr := st.pc, lanes := st.path, detail := s.version.lo }

/-- A MAP trap is raised as any trap is: it is delivered at once where no producer of the strand is in flight, and else waits. -/
theorem deliverMap_raised {s : State} {st : Strand} {e : Env} {g : Group} (hst : s.strand? st.id = some st) (he : s.env? st = some e)
    (hg : s.group? st.group = some g) (hu : NoTrace s e.ctx) (hh : st.handler = none) (hcont : st.cont = none)
    (hentry : e.hdr.mapEntry ≠ 0xFFFFFFFF) :
    s.deliverMap st g = (s.setGroup { g with mapSeen := s.version }).setStrand
      (if ∀ p ∈ s.prods, p.strand ≠ st.id then inHandler st (s.mapInfo st) (e.base + e.hdr.mapEntry)
       else { st with state := .trapped (s.mapInfo st) }) := by
  generalize ht : s.mapInfo st = t
  have hcause : t.cause = 0x22 := by rw [← ht]; rfl
  generalize hw : s.setGroup { g with mapSeen := s.version } = w
  have hstw : w.strand? st.id = some st := by rw [← hw]; exact hst
  have hew : w.env? st = some e := by rw [← hw, env_setGroup hg]; exact he
  have huw : NoTrace w e.ctx := by rw [← hw]; exact hu
  have hprods : w.prods = s.prods := by rw [← hw]; rfl
  have hraise : s.deliverMap st g =
      if w.prods.any fun p => p.strand == st.id then w.setStrand { st with state := .trapped t }
      else (w.setStrand { st with state := .trapped t }).deliver st.id := by
    rw [State.deliverMap, show ({ cause := 0x22, addr := st.pc, lanes := st.path, detail := s.version.lo } : TrapInfo) = t from ht, hw]
    simp only [State.raise, hcause, Nat.reduceEqDiff, if_false, hcont, setStrand_prods]
  have hany : (w.prods.any fun p => p.strand == st.id) = true ↔ ¬ ∀ p ∈ s.prods, p.strand ≠ st.id := by
    simp [hprods]
  rw [hraise]
  by_cases hquiet : ∀ p ∈ s.prods, p.strand ≠ st.id
  · rw [if_neg (by rw [hany]; exact not_not_intro hquiet), if_pos hquiet]
    have hfound := strand_setStrand w { st with state := .trapped t } (by rw [hstw]; rfl)
    have hdeliver := deliver_handled (st := { st with state := .trapped t }) hfound hew rfl huw hh (.inl (by simp [hcause]))
    rw [State.handled, if_pos hcause, if_neg hentry] at hdeliver
    exact hdeliver.trans (setStrand_setStrand _ _ _ rfl)
  · rw [if_pos (hany.mpr hquiet), if_neg hquiet]

/-- Settles O46: a delivery is that of the model once no producer of the strand is in flight, and MAP is raised as another trap is. -/
theorem trapsAreDelivered : Obligations.TrapsAreDelivered := by
  unfold Obligations.TrapsAreDelivered
  intro s st e hst he hu
  refine ⟨fun t hstate hquiet => ?delivery, ?map⟩
  case delivery =>
    have hprods : (s.prods.any fun p => p.strand == st.id) = false := by simpa using hquiet
    have hexec : exec (.trapDelivery st.id) s = .next (s.deliver st.id) := by
      change Host.Outcome.next (if s.prods.any fun p => p.strand == st.id then s else s.deliver st.id) = _
      rw [hprods]
      rfl
    refine ⟨fun hh hplain => ?_, fun h hh => ?_, fun hh hc u hunw => ?_⟩
    · exact hexec.trans (congrArg Host.Outcome.next (deliver_handled hst he hstate hu hh hplain))
    · exact hexec.trans (congrArg Host.Outcome.next (deliver_double hst he hstate hh))
    · obtain ⟨hdeliver, hany⟩ := deliver_unwinds hst he hstate hh hc hunw
      refine ⟨hexec.trans (congrArg Host.Outcome.next hdeliver), ?_, ?_⟩
      · refine congrArg Host.Outcome.next (Eq.trans ?_ hdeliver)
        have hcause : (decide (t.cause = 0x20) || decide (t.cause = 0x21)) = true := by simpa using hc
        simp only [hst, hstate, hcause, hh, hany, hprods, Option.isNone_none, Bool.not_false, Bool.and_self, if_true]
      · intro above reg rest h base len hregion hforks hcont
        exact ⟨_, unwound_strand hst hcont hunw hregion hforks, rfl, rfl, rfl, rfl, rfl, rfl⟩
  case map =>
    intro g c hg hc hack hseen hentry hh hcont htile hrunning hlive hstate hheld hsleep hrestored t
    have hdue : s.mapTrapDue st e g = true := by
      have hack' : c.ack < s.version := hack
      have hseen' : g.mapSeen < s.version := hseen
      have hmay : st.mayIssue = true := by
        have hl := hlive
        simpa [Strand.mayIssue, hstate] using hl
      simp [State.mapTrapDue, hc, hack', hseen', hentry, hh, hcont, htile, hrunning, hmay, Strand.midway, hstate, hheld, hsleep, hrestored]
    exact congrArg Host.Outcome.next ((mapTrap_due hst he hg hstate hdue).trans (deliverMap_raised hst he hg hu hh hcont hentry))

end Sys2Proof.Machine
end

section
/-!
PROOF. Operations of the state that leave memory as it is (O59).
-/

namespace Sys2Proof.Machine

@[simp] theorem reply_mem (s : State) (r : Reply) : (s.reply r).mem = s.mem := rfl
@[simp] theorem hold_mem (s : State) (t : Transfer) : (s.hold t).mem = s.mem := rfl
@[simp] theorem hubWait_mem (s : State) (ctx : Nat) (w : HubWrite) : (s.hubWait ctx w).mem = s.mem := rfl

@[simp] theorem dropOthers_mem (s : State) (core line : Nat) : (s.dropOthers core line).mem = s.mem := by
  unfold State.dropOthers
  exact foldl_keeps State.mem (fun _ _ => by simp) _ _

@[simp] theorem icFill_mem (s : State) (core line : Nat) : (s.icFill core line).mem = s.mem := by
  unfold State.icFill
  dsimp only
  split <;> rfl

@[simp] theorem bump_mem (s : State) (ctx n k : Nat) : (s.bump ctx n k).mem = s.mem := by
  unfold State.bump
  split <;> rfl

@[simp] theorem postNoFrames_mem (s : State) (ctx die : Nat) (pref : Bool) : (s.postNoFrames ctx die pref).mem = s.mem := by
  unfold State.postNoFrames
  dsimp only
  repeat' split
  all_goals rfl

@[simp] theorem noteLack_mem (s : State) (ctx : Nat) (pref : Bool) (pages : List Nat) : (s.noteLack ctx pref pages).mem = s.mem := by
  unfold State.noteLack
  exact foldl_keeps State.mem (fun _ _ => by simp) _ _

@[simp] theorem startSwitch_mem (s : State) (ctx : Nat) : (s.startSwitch ctx).mem = s.mem := by
  unfold State.startSwitch
  split <;> simp

@[simp] theorem unlease_mem (s : State) (page : Nat) : (s.unlease page).mem = s.mem := by
  unfold State.unlease
  repeat' split
  all_goals rfl

@[simp] theorem mapQueue_mem (s : State) (ctx q : Nat) (f : Queue → Queue) : (s.mapQueue ctx q f).mem = s.mem := by
  unfold State.mapQueue
  split <;> rfl

@[simp] theorem stopTile_mem (s : State) (st : Strand) : (s.stopTile st).mem = s.mem := by
  unfold State.stopTile
  split <;> rfl

@[simp] theorem fenceClasses_mem (s : State) (e : Env) (bits : Nat) : (s.fenceClasses e bits).mem = s.mem := by
  unfold State.fenceClasses
  repeat' split
  all_goals rfl

@[simp] theorem replayPush_mem (s : State) (st : Strand) (f : Form) : (s.replayPush st f).mem = s.mem := by
  unfold State.replayPush
  dsimp only
  split <;> simp

@[simp] theorem deliverTo_mem (s : State) (a : Access) (vs : List (Elem × Nat)) (poison : Bool) : (s.deliverTo a vs poison).mem = s.mem := by
  unfold State.deliverTo
  split <;> rfl

@[simp] theorem trackFor_mem (s : State) (a : Access) (secs : List Sector) (copy : ReadCopy) : (s.trackFor a secs copy).mem = s.mem := by
  unfold State.trackFor
  repeat' split
  all_goals rfl

@[simp] theorem loseScratch_mem (s : State) (group who : Nat) (es : List Elem) : (s.loseScratch group who es).mem = s.mem := by
  simp [State.loseScratch]

@[simp] theorem scratchStore_mem (s : State) (group who : Nat) (es : List Elem) : (s.scratchStore group who es).mem = s.mem := by
  unfold State.scratchStore
  split <;> simp

@[simp] theorem clearWhole_mem (s : State) (a : Access) : (s.clearWhole a).mem = s.mem := by
  unfold State.clearWhole
  dsimp only
  split <;> simp

@[simp] theorem completeProducer_mem (s : State) (id : Nat) (shape : Producer → Producer) : (s.completeProducer id shape).mem = s.mem := by
  unfold State.completeProducer
  dsimp only
  repeat' split
  all_goals rfl

@[simp] theorem setRing_mem (s : State) (gid n : Nat) (r : Ring) : (s.setRing gid n r).mem = s.mem := by
  unfold State.setRing
  split <;> rfl

@[simp] theorem granted_mem (s : State) (cl : Nat) (r : ChargeReq) : (s.granted cl r).mem = s.mem := by
  unfold State.granted
  repeat' split
  all_goals simp

@[simp] theorem grant_mem (s : State) (cl : Nat) (r : ChargeReq) : (s.grant cl r).mem = s.mem := by
  simp [State.grant]

@[simp] theorem request_mem (s : State) (cl : Nat) (r : ChargeReq) : (s.request cl r).mem = s.mem := by
  unfold State.request
  dsimp only
  split <;> simp

@[simp] theorem copyFence_mem (s : State) (e : Env) (t : CopyCtl) (q : Ring) : (s.copyFence e t q).mem = s.mem := by
  unfold State.copyFence
  split <;> simp

@[simp] theorem copyRing_mem (s : State) (k : Copy) : (s.copyRing k).mem = s.mem := by
  unfold State.copyRing
  dsimp only
  repeat' split
  all_goals simp

@[simp] theorem trainWith_mem (s : State) (st : Strand) (r : Option TrainRec) : (s.trainWith st r).mem = s.mem := by
  unfold State.trainWith
  repeat' split
  all_goals simp

@[simp] theorem commitAmax_mem (s : State) (group : Nat) (buffer : List BufEntry) : (s.commitAmax group buffer).mem = s.mem := by
  unfold State.commitAmax
  split <;> rfl

@[simp] theorem grantBand_mem (s : State) (cl tile l : Nat) (b : Band) : (s.grantBand cl tile l b).mem = s.mem := by
  simp [State.grantBand]

@[simp] theorem reshape_mem (s : State) (cl tile : Nat) (mask : List Nat) : (s.reshape cl tile mask).mem = s.mem := by
  unfold State.reshape
  split
  · rfl
  · dsimp only
    rw [foldl_keeps State.mem fun _ _ => grantBand_mem ..]
    simp

@[simp] theorem setTask_mem (s : State) (cl : Nat) (t : Task) : (s.setTask cl t).mem = s.mem := by
  simp [State.setTask]

@[simp] theorem taskRing_mem (s : State) (g : Nat) (t : Task) : (s.taskRing g t).mem = s.mem := by
  unfold State.taskRing
  split <;> rfl

@[simp] theorem leaseLacks_mem (s : State) (c : Ctx) (page : Nat) (pref : Bool) : (s.leaseLacks c page pref).mem = s.mem := by
  unfold State.leaseLacks
  split <;> simp

@[simp] theorem coreTakes_mem (s : State) (core ctx : Nat) : (s.coreTakes core ctx).mem = s.mem := by
  unfold State.coreTakes
  dsimp only
  split <;> simp

@[simp] theorem ctxRuns_mem (s : State) (ctx : Nat) : (s.ctxRuns ctx).mem = s.mem := by
  unfold State.ctxRuns
  repeat' split
  all_goals rfl

@[simp] theorem dropOwns_mem (s : State) (lid : Nat) : (s.dropOwns lid).mem = s.mem := by
  unfold State.dropOwns
  split
  · split
    · exact foldl_keeps State.mem unlease_mem _ _
    · rfl
  · rfl

@[simp] theorem hostQueue_mem (s : State) (func ctx q : Nat) (f : Queue → Queue) : (s.hostQueue func ctx q f).mem = s.mem := by
  unfold State.hostQueue
  repeat' split
  all_goals rfl

@[simp] theorem setQueueOf_mem (s : State) (ctx q : Nat) (f : Queue → Queue) : (s.setQueueOf ctx q f).mem = s.mem := by
  unfold State.setQueueOf
  split <;> rfl

@[simp] theorem startChange_mem (s : State) (ctx q index : Nat) (change : Change) : (s.startChange ctx q index change).mem = s.mem := by
  simp [State.startChange]

@[simp] theorem writeMapPage_mem (s : State) : s.writeMapPage.mem = s.mem := by
  unfold State.writeMapPage
  dsimp only
  rw [lose_mem, foldl_keeps State.mem fun _ _ => dropOthers_mem ..]
  split <;> rfl

@[simp] theorem mapWriteStep_mem (s : State) : s.mapWriteStep.mem = s.mem := by
  unfold State.mapWriteStep
  split <;> simp

@[simp] theorem loseStacks_mem (s : State) (old new : SMap) : (s.loseStacks old new).mem = s.mem := by
  unfold State.loseStacks
  exact foldl_keeps State.mem (fun _ _ => by rfl) _ _

@[simp] theorem linkCorrected_mem (s : State) (n : Nat) : (s.linkCorrected n).mem = s.mem := by
  unfold State.linkCorrected
  repeat' split
  all_goals rfl

@[simp] theorem poisonSectors_mem (s : State) (ias : List Nat) : (s.poisonSectors ias).mem = s.mem := by
  unfold State.poisonSectors
  exact foldl_keeps State.mem (fun _ _ => by split <;> simp) _ _

@[simp] theorem poisonRegister_mem (s : State) (agent : Nat) (reg : Option (Nat × Nat)) : (s.poisonRegister agent reg).mem = s.mem := by
  unfold State.poisonRegister
  repeat' split
  all_goals rfl

@[simp] theorem poisonL1_mem (s : State) (agent : Nat) (ias : List Nat) : (s.poisonL1 agent ias).mem = s.mem := by
  simp [State.poisonL1]

@[simp] theorem contextCreate_mem (s : State) (func : Nat) (d key : List Byte) : (s.contextCreate func d key).mem = s.mem := by
  unfold State.contextCreate
  dsimp only
  repeat' split
  all_goals rfl

@[simp] theorem dropWork_mem (s : State) (ctx : Nat) : (s.dropWork ctx).mem = s.mem := by
  unfold State.dropWork
  exact foldl_keeps State.mem (fun _ _ => by simp) _ _

@[simp] theorem tick_mem (s : State) (n c : Nat) : (s.tick n c).mem = s.mem := by
  unfold State.tick
  split <;> simp

@[simp] theorem chargeRefill_mem (s : State) (cl : Nat) : (s.chargeRefill cl).mem = s.mem := by
  unfold State.chargeRefill
  dsimp only
  split <;> simp

@[simp] theorem thermalThrottle_mem (s : State) (n : Nat) (reading : Int) : (s.thermalThrottle n reading).mem = s.mem := by
  unfold State.thermalThrottle
  dsimp only
  repeat' split
  all_goals rfl

@[simp] theorem thermalRelease_mem (s : State) (n : Nat) (reading : Int) : (s.thermalRelease n reading).mem = s.mem := by
  unfold State.thermalRelease
  dsimp only
  repeat' split
  all_goals rfl

@[simp] theorem fabricRead_mem (s : State) (func n : Nat) : (s.fabricRead func n).mem = s.mem := by
  unfold State.fabricRead
  repeat' split
  all_goals rfl

@[simp] theorem lullTrial_mem (s : State) (func : Nat) (clusters fractions : List Nat) (ms : Nat) :
    (s.lullTrial func clusters fractions ms).mem = s.mem := by
  unfold State.lullTrial
  split <;> rfl

@[simp] theorem lullStep_mem (s : State) : s.lullStep.mem = s.mem := by
  unfold State.lullStep
  repeat' split
  all_goals rfl

@[simp] theorem refuseTransfer_mem (s : State) (t : Transfer) : (s.refuseTransfer t).mem = s.mem := by
  unfold State.refuseTransfer
  split <;> rfl

@[simp] theorem barReadNow_mem (s : State) (func off n : Nat) : (s.barReadNow func off n).mem = s.mem := by
  unfold State.barReadNow
  dsimp only
  split <;> rfl

@[simp] theorem barWriteNow_mem (s : State) (func off : Nat) (bytes : List Byte) : (s.barWriteNow func off bytes).mem = s.mem := by
  unfold State.barWriteNow
  dsimp only
  repeat' split
  all_goals rfl

@[simp] theorem sriov_mem (s : State) (n : Nat) : (s.sriov n).mem = s.mem := by
  unfold State.sriov
  split <;> rfl

@[simp] theorem hostRing_mem (s : State) (gid q : Nat) (step : RingStep) : (s.hostRing gid q step).mem = s.mem := by
  unfold State.hostRing
  split
  · rfl
  · split
    · rfl
    · split
      · rfl
      · dsimp only
        split <;> split <;> simp

@[simp] theorem acknowledge_mem (s : State) (ctx : Nat) (n : DWord) : (s.acknowledge ctx n).1.mem = s.mem := by
  unfold State.acknowledge
  repeat' split
  all_goals rfl

@[simp] theorem wakePhaser_mem (s : State) : s.wakePhaser.mem = s.mem := rfl

end Sys2Proof.Machine
end

section
/-!
PROOF. The canonical form of memory is kept by every operation of the state that writes it, or calls one that does (O59). A lemma f_sound says it
of the state that f gives; of the first part of its result r where f gives a pair; and of t where f gives some t.
-/

namespace Sys2Proof.Machine

open Safety (Sound)

variable {s : State}

/-- A job whose states have their memory in canonical form: the one it has reached, and the one that a SPILL trap keeps. -/
structure Job.Sound (j : Job) : Prop where
  now : Safety.Sound j.s
  start : Safety.Sound j.s0

/-- The job in which an evaluation ends. -/
def endJob {α : Type} : EStateM.Result Stop Job α → Job
  | .ok _ j => j
  | .error _ j => j

theorem sound_ite {c : Prop} [Decidable c] {a b : State} (ha : Sound a) (hb : Sound b) : Sound (if c then a else b) := by
  split
  · exact ha
  · exact hb

theorem sound_getD {o : Option State} {a : State} (ho : ∀ t, o = some t → Sound t) (ha : Sound a) : Sound (o.getD a) := by
  cases o with
  | none => exact ha
  | some t => exact ho t rfl

theorem sound_foldl_fst {α β : Type} {f : State × β → α → State × β} (hf : ∀ r x, Sound r.1 → Sound (f r x).1) (l : List α) {b : β}
    (h : Sound s) : Sound (l.foldl f (s, b)).1 := by
  induction l generalizing s b with
  | nil => exact h
  | cons x l ih => exact ih (hf (s, b) x h)

theorem touchRange_sound {r : State × Bool × List Nat} {conf pref : Bool} {ia n die : Nat} (e : s.touchRange conf pref ia n die = r)
    (h : Sound s) : Sound r.1 := by
  subst e
  refine sound_foldl_fst (fun r i hr => ?_) _ h
  extract_lets +onlyGivenNames page t at'
  have ht : Sound t := touch_sound _ _ _ hr
  split
  · exact ht
  · split
    · exact ht
    · exact ht

theorem vput_sound {t : State} {c : Ctx} {va : Nat} {bytes : List Byte} (e : s.vput c va bytes = some t) (h : Sound s) : Sound t := by
  unfold State.vput at e
  split at e
  · cases e
  · split at e
    · cases e
      exact homeWrite_sound _ _ _ _ _ h
    · cases e

theorem vwrite_sound {t : State} {c : Ctx} {va : Nat} {bytes : List Byte} (e : s.vwrite c va bytes = some t) (h : Sound s) : Sound t := by
  unfold State.vwrite at e
  split at e
  · cases e
  · split at e
    · exact vput_sound e h
    · cases e

theorem vtouch_sound {r : State × Bool × List Nat × Bool} {c : Ctx} {va n : Nat} (e : s.vtouch c va n = r) (h : Sound s) : Sound r.1 := by
  subst e
  unfold State.vtouch
  split
  · exact h
  · split
    · next s1 ok lack e =>
        have hs1 : Sound s1 := touchRange_sound e h
        exact sound_ite (sound_foldl _ (fun _ _ hu => h4Sys_sound _ hu) _ hs1) hs1

theorem traceWrite_sound {c : Ctx} {item : List Byte} {count : Nat} (h : Sound s) : Sound (s.traceWrite c item count) := by
  unfold State.traceWrite
  split
  · exact sound_of_mem rfl h
  · exact sound_of_mem rfl (homeWrite_sound _ _ _ _ _ h)

theorem traceSeal_sound {ctx : Nat} (h : Sound s) : Sound (s.traceSeal ctx) := by
  unfold State.traceSeal
  split
  · exact h
  · split
    · exact h
    · exact traceWrite_sound h

theorem tracePost_sound {ctx : Nat} {t : TraceItem} (h : Sound s) : Sound (s.tracePost ctx t) := by
  unfold State.tracePost
  split
  · exact h
  · split
    · exact h
    · extract_lets +onlyGivenNames item
      split
      · extract_lets +onlyGivenNames _ s1
        have hs1 : Sound s1 := sound_of_mem rfl h
        exact sound_ite (traceSeal_sound hs1) hs1
      · exact traceWrite_sound h

theorem traceOf_sound {st : Strand} {kind tag addr : Nat} (h : Sound s) : Sound (s.traceOf st kind tag addr) := by
  unfold State.traceOf
  split
  · exact h
  · split
    · exact tracePost_sound h
    · exact h

theorem squash_sound {cid code : Nat} (h : Sound s) : Sound (s.squash cid code) := by
  unfold State.squash
  split
  · exact h
  · extract_lets +onlyGivenNames s1 s2
    have hs1 : Sound s1 := traceOf_sound h
    have hs2 : Sound s2 := by
      dsimp only [s2]
      split
      · exact sound_of_mem (bump_mem ..) hs1
      · exact hs1
    exact sound_of_mem rfl hs2

theorem squashWhere_sound {p : Strand → Bool} (h : Sound s) : Sound (s.squashWhere p) := by
  unfold State.squashWhere
  exact sound_foldl _ (fun _ _ hu => squash_sound hu) _ h

theorem preempt_sound {team : Nat} (h : Sound s) : Sound (s.preempt team) := by
  unfold State.preempt
  split
  · exact h
  · split
    · exact h
    · exact sound_of_mem rfl (squashWhere_sound h)

theorem touchBy_sound {c : Ctx} {page : Nat} {pref : Bool} (h : Sound s) : Sound (s.touchBy c page pref) := by
  unfold State.touchBy
  extract_lets +onlyGivenNames s1
  have hs1 : Sound s1 := touch_sound _ _ _ h
  exact sound_ite hs1 (sound_of_mem (postNoFrames_mem ..) hs1)

theorem touchAll_sound {r : State × Bool} {c : Ctx} {die : Nat} {pages : List (Nat × Bool)} (e : s.touchAll c die pages = r) (h : Sound s) :
    Sound r.1 := by
  subst e
  unfold State.touchAll
  exact sound_foldl _ (fun _ _ hu => touchBy_sound hu) _ h

theorem readyRange_sound {r : State × Bool} {c : Ctx} {lo len : Nat} (e : s.readyRange c lo len = r) (h : Sound s) : Sound r.1 := by
  subst e
  unfold State.readyRange
  split
  · next s1 t e =>
      have hs1 : Sound s1 := touchRange_sound e h
      exact hs1
  · next s1 lack e =>
      have hs1 : Sound s1 := touchRange_sound e h
      exact sound_of_mem (noteLack_mem ..) hs1

theorem hubBytes_sound {r : State × Bool} {ctx ia : Nat} {conf pref : Bool} {data : List Byte} (e : s.hubBytes ctx ia conf pref data = r)
    (h : Sound s) :
    Sound r.1 := by
  subst e
  unfold State.hubBytes
  split
  · next s1 ok lack e =>
      have hs1 : Sound s1 := touchRange_sound e h
      split
      · exact homeWrite_sound _ _ _ _ _ hs1
      · exact sound_of_mem (noteLack_mem ..) hs1

theorem saveCounters_sound {t : State} {c : Ctx} (e : s.saveCounters c = some t) (h : Sound s) : Sound t := by
  unfold State.saveCounters at e
  split at e
  · dsimp only at e
    split at e
    · next u hu =>
        cases e
        exact hubBytes_sound hu h
    · next u hu =>
        cases e
        have hs : Sound u := hubBytes_sound hu h
        exact sound_of_mem rfl hs
  · cases e

theorem quiesce_sound {ctx : Nat} (h : Sound s) : Sound (s.quiesce ctx) := by
  unfold State.quiesce
  exact sound_foldl _ (fun _ _ hu => preempt_sound hu) _ (squashWhere_sound h)

theorem contextFault_sound {ctx cause : Nat} (h : Sound s) : Sound (s.contextFault ctx cause) := by
  unfold State.contextFault
  split
  · exact h
  · split
    · exact h
    · extract_lets +onlyGivenNames _ s1 s2
      have hs2 : Sound s2 := traceSeal_sound (quiesce_sound (sound_of_mem (startSwitch_mem ..) (sound_of_mem rfl h)))
      split
      · exact hs2
      · exact sound_getD (fun _ e => saveCounters_sound e hs2) hs2

theorem postNow_sound {r : State × Bool} {ctx type : Nat} {body : List Byte} (e : s.postNow ctx type body = r) (h : Sound s) : Sound r.1 := by
  subst e
  unfold State.postNow
  split
  · exact h
  · split
    · exact h
    · split
      · exact sound_of_mem rfl h
      · extract_lets +onlyGivenNames va
        split
        · next s1 lack pref e =>
            have hs1 : Sound s1 := vtouch_sound e h
            exact sound_of_mem (noteLack_mem ..) hs1
        · next s1 t t1 e =>
            have hs1 : Sound s1 := vtouch_sound e h
            split
            · exact contextFault_sound hs1
            · next s2 e =>
                have hs2 : Sound s2 := vwrite_sound e hs1
                exact sound_of_mem rfl (sound_of_mem rfl hs2)

theorem post_sound {ctx type : Nat} {body : List Byte} (h : Sound s) : Sound (s.post ctx type body) := by
  unfold State.post
  split
  · exact sound_of_mem rfl h
  · split
    · next t e =>
        have ht : Sound t := postNow_sound e h
        exact ht
    · next t e =>
        have ht : Sound t := postNow_sound e h
        exact sound_of_mem rfl ht

theorem ctxTo_sound {ctx : Nat} {st : CState} {cause : Nat} (h : Sound s) : Sound (s.ctxTo ctx st cause) := by
  unfold State.ctxTo
  split
  · exact h
  · exact post_sound (sound_of_mem rfl h)

theorem faultCtx_sound {ctx cause : Nat} (h : Sound s) : Sound (s.faultCtx ctx cause) := by
  unfold State.faultCtx
  split
  · exact h
  · split
    · exact h
    · extract_lets +onlyGivenNames s1
      have hs1 : Sound s1 := contextFault_sound h
      exact sound_ite hs1 (post_sound hs1)

theorem count_sound {ctx ev k : Nat} (h : Sound s) : Sound (s.count ctx ev k) := by
  unfold State.count
  split
  · exact h
  · refine sound_foldl _ (fun t i ht => ?_) _ h
    extract_lets +onlyGivenNames n w ob
    split
    · extract_lets +onlyGivenNames old t1
      have ht1 : Sound t1 := sound_of_mem (bump_mem ..) ht
      exact sound_ite (sound_foldl _ (fun _ _ hu => post_sound hu) _ ht1) ht1
    · exact ht

theorem lease_sound {t : State} {page : Nat} {conf pref : Bool} (e : s.lease page conf pref = some t) (h : Sound s) : Sound t := by
  unfold State.lease at e
  split at e
  · cases e
    exact h
  · dsimp only at e
    split at e
    · split at e
      · cases e
      · cases e
        exact sound_of_mem rfl (touch_sound _ _ _ h)
    · cases e

theorem recordAt_sound {r : State × Bool} {c : Ctx} {va : Nat} {data : List Byte} (e : s.recordAt c va data = some r) (h : Sound s) :
    Sound r.1 := by
  unfold State.recordAt at e
  split at e
  · next u lack pref hu =>
      cases e
      exact sound_of_mem (noteLack_mem ..) (vtouch_sound hu h)
  · next u lack pref hu =>
      obtain ⟨t, ht, rfl⟩ := Option.map_eq_some_iff.1 e
      exact vput_sound ht (vtouch_sound hu h)

theorem recordNow_sound {r : State × Bool} {ctx q index : Nat} {done : Option Nat} {data : List Byte}
    (e : s.recordNow ctx q index done data = r) (h : Sound s) : Sound r.1 := by
  subst e
  unfold State.recordNow
  split
  · exact h
  · next c hc =>
      extract_lets +onlyGivenNames qu r
      have hr : Sound r.1 := by
        dsimp only [r]
        split
        · next r' e =>
            obtain ⟨d, -, e⟩ := Option.bind_eq_some_iff.1 e
            exact recordAt_sound e h
        · cases e : s.recordAt c (qu.cdone.toNat + 16 * (index % 2 ^ qu.qsize)) data with
          | none => exact h
          | some r' => exact recordAt_sound e h
      split
      · exact sound_of_mem (mapQueue_mem ..) hr
      · exact hr

theorem complete_sound {ctx q index : Nat} {done : Option Nat} {status res faulted : Nat} (h : Sound s) :
    Sound (s.complete ctx q index done status res faulted) := by
  unfold State.complete
  extract_lets +onlyGivenNames data s1
  have hs1 : Sound s1 := by
    dsimp only [s1]
    split
    · next s2 e =>
        have hs2 : Sound s2 := recordNow_sound e h
        exact hs2
    · next s2 e =>
        have hs2 : Sound s2 := recordNow_sound e h
        exact sound_of_mem rfl hs2
  exact sound_ite (post_sound (sound_of_mem (mapQueue_mem ..) hs1)) hs1

theorem retryWait_sound {t : State} {w : HubWait} (e : s.retryWait w = some t) (h : Sound s) : Sound t := by
  unfold State.retryWait at e
  extract_lets +onlyGivenNames _ u out at e
  have hu : Sound u := sound_of_mem rfl h
  have hout : Sound out.1 := by
    dsimp only [out]
    split
    · exact hubBytes_sound rfl hu
    · split
      · exact postNow_sound rfl hu
      · exact hu
    · exact recordNow_sound rfl hu
  split at e
  · cases e
    exact hout
  · cases e

theorem drainWaits_sound (h : Sound s) : Sound s.drainWaits :=
  sound_foldl _ (fun _ _ hu => sound_getD (fun _ e => retryWait_sound e hu) hu) _ h

theorem settleLaunch_sound {lid : Nat} (h : Sound s) : Sound (s.settleLaunch lid) := by
  unfold State.settleLaunch
  split
  · exact h
  · extract_lets +onlyGivenNames live all
    split
    · exact h
    · extract_lets +onlyGivenNames s1 s2 s3
      have hs2 : Sound s2 := sound_of_mem rfl (sound_foldl _ (fun _ _ hu => sound_of_mem (unlease_mem ..) hu) _ h)
      have hs3 : Sound s3 := by
        dsimp only [s3]
        split
        · exact sound_of_mem rfl hs2
        · exact hs2
      split
      · exact complete_sound hs3
      · exact complete_sound hs3

theorem settleCtx_sound {ctx : Nat} (h : Sound s) : Sound (s.settleCtx ctx) := by
  unfold State.settleCtx
  split
  · exact h
  · exact sound_ite (traceSeal_sound (sound_of_mem rfl h)) h

theorem settleTeam_sound {tid : Nat} (h : Sound s) : Sound (s.settleTeam tid) := by
  unfold State.settleTeam
  split
  · exact h
  · extract_lets +onlyGivenNames gs tileDone copies
    split
    · exact h
    · extract_lets +onlyGivenNames agents s1 s2 s3 _ s4
      have hs1 : Sound s1 := sound_foldl _ (fun _ _ hu => l1Release_sound _ _ hu) _ h
      have hs3 : Sound s3 := sound_of_mem rfl (sound_foldl _ (fun _ _ hu => sound_of_mem (unlease_mem ..) hu) _ hs1)
      have hs4 : Sound s4 := by
        dsimp only [s4]
        exact sound_ite (sound_of_mem (setCluster_mem ..) hs3) hs3
      split
      · exact hs4
      · exact settleCtx_sound (settleLaunch_sound (sound_of_mem rfl hs4))

theorem retireGroup_sound {gid : Nat} (h : Sound s) : Sound (s.retireGroup gid) := by
  unfold State.retireGroup
  split
  · exact h
  · extract_lets +onlyGivenNames s1 s2
    have hs2 : Sound s2 := settleTeam_sound (sound_of_mem rfl h)
    split
    · split
      · exact settleCtx_sound hs2
      · exact hs2
    · exact hs2

theorem checkBar_sound {gid n me : Nat} (h : Sound s) : Sound (s.checkBar gid n me) := by
  unfold State.checkBar
  split
  · exact h
  · extract_lets +onlyGivenNames b
    split
    · extract_lets +onlyGivenNames s1 moves past s2
      refine sound_foldl _ (fun t t1 ht => ?_) _ (sound_of_mem rfl h)
      split
      · exact count_sound ht
      · exact ht
    · exact h

theorem strandExit_sound {id : Nat} (h : Sound s) : Sound (s.strandExit id) := by
  unfold State.strandExit
  split
  · exact h
  · split
    · exact h
    · extract_lets +onlyGivenNames s1
      have hs1 : Sound s1 := sound_of_mem rfl h
      split
      · exact hs1
      · split
        · exact settleTeam_sound (sound_of_mem rfl hs1)
        · extract_lets +onlyGivenNames s2
          have hs2 : Sound s2 := sound_foldl _ (fun _ _ hu => checkBar_sound hu) _ hs1
          exact sound_ite (retireGroup_sound hs2) hs2

theorem groupFault_sound {st : Strand} {kind code addr : Nat} {lanes : Mask} {detail : Word} {va ia : Nat} (h : Sound s) :
    Sound (s.groupFault st kind code addr lanes detail va ia) := by
  unfold State.groupFault
  split
  · split
    · extract_lets +onlyGivenNames s1 s2 s3
      have hs2 : Sound s2 := sound_of_mem (stopTile_mem ..) (post_sound h)
      have hs3 : Sound s3 := by
        dsimp only [s3]
        split
        · exact hs2
        · split
          · exact sound_of_mem rfl (sound_of_mem (bump_mem ..) hs2)
          · exact hs2
      exact settleTeam_sound hs3
    · extract_lets +onlyGivenNames s1 s2 s3 s4 s5 s6 s7 s8
      have hs5 : Sound s5 := sound_of_mem (stopTile_mem ..) (sound_of_mem rfl (sound_of_mem (bump_mem ..) (post_sound (squashWhere_sound h))))
      have hs6 : Sound s6 := sound_of_mem rfl hs5
      have hs7 : Sound s7 := by
        dsimp only [s7]
        split
        · exact sound_of_mem rfl (sound_foldl _ (fun _ _ hu => sound_of_mem (unlease_mem ..) hu) _ hs6)
        · exact hs6
      have hs8 : Sound s8 := by
        dsimp only [s8]
        split
        · exact sound_of_mem rfl hs7
        · exact hs7
      exact settleCtx_sound (settleTeam_sound hs8)
  · exact h

theorem hazard_sound {st : Strand} {e : Env} {kind detail ia : Nat} (h : Sound s) : Sound (s.hazard st e kind detail ia) := by
  unfold State.hazard
  split
  · split
    · exact h
    · exact sound_ite (sound_of_mem (bump_mem ..) h) (post_sound (sound_of_mem rfl h))
  · exact h

theorem touchClass_sound {st : Strand} {e : Env} {cls : Cls} {secs : List Sector} (h : Sound s) : Sound (s.touchClass st e cls secs) := by
  unfold State.touchClass
  split
  · refine sound_foldl _ (fun t sec ht => ?_) _ h
    split
    · exact ht
    · extract_lets +onlyGivenNames others s1
      have hs1 : Sound s1 := sound_foldl _ (fun _ _ hu => hazard_sound hu) _ ht
      split
      · exact sound_of_mem rfl hs1
      · exact hs1
  · exact h

theorem saveLanes_sound {st : Strand} {n : Nat} (h : Sound s) : Sound (s.saveLanes st n) := by
  unfold State.saveLanes
  exact saveBytes_sound _ _ h

theorem tagSector_sound {core who sec : Nat} {conf pref : Bool} (h : Sound s) : Sound (s.tagSector core who sec conf pref) := by
  unfold State.tagSector
  extract_lets +onlyGivenNames line s1 s2
  have hs2 : Sound s2 := sound_of_mem (lose_mem ..) (sound_of_mem (dropOthers_mem ..) (l1Flush_sound _ _ (touch_sound _ _ _ h)))
  exact sound_ite hs2 (sound_of_mem rfl hs2)

theorem outputReady_sound {r : State × Bool} {st : Strand} {e : Env} {outBase outLen : Nat} (e : s.outputReady st e outBase outLen = r)
    (h : Sound s) :
    Sound r.1 := by
  subst e
  unfold State.outputReady
  split
  · exact h
  · exact touchAll_sound rfl h

theorem unwind_sound {st : Strand} {e : Env} {t : TrapInfo} {above : List RetEntry} {reg : RetEntry} {rest : List RetEntry}
    {handler outBase outLen : Nat} (h : Sound s) :
    Sound (s.unwind st e t above reg rest handler outBase outLen) := by
  unfold State.unwind
  extract_lets +onlyGivenNames s1 d s2 st1 pends st2
  have hs1 : Sound s1 := by
    dsimp only [s1]
    split
    · exact h
    · split
      · exact h
      · refine sound_foldl _ (fun t1 i ht1 => ?_) _ h
        split
        · exact tagSector_sound ht1
        · exact ht1
  exact sound_of_mem rfl (sound_foldl _ (fun _ _ hu => squash_sound hu) _ hs1)

theorem quiesceUnit_sound {u : UnitId} (h : Sound s) : Sound (s.quiesceUnit u) := by
  unfold State.quiesceUnit
  exact sound_foldl _ (fun _ _ hu => preempt_sound hu) _ h

theorem chargeUnit_sound {u : UnitId} (h : Sound s) : Sound (s.chargeUnit u) := by
  unfold State.chargeUnit
  split
  · exact h
  · exact sound_of_mem rfl (quiesceUnit_sound h)

theorem deliver_sound {id : Nat} (h : Sound s) : Sound (s.deliver id) := by
  unfold State.deliver
  split
  · exact h
  · split
    · split
      · exact groupFault_sound h
      · extract_lets +onlyGivenNames entry plain
        have hplain : Sound plain := sound_ite (groupFault_sound h) (traceOf_sound (sound_of_mem rfl h))
        split
        · split
          · exact h
          · split
            · extract_lets +onlyGivenNames r
              have hr : Sound r.1 := outputReady_sound rfl h
              exact sound_ite (traceOf_sound (unwind_sound hr)) hr
            · exact hplain
        · exact hplain
    · exact h

theorem raise_sound {st : Strand} {t : TrapInfo} (h : Sound s) : Sound (s.raise st t) := by
  unfold State.raise
  extract_lets +onlyGivenNames st1
  split
  · exact sound_of_mem rfl h
  · extract_lets +onlyGivenNames s1 s2
    have hs1 : Sound s1 := sound_of_mem rfl h
    have hs2 : Sound s2 := sound_ite (chargeUnit_sound hs1) hs1
    exact sound_ite hs2 (deliver_sound hs2)

theorem raiseGroup_sound {st : Strand} {f : GFault} (h : Sound s) : Sound (s.raiseGroup st f) := by
  unfold State.raiseGroup
  split
  · exact sound_of_mem rfl h
  · exact groupFault_sound h

theorem deliverMap_sound {st : Strand} {g : Group} (h : Sound s) : Sound (s.deliverMap st g) := by
  unfold State.deliverMap
  exact raise_sound (sound_of_mem rfl h)

theorem raiseAfter_sound {st : Strand} {after : Option ContFault} (h : Sound s) : Sound (s.raiseAfter st after) := by
  unfold State.raiseAfter
  split
  · exact h
  · exact raise_sound h
  · exact raiseGroup_sound h

theorem parkedHazard_sound {st : Strand} {e : Env} (h : Sound s) : Sound (s.parkedHazard st e) := by
  unfold State.parkedHazard
  exact sound_ite h (sound_foldl _ (fun _ _ hu => hazard_sound hu) _ h)

theorem settle_sound {st : Strand} {r : EStateM.Result Stop Job Unit}
    (hr : (endJob r).Sound) (h : Sound s) : Sound (settle s st r) := by
  unfold settle
  split
  · extract_lets +onlyGivenNames _ st' s'
    have hs' : Sound s' := count_sound (sound_of_mem (replayPush_mem ..) (sound_of_mem rfl hr.now))
    exact sound_ite (strandExit_sound hs') (raiseAfter_sound hs')
  · exact sound_of_mem rfl h
  · exact sound_ite (sound_of_mem rfl h) (sound_of_mem (postNoFrames_mem ..) (sound_of_mem rfl h))
  · exact sound_of_mem rfl hr.now
  · exact raise_sound h
  · exact raise_sound (sound_of_mem rfl hr.start)
  · exact raiseGroup_sound (sound_ite (parkedHazard_sound h) h)
  · exact sound_of_mem rfl h

theorem noteSlots_sound {st : Strand} {e : Env} {group : Nat} {write : Bool} {rs : List (Nat × Nat)} (h : Sound s) :
    Sound (s.noteSlots st e group write rs) := by
  unfold State.noteSlots
  split
  · exact sound_foldl _ (fun _ _ hu => hazard_sound hu) _ h
  · exact h

theorem publishLines_sound {c : Ctx} (h : Sound s) : Sound (s.publishLines c) := by
  unfold State.publishLines
  exact sound_foldl _ (fun _ _ hu => h4Clean_sound _ hu) _ h

theorem performLoad_sound {a : Access} {e : Elem} (h : Sound s) : Sound (s.performLoad a e) := by
  unfold State.performLoad
  extract_lets +onlyGivenNames misses
  split
  next t r hr =>
    have ht : Sound t := by simpa [hr] using loadElem_sound a.core a.wk a.scope e.addr e.width h
    extract_lets +onlyGivenNames s1
    have hs1 : Sound s1 := sound_ite ht (count_sound ht)
    exact sound_of_mem (deliverTo_mem ..) (sound_of_mem (trackFor_mem ..) (sound_ite (l1Acquire_sound _ _ hs1) hs1))

theorem performAtom_sound {a : Access} {e : Elem} {f : Nat → Option Nat} (h : Sound s) : Sound (s.performAtom a e f) := by
  unfold State.performAtom
  extract_lets +onlyGivenNames sys s1 s2 old poison s3 s4
  have hs2 : Sound s2 := atomPrepare_sound _ _ _ _ (sound_ite (l1Release_sound _ _ h) h)
  have hs3 : Sound s3 := by
    dsimp only [s3]
    split
    · exact atomWrite_sound _ _ _ _ _ hs2
    · exact hs2
  exact sound_of_mem (deliverTo_mem ..) (sound_ite (l1Acquire_sound _ _ hs3) hs3)

theorem performZero_sound {core who ia : Nat} (h : Sound s) : Sound (s.performZero core who ia) := by
  unfold State.performZero
  extract_lets +onlyGivenNames line s1
  have hs1 : Sound s1 := homeWrite_sound _ _ _ _ _ (sound_of_mem (l1Drop_mem ..) h)
  clear_value s1
  split
  · exact sound_of_mem rfl (sliceRoom_sound _ hs1)
  · exact hs1

theorem performCwb_sound {core fn : Nat} {scope : Scope} {ia : Nat} (h : Sound s) : Sound (s.performCwb core fn scope ia) := by
  unfold State.performCwb
  extract_lets +onlyGivenNames line
  split
  · exact h
  · extract_lets +onlyGivenNames dirty s1
    have hs1 : Sound s1 := by
      dsimp only [s1]
      split
      · exact l1Clean_sound _ _ h
      · exact sound_ite h (sound_of_mem (l1Drop_mem ..) h)
      · exact l1Flush_sound _ _ h
    split
    · extract_lets +onlyGivenNames s2 clean
      have hs2 : Sound s2 := sound_ite hs1 (h4Clean_sound _ hs1)
      exact sound_ite (sound_of_mem rfl hs2) hs2
    · exact hs1

theorem perform_sound {a : Access} (h : Sound s) : Sound (s.perform a) := by
  unfold State.perform
  extract_lets +onlyGivenNames s1 each
  have hs1 : Sound s1 := sound_of_mem rfl h
  have heach : ∀ f : State → Elem → State, (∀ t e, Sound t → Sound (f t e)) → Sound (each f) := fun f hf => sound_foldl f hf _ hs1
  split
  · exact heach _ fun _ _ ht => performLoad_sound ht
  · exact heach _ fun _ _ ht => sound_of_mem (clearWhole_mem ..) (storeElem_sound _ _ _ _ _ _ (sound_ite (l1Release_sound _ _ ht) ht))
  · exact heach _ fun _ _ ht => performAtom_sound ht
  · exact heach _ fun _ _ ht => performAtom_sound ht
  · split
    · exact sound_of_mem (deliverTo_mem ..) hs1
    · extract_lets +onlyGivenNames s2 s3
      have hs2 : Sound s2 := sound_of_mem (trackFor_mem ..) hs1
      have hs3 : Sound s3 := sound_ite (l1Acquire_sound _ _ hs2) hs2
      exact sound_of_mem (deliverTo_mem ..) hs3
  · exact sound_of_mem (scratchStore_mem ..) (sound_ite (l1Release_sound _ _ hs1) hs1)
  · extract_lets +onlyGivenNames s2
    have hs2 : Sound s2 := sound_ite (l1Release_sound _ _ hs1) hs1
    split
    · exact sound_of_mem (loseScratch_mem ..) (sound_of_mem rfl hs2)
    · exact hs2
  · exact heach _ fun _ _ ht => h4Take_sound _ ht
  · split
    · exact heach _ fun _ _ ht => h4Take_sound _ ht
    · exact heach _ fun _ _ ht => loadElem_sound _ _ _ _ _ ht
  · exact heach _ fun _ _ ht => performZero_sound ht
  · exact heach _ fun _ _ ht => performCwb_sound ht
  · extract_lets +onlyGivenNames s2
    have hs2 : Sound s2 := sound_ite (l1Release_sound _ _ hs1) hs1
    exact sound_ite (l1Acquire_sound _ _ hs2) hs2
  · extract_lets +onlyGivenNames sc s2 s3
    have hs2 : Sound s2 := sound_ite (l1Release_sound _ _ hs1) hs1
    have hs3 : Sound s3 := sound_ite (l1Acquire_sound _ _ hs2) hs2
    exact sound_of_mem (deliverTo_mem ..) hs3
  · split
    · exact hs1
    · extract_lets +onlyGivenNames s2 n
      have hs2 : Sound s2 := publishLines_sound (l1Release_sound _ _ hs1)
      exact homeWrite_sound _ _ _ _ _ (l1Flush_sound _ _ hs2)
  · exact hs1

theorem touchPages_sound {a : Access} (h : Sound s) : Sound (s.touchPages a) := by
  unfold State.touchPages
  split
  · exact sound_ite h (sound_foldl _ (fun _ _ hu => touchBy_sound hu) _ h)
  · exact h

theorem performIf_sound {id : Nat} {p : Access → Bool} (h : Sound s) : Sound (s.performIf id p) := by
  unfold State.performIf
  split
  · exact sound_ite (perform_sound h) (sound_ite (touchPages_sound h) h)
  · exact h

theorem copyRead_sound {r : State × Nat × Bool} {c : Ctx} {space scope group a : Nat} (e : s.copyRead c space scope group a = r) (h : Sound s) :
    Sound r.1 := by
  subst e
  unfold State.copyRead
  split
  · split
    · exact loadElem_sound _ _ _ _ _ h
    · exact h
  · split
    · exact h
    · exact h

theorem copyWrite_sound {c : Ctx} {space scope group a : Nat} {ws : List (Nat × Bool)} (h : Sound s) :
    Sound (s.copyWrite c space scope group a ws) := by
  unfold State.copyWrite
  split
  · extract_lets +onlyGivenNames s1 s2
    have hs1 : Sound s1 := by
      dsimp only [s1]
      refine sound_foldl _ (fun t w ht => ?_) _ h
      split
      · exact storeElem_sound _ _ _ _ _ _ ht
      · exact ht
    have hs2 : Sound s2 := by
      dsimp only [s2]
      split
      · exact sound_of_mem (clearCovered_mem ..) hs1
      · exact hs1
    refine sound_foldl _ (fun t w ht => ?_) _ hs2
    split
    · exact sound_ite (tagSector_sound ht) ht
    · exact ht
  · extract_lets +onlyGivenNames s1
    have hs1 : Sound s1 := sound_of_mem (scratchStore_mem ..) h
    split
    · exact sound_of_mem rfl hs1
    · exact hs1

theorem copyMove_sound {k : Copy} (h : Sound s) : Sound (s.copyMove k) := by
  unfold State.copyMove
  split
  · exact h
  · extract_lets +onlyGivenNames _ c
    refine sound_foldl _ (fun u r hu => copyWrite_sound ?_) _ h
    refine sound_foldl_fst (fun q i hq => ?_) _ hu
    exact copyRead_sound rfl hq

theorem copyReady_sound {r : State × Bool} {k : Copy} (e : s.copyReady k = r) (h : Sound s) : Sound r.1 := by
  subst e
  unfold State.copyReady
  split
  · exact h
  · exact sound_foldl _ (fun _ _ hu => touchBy_sound hu) _ h

theorem copyStep_sound {id : Nat} (h : Sound s) : Sound (s.copyStep id) := by
  unfold State.copyStep
  split
  · exact h
  · extract_lets +onlyGivenNames fenced
    split
    next k hk s1 ready e =>
      have hs1 : Sound s1 := by
        split at e
        · cases e
          exact h
        · exact copyReady_sound e h
      split
      · exact hs1
      · extract_lets +onlyGivenNames _ s2
        have hs2 : Sound s2 := sound_ite hs1 (sound_of_mem rfl (copyMove_sound hs1))
        split
        · exact hs2
        · extract_lets +onlyGivenNames s3 s4 t s5
          have hs5 : Sound s5 := sound_of_mem rfl (sound_of_mem (copyRing_mem ..) hs2)
          split
          · exact settleTeam_sound hs5
          · exact hs5

theorem fetch_sound {r : State × FetchResult} {st : Strand} {e : Env} (e : s.fetch st e = r) (h : Sound s) : Sound r.1 := by
  subst e
  unfold State.fetch
  split
  · exact h
  · split
    · exact h
    · extract_lets +onlyGivenNames bad
      split
      · exact h
      · split
        · exact h
        · extract_lets +onlyGivenNames s'
          have hs' : Sound s' := touch_sound _ _ _ h
          split
          · extract_lets +onlyGivenNames ws
            split
            · exact hs'
            · exact sound_of_mem (icFill_mem ..) hs'
          · split
            · exact hs'
            · exact sound_of_mem (postNoFrames_mem ..) hs'

theorem commitHazards_sound {st : Strand} {buffer : List BufEntry} (h : Sound s) : Sound (s.commitHazards st buffer) := by
  unfold State.commitHazards
  split
  · exact h
  · split
    · exact h
    · extract_lets +onlyGivenNames s1
      refine sound_foldl _ (fun t b ht => ?_) _ (touchClass_sound h)
      split
      · exact noteSlots_sound ht
      · exact ht

theorem commitFork_sound {r : State × Strand × Option ContFault} {st c : Strand} {ct : Cont} {ctx : Nat} {top : RetEntry} {rest : List RetEntry}
    (e : s.commitFork st c ct ctx top rest = r) (h : Sound s) :
    Sound r.1 := by
  subst e
  unfold State.commitFork
  extract_lets +onlyGivenNames s1 new s2 s3 s4
  have hs2 : Sound s2 := sound_of_mem (commitAmax_mem ..) (commitHazards_sound (sound_of_mem rfl (sound_of_mem (trainWith_mem ..) h)))
  exact traceOf_sound (sound_of_mem (bump_mem ..) (sound_of_mem rfl hs2))

/-- The state that a pop of the top return entry leaves. -/
def Popped.state : Popped → State
  | .wait s => s
  | .committed s _ _ => s
  | .popped s _ _ _ => s

theorem popTop_sound {r : Popped} {st : Strand} {ctx : Nat} {top : RetEntry} {rest : List RetEntry} (e : popTop s st ctx top rest = r)
    (h : Sound s) : Sound r.state := by
  subst e
  have ht : Sound (s.trainWith st top.train) := sound_of_mem (trainWith_mem ..) h
  unfold popTop
  dsimp only
  repeat' split
  all_goals first
    | exact h
    | exact ht
    | exact sound_of_mem rfl h
    | exact commitFork_sound rfl h
    | exact squash_sound (sound_of_mem rfl ht)

theorem selectPath_sound {fuel : Nat} {byExit : Bool} {base ctx : Nat} {st : Strand} (h : Sound s) :
    Sound (selectPath fuel byExit base ctx s st).s := by
  induction fuel generalizing s st with
  | zero => exact h
  | succ fuel ih =>
    unfold selectPath
    dsimp only
    repeat' split
    all_goals first
      | exact h
      | exact ih h
      | exact popTop_sound ‹popTop _ _ _ _ _ = _› h
      | have hp := popTop_sound ‹popTop _ _ _ _ _ = _› h
        exact ih hp

theorem popAndSelect_sound {base ctx : Nat} {st : Strand} (h : Sound s) : Sound (popAndSelect base ctx s st).s := by
  unfold popAndSelect
  split
  · exact h
  · split
    · next e => exact popTop_sound e h
    · next e => exact popTop_sound e h
    · next e =>
        split
        · exact popTop_sound e h
        · exact selectPath_sound (popTop_sound e h)

theorem resolve_sound {strand : Nat} (h : Sound s) : Sound (s.resolve strand) := by
  unfold State.resolve
  split
  · exact h
  · split
    · extract_lets +onlyGivenNames r
      have hr : Sound r.s := popAndSelect_sound h
      split
      · exact raiseAfter_sound (sound_of_mem rfl hr)
      · exact strandExit_sound (sound_of_mem rfl hr)
      · exact hr
      · exact raiseGroup_sound (parkedHazard_sound hr)
      · exact h
    · exact h

theorem taskIssue_sound {cl entry : Nat} (h : Sound s) : Sound (s.taskIssue cl entry) := by
  unfold State.taskIssue
  extract_lets +onlyGivenNames c
  split
  · exact h
  · split
    · exact h
    · split
      · exact h
      · extract_lets +onlyGivenNames powered fenced stands
        split
        · exact h
        · extract_lets +onlyGivenNames d
          split
          · exact h
          · extract_lets +onlyGivenNames q
            refine sound_ite h ?_
            split
            · exact sound_of_mem (setTask_mem ..) h
            · exact sound_of_mem (request_mem ..) (sound_of_mem (setTask_mem ..) (sound_of_mem (fenceClasses_mem ..) (sound_of_mem rfl h)))

theorem taskRetire_sound {cl entry : Nat} (h : Sound s) : Sound (s.taskRetire cl entry) := by
  unfold State.taskRetire
  extract_lets +onlyGivenNames c
  split
  · exact h
  · extract_lets +onlyGivenNames earlier
    split
    · exact h
    · split
      · exact h
      · split
        · exact h
        · split
          · exact h
          · extract_lets +onlyGivenNames base poisoned e' s1 gone bad
            have hs1 : Sound s1 := sound_of_mem (fenceClasses_mem ..) (touchClass_sound h)
            have hgone : ∀ u, Sound u → Sound (gone u) := fun u hu => strandExit_sound (sound_of_mem (setCluster_mem ..) hu)
            have hbad : ∀ k d x, Sound (bad k d x) := fun k d x =>
              sound_of_mem (taskRing_mem ..) (sound_of_mem (setTask_mem ..) (sound_of_mem rfl hs1))
            have hring : ∀ u g t, Sound u → Sound (u.taskRing g t) := fun u g t hu => sound_of_mem (taskRing_mem ..) hu
            split
            · exact hbad _ _ _
            · split
              · split
                · exact hgone _ (hring _ _ _ (sound_of_mem rfl hs1))
                · exact hbad _ _ _
              · split
                · exact hgone _ (hring _ _ _ (sound_of_mem rfl hs1))
                · exact hbad _ _ _
              · extract_lets +onlyGivenNames vs bytes s2 s3
                have hs2 : Sound s2 := sound_of_mem (scratchStore_mem ..) hs1
                have hs3 : Sound s3 := by
                  dsimp only [s3]
                  split
                  · exact sound_ite (sound_of_mem rfl hs2) hs2
                  · exact hs2
                exact hgone _ (hring _ _ _ hs3)

theorem leaseList_sound {r : State × Bool} {c : Ctx} {pages : List (Nat × Bool)} (e : s.leaseList c pages = r) (h : Sound s) :
    Sound r.1 := by
  subst e
  induction pages generalizing s with
  | nil => exact h
  | cons w ws ih =>
    unfold State.leaseList
    split
    · next t e =>
        have ht : Sound (t.leaseList c ws).1 := ih (lease_sound e h)
        split
        · next u hu => exact hu ▸ ht
        · next u hu =>
            have hs : Sound u := by rwa [hu] at ht
            exact sound_of_mem (unlease_mem ..) hs
    · exact sound_of_mem (leaseLacks_mem ..) h

theorem leaseWaiting_sound {lid : Nat} (h : Sound s) : Sound (s.leaseWaiting lid) := by
  unfold State.leaseWaiting
  split
  · exact h
  · split
    · exact h
    · refine sound_foldl _ (fun t w ht => ?_) _ h
      split
      · next s' e =>
          have hs' : Sound s' := lease_sound e ht
          split
          · exact sound_of_mem rfl hs'
          · exact hs'
      · exact sound_of_mem (leaseLacks_mem ..) ht

theorem leaseGroup_sound {c : Ctx} {page gid : Nat} (h : Sound s) : Sound (s.leaseGroup c page gid) := by
  unfold State.leaseGroup
  split
  · exact h
  · split
    · exact h
    · extract_lets +onlyGivenNames t
      split
      · exact sound_of_mem rfl h
      · split
        · next s1 e =>
            have hs1 : Sound s1 := lease_sound e h
            exact sound_of_mem rfl hs1
        · exact sound_of_mem rfl (sound_of_mem (leaseLacks_mem ..) h)

theorem leaseOwed_sound {t : Team} (h : Sound s) : Sound (s.leaseOwed t) := by
  unfold State.leaseOwed
  split
  · exact sound_foldl _ (fun _ _ hu => leaseGroup_sound hu) _ h
  · exact h

theorem leaseAll_sound (h : Sound s) : Sound s.leaseAll := by
  unfold State.leaseAll
  exact sound_foldl _ (fun _ _ hu => leaseOwed_sound hu) _ (sound_foldl _ (fun _ _ hu => leaseWaiting_sound hu) _ h)

theorem traceGroup_sound {kind : Nat} {g : Group} {l : Launch} (h : Sound s) : Sound (s.traceGroup kind g l) := by
  unfold State.traceGroup
  exact tracePost_sound h

theorem placeNew_sound {l : Launch} {k : Kernel} {c : Ctx} {p : Pend} {w : Placement} (h : Sound s) : Sound (s.placeNew l k c p w) := by
  unfold State.placeNew
  extract_lets +onlyGivenNames t scr base tid gid sid tileId stackTop linear strands tileSlot _ tile groups team s1 s2 s3 s4 s5 s6
  have hs3 : Sound s3 := sound_of_mem (dropOwns_mem ..) (sound_of_mem rfl h)
  have hs4 : Sound s4 := sound_foldl _ (fun _ _ hu => l1Acquire_sound _ _ (sound_of_mem (coreTakes_mem ..) hu)) _ hs3
  have hs6 : Sound s6 := sound_foldl _ (fun _ _ hu => traceGroup_sound hu) _ (sound_ite (l1Acquire_sound _ _ hs4) hs4)
  exact sound_of_mem (ctxRuns_mem ..) (sound_of_mem (bump_mem ..) hs6)

theorem readyAreas_sound {r : State × Bool} {c : Ctx} {areas : List (Nat × Nat)} (e : s.readyAreas c areas = r) (h : Sound s) :
    Sound r.1 := by
  subst e
  refine sound_foldl_fst (fun q a hq => ?_) _ h
  dsimp only
  exact readyRange_sound rfl hq

theorem restoreGroup_sound {t : Team} {l : Launch} {gid core : Nat} (h : Sound s) : Sound (s.restoreGroup t l gid core) := by
  unfold State.restoreGroup
  split
  · exact h
  · extract_lets +onlyGivenNames s1 s2
    have hs1 : Sound s1 := l1Acquire_sound _ _ (sound_of_mem (coreTakes_mem ..) h)
    have hs2 : Sound s2 := sound_ite hs1 (sound_of_mem (bump_mem ..) (traceGroup_sound hs1))
    split
    · exact groupFault_sound (sound_of_mem rfl hs2)
    · exact sound_of_mem rfl (sound_of_mem rfl hs2)

theorem restoreTile_sound {t : Team} {cl : Nat} (h : Sound s) : Sound (s.restoreTile t cl) := by
  unfold State.restoreTile
  split
  · exact h
  · extract_lets +onlyGivenNames slot s1 s2
    have hs1 : Sound s1 := l1Acquire_sound _ _ h
    have hs2 : Sound s2 := by
      dsimp only [s2]
      split
      · exact sound_of_mem rfl hs1
      · exact hs1
    split
    · exact sound_of_mem rfl hs2
    · split
      · exact groupFault_sound (sound_of_mem rfl hs2)
      · extract_lets +onlyGivenNames _ y s3 s4
        refine sound_foldl _ (fun t1 k ht1 => ?_) _ (sound_foldl _ (fun _ _ hu => sound_of_mem (grantBand_mem ..) hu) _ (sound_of_mem rfl hs2))
        exact sound_of_mem (setCluster_mem ..) ht1

theorem restoreTeam_sound {t : Team} {l : Launch} {p : Pend} {cl : Nat} {cores : List Nat} (h : Sound s) :
    Sound (s.restoreTeam t l p cl cores) := by
  unfold State.restoreTeam
  extract_lets +onlyGivenNames t' _ s1 s2 s3
  have hs1 : Sound s1 := by
    dsimp only [s1]
    exact sound_of_mem rfl h
  exact restoreTile_sound (sound_foldl _ (fun _ _ hu => restoreGroup_sound hu) _ (sound_of_mem (ctxRuns_mem ..) hs1))

theorem placeSaved_sound {t : Team} {l : Launch} {c : Ctx} {p : Pend} {cl : Nat} {cores : List Nat} (h : Sound s) :
    Sound (s.placeSaved t l c p cl cores) := by
  unfold State.placeSaved
  split
  · next e => exact restoreTeam_sound (readyAreas_sound e h)
  · next e => exact readyAreas_sound e h

theorem teamPlace_sound {launch index : Nat} {w : Placement} (h : Sound s) : Sound (s.teamPlace launch index w) := by
  unfold State.teamPlace
  extract_lets +onlyGivenNames s1
  have hs1 : Sound s1 := leaseAll_sound h
  split
  · exact hs1
  · split
    · exact hs1
    · split
      · split
        · exact hs1
        · split
          · split
            · exact placeSaved_sound hs1
            · exact hs1
          · extract_lets +onlyGivenNames scr
            split
            · exact hs1
            · extract_lets +onlyGivenNames pages
              split
              · next s' e =>
                  have hs' : Sound s' := leaseList_sound e hs1
                  split
                  · exact placeNew_sound hs'
                  · exact hs1
              · next s' e =>
                  have hs' : Sound s' := leaseList_sound e hs1
                  exact hs'
      · exact hs1

theorem priorityPreempt_sound {launch index victim : Nat} (h : Sound s) : Sound (s.priorityPreempt launch index victim) := by
  unfold State.priorityPreempt
  split
  · extract_lets +onlyGivenNames long
    split
    · extract_lets +onlyGivenNames s1
      have hs1 : Sound s1 := preempt_sound h
      split
      · exact sound_of_mem rfl hs1
      · exact hs1
    · exact h
  · exact h

theorem storeCounters_sound {ctx : Nat} (h : Sound s) : Sound (s.storeCounters ctx) := by
  unfold State.storeCounters
  split
  · exact h
  · split
    · next e => exact saveCounters_sound e h
    · exact faultCtx_sound h

theorem countersReady_sound {r : State × Bool} {c : Ctx} (e : s.countersReady c = r) (h : Sound s) : Sound r.1 := by
  subst e
  unfold State.countersReady
  split
  · exact h
  · split
    · exact readyRange_sound rfl h
    · exact h

theorem wakeSaved_sound (h : Sound s) : Sound s.wakeSaved := by
  unfold State.wakeSaved
  split
  · exact h
  · split
    · exact h
    · split
      · next s1 e =>
          have hs1 : Sound s1 := countersReady_sound e h
          split
          · exact ctxTo_sound (sound_of_mem rfl hs1)
          · exact hs1
      · next e => exact countersReady_sound e h

theorem makeCurrent_sound {id : Option Nat} (h : Sound s) : Sound (s.makeCurrent id) := by
  unfold State.makeCurrent
  exact wakeSaved_sound (sound_of_mem rfl h)

theorem suspendNow_sound {ctx cause : Nat} (h : Sound s) : Sound (s.suspendNow ctx cause) := by
  unfold State.suspendNow
  split
  · exact h
  · exact storeCounters_sound (ctxTo_sound (traceSeal_sound (quiesce_sound (sound_of_mem (startSwitch_mem ..) (sound_of_mem rfl h)))))

theorem suspendWaiting_sound (h : Sound s) : Sound s.suspendWaiting := by
  unfold State.suspendWaiting
  refine sound_foldl _ (fun t w ht => ?_) _ h
  split
  · exact ht
  · exact sound_ite (suspendNow_sound ht) (sound_of_mem rfl ht)

theorem switchedOut_sound {c : Nat} (h : Sound s) : Sound (s.switchedOut c) := by
  unfold State.switchedOut
  split
  · exact h
  · extract_lets +onlyGivenNames s1
    have hs1 : Sound s1 := sound_of_mem rfl h
    exact sound_ite (storeCounters_sound (traceSeal_sound (ctxTo_sound hs1))) (sound_ite (storeCounters_sound hs1) hs1)

theorem settleWorld_sound (h : Sound s) : Sound s.settleWorld := by
  unfold State.settleWorld
  extract_lets +onlyGivenNames rot
  split
  · split
    · exact makeCurrent_sound h
    · exact h
  · split
    · exact wakeSaved_sound h
    · exact makeCurrent_sound (suspendWaiting_sound (sound_of_mem rfl (switchedOut_sound h)))

theorem saveStrand_sound {x : Strand} (h : Sound s) : Sound (s.saveStrand x) := by
  unfold State.saveStrand
  exact saveBytes_sound _ _ (sound_foldl _ (fun _ _ hu => saveLanes_sound hu) _ h)

theorem saveTile_sound {t : Team} (h : Sound s) : Sound (s.saveTile t) := by
  unfold State.saveTile
  split
  · exact h
  · extract_lets +onlyGivenNames cl tasks x' s1 s2 c s3 s4 s5
    have hs4 : Sound s4 := sound_of_mem rfl (sound_of_mem (setCluster_mem ..) (l1CleanAll_sound _ (sound_ite h (saveBytes_sound _ _ h))))
    have hs5 : Sound s5 := sound_of_mem rfl hs4
    split
    · exact sound_of_mem rfl hs5
    · exact hs5

theorem saveMembers_sound {t : Team} {g : Group} {l : Launch} {hdr : Header} (h : Sound s) : Sound (s.saveMembers t g l hdr) := by
  unfold State.saveMembers
  extract_lets +onlyGivenNames s1 mine parked s2 s3 s4 s5 s6 s7 s8
  have hs3 : Sound s3 :=
    sound_foldl _ (fun _ _ hu => sound_ite hu (saveStrand_sound hu)) _ (l1CleanAll_sound _ (squashWhere_sound h))
  have hs5 : Sound s5 := by
    refine sound_foldl _ (fun u sec hu => ?_) _ (saveBytes_sound _ _ hs3)
    exact sound_ite hu (sound_of_mem rfl hu)
  have hs7 : Sound s7 := sound_of_mem rfl (sound_of_mem rfl hs5)
  have hs8 : Sound s8 := sound_ite hs7 (traceGroup_sound hs7)
  split
  · exact sound_of_mem rfl hs8
  · exact hs8

theorem settleSaved_sound {tid : Nat} (h : Sound s) : Sound (s.settleSaved tid) := by
  unfold State.settleSaved
  split
  · exact h
  · extract_lets +onlyGivenNames gone
    split
    · extract_lets +onlyGivenNames s1 s2
      have hs1 : Sound s1 := sound_of_mem rfl h
      have hs2 : Sound s2 := by
        dsimp only [s2]
        split
        · exact settleCtx_sound hs1
        · exact hs1
      exact settleWorld_sound hs2
    · exact h

theorem groupSave_sound {gid : Nat} (h : Sound s) : Sound (s.groupSave gid) := by
  unfold State.groupSave
  split
  · exact h
  · split
    · exact h
    · split
      · exact h
      · split
        · exact h
        · split
          · exact h
          · extract_lets +onlyGivenNames areas
            split
            · next s1 e =>
                have hs1 : Sound s1 := readyAreas_sound e h
                exact hs1
            · next s1 e =>
                have hs1 : Sound s1 := readyAreas_sound e h
                extract_lets +onlyGivenNames s2 s3
                have hs2 : Sound s2 := sound_of_mem rfl hs1
                have hs3 : Sound s3 := sound_ite (saveTile_sound hs2) hs2
                split
                · exact settleSaved_sound (saveMembers_sound hs3)
                · exact hs3

theorem countFree_sound {ctx : Nat} {evs : List Nat} (h : Sound s) : Sound (s.countFree ctx evs) := by
  unfold State.countFree
  refine sound_foldl _ (fun t ev ht => ?_) _ h
  split
  · exact sound_ite (count_sound (sound_of_mem rfl ht)) ht
  · exact ht

theorem countTraffic_sound {ctx : Nat} (h : Sound s) : Sound (s.countTraffic ctx) := by
  unfold State.countTraffic
  exact countFree_sound h

theorem finish_sound {ctx q : Nat} {f : Fetched} {done : Option Nat} {status res : Nat} (h : Sound s) :
    Sound (s.finish ctx q f done status res) := by
  unfold State.finish
  exact complete_sound (sound_of_mem (setQueueOf_mem ..) h)

theorem queueFetch_sound {ctx q : Nat} (h : Sound s) : Sound (s.queueFetch ctx q) := by
  unfold State.queueFetch
  split
  · exact h
  · extract_lets +onlyGivenNames t live
    split
    · exact h
    · extract_lets +onlyGivenNames at'
      split
      · next s1 lack pref e =>
          have hs1 : Sound s1 := vtouch_sound e h
          exact sound_of_mem (noteLack_mem ..) hs1
      · next s1 t1 t2 e =>
          have hs1 : Sound s1 := vtouch_sound e h
          extract_lets +onlyGivenNames bytes f s2 type
          have hs2 : Sound s2 := sound_of_mem rfl hs1
          exact sound_ite hs2 (finish_sound hs2)

theorem launchEntry_sound {ctx q : Nat} (h : Sound s) : Sound (s.launchEntry ctx q) := by
  unfold State.launchEntry
  split
  · exact h
  · extract_lets +onlyGivenNames bs done
    split
    · exact finish_sound h
    · split
      · exact h
      · split
        · exact finish_sound h
        · split
          · exact finish_sound h
          · split
            · exact finish_sound h
            · split
              · exact finish_sound h
              · exact leaseWaiting_sound (sound_of_mem (setQueueOf_mem ..) (sound_of_mem rfl h))

theorem waitEntry_sound {ctx q : Nat} (h : Sound s) : Sound (s.waitEntry ctx q) := by
  unfold State.waitEntry
  split
  · exact h
  · split
    · exact h
    · exact sound_ite (finish_sound h) (sound_of_mem (setQueueOf_mem ..) h)

theorem waitSatisfied_sound {ctx q : Nat} (h : Sound s) : Sound (s.waitSatisfied ctx q) := by
  unfold State.waitSatisfied
  split
  · exact h
  · split
    · exact h
    · split
      · next s' lack pref e =>
          have hs' : Sound s' := vtouch_sound e h
          exact sound_of_mem (noteLack_mem ..) hs'
      · next s' t t1 e =>
          have hs' : Sound s' := vtouch_sound e h
          split
          · exact finish_sound hs'
          · exact sound_ite (finish_sound hs') hs'

theorem signalEntry_sound {ctx q : Nat} (h : Sound s) : Sound (s.signalEntry ctx q) := by
  unfold State.signalEntry
  split
  · exact h
  · exact sound_ite h (sound_ite (finish_sound h) (sound_of_mem (setQueueOf_mem ..) h))

theorem signalWrite_sound {ctx q : Nat} (h : Sound s) : Sound (s.signalWrite ctx q) := by
  unfold State.signalWrite
  split
  · exact h
  · split
    · exact h
    · split
      · next s1 lack pref e =>
          have hs1 : Sound s1 := vtouch_sound e h
          exact sound_of_mem (noteLack_mem ..) hs1
      · next s1 t t1 e =>
          have hs1 : Sound s1 := vtouch_sound e h
          split
          · exact finish_sound hs1
          · next e => exact finish_sound (vput_sound e hs1)

theorem squashRange_sound {ctx : Option Nat} {lo hi : Nat} (h : Sound s) : Sound (s.squashRange ctx lo hi) := by
  unfold State.squashRange
  exact squashWhere_sound h

theorem windowUpdateEntry_sound {ctx q : Nat} (h : Sound s) : Sound (s.windowUpdateEntry ctx q) := by
  unfold State.windowUpdateEntry
  split
  · exact h
  · extract_lets +onlyGivenNames n t w map'
    split
    · exact finish_sound h
    · split
      · exact finish_sound h
      · split
        · exact finish_sound h
        · exact sound_of_mem (startChange_mem ..) (sound_ite (squashRange_sound h) h)

theorem remapEntry_sound {ctx q : Nat} (h : Sound s) : Sound (s.remapEntry ctx q) := by
  unfold State.remapEntry
  split
  · exact h
  · extract_lets +onlyGivenNames ia frame
    split
    · exact finish_sound h
    · split
      · exact finish_sound h
      · split
        · exact finish_sound h
        · split
          · exact h
          · extract_lets +onlyGivenNames die host
            split
            · exact finish_sound h
            · split
              · exact finish_sound h
              · exact sound_of_mem (startChange_mem ..) (squashRange_sound (sound_of_mem rfl h))

theorem unplaceEntry_sound {ctx q : Nat} (h : Sound s) : Sound (s.unplaceEntry ctx q) := by
  unfold State.unplaceEntry
  split
  · exact h
  · extract_lets +onlyGivenNames ia
    split
    · exact finish_sound h
    · split
      · exact finish_sound h
      · split
        · exact finish_sound h
        · split
          · exact h
          · exact sound_of_mem (startChange_mem ..) (squashRange_sound (sound_of_mem rfl h))

theorem addFrames_sound {die : Nat} {host : Bool} {first count : Nat} (h : Sound s) : Sound (s.addFrames die host first count) := by
  unfold State.addFrames
  exact leaseAll_sound (sound_of_mem rfl h)

theorem frameEntry_sound {ctx q : Nat} (h : Sound s) : Sound (s.frameEntry ctx q) := by
  unfold State.frameEntry
  split
  · exact h
  · exact sound_ite (finish_sound h) (finish_sound (addFrames_sound h))

theorem flushRange_sound {lo hi : Nat} (h : Sound s) : Sound (s.flushRange lo hi) := by
  unfold State.flushRange
  exact sound_of_mem rfl (l1FlushRange_sound _ _ h)

theorem leaseNamed_sound {ctx : Nat} (h : Sound s) : Sound (s.leaseNamed ctx) := by
  unfold State.leaseNamed
  split
  · exact h
  · refine sound_foldl _ (fun t page ht => ?_) _ h
    refine sound_foldl _ (fun t1 l ht1 => ?_) _ ht
    exact sound_foldl _ (fun _ _ hu => leaseGroup_sound hu) _ (sound_of_mem rfl ht1)

theorem mappingDrain_sound {id : Nat} (h : Sound s) : Sound (s.mappingDrain id) := by
  have hflush : ∀ lo hi, Sound (s.flushRange lo hi) := fun _ _ => flushRange_sound h
  unfold State.mappingDrain
  split
  · exact h
  · split
    · exact h
    · extract_lets +onlyGivenNames s1
      have hs1 : Sound s1 := by
        dsimp only [s1]
        split
        · split
          · exact h
          · exact leaseNamed_sound (sound_of_mem rfl (sound_ite (l1FlushRange_sound _ _ h) h))
        · split
          · exact sound_of_mem rfl (hflush _ _)
          · exact sound_of_mem rfl (hflush _ _)
        · split
          · exact filter_wf _ (hflush _ _)
          · exact hflush _ _
      exact complete_sound (leaseAll_sound (sound_of_mem rfl hs1))

theorem firstTouch_sound {ia frame : Nat} (h : Sound s) : Sound (s.firstTouch ia frame) := by
  unfold State.firstTouch
  extract_lets +onlyGivenNames page
  split
  · exact h
  · split
    · exact leaseAll_sound (place_sound _ _ h)
    · exact h

theorem recheckLaunch_sound {lid : Nat} (h : Sound s) : Sound (s.recheckLaunch lid) := by
  unfold State.recheckLaunch
  split
  · exact h
  · split
    · extract_lets +onlyGivenNames waiting
      split
      · exact h
      · split
        · exact h
        · exact settleLaunch_sound (sound_of_mem rfl h)
    · exact h

theorem afterVersion_sound {deadDies : List Nat} (h : Sound s) : Sound (s.afterVersion deadDies) := by
  unfold State.afterVersion
  extract_lets +onlyGivenNames s1 s2 s3 hurt
  have hs2 : Sound s2 := sound_foldl _ (fun _ _ hu => recheckLaunch_sound hu) _ (sound_of_mem rfl h)
  exact sound_foldl _ (fun _ _ hu => faultCtx_sound hu) _ (sound_foldl _ (fun _ _ hu => preempt_sound hu) _ hs2)

theorem publish_sound {new : SMap} {links : List Link} (h : Sound s) : Sound (s.publish new links) := by
  unfold State.publish
  extract_lets +onlyGivenNames old linksChanged
  split
  · exact sound_of_mem rfl h
  · split
    · exact sound_of_mem rfl h
    · exact afterVersion_sound (sound_of_mem (writeMapPage_mem ..) (sound_of_mem rfl h))

theorem halt_sound {m : SMap} {links : List Link} (h : Sound s) : Sound (s.halt m links) := by
  unfold State.halt
  extract_lets +onlyGivenNames s1 _ s2
  exact sound_foldl _ (fun _ _ hu => faultCtx_sound hu) _ (sound_of_mem rfl (publish_sound h))

theorem publishUnits_sound {m : SMap} {links : List Link} (h : Sound s) : Sound (s.publishUnits m links) := by
  unfold State.publishUnits
  extract_lets +onlyGivenNames gone links1
  split
  · exact h
  · extract_lets +onlyGivenNames s1
    have hs1 : Sound s1 := sound_of_mem (loseStacks_mem ..) h
    exact sound_ite (halt_sound hs1) (publish_sound hs1)

theorem retire_sound {u : UnitId} (h : Sound s) : Sound (s.retire u) := by
  unfold State.retire
  exact publishUnits_sound h

theorem publishLinks_sound {links : List Link} (h : Sound s) : Sound (s.publishLinks links) := by
  unfold State.publishLinks
  exact sound_ite (sound_of_mem rfl h) (publish_sound h)

theorem linkTrained_sound {n width speed : Nat} (h : Sound s) : Sound (s.linkTrained n width speed) := by
  unfold State.linkTrained
  split
  · exact h
  · extract_lets +onlyGivenNames lim
    split
    · exact h
    · extract_lets +onlyGivenNames usable
      split
      · exact h
      · exact publishLinks_sound h

theorem linkRetrain_sound {n : Nat} (h : Sound s) : Sound (s.linkRetrain n) := by
  unfold State.linkRetrain
  split
  · exact h
  · split
    · exact sound_ite (publishLinks_sound h) (sound_of_mem rfl h)
    · exact h

theorem errorDetected_sound {e : ErrorSource} (h : Sound s) : Sound (s.errorDetected e) := by
  unfold State.errorDetected
  split
  · split
    · split
      · exact sound_of_mem rfl h
      · exact h
    · exact h
  · exact chargeUnit_sound (sound_of_mem (poisonL1_mem ..) (sound_of_mem rfl (sound_of_mem (poisonRegister_mem ..) h)))
  · exact chargeUnit_sound (sound_of_mem (poisonL1_mem ..) (sound_of_mem (poisonRegister_mem ..) h))
  · exact chargeUnit_sound h
  · exact chargeUnit_sound (sound_of_mem (poisonSectors_mem ..) h)
  · exact chargeUnit_sound (sound_of_mem (poisonSectors_mem ..) h)
  · exact chargeUnit_sound h

theorem selfTestComplete_sound {u : UnitId} {pass : Bool} (h : Sound s) : Sound (s.selfTestComplete u pass) := by
  unfold State.selfTestComplete
  split
  · exact h
  · extract_lets +onlyGivenNames recent count _ s1
    have hs1 : Sound s1 := sound_of_mem rfl h
    exact sound_ite hs1 (retire_sound hs1)

theorem replayFault_sound {r : Replay} (h : Sound s) : Sound (s.replayFault r) := by
  unfold State.replayFault
  split
  · exact h
  · split
    · exact h
    · extract_lets +onlyGivenNames kept st s1
      have hs1 : Sound s1 := groupFault_sound h
      split
      · exact sound_of_mem rfl hs1
      · exact hs1

theorem replayCheck_sound {core quadrant index : Nat} {mismatch : Bool} (h : Sound s) : Sound (s.replayCheck core quadrant index mismatch) := by
  unfold State.replayCheck
  extract_lets +onlyGivenNames k q
  split
  · exact h
  · extract_lets +onlyGivenNames s1
    have hs1 : Sound s1 := sound_of_mem (setCore_mem ..) h
    split
    · exact hs1
    · extract_lets +onlyGivenNames s2
      have hs2 : Sound s2 := chargeUnit_sound hs1
      split
      · exact replayFault_sound hs2
      · exact sound_ite (raise_sound hs2) (replayFault_sound hs2)

theorem publishFirst_sound {t : TestOutcome} (h : Sound s) : Sound (s.publishFirst t) := by
  unfold State.publishFirst
  exact publishUnits_sound (sound_of_mem rfl h)

theorem bringupStage_sound {pass sigFail : Bool} {t : TestOutcome} (h : Sound s) : Sound (s.bringupStage pass sigFail t) := by
  unfold State.bringupStage
  split
  · extract_lets +onlyGivenNames _ put
    have hput : ∀ d, Sound (put d) := fun _ => sound_of_mem rfl h
    split
    · exact hput _
    · split
      · exact sound_of_mem rfl h
      · split
        · exact h
        · split
          · exact publishFirst_sound h
          · exact hput _
  · exact h

theorem bringupSelfTest_sound {t : TestOutcome} (h : Sound s) : Sound (s.bringupSelfTest t) := by
  unfold State.bringupSelfTest
  split
  · exact h
  · exact publishUnits_sound (sound_of_mem rfl h)

theorem contextEnable_sound {func ctx : Nat} (h : Sound s) : Sound (s.contextEnable func ctx) := by
  unfold State.contextEnable
  split
  · exact h
  · split
    · exact h
    · split
      · split
        · exact ctxTo_sound (sound_of_mem rfl h)
        · exact faultCtx_sound h
      · exact ctxTo_sound h

theorem suspend_sound {c : Ctx} {cause : Nat} (h : Sound s) : Sound (s.suspend c cause) := by
  unfold State.suspend
  exact sound_ite (sound_of_mem rfl h) (suspendNow_sound h)

theorem contextSuspend_sound {func ctx : Nat} (h : Sound s) : Sound (s.contextSuspend func ctx) := by
  unfold State.contextSuspend
  split
  · exact h
  · exact sound_ite (suspend_sound h) (sound_of_mem rfl h)

theorem resumeNow_sound {ctx : Nat} (h : Sound s) : Sound (s.resumeNow ctx) := by
  unfold State.resumeNow
  split
  · exact h
  · split
    · exact sound_of_mem rfl h
    · split
      · exact ctxTo_sound (sound_of_mem rfl h)
      · split
        · next s1 ok e =>
            have hs1 : Sound s1 := countersReady_sound e h
            split
            · exact hs1
            · exact sound_ite (ctxTo_sound (sound_of_mem rfl hs1)) (sound_of_mem rfl hs1)

theorem contextResume_sound {func ctx : Nat} (h : Sound s) : Sound (s.contextResume func ctx) := by
  unfold State.contextResume
  split
  · exact h
  · exact resumeNow_sound h

theorem unplaceNow_sound {page : Nat} (h : Sound s) : Sound (s.unplaceNow page) := by
  unfold State.unplaceNow
  split
  · split
    · exact h
    · exact filter_wf _ (flushRange_sound h)
  · exact h

theorem destroyNow_sound {ctx : Nat} (h : Sound s) : Sound (s.destroyNow ctx) := by
  unfold State.destroyNow
  split
  · exact h
  · extract_lets +onlyGivenNames s1 s2 s3 s4
    have hs3 : Sound s3 := by
      dsimp only [s3]
      refine sound_foldl _ (fun t n ht => ?_) _ (sound_of_mem (dropWork_mem ..) (ctxTo_sound (traceSeal_sound h)))
      exact sound_ite (l1FlushRange_sound _ _ ht) ht
    exact sound_of_mem rfl (sound_foldl _ (fun _ _ hu => unplaceNow_sound hu) _ hs3)

theorem settleDestroy_sound {ctx : Nat} (h : Sound s) : Sound (s.settleDestroy ctx) := by
  unfold State.settleDestroy
  split
  · exact h
  · exact sound_ite (destroyNow_sound h) h

theorem settleCounters_sound {ctx : Nat} (h : Sound s) : Sound (s.settleCounters ctx) := by
  unfold State.settleCounters
  split
  · exact h
  · exact sound_ite (storeCounters_sound (sound_of_mem rfl h)) h

theorem settled_sound (h : Sound s) : Sound s.settled := by
  unfold State.settled
  extract_lets +onlyGivenNames s1 s2 s3 s4
  have hs2 : Sound s2 := sound_foldl _ (fun _ _ hu => settleTeam_sound hu) _ (drainWaits_sound h)
  have hs4 : Sound s4 := sound_foldl _ (fun _ _ hu => resumeNow_sound hu) _ (sound_foldl _ (fun _ _ hu => settleCounters_sound hu) _ hs2)
  exact settleWorld_sound (sound_foldl _ (fun _ _ hu => settleDestroy_sound hu) _ hs4)

theorem contextDestroy_sound {func ctx : Nat} (h : Sound s) : Sound (s.contextDestroy func ctx) := by
  unfold State.contextDestroy
  split
  · exact h
  · extract_lets +onlyGivenNames _ c' s1
    have hs1 : Sound s1 := sound_of_mem rfl h
    exact sound_ite (suspend_sound hs1) hs1

theorem sliceExpiry_sound (h : Sound s) : Sound s.sliceExpiry := by
  unfold State.sliceExpiry
  split
  · exact h
  · exact sound_ite h (sound_ite (sound_of_mem rfl h) (quiesce_sound (sound_of_mem (startSwitch_mem ..) h)))

theorem traceEnable_sound {func ctx ring slots : Nat} (h : Sound s) : Sound (s.traceEnable func ctx ring slots) := by
  unfold State.traceEnable
  split
  · exact h
  · split
    · exact h
    · extract_lets +onlyGivenNames s1
      have hs1 : Sound s1 := traceSeal_sound h
      split
      · exact sound_of_mem rfl hs1
      · exact hs1

theorem traceStop_sound {func ctx : Nat} (h : Sound s) : Sound (s.traceStop func ctx) := by
  unfold State.traceStop
  split
  · exact h
  · extract_lets +onlyGivenNames s1
    have hs1 : Sound s1 := traceSeal_sound h
    split
    · exact sound_of_mem rfl hs1
    · exact hs1

theorem countCycles_sound {ctx : Nat} (h : Sound s) : Sound (s.countCycles ctx) := by
  unfold State.countCycles
  exact countFree_sound h

theorem elapse_sound {n : Nat} (h : Sound s) : Sound (s.elapse n) := by
  unfold State.elapse
  extract_lets +onlyGivenNames s1 s2 s3
  have hs2 : Sound s2 := sound_foldl _ (fun _ _ hu => sound_of_mem (tick_mem ..) hu) _ (sound_of_mem rfl h)
  have hs3 : Sound s3 := sound_foldl _ (fun _ _ hu => countTraffic_sound (countCycles_sound hu)) _ hs2
  exact sound_foldl _ (fun _ _ hu => sound_of_mem (chargeRefill_mem ..) hu) _ (sound_of_mem rfl hs3)

theorem thermalCritical_sound {n : Nat} {reading : Int} (h : Sound s) : Sound (s.thermalCritical n reading) := by
  unfold State.thermalCritical
  extract_lets +onlyGivenNames t
  split
  · split
    · extract_lets +onlyGivenNames s'
      have hs' : Sound s' := sound_of_mem rfl h
      exact sound_foldl _ (fun _ _ hu => preempt_sound hu) _ hs'
    · exact h
  · exact h

theorem readyBytes_sound {r : State × Bool} {c : Ctx} {w : Window} {ia n : Nat} (e : s.readyBytes c w ia n = r) (h : Sound s) : Sound r.1 := by
  subst e
  unfold State.readyBytes
  split
  · next s1 t e =>
      have hs1 : Sound s1 := touchRange_sound e h
      exact hs1
  · next s1 lack e =>
      have hs1 : Sound s1 := touchRange_sound e h
      exact sound_of_mem (noteLack_mem ..) hs1

theorem hostPut_sound {ia : Nat} {bytes : List Byte} (h : Sound s) : Sound (s.hostPut ia bytes) :=
  sound_of_mem (lose_mem ..) (sound_of_mem (clearTags_mem ..) (fill_wf ia bytes h))

theorem hostWrite_sound {ia : Nat} {bytes : List Byte} (h : Sound s) : Sound (s.hostWrite ia bytes) := by
  unfold State.hostWrite
  exact sound_ite (homeWrite_sound _ _ _ _ _ h) (hostPut_sound h)

theorem hostStore_sound {ia : Nat} {bytes : List Byte} (h : Sound s) : Sound (s.hostStore ia bytes) := by
  unfold State.hostStore
  exact sound_ite (hostPut_sound h) h

theorem serveAccess_sound {r : State × Bool} {t : Transfer} {write : Bool} {ia n : Nat} {bytes : List Byte}
    (e : s.serveAccess t write ia n bytes = r) (h : Sound s) :
    Sound r.1 := by
  subst e
  unfold State.serveAccess
  extract_lets +onlyGivenNames peer
  split
  · exact h
  · split
    · split
      · exact sound_of_mem rfl h
      · split
        · exact h
        · exact sound_of_mem rfl h
    · split
      · next s1 e =>
          have hs1 : Sound s1 := readyBytes_sound e h
          split
          · exact hostWrite_sound hs1
          · exact sound_of_mem rfl hs1
      · next e => exact readyBytes_sound e h

theorem arrive_sound {t : Transfer} {serve : State → State × Bool} (hserve : ∀ u, Sound u → Sound (serve u).1) (h : Sound s) :
    Sound (s.arrive t serve) := by
  have hs : Sound (serve s).1 := hserve s h
  unfold State.arrive
  split
  · exact h
  · split
    · exact sound_of_mem rfl h
    · split
      · split
        · next u e => simpa [e] using hs
        · next u e =>
            rw [e] at hs
            exact sound_of_mem (hold_mem ..) hs
      · split
        · exact sound_of_mem rfl h
        · exact sound_of_mem (refuseTransfer_mem ..) h

theorem retryHeld_sound {t : Transfer} {serve : State → State × Bool} (hserve : ∀ u, Sound u → Sound (serve u).1) (h : Sound s) :
    Sound (s.retryHeld t serve).1 := by
  unfold State.retryHeld
  split
  · exact hserve s h
  · split
    · exact sound_of_mem (refuseTransfer_mem ..) h
    · exact h

theorem drainHeld_sound {serve : Transfer → State → State × Bool} (hserve : ∀ t u, Sound u → Sound (serve t u).1) (h : Sound s) :
    Sound (s.drainHeld serve) := by
  unfold State.drainHeld
  refine sound_of_mem rfl (sound_foldl_fst (fun r t hr => ?_) s.dev.held (b := []) h)
  have ht : Sound (r.1.retryHeld t (serve t)).1 := retryHeld_sound (hserve t) hr
  split
  · exact hr
  · split
    · next e => simpa [e] using ht
    · next e => simpa [e] using ht

theorem apertureWrite_sound {func link ia : Nat} {bytes : List Byte} (h : Sound s) : Sound (s.apertureWrite func link ia bytes) :=
  sound_ite h (arrive_sound (fun _ hu => serveAccess_sound rfl hu) h)

theorem apertureRead_sound {func link ia n : Nat} (h : Sound s) : Sound (s.apertureRead func link ia n) :=
  sound_ite h (arrive_sound (fun _ hu => serveAccess_sound rfl hu) h)

theorem peerDma_sound {port : Nat} {write : Bool} {ia n : Nat} {bytes : List Byte} (h : Sound s) :
    Sound (s.peerDma port write ia n bytes) :=
  sound_ite h (arrive_sound (fun _ hu => serveAccess_sound rfl hu) h)

theorem loadBytes_sound {r : State × Bool} {c : Ctx} {va : Nat} {bs : List Byte} (e : s.loadBytes c va bs = r) (h : Sound s) :
    Sound r.1 := by
  subst e
  refine sound_foldl_fst (fun r i hr => ?_) _ h
  extract_lets +onlyGivenNames lo hi
  split
  · extract_lets +onlyGivenNames t
    have ht : Sound t := touch_sound _ _ _ hr
    split
    · exact homeWrite_sound _ _ _ _ _ ht
    · exact ht
  · exact hr

theorem kernelLoad_sound {ctx : Nat} {obj : CodeObject} (h : Sound s) : Sound (s.kernelLoad ctx obj) := by
  have hreply : ∀ r, Sound (s.reply r) := fun _ => sound_of_mem rfl h
  unfold State.kernelLoad
  split
  · exact h
  · split
    · exact h
    · split
      · exact hreply _
      · split
        · exact hreply _
        · extract_lets +onlyGivenNames images
          split
          · exact hreply _
          · extract_lets +onlyGivenNames blocks
            split
            · exact hreply _
            · split
              · exact hreply _
              · extract_lets +onlyGivenNames value
                split
                · exact hreply _
                · extract_lets +onlyGivenNames value1 exports kernels datas r
                  have hr : Sound r.1 := by
                    refine sound_foldl_fst (fun q a hq => ?_) _ h
                    dsimp only
                    exact loadBytes_sound rfl hq
                  split
                  · exact hr
                  · exact sound_of_mem rfl (sound_ite (sound_of_mem rfl hr) (sound_of_mem rfl hr))

theorem mapTrap_sound {id : Nat} (h : Sound s) : Sound (s.mapTrap id) := by
  unfold State.mapTrap
  split
  · exact h
  · split
    · exact sound_ite (deliverMap_sound h) h
    · exact h

theorem nextInstr_sound {r : State × Option Instr} {id : Nat} (e : s.nextInstr id = r) (h : Sound s) : Sound r.1 := by
  subst e
  unfold State.nextInstr
  split
  · exact h
  · split
    · split
      · exact h
      · extract_lets +onlyGivenNames out
        split
        · exact h
        · split
          · split
            · exact raise_sound h
            · exact h
          · split
            · exact deliverMap_sound h
            · extract_lets +onlyGivenNames s1
              have hs1 : Sound s1 := sound_of_mem rfl h
              split
              · next u t e =>
                  have hu : Sound u := fetch_sound e hs1
                  cases u.strand? id with
                  | none => exact hu
                  | some st => exact raise_sound hu
              · next u b e =>
                  have hu : Sound u := fetch_sound e hs1
                  cases u.strand? id with
                  | none => exact hu
                  | some st => exact sound_of_mem rfl hu
              · next e => exact fetch_sound e hs1
    · exact h

theorem bar2Read_sound {func link off n : Nat} (h : Sound s) : Sound (s.bar2Read func link off n) := by
  unfold State.bar2Read
  exact sound_ite (apertureRead_sound h) h

theorem bar2Write_sound {func link off : Nat} {bytes : List Byte} (h : Sound s) : Sound (s.bar2Write func link off bytes) := by
  unfold State.bar2Write
  exact sound_ite (apertureWrite_sound h) h

end Sys2Proof.Machine
end

section
/-!
PROOF. Evaluations of instructions keep the canonical form: one rule for each step of an evaluation, then one lemma for each body, which follows the
steps of the body (O59).
-/

namespace Sys2Proof.Machine

open Safety (Sound)

variable {s : State}

/-- An evaluation that leaves memory in its canonical form, both in its job's state and in the state that a SPILL trap keeps. -/
structure Keeps {α : Type} (x : M α) : Prop where
  sound : ∀ j : Job, j.Sound → (endJob (x j)).Sound

theorem keeps_pure {α : Type} {a : α} : Keeps (pure a : M α) := ⟨fun _ h => h⟩

theorem keeps_throw {α : Type} {e : Stop} : Keeps (throw e : M α) := ⟨fun _ h => h⟩

theorem Keeps.bind {α β : Type} {x : M α} {f : α → M β} (hx : Keeps x) (hf : ∀ a, Keeps (f a)) : Keeps (x >>= f) := by
  refine ⟨fun j h => ?_⟩
  have hj := hx.sound j h
  rw [m_bind]
  cases e : x j with
  | ok a j' => exact (hf a).sound j' (by rwa [e] at hj)
  | error _ j' => rwa [e] at hj

theorem keeps_get {β : Type} {f : Job → M β} (hf : ∀ j : Job, j.Sound → Keeps (f j)) : Keeps (get >>= f) :=
  ⟨fun j h => (hf j h).sound j h⟩

theorem keeps_ite {α : Type} {c : Prop} [Decidable c] {x y : M α} (hx : Keeps x) (hy : Keeps y) : Keeps (if c then x else y) := by
  split
  · exact hx
  · exact hy

/-- A conditional first step, and what comes after it either way. -/
theorem keeps_when {α : Type} {c : Prop} [Decidable c] {x : M Unit} {f : Unit → M α} (hx : Keeps x) (hf : ∀ a, Keeps (f a)) :
    Keeps (if c then x >>= f else f ()) :=
  keeps_ite (hx.bind hf) (hf ())

theorem keeps_forM {α : Type} {f : α → M Unit} {l : List α} (hf : ∀ a, Keeps (f a)) : Keeps (l.forM f) := by
  induction l with
  | nil => exact keeps_pure
  | cons a l ih => exact (hf a).bind fun _ => ih

theorem keeps_mapM {α β : Type} {f : α → M β} {l : List α} (hf : ∀ a, Keeps (f a)) : Keeps (l.mapM f) := by
  induction l with
  | nil => exact keeps_pure
  | cons a l ih =>
    rw [List.mapM_cons]
    exact (hf a).bind fun _ => ih.bind fun _ => keeps_pure

theorem keeps_modify {f : Job → Job} (hf : ∀ j, j.Sound → (f j).Sound) : Keeps (modify f : M Unit) := ⟨fun j h => hf j h⟩

theorem upd_keeps {f : Strand → Strand} : Keeps (upd f) :=
  keeps_modify fun _ h => ⟨h.now, h.start⟩

theorem updS_keeps {f : State → State} (hf : ∀ s, Sound s → Sound (f s)) : Keeps (updS f) :=
  keeps_modify fun _ h => ⟨hf _ h.now, h.start⟩

theorem updKept_keeps {f : State → State} {g : Strand → Strand} (hf : ∀ s, Sound s → Sound (f s)) : Keeps (updKept f g) :=
  keeps_modify fun _ h => ⟨hf _ h.now, hf _ h.start⟩

theorem updAll_keeps {f : State → State} (hf : ∀ s, Sound s → Sound (f s)) : Keeps (updAll f) :=
  keeps_modify fun _ h => ⟨hf _ (sound_of_mem rfl h.now), h.start⟩

theorem trapWith_keeps {α : Type} {cause : Nat} {detail : Word} {lanes : Mask} {va : Nat} : Keeps (trapWith cause detail lanes va : M α) :=
  keeps_get fun _ _ => keeps_throw

theorem hazard_keeps {kind detail ia : Nat} : Keeps (hazard kind detail ia) :=
  keeps_get fun _ _ => keeps_ite (updAll_keeps (fun _ h => hazard_sound h)) keeps_pure

theorem noteUse_keeps {r : RegId} : Keeps (noteUse r) := by
  unfold noteUse
  refine keeps_get fun _ _ => ?_
  split
  · split
    · exact keeps_when keeps_throw fun _ => keeps_ite upd_keeps keeps_pure
    · exact keeps_ite upd_keeps keeps_pure
  · exact keeps_pure

theorem trapM_keeps {α : Type} {cause : Nat} {detail : Word} {va : Nat} : Keeps (trapM cause detail va : M α) := by
  unfold trapM
  refine keeps_get fun _ hj => ?_
  extract_lets +onlyGivenNames jp
  have hjp : ∀ r, Keeps (jp r) := fun _ => keeps_get fun _ _ => trapWith_keeps
  exact keeps_ite (keeps_get fun _ _ => noteUse_keeps.bind hjp) <| hjp ()

theorem illegal_keeps {α : Type} : Keeps (illegal : M α) :=
  keeps_get fun _ _ => trapM_keeps

theorem noteRead_keeps {r : RegId} : Keeps (noteRead r) :=
  noteUse_keeps.bind fun _ => keeps_get fun _ _ => keeps_ite hazard_keeps keeps_pure

theorem noteHazards_keeps {r : RegId} : Keeps (noteHazards r) := by
  unfold noteHazards
  refine keeps_get fun _ _ => ?_
  split
  · split
    · exact keeps_ite hazard_keeps keeps_pure
    · exact keeps_pure
  · exact keeps_pure

theorem getK_keeps {n : Nat} : Keeps (getK n) :=
  keeps_ite keeps_pure <| noteRead_keeps.bind fun _ => keeps_get fun _ _ => keeps_pure

theorem effMask_keeps : Keeps effMask :=
  keeps_get fun _ _ => getK_keeps.bind fun _ => keeps_pure

theorem kwrite_keeps {n : Nat} {r m : Mask} : Keeps (kwrite n r m) :=
  keeps_ite keeps_pure <| keeps_when noteRead_keeps fun _ => noteHazards_keeps.bind fun _ => upd_keeps

theorem getB_keeps {n : Nat} : Keeps (getB n) :=
  noteRead_keeps.bind fun _ => keeps_get fun _ _ => keeps_pure

theorem setB_keeps {n : Nat} {x : DWord} {m : Mask} : Keeps (setB n x m) :=
  keeps_ite keeps_pure upd_keeps

theorem getJ_keeps {n : Nat} : Keeps (getJ n) :=
  noteRead_keeps.bind fun _ => keeps_get fun _ _ => keeps_pure

theorem spillReg_keeps {n : Nat} : Keeps (spillReg n) :=
  keeps_get fun _ _ => keeps_when keeps_throw fun _ => updKept_keeps fun _ h => saveLanes_sound (touch_sound _ _ _ h)

theorem takeSlabN_keeps {fuel : Nat} : Keeps (takeSlabN fuel) := by
  induction fuel with
  | zero => exact keeps_throw
  | succ fuel ih =>
    refine keeps_get fun _ _ => keeps_ite (Keeps.bind (updS_keeps fun _ h => sound_of_mem rfl h) fun _ => keeps_pure) ?_
    split
    · exact keeps_throw
    · exact spillReg_keeps.bind fun _ => Keeps.bind (updKept_keeps fun _ h => sound_of_mem (bump_mem ..) h) fun _ => keeps_when keeps_throw fun _ =>
        ih

theorem holding_keeps {α : Type} {ns : List Nat} {act : M α} (hact : Keeps act) : Keeps (holding ns act) :=
  keeps_get fun _ _ => keeps_ite (Keeps.bind (keeps_modify fun _ h => ⟨h.now, h.start⟩) fun _ => hact.bind fun _ =>
    Keeps.bind (keeps_modify fun _ h => ⟨h.now, h.start⟩) fun _ => keeps_pure) hact

theorem resident_keeps {n : Nat} : Keeps (resident n) := by
  unfold resident
  refine keeps_get fun _ _ => ?_
  split
  · exact takeSlabN_keeps.bind fun _ => updKept_keeps fun _ h => sound_of_mem (bump_mem ..) h
  · exact keeps_pure

theorem ownSlab_keeps {n : Nat} : Keeps (ownSlab n) := by
  unfold ownSlab
  refine keeps_get fun _ _ => ?_
  extract_lets +onlyGivenNames r
  split
  · exact keeps_pure
  · extract_lets own jp
    have hjp : ∀ r, Keeps (jp r) := fun _ => upd_keeps
    cases own with
    | some _ => exact keeps_pure.bind hjp
    | none => exact takeSlabN_keeps.bind hjp

theorem ready_keeps {n : Nat} {wait : Bool} : Keeps (ready n wait) :=
  keeps_get fun _ _ => keeps_ite keeps_pure <| keeps_ite keeps_throw trapM_keeps

theorem checkPoison_keeps {n : Nat} : Keeps (checkPoison n) :=
  keeps_get fun _ _ => keeps_ite trapM_keeps keeps_pure

theorem readV_keeps {n : Nat} : Keeps (readV n) :=
  noteRead_keeps.bind fun _ => checkPoison_keeps.bind fun _ => resident_keeps.bind fun _ => keeps_get fun _ _ => keeps_pure

theorem readU_keeps {n : Nat} : Keeps (readU n) := by
  unfold readU
  refine noteRead_keeps.bind fun _ => keeps_get fun _ _ => ?_
  split
  · exact checkPoison_keeps.bind fun _ => keeps_pure
  · exact trapM_keeps

theorem prepWrite_keeps {n : Nat} {t : Val} {m : Mask} : Keeps (prepWrite n t m) := by
  unfold prepWrite
  refine keeps_get fun _ hj => keeps_ite keeps_pure <| keeps_ite keeps_throw <| keeps_ite ?_ (noteRead_keeps.bind fun _ =>
    noteHazards_keeps.bind fun _ => keeps_ite keeps_pure <| resident_keeps.bind fun _ => ownSlab_keeps)
  extract_lets +onlyGivenNames jp
  have hjp : ∀ r, Keeps (jp r) := fun _ => noteHazards_keeps
  split
  · exact keeps_ite (hjp ()) <| ownSlab_keeps.bind hjp
  · exact hjp ()

theorem writeV_keeps {n : Nat} {t : Val} {m : Mask} : Keeps (writeV n t m) :=
  prepWrite_keeps.bind fun _ => upd_keeps

theorem writeAll_keeps {ws : List (Nat × Val)} {m : Mask} : Keeps (writeAll ws m) :=
  Keeps.bind (keeps_forM fun _ => prepWrite_keeps) fun _ => keeps_forM fun _ => upd_keeps

theorem prepLong_keeps {n : Nat} {compact : Bool} {m : Mask} : Keeps (prepLong n compact m) :=
  keeps_get fun _ _ => keeps_ite keeps_throw <| keeps_when noteRead_keeps fun _ => noteHazards_keeps.bind fun _ => keeps_ite keeps_pure <|
    keeps_when (holding_keeps resident_keeps) fun _ => holding_keeps ownSlab_keeps

theorem checkFeature_keeps {need : Nat} : Keeps (checkFeature need) :=
  keeps_get fun _ _ => keeps_ite trapM_keeps <| keeps_ite trapM_keeps keeps_pure

theorem chargeCycle_keeps : Keeps chargeCycle :=
  keeps_get fun _ _ => keeps_ite keeps_pure <| keeps_ite (updS_keeps (fun _ h => sound_of_mem (setCore_mem ..) h)) <|
    keeps_ite (updS_keeps (fun _ h => sound_of_mem (setCore_mem ..) (sound_of_mem (setCluster_mem ..) h))) <| keeps_when (updS_keeps (fun _ h =>
    sound_of_mem (setCluster_mem ..) h)) fun _ => keeps_throw

theorem prelude_keeps : Keeps prelude :=
  keeps_get fun _ _ => keeps_when illegal_keeps fun _ => checkFeature_keeps.bind fun _ => keeps_when keeps_throw fun _ => chargeCycle_keeps

theorem jump_keeps {pc : DWord} : Keeps (jump pc) :=
  keeps_modify fun _ h => ⟨h.now, h.start⟩

theorem form_keeps : Keeps form :=
  keeps_get fun _ _ => keeps_pure

theorem readyA_keeps : Keeps readyA :=
  form_keeps.bind fun _ => ready_keeps

theorem readyB_keeps : Keeps readyB :=
  form_keeps.bind fun _ => keeps_ite keeps_pure ready_keeps

theorem readyC_keeps : Keeps readyC :=
  form_keeps.bind fun _ => ready_keeps

theorem readyRun_keeps {n count : Nat} {wait : Bool} : Keeps (readyRun n count wait) :=
  keeps_forM fun _ => ready_keeps

theorem srcA_keeps : Keeps srcA :=
  form_keeps.bind fun _ => readV_keeps

theorem srcB_keeps : Keeps srcB :=
  form_keeps.bind fun _ => keeps_ite keeps_pure readV_keeps

theorem srcC_keeps : Keeps srcC :=
  form_keeps.bind fun _ => readV_keeps

theorem uniformB_keeps : Keeps uniformB :=
  form_keeps.bind fun _ => keeps_ite keeps_pure readU_keeps

theorem isUniform_keeps {n : Nat} : Keeps (isUniform n) := by
  unfold isUniform
  refine noteUse_keeps.bind fun _ => keeps_get fun _ _ => ?_
  split
  · exact keeps_pure
  · exact keeps_pure

theorem unaryBody_keeps {f : Val → Val} : Keeps (unaryBody f) :=
  form_keeps.bind fun _ => readyA_keeps.bind fun _ => effMask_keeps.bind fun _ => keeps_ite keeps_pure <| srcA_keeps.bind fun _ => writeV_keeps

theorem binaryBody_keeps {f : Val → Val → Val} : Keeps (binaryBody f) :=
  form_keeps.bind fun _ => readyA_keeps.bind fun _ => readyB_keeps.bind fun _ => effMask_keeps.bind fun _ => keeps_ite keeps_pure <|
    srcA_keeps.bind fun _ => srcB_keeps.bind fun _ => writeV_keeps

theorem ternaryBody_keeps {f : Val → Val → Val → Val} : Keeps (ternaryBody f) :=
  form_keeps.bind fun _ => readyA_keeps.bind fun _ => readyB_keeps.bind fun _ => readyC_keeps.bind fun _ => effMask_keeps.bind fun _ =>
    keeps_ite keeps_pure <| srcA_keeps.bind fun _ => srcB_keeps.bind fun _ => srcC_keeps.bind fun _ => writeV_keeps

theorem srState_keeps : Keeps srState :=
  form_keeps.bind fun _ => keeps_ite (noteRead_keeps.bind fun _ => upd_keeps.bind fun _ => keeps_get fun _ _ => keeps_pure) keeps_pure

theorem compareBody_keeps {f : Word → Word → Bool} : Keeps (compareBody f) :=
  form_keeps.bind fun _ => readyA_keeps.bind fun _ => readyB_keeps.bind fun _ => effMask_keeps.bind fun _ => keeps_ite keeps_pure <|
    srcA_keeps.bind fun _ => srcB_keeps.bind fun _ => kwrite_keeps

theorem bufferAdd_keeps {es : List BufEntry} : Keeps (bufferAdd es) := by
  unfold bufferAdd
  refine keeps_get fun _ _ => ?_
  split
  · exact keeps_pure
  · exact keeps_ite keeps_throw upd_keeps

theorem amaxUpdate_keeps {n c : Nat} {xs : List FVal} : Keeps (amaxUpdate n c xs) := by
  unfold amaxUpdate
  refine keeps_get fun _ _ => keeps_ite keeps_pure ?_
  split
  · exact bufferAdd_keeps
  · refine updS_keeps fun _ h => ?_
    split
    · exact sound_of_mem rfl h
    · exact h

theorem shadowCheck_keeps {m : Mask} {once : Bool} {formed : Word} {agrees : Word → Word → Bool} {right : Nat → Word} :
    Keeps (shadowCheck m once formed agrees right) := by
  unfold shadowCheck
  refine keeps_get fun _ _ => keeps_ite keeps_pure ?_
  extract_lets +onlyGivenNames wrong checked
  split
  · exact keeps_throw
  · exact upd_keeps.bind fun _ => keeps_pure

theorem checkedWrite_keeps {n : Nat} {t : Val} {m : Mask} {once : Bool} {ty : Ty} {formed : Word} : Keeps (checkedWrite n t m once ty formed) := by
  unfold checkedWrite
  refine prepWrite_keeps.bind fun _ => shadowCheck_keeps.bind fun _ => ?_
  split
  · exact upd_keeps
  · exact writeV_keeps

theorem checkAsks_keeps {width : Nat} {lanes : List Ask} {whole : Option Mask} : Keeps (checkAsks width lanes whole) := by
  unfold checkAsks
  refine keeps_get fun _ _ => ?_
  split
  · exact keeps_throw
  · exact keeps_when keeps_throw fun _ => keeps_ite keeps_pure <| keeps_ite keeps_throw trapWith_keeps

theorem checkScratch_keeps {peer : Bool} {width span : Nat} {lanes : List (Nat × Nat × List Nat)} {whole : Option Mask} :
    Keeps (checkScratch peer width span lanes whole) :=
  keeps_get fun _ _ => keeps_ite keeps_pure trapWith_keeps

theorem launchAccess_keeps {i : Issue} {wk : WKind} {es : List Elem} {whole : List Nat} : Keeps (launchAccess i wk es whole) := by
  unfold launchAccess
  refine keeps_get fun _ _ => Keeps.bind (updS_keeps (fun _ h => ?_)) fun _ => keeps_pure
  extract_lets +onlyGivenNames t
  have ht : Sound t := touchClass_sound h
  exact sound_of_mem rfl ht

theorem freshIns_keeps : Keeps freshIns :=
  keeps_get fun _ _ => Keeps.bind (updS_keeps (fun _ h => sound_of_mem rfl h)) fun _ => keeps_pure

theorem mustWait_keeps {i : Issue} {wk : WKind} {es : List Elem} : Keeps (mustWait i wk es) :=
  keeps_get fun _ _ => keeps_pure

theorem awaitOrder_keeps {i : Issue} {wk : WKind} {es : List Elem} : Keeps (awaitOrder i wk es) :=
  mustWait_keeps.bind fun _ => keeps_ite keeps_throw keeps_pure

theorem needPages_keeps {ia n : Nat} {pref : Bool} : Keeps (needPages ia n pref) := by
  unfold needPages
  refine keeps_get fun j hj => ?_
  split
  · next s lack e =>
      have hs : Sound s := touchRange_sound e hj.now
      exact updS_keeps fun _ _ => hs
  · exact keeps_throw
  · exact keeps_throw

theorem contLoad_keeps {scratch : Option Nat} {es : List (WKind × Elem)} : Keeps (contLoad scratch es) := by
  unfold contLoad
  refine keeps_get fun _ _ => ?_
  split
  · exact keeps_pure
  · exact keeps_ite keeps_throw keeps_pure

theorem startProducer_keeps {regs : List Nat} {m : Mask} {uniform wide : Bool} {ldt : Option Nat} : Keeps (startProducer regs m uniform wide ldt) :=
  keeps_get fun _ _ => Keeps.bind (updS_keeps (fun _ h => sound_of_mem rfl h)) fun _ => upd_keeps.bind fun _ => keeps_pure

theorem updProd_keeps {id : Nat} {f : Producer → Producer} : Keeps (updProd id f) :=
  updS_keeps fun _ h => sound_of_mem rfl h

theorem issueLoads_keeps {i : Issue} {pid : Nat} {es : List (WKind × Elem)} : Keeps (issueLoads i pid es) :=
  keeps_forM fun _ => keeps_ite updProd_keeps <| launchAccess_keeps.bind fun _ => updProd_keeps

theorem loadRun_keeps {i : Issue} {m : Mask} {uniform : Bool} {scratch : Option Nat} {es : List (WKind × Elem)} :
    Keeps (loadRun i m uniform scratch es) :=
  form_keeps.bind fun _ => contLoad_keeps.bind fun _ => Keeps.bind (keeps_forM fun _ => prepLong_keeps) fun _ => startProducer_keeps.bind fun _ =>
    issueLoads_keeps

theorem readRun_keeps {regs : List Nat} : Keeps (readRun regs) :=
  keeps_mapM fun _ => holding_keeps readV_keeps

theorem ldBody_keeps : Keeps ldBody :=
  form_keeps.bind fun _ => readyB_keeps.bind fun _ => effMask_keeps.bind fun _ => keeps_ite keeps_pure <| srcB_keeps.bind fun _ =>
    getB_keeps.bind fun _ => checkAsks_keeps.bind fun _ => freshIns_keeps.bind fun _ => loadRun_keeps

theorem storeElems_keeps {scope : Scope} {ord : Ord} {es : List (WKind × Elem)} : Keeps (storeElems scope ord es) :=
  keeps_get fun _ _ => keeps_ite bufferAdd_keeps <| freshIns_keeps.bind fun _ => upd_keeps.bind fun _ => keeps_forM fun _ =>
    launchAccess_keeps.bind fun _ => keeps_pure

theorem stBody_keeps : Keeps stBody :=
  form_keeps.bind fun _ => readyB_keeps.bind fun _ => Keeps.bind (keeps_forM fun _ => ready_keeps) fun _ => effMask_keeps.bind fun _ =>
    keeps_ite keeps_pure <| srcB_keeps.bind fun _ => getB_keeps.bind fun _ => checkAsks_keeps.bind fun _ => readRun_keeps.bind fun _ =>
    storeElems_keeps

theorem prefBody_keeps : Keeps prefBody :=
  form_keeps.bind fun _ => readyB_keeps.bind fun _ => effMask_keeps.bind fun _ => keeps_ite keeps_pure <| srcB_keeps.bind fun _ =>
    getB_keeps.bind fun _ => checkAsks_keeps.bind fun _ => keeps_get fun _ _ => keeps_ite (keeps_ite bufferAdd_keeps <| freshIns_keeps.bind fun _ =>
    upd_keeps.bind fun _ => keeps_forM fun _ => launchAccess_keeps.bind fun _ => keeps_pure) <| keeps_ite (freshIns_keeps.bind fun _ =>
    keeps_forM fun _ => launchAccess_keeps.bind fun _ => keeps_pure) keeps_pure

theorem cwbBody_keeps : Keeps cwbBody :=
  form_keeps.bind fun _ => readyB_keeps.bind fun _ => effMask_keeps.bind fun _ => keeps_ite keeps_pure <| srcB_keeps.bind fun _ =>
    getB_keeps.bind fun _ => checkAsks_keeps.bind fun _ => freshIns_keeps.bind fun _ => keeps_forM fun _ => launchAccess_keeps.bind fun _ =>
    keeps_pure

theorem binaryX_keeps {f : X96 → Val → Val → Val} : Keeps (binaryX f) :=
  form_keeps.bind fun _ => binaryBody_keeps

theorem unaryX_keeps {f : X96 → Val → Val} : Keeps (unaryX f) :=
  form_keeps.bind fun _ => unaryBody_keeps

theorem imadBody_keeps : Keeps imadBody :=
  form_keeps.bind fun _ => ternaryBody_keeps

theorem icmpBody_keeps : Keeps icmpBody :=
  form_keeps.bind fun _ => compareBody_keeps

theorem iselBody_keeps : Keeps iselBody :=
  form_keeps.bind fun _ => readyA_keeps.bind fun _ => readyB_keeps.bind fun _ => getK_keeps.bind fun _ => keeps_get fun _ _ =>
    keeps_ite keeps_pure <| srcA_keeps.bind fun _ => srcB_keeps.bind fun _ => keeps_get fun _ _ => writeV_keeps

theorem moviBody_keeps {lit : DWord} : Keeps (moviBody lit) :=
  form_keeps.bind fun _ => effMask_keeps.bind fun _ => writeV_keeps

theorem shapeBody_keeps : Keeps shapeBody :=
  form_keeps.bind fun _ => effMask_keeps.bind fun _ => noteRead_keeps.bind fun _ => keeps_get fun _ _ => writeV_keeps

theorem shapeaBody_keeps : Keeps shapeaBody :=
  form_keeps.bind fun _ => readyA_keeps.bind fun _ => effMask_keeps.bind fun _ => noteRead_keeps.bind fun _ => keeps_get fun _ _ =>
    keeps_ite trapM_keeps keeps_pure

theorem shapefBody_keeps : Keeps shapefBody :=
  form_keeps.bind fun _ => readyA_keeps.bind fun _ => effMask_keeps.bind fun _ => keeps_ite keeps_pure <| srcA_keeps.bind fun _ =>
    writeV_keeps.bind fun _ => keeps_get fun _ _ => keeps_ite spillReg_keeps keeps_pure

theorem sqzBody_keeps : Keeps sqzBody := by
  unfold sqzBody
  refine form_keeps.bind fun _ => readyA_keeps.bind fun _ => effMask_keeps.bind fun _ => keeps_ite keeps_pure <| srcA_keeps.bind fun _ =>
    ready_keeps.bind fun _ => keeps_get fun _ hj => ?_
  extract_lets +onlyGivenNames jp
  have hjp : ∀ r, Keeps (jp r) := fun _ => keeps_get fun _ _ => writeV_keeps
  exact keeps_ite (readV_keeps.bind fun _ => hjp ()) <| hjp ()

theorem bcastBody_keeps : Keeps bcastBody :=
  form_keeps.bind fun _ => readyA_keeps.bind fun _ => effMask_keeps.bind fun _ => keeps_ite keeps_pure <| srcA_keeps.bind fun _ => writeV_keeps

theorem needUniformB_keeps : Keeps needUniformB :=
  form_keeps.bind fun _ => keeps_ite keeps_pure <| isUniform_keeps.bind fun _ => keeps_ite keeps_pure trapM_keeps

theorem needUniform_keeps {n : Nat} : Keeps (needUniform n) :=
  isUniform_keeps.bind fun _ => keeps_ite keeps_pure trapM_keeps

theorem baddBody_keeps : Keeps baddBody :=
  form_keeps.bind fun _ => readyB_keeps.bind fun _ => effMask_keeps.bind fun _ => needUniformB_keeps.bind fun _ => keeps_ite keeps_pure <|
    uniformB_keeps.bind fun _ => getB_keeps.bind fun _ => setB_keeps

theorem bmovBody_keeps : Keeps bmovBody :=
  form_keeps.bind fun _ => readyRun_keeps.bind fun _ => effMask_keeps.bind fun _ => needUniform_keeps.bind fun _ => needUniform_keeps.bind fun _ =>
    keeps_ite keeps_pure <| readU_keeps.bind fun _ => readU_keeps.bind fun _ => setB_keeps

theorem bgetBody_keeps : Keeps bgetBody :=
  form_keeps.bind fun _ => effMask_keeps.bind fun _ => keeps_ite keeps_pure <| getB_keeps.bind fun _ => writeAll_keeps

theorem blitBody_keeps {lit : DWord} : Keeps (blitBody lit) :=
  form_keeps.bind fun _ => effMask_keeps.bind fun _ => setB_keeps

theorem kopBody_keeps {g : Mask → Mask → Mask} : Keeps (kopBody g) :=
  form_keeps.bind fun _ => effMask_keeps.bind fun _ => keeps_ite keeps_pure <| getK_keeps.bind fun _ => getK_keeps.bind fun _ => kwrite_keeps

theorem kop1Body_keeps {g : Mask → Mask} : Keeps (kop1Body g) :=
  form_keeps.bind fun _ => effMask_keeps.bind fun _ => keeps_ite keeps_pure <| getK_keeps.bind fun _ => kwrite_keeps

theorem ksetBody_keeps : Keeps ksetBody :=
  form_keeps.bind fun _ => readyA_keeps.bind fun _ => effMask_keeps.bind fun _ => keeps_ite (keeps_ite keeps_pure <| srcA_keeps.bind fun _ =>
    kwrite_keeps) <| needUniform_keeps.bind fun _ => keeps_ite keeps_pure <| readU_keeps.bind fun _ => kwrite_keeps

theorem kpopBody_keeps : Keeps kpopBody :=
  form_keeps.bind fun _ => effMask_keeps.bind fun _ => keeps_ite keeps_pure <| getK_keeps.bind fun _ => writeV_keeps

theorem kgetBody_keeps : Keeps kgetBody :=
  form_keeps.bind fun _ => effMask_keeps.bind fun _ => keeps_ite keeps_pure <| getK_keeps.bind fun _ => writeV_keeps

theorem shflBody_keeps : Keeps shflBody :=
  form_keeps.bind fun _ => binaryBody_keeps

theorem voteBody_keeps : Keeps voteBody := by
  unfold voteBody
  refine form_keeps.bind fun _ => readyA_keeps.bind fun _ => effMask_keeps.bind fun _ => keeps_ite keeps_pure <| srcA_keeps.bind fun _ => ?_
  extract_lets +onlyGivenNames p
  split
  · exact kwrite_keeps
  · exact kwrite_keeps
  · exact writeV_keeps
  · exact kwrite_keeps

theorem lredChecked_keeps {g : Word → Word → Word} {m : Mask} {a : Val} : Keeps (lredChecked g m a) :=
  form_keeps.bind fun _ => prepWrite_keeps.bind fun _ => keeps_get fun _ _ => keeps_ite upd_keeps <| keeps_ite keeps_throw <|
    upd_keeps.bind fun _ => writeV_keeps

theorem lredBody_keeps : Keeps lredBody :=
  form_keeps.bind fun _ => readyA_keeps.bind fun _ => effMask_keeps.bind fun _ => keeps_ite keeps_pure <| srcA_keeps.bind fun _ =>
    keeps_ite lredChecked_keeps writeV_keeps

theorem gidBody_keeps : Keeps gidBody :=
  form_keeps.bind fun _ => effMask_keeps.bind fun _ => keeps_get fun _ _ => writeV_keeps

theorem ownIndex_keeps : Keeps ownIndex :=
  keeps_get fun _ _ => keeps_pure

theorem noteSlots_keeps {group : Nat} {write : Bool} {es : List Elem} : Keeps (noteSlots group write es) :=
  keeps_get fun _ _ => keeps_ite (updAll_keeps (fun _ h => noteSlots_sound h)) keeps_pure

theorem touchWords_keeps {secs : List Sector} : Keeps (touchWords secs) :=
  keeps_get fun _ _ => updS_keeps fun _ h => touchClass_sound h

theorem scratchLoad_keeps {i : Issue} {pid group : Nat} {es : List Elem} : Keeps (scratchLoad i pid group es) :=
  contLoad_keeps.bind fun _ => Keeps.bind (keeps_forM fun _ => updProd_keeps) fun _ => keeps_ite keeps_pure <| launchAccess_keeps.bind fun _ =>
    updProd_keeps

theorem scratchLoadRun_keeps {m : Mask} {uniform : Bool} {ldt : Option Nat} {w count : Nat} {ls : List (Nat × Nat × List Nat)} :
    Keeps (scratchLoadRun m uniform ldt w count ls) :=
  form_keeps.bind fun _ => ownIndex_keeps.bind fun _ => Keeps.bind (keeps_forM fun _ => prepLong_keeps) fun _ => freshIns_keeps.bind fun _ =>
    startProducer_keeps.bind fun _ => keeps_forM fun _ => keeps_get fun _ _ => noteSlots_keeps.bind fun _ => scratchLoad_keeps

theorem scratchStoreRun_keeps {ls : List (Nat × Nat × List Nat)} {w count : Nat} {uniform : Bool} {data : Nat → Nat → Nat} :
    Keeps (scratchStoreRun ls w count uniform data) :=
  form_keeps.bind fun _ => ownIndex_keeps.bind fun _ => freshIns_keeps.bind fun _ => keeps_forM fun _ => keeps_get fun _ _ =>
    keeps_ite bufferAdd_keeps <| noteSlots_keeps.bind fun _ => upd_keeps.bind fun _ => launchAccess_keeps.bind fun _ => keeps_pure

theorem ldsBody_keeps : Keeps ldsBody :=
  form_keeps.bind fun _ => readyA_keeps.bind fun _ => effMask_keeps.bind fun _ => keeps_ite keeps_pure <| srcA_keeps.bind fun _ =>
    ownIndex_keeps.bind fun _ => checkScratch_keeps.bind fun _ => scratchLoadRun_keeps

theorem stsBody_keeps : Keeps stsBody :=
  form_keeps.bind fun _ => readyA_keeps.bind fun _ => Keeps.bind (keeps_forM fun _ => ready_keeps) fun _ => effMask_keeps.bind fun _ =>
    keeps_ite keeps_pure <| srcA_keeps.bind fun _ => ownIndex_keeps.bind fun _ => checkScratch_keeps.bind fun _ => readRun_keeps.bind fun _ =>
    scratchStoreRun_keeps

theorem ldpBody_keeps : Keeps ldpBody :=
  form_keeps.bind fun _ => readyA_keeps.bind fun _ => readyB_keeps.bind fun _ => effMask_keeps.bind fun _ => keeps_ite keeps_pure <|
    srcA_keeps.bind fun _ => srcB_keeps.bind fun _ => checkScratch_keeps.bind fun _ => scratchLoadRun_keeps

theorem stpBody_keeps : Keeps stpBody :=
  form_keeps.bind fun _ => readyA_keeps.bind fun _ => readyB_keeps.bind fun _ => Keeps.bind (keeps_forM fun _ => ready_keeps) fun _ =>
    effMask_keeps.bind fun _ => keeps_when needUniform_keeps fun _ => keeps_ite keeps_pure <| srcA_keeps.bind fun _ => srcB_keeps.bind fun _ =>
    checkScratch_keeps.bind fun _ => readRun_keeps.bind fun _ => scratchStoreRun_keeps

theorem ldfBody_keeps {keep : Bool} : Keeps (ldfBody keep) := by
  unfold ldfBody
  refine form_keeps.bind fun _ => readyA_keeps.bind fun _ => effMask_keeps.bind fun _ => keeps_ite keeps_pure <| srcA_keeps.bind fun _ =>
    ownIndex_keeps.bind fun _ => checkScratch_keeps.bind fun _ => keeps_get fun _ hj => ?_
  split
  · exact keeps_pure
  · refine awaitOrder_keeps.bind fun _ => keeps_when keeps_throw fun _ => noteSlots_keeps.bind fun _ => touchWords_keeps.bind fun _ =>
      contLoad_keeps.bind fun _ => Keeps.bind (keeps_forM fun _ => prepLong_keeps) fun _ => startProducer_keeps.bind fun _ =>
      Keeps.bind (keeps_forM fun _ => updProd_keeps) fun _ => keeps_get fun _ _ => ?_
    extract_lets +onlyGivenNames jp
    have hjp : ∀ r, Keeps (jp r) := by
      refine fun _ => keeps_ite keeps_pure <| upd_keeps.bind fun _ => updS_keeps fun _ h => ?_
      split
      · exact sound_of_mem rfl h
      · exact h
    exact keeps_ite (upd_keeps.bind hjp) <| hjp ()

theorem stfBody_keeps : Keeps stfBody := by
  unfold stfBody
  refine form_keeps.bind fun _ => readyA_keeps.bind fun _ => Keeps.bind (keeps_forM fun _ => ready_keeps) fun _ => effMask_keeps.bind fun _ =>
    keeps_ite keeps_pure <| srcA_keeps.bind fun _ => ownIndex_keeps.bind fun _ => checkScratch_keeps.bind fun _ => readRun_keeps.bind fun _ =>
    keeps_get fun _ _ => ?_
  split
  · exact keeps_pure
  · refine awaitOrder_keeps.bind fun _ => keeps_when keeps_throw fun _ => noteSlots_keeps.bind fun _ => touchWords_keeps.bind fun _ =>
      upd_keeps.bind fun _ => updS_keeps fun _ h => ?_
    extract_lets +onlyGivenNames s1
    have hs1 : Sound s1 := sound_of_mem (scratchStore_mem ..) h
    split
    · exact sound_of_mem rfl hs1
    · exact hs1

theorem fesetBody_keeps : Keeps fesetBody := by
  unfold fesetBody
  refine form_keeps.bind fun _ => readyA_keeps.bind fun _ => effMask_keeps.bind fun _ => keeps_ite keeps_pure <| srcA_keeps.bind fun _ =>
    ownIndex_keeps.bind fun _ => checkScratch_keeps.bind fun _ => keeps_get fun _ _ => ?_
  split
  · exact keeps_pure
  · refine upd_keeps.bind fun _ => mustWait_keeps.bind fun _ => keeps_ite (launchAccess_keeps.bind fun _ => keeps_pure) <|
      touchWords_keeps.bind fun _ => updS_keeps fun _ h => ?_
    split
    · exact sound_of_mem (loseScratch_mem ..) (sound_of_mem rfl h)
    · exact h

theorem ldtBody_keeps : Keeps ldtBody :=
  form_keeps.bind fun _ => readyA_keeps.bind fun _ => effMask_keeps.bind fun _ => keeps_ite keeps_pure <| srcA_keeps.bind fun _ =>
    ownIndex_keeps.bind fun _ => checkScratch_keeps.bind fun _ => scratchLoadRun_keeps

theorem barArrive_keeps {g : Group} {n : Nat} : Keeps (barArrive g n) :=
  keeps_get fun _ _ => awaitOrder_keeps.bind fun _ => updS_keeps fun _ h => checkBar_sound (sound_of_mem rfl h)

theorem barBody_keeps : Keeps barBody := by
  unfold barBody
  refine form_keeps.bind fun _ => effMask_keeps.bind fun _ => keeps_ite keeps_pure <| keeps_get fun _ _ => ?_
  split
  · exact keeps_pure
  · refine keeps_when barArrive_keeps fun _ => keeps_ite keeps_pure <| keeps_get fun _ _ => ?_
    split
    · exact keeps_pure
    · exact keeps_ite keeps_throw <| updS_keeps fun _ h => l1Acquire_sound _ _ h

theorem phaserRecord_keeps {m : Mask} {release : Bool} : Keeps (phaserRecord m release) := by
  unfold phaserRecord
  refine form_keeps.bind fun _ => getB_keeps.bind fun _ => checkAsks_keeps.bind fun _ => ?_
  split
  · exact keeps_throw
  · refine needPages_keeps.bind fun _ => keeps_get fun _ _ => awaitOrder_keeps.bind fun _ => Keeps.bind (updS_keeps (fun _ h => ?_)) fun _ =>
      keeps_pure
    extract_lets +onlyGivenNames s1
    have hs1 : Sound s1 := sound_ite (l1Release_sound _ _ h) h
    exact touchClass_sound (atomPrepare_sound _ _ _ _ hs1)

theorem phaserTrap_keeps {α : Type} {code : Nat} : Keeps (phaserTrap code : M α) :=
  form_keeps.bind fun _ => keeps_get fun _ _ => trapM_keeps

theorem phaserRead_keeps {p : Piece} : Keeps (phaserRead p) :=
  keeps_get fun _ _ => keeps_ite keeps_pure phaserTrap_keeps

theorem phaserWrite_keeps {p : Piece} {r : PhStep} : Keeps (phaserWrite p r) := by
  unfold phaserWrite
  split
  · exact phaserTrap_keeps
  · exact upd_keeps.bind fun _ => keeps_get fun _ _ =>
      updS_keeps fun _ h => sound_of_mem (wakePhaser_mem _) (atomWrite_sound _ _ _ _ _ h)

theorem phaserArg_keeps : Keeps phaserArg :=
  readyB_keeps.bind fun _ => needUniformB_keeps

theorem phregBody_keeps : Keeps phregBody :=
  form_keeps.bind fun _ => effMask_keeps.bind fun _ => keeps_ite keeps_pure <| phaserRecord_keeps.bind fun _ => phaserRead_keeps.bind fun _ =>
    phaserWrite_keeps.bind fun _ => writeV_keeps

theorem phdropBody_keeps : Keeps phdropBody := by
  unfold phdropBody
  refine form_keeps.bind fun _ => phaserArg_keeps.bind fun _ => effMask_keeps.bind fun _ => keeps_ite keeps_pure <| uniformB_keeps.bind fun _ =>
    phaserRecord_keeps.bind fun _ => phaserRead_keeps.bind fun _ => ?_
  extract_lets +onlyGivenNames jp
  have hjp : ∀ r, Keeps (jp r) := fun _ => phaserRead_keeps.bind fun _ => phaserWrite_keeps
  exact keeps_ite (phaserRecord_keeps.bind fun _ => hjp ()) <| hjp ()

theorem phsigBody_keeps : Keeps phsigBody :=
  phaserArg_keeps.bind fun _ => effMask_keeps.bind fun _ => keeps_ite keeps_pure <| uniformB_keeps.bind fun _ => phaserRecord_keeps.bind fun _ =>
    phaserRead_keeps.bind fun _ => phaserWrite_keeps

theorem phaserWait_keeps {p : Piece} {q : Word} : Keeps (phaserWait p q) :=
  form_keeps.bind fun _ => keeps_get fun _ _ => keeps_ite (upd_keeps.bind fun _ => updS_keeps (fun _ h => l1Acquire_sound _ _ h)) <|
    upd_keeps.bind fun _ => keeps_throw

theorem phwaitBody_keeps : Keeps phwaitBody := by
  unfold phwaitBody
  refine phaserArg_keeps.bind fun _ => effMask_keeps.bind fun _ => keeps_ite keeps_pure <| uniformB_keeps.bind fun _ =>
    phaserRecord_keeps.bind fun _ => keeps_get fun _ hj => ?_
  extract_lets +onlyGivenNames jp
  have hjp : ∀ r, Keeps (jp r) := fun _ => phaserWait_keeps
  exact keeps_ite (phaserRead_keeps.bind fun _ => hjp ()) <| hjp ()

theorem phswBody_keeps : Keeps phswBody :=
  phaserArg_keeps.bind fun _ => effMask_keeps.bind fun _ => keeps_ite keeps_pure <| uniformB_keeps.bind fun _ => keeps_get fun _ _ =>
    keeps_ite (phaserRecord_keeps.bind fun _ => phaserRead_keeps.bind fun _ => phaserWrite_keeps.bind fun _ => phaserWait_keeps) <|
    phaserRecord_keeps.bind fun _ => phaserWait_keeps

theorem phqBody_keeps : Keeps phqBody :=
  form_keeps.bind fun _ => effMask_keeps.bind fun _ => keeps_ite keeps_pure <| phaserRecord_keeps.bind fun _ => phaserRead_keeps.bind fun _ =>
    writeV_keeps

theorem ownRing_keeps : Keeps ownRing :=
  form_keeps.bind fun _ => keeps_get fun _ _ => keeps_pure

theorem ringStep_keeps {r : Ring} : Keeps (ringStep r) :=
  form_keeps.bind fun _ => keeps_get fun _ _ => updS_keeps fun _ h => sound_of_mem (setRing_mem ..) h

theorem ringCheck_keeps {r : Ring} {producer : Bool} : Keeps (ringCheck r producer) :=
  form_keeps.bind fun _ => keeps_when trapM_keeps fun _ => keeps_ite trapM_keeps keeps_pure

theorem ringAcquire_keeps {src : BitVec 4} {prod : Option Nat} : Keeps (ringAcquire src prod) :=
  keeps_get fun _ _ => Keeps.bind (updS_keeps (fun _ h => sound_of_mem (fenceClasses_mem ..) h)) fun _ => launchAccess_keeps

theorem ringRelease_keeps {dst : BitVec 4} : Keeps (ringRelease dst) := by
  unfold ringRelease
  refine keeps_get fun _ _ => updS_keeps fun _ h => ?_
  extract_lets +onlyGivenNames s1
  have hs1 : Sound s1 := l1Release_sound _ _ (sound_of_mem (fenceClasses_mem ..) h)
  exact sound_ite (l1Acquire_sound _ _ hs1) hs1

theorem rdefBody_keeps : Keeps rdefBody := by
  unfold rdefBody
  refine form_keeps.bind fun _ => effMask_keeps.bind fun _ => keeps_ite keeps_pure <| awaitOrder_keeps.bind fun _ => keeps_get fun _ _ => ?_
  split
  · exact keeps_pure
  · exact keeps_when trapM_keeps fun _ => keeps_when trapM_keeps fun _ => keeps_when trapM_keeps fun _ => updS_keeps fun _ h =>
      sound_of_mem (setRing_mem ..) h

theorem racqBody_keeps : Keeps racqBody := by
  unfold racqBody
  refine form_keeps.bind fun _ => effMask_keeps.bind fun _ => keeps_ite keeps_pure <| awaitOrder_keeps.bind fun _ => ownRing_keeps.bind fun _ => ?_
  split
  · exact keeps_pure
  · exact ringCheck_keeps.bind fun _ => keeps_when keeps_throw fun _ => ringStep_keeps.bind fun _ => ringAcquire_keeps.bind fun _ => writeV_keeps

theorem rpubBody_keeps : Keeps rpubBody := by
  unfold rpubBody
  refine form_keeps.bind fun _ => effMask_keeps.bind fun _ => keeps_ite keeps_pure <| awaitOrder_keeps.bind fun _ => ownRing_keeps.bind fun _ => ?_
  split
  · exact keeps_pure
  · exact ringCheck_keeps.bind fun _ => keeps_when trapM_keeps fun _ => ringRelease_keeps.bind fun _ => ringStep_keeps

theorem rgetBody_keeps : Keeps rgetBody := by
  unfold rgetBody
  refine form_keeps.bind fun _ => effMask_keeps.bind fun _ => keeps_ite keeps_pure <| awaitOrder_keeps.bind fun _ => ownRing_keeps.bind fun _ => ?_
  split
  · exact keeps_pure
  · exact ringCheck_keeps.bind fun _ => keeps_when keeps_throw fun _ => prepLong_keeps.bind fun _ => ringStep_keeps.bind fun _ =>
      startProducer_keeps.bind fun _ => ringAcquire_keeps.bind fun _ => updProd_keeps

theorem rrelBody_keeps : Keeps rrelBody := by
  unfold rrelBody
  refine form_keeps.bind fun _ => effMask_keeps.bind fun _ => keeps_ite keeps_pure <| awaitOrder_keeps.bind fun _ => ownRing_keeps.bind fun _ => ?_
  split
  · exact keeps_pure
  · exact ringCheck_keeps.bind fun _ => keeps_when trapM_keeps fun _ => ringRelease_keeps.bind fun _ => ringStep_keeps

theorem stctBody_keeps : Keeps stctBody :=
  form_keeps.bind fun _ => readyB_keeps.bind fun _ => Keeps.bind (keeps_forM fun _ => ready_keeps) fun _ => effMask_keeps.bind fun _ =>
    needUniformB_keeps.bind fun _ => keeps_ite keeps_pure <| uniformB_keeps.bind fun _ => getB_keeps.bind fun _ => checkAsks_keeps.bind fun _ =>
    readRun_keeps.bind fun _ => srState_keeps.bind fun _ => keeps_when amaxUpdate_keeps fun _ => storeElems_keeps

theorem checkSpan_keeps {p : Piece} {va n : Nat} {m : Mask} : Keeps (checkSpan p va n m) :=
  keeps_get fun _ _ => keeps_when trapWith_keeps fun _ => keeps_ite keeps_pure keeps_throw

theorem stzBody_keeps : Keeps stzBody := by
  unfold stzBody
  refine form_keeps.bind fun _ => readyB_keeps.bind fun _ => Keeps.bind (keeps_forM fun _ => ready_keeps) fun _ => effMask_keeps.bind fun _ =>
    needUniformB_keeps.bind fun _ => keeps_ite keeps_pure <| uniformB_keeps.bind fun _ => getB_keeps.bind fun _ => checkAsks_keeps.bind fun _ => ?_
  split
  · exact keeps_throw
  · refine readRun_keeps.bind fun _ => needPages_keeps.bind fun _ => awaitOrder_keeps.bind fun _ => keeps_get fun _ _ => Keeps.bind ?_ fun _ => ?_
    · refine updS_keeps fun _ h => ?_
      extract_lets +onlyGivenNames s1
      have hs1 : Sound s1 := sound_ite (l1Release_sound _ _ h) h
      exact atomPrepare_sound _ _ _ _ hs1
    · refine keeps_get fun _ _ => keeps_when trapWith_keeps fun _ => keeps_when trapWith_keeps fun _ => keeps_when trapWith_keeps fun _ =>
        keeps_when trapWith_keeps fun _ => checkSpan_keeps.bind fun _ => Keeps.bind (updS_keeps (fun _ h => ?_)) fun _ => upd_keeps.bind fun _ =>
        storeElems_keeps
      extract_lets +onlyGivenNames s1
      have hs1 : Sound s1 := touchClass_sound h
      exact atomWrite_sound _ _ _ _ _ hs1

theorem readWord_keeps {p : Piece} {i : Nat} : Keeps (readWord p i) :=
  form_keeps.bind fun _ => keeps_get fun _ hj => Keeps.bind (updS_keeps (fun _ _ =>
    sound_ite (loadElem_sound _ _ _ _ _ hj.now) (count_sound (loadElem_sound _ _ _ _ _ hj.now)))) fun _ => keeps_pure

theorem ldzBody_keeps : Keeps ldzBody := by
  unfold ldzBody
  refine form_keeps.bind fun _ => readyB_keeps.bind fun _ => effMask_keeps.bind fun _ => needUniformB_keeps.bind fun _ => keeps_ite keeps_pure <|
    uniformB_keeps.bind fun _ => getB_keeps.bind fun _ => checkAsks_keeps.bind fun _ => ?_
  split
  · exact keeps_throw
  · refine Keeps.bind (needPages_keeps.bind fun _ => awaitOrder_keeps) fun _ => readWord_keeps.bind fun _ => checkSpan_keeps.bind fun _ =>
      Keeps.bind (needPages_keeps.bind fun _ => awaitOrder_keeps) fun _ => Keeps.bind (keeps_mapM fun _ => readWord_keeps) fun _ =>
      keeps_when trapWith_keeps fun _ => Keeps.bind (keeps_forM fun _ => prepLong_keeps) fun _ => startProducer_keeps.bind fun _ =>
      keeps_get fun _ _ => updProd_keeps.bind fun _ => updS_keeps fun _ h => ?_
    extract_lets +onlyGivenNames s1
    have hs1 : Sound s1 := touchClass_sound h
    exact sound_ite (l1Acquire_sound _ _ hs1) hs1

theorem xfenceBody_keeps : Keeps xfenceBody :=
  form_keeps.bind fun _ => effMask_keeps.bind fun _ => keeps_ite keeps_pure <| keeps_get fun _ _ => Keeps.bind (updS_keeps (fun _ h =>
    sound_of_mem (fenceClasses_mem ..) h)) fun _ => launchAccess_keeps.bind fun _ => keeps_pure

theorem copyRingCheck_keeps {t : CopyCtl} {q : Ring} {rows rowLen start : Nat} {stride : Int} {m : Mask} :
    Keeps (copyRingCheck t q rows rowLen start stride m) :=
  keeps_when trapM_keeps fun _ => keeps_when trapM_keeps fun _ => keeps_ite trapWith_keeps keeps_pure

theorem cpyBody_keeps : Keeps cpyBody := by
  unfold cpyBody
  refine form_keeps.bind fun _ => effMask_keeps.bind fun _ => keeps_ite keeps_pure <| getB_keeps.bind fun _ => getB_keeps.bind fun _ =>
    getB_keeps.bind fun _ => getB_keeps.bind fun _ => keeps_when trapWith_keeps fun _ => keeps_when trapWith_keeps fun _ =>
    keeps_when awaitOrder_keeps fun _ => keeps_get fun _ _ => ?_
  split
  · extract_lets +onlyGivenNames _ _ _ take _ _ issue jp
    have hissue : ∀ r, Keeps (issue r) := by
      refine fun _ => freshIns_keeps.bind fun _ => upd_keeps.bind fun _ => Keeps.bind (updAll_keeps fun _ h => ?_) fun _ => writeV_keeps
      extract_lets +onlyGivenNames s1 s2 s3 s4
      have hs2 : Sound s2 := touchClass_sound (sound_of_mem rfl h)
      have hs4 : Sound s4 := noteSlots_sound (noteSlots_sound hs2)
      exact sound_ite (copyStep_sound hs4) (sound_of_mem (request_mem ..) hs4)
    have hjp : ∀ r, Keeps (jp r) := by
      refine fun _ => checkAsks_keeps.bind fun _ => checkScratch_keeps.bind fun _ => keeps_ite writeV_keeps <| keeps_ite writeV_keeps ?_
      cases take with
      | none => exact hissue ()
      | some _ => exact Keeps.bind (updS_keeps fun _ h => sound_of_mem (copyFence_mem ..) (sound_of_mem (setRing_mem ..) h)) hissue
    exact keeps_ite (copyRingCheck_keeps.bind hjp) <| keeps_ite (copyRingCheck_keeps.bind hjp) <| hjp ()
  · exact keeps_pure

theorem cpywBody_keeps : Keeps cpywBody := by
  unfold cpywBody
  refine form_keeps.bind fun _ => effMask_keeps.bind fun _ => keeps_ite keeps_pure <| keeps_get fun _ _ => keeps_ite keeps_throw <|
    Keeps.bind (updS_keeps (fun _ h => ?_)) fun _ => upd_keeps
  extract_lets +onlyGivenNames s1
  have hs1 : Sound s1 := sound_of_mem (fenceClasses_mem ..) h
  exact sound_ite hs1 (l1Acquire_sound _ _ hs1)

theorem launchCopy_keeps {p : Piece} {t : Window × Nat} : Keeps (launchCopy p t) := by
  refine needPages_keeps.bind fun _ => needPages_keeps.bind fun _ => keeps_get fun _ _ => awaitOrder_keeps.bind fun _ =>
    Keeps.bind (updS_keeps fun _ h => l1Release_sound _ _ h) fun _ => updS_keeps fun s h => ?_
  split
  next s1 ws e =>
  have hs1 : Sound s1 := by
    have hfst : s1 = (s1, ws).1 := rfl
    rw [hfst, ← e]
    refine sound_foldl_fst (fun r i hr => ?_) _ h
    exact loadElem_sound _ _ _ _ _ hr
  extract_lets s2 s3 s4
  have hs2 : Sound s2 := sound_foldl _ (fun _ _ hu => storeElem_sound _ _ _ _ _ _ hu) _ hs1
  have hs3 : Sound s3 := sound_of_mem (clearCovered_mem ..) hs2
  have hs4 : Sound s4 := sound_foldl _ (fun _ _ hu => sound_ite (tagSector_sound hu) hu) _ hs3
  exact touchClass_sound hs4

theorem launchBody_keeps : Keeps launchBody := by
  unfold launchBody
  refine form_keeps.bind fun _ => effMask_keeps.bind fun _ => keeps_ite keeps_pure <| getB_keeps.bind fun _ => checkAsks_keeps.bind fun _ =>
    keeps_get fun _ _ => ?_
  split
  · extract_lets +onlyGivenNames q
    split
    · refine launchCopy_keeps.bind fun _ => Keeps.bind (updS_keeps (fun _ h => ?_)) fun _ => writeV_keeps
      split
      · exact sound_of_mem rfl h
      · exact h
    · exact writeV_keeps
  · exact keeps_throw

theorem chunkBody_keeps : Keeps chunkBody := by
  unfold chunkBody
  refine form_keeps.bind fun _ => effMask_keeps.bind fun _ => keeps_ite keeps_pure <| getB_keeps.bind fun _ => checkAsks_keeps.bind fun _ => ?_
  split
  · exact keeps_throw
  · exact needPages_keeps.bind fun _ => awaitOrder_keeps.bind fun _ => keeps_get fun _ _ => Keeps.bind (updS_keeps (fun _ h =>
      atomPrepare_sound _ _ _ _ h)) fun _ => keeps_get fun _ _ => keeps_when trapM_keeps fun _ => keeps_when trapM_keeps fun _ =>
      keeps_when trapM_keeps fun _ => prepLong_keeps.bind fun _ => prepLong_keeps.bind fun _ => startProducer_keeps.bind fun _ =>
      updProd_keeps.bind fun _ => upd_keeps.bind fun _ => updS_keeps fun _ h => atomWrite_sound _ _ _ _ _ (touchClass_sound h)

theorem applySel_keeps {r : Sel} (hr : Sound r.s) : Keeps (applySel r) := by
  unfold applySel
  refine keeps_get fun _ hj => ?_
  split
  · exact ⟨fun _ _ => ⟨hr, hj.start⟩⟩
  · exact ⟨fun _ _ => ⟨hr, hj.start⟩⟩
  · exact ⟨fun _ _ => ⟨hr, hj.start⟩⟩
  · exact keeps_throw
  · exact keeps_throw

theorem endPath_keeps {byExit : Bool} : Keeps (endPath byExit) :=
  keeps_get fun _ hj => applySel_keeps (selectPath_sound hj.now)

theorem nextPc_keeps : Keeps nextPc :=
  keeps_get fun _ _ => keeps_pure

theorem checkDepth_keeps : Keeps checkDepth :=
  keeps_get fun _ _ => keeps_ite keeps_throw keeps_pure

theorem jmpBody_keeps {off : BitVec 23} : Keeps (jmpBody off) :=
  keeps_get fun _ _ => jump_keeps

theorem callTo_keeps {target : DWord} : Keeps (callTo target) :=
  checkDepth_keeps.bind fun _ => upd_keeps.bind fun _ => jump_keeps

theorem callBody_keeps {off : BitVec 23} : Keeps (callBody off) :=
  keeps_get fun _ _ => callTo_keeps

theorem alignedTarget_keeps : Keeps alignedTarget :=
  form_keeps.bind fun _ => getB_keeps.bind fun _ => keeps_ite trapM_keeps keeps_pure

theorem jmpiBody_keeps : Keeps jmpiBody :=
  alignedTarget_keeps.bind fun _ => jump_keeps

theorem calliBody_keeps : Keeps calliBody :=
  alignedTarget_keeps.bind fun _ => callTo_keeps

theorem brBody_keeps : Keeps brBody :=
  form_keeps.bind fun _ => getK_keeps.bind fun _ => keeps_get fun _ _ => nextPc_keeps.bind fun _ => keeps_when hazard_keeps fun _ =>
    upd_keeps.bind fun _ => keeps_ite jump_keeps <| keeps_ite jump_keeps <| upd_keeps.bind fun _ => jump_keeps

theorem bruBody_keeps : Keeps bruBody :=
  form_keeps.bind fun _ => getK_keeps.bind fun _ => keeps_get fun _ _ => nextPc_keeps.bind fun _ => keeps_ite jump_keeps <|
    keeps_ite jump_keeps trapWith_keeps

theorem joinBody_keeps : Keeps joinBody :=
  form_keeps.bind fun _ => nextPc_keeps.bind fun _ => keeps_get fun _ _ => keeps_when illegal_keeps fun _ => getJ_keeps.bind fun _ =>
    keeps_get fun _ _ => keeps_ite jump_keeps <| keeps_ite trapM_keeps <| keeps_ite (upd_keeps.bind fun _ => jump_keeps) <| upd_keeps.bind fun _ =>
    endPath_keeps

theorem yieldpBody_keeps : Keeps yieldpBody := by
  unfold yieldpBody
  refine keeps_get fun _ _ => nextPc_keeps.bind fun _ => ?_
  split
  · exact jump_keeps
  · exact keeps_ite jump_keeps <| keeps_ite trapM_keeps <| upd_keeps.bind fun _ => keeps_ite endPath_keeps jump_keeps

theorem deferredFault_keeps : Keeps deferredFault := by
  unfold deferredFault
  refine keeps_get fun _ _ => keeps_ite ?_ keeps_pure
  extract_lets +onlyGivenNames c
  split
  · split
    · exact Keeps.bind (updKept_keeps (fun _ h => sound_of_mem (setCluster_mem ..) h)) fun _ => keeps_throw
    · exact keeps_pure
  · exact keeps_pure

theorem exitLanes_keeps {m : Mask} : Keeps (exitLanes m) :=
  nextPc_keeps.bind fun _ => keeps_ite jump_keeps <| upd_keeps.bind fun _ => keeps_get fun _ _ => keeps_ite jump_keeps endPath_keeps

theorem exitBody_keeps : Keeps exitBody :=
  deferredFault_keeps.bind fun _ => effMask_keeps.bind fun _ => exitLanes_keeps

theorem retBody_keeps : Keeps retBody := by
  unfold retBody
  refine keeps_get fun _ _ => keeps_when keeps_throw fun _ => ?_
  split
  · exact deferredFault_keeps.bind fun _ => exitLanes_keeps
  · exact keeps_ite illegal_keeps <| keeps_ite trapM_keeps <| upd_keeps.bind fun _ => keeps_get fun _ hj =>
      keeps_ite (applySel_keeps (popAndSelect_sound hj.now)) endPath_keeps

theorem jgetBody_keeps : Keeps jgetBody :=
  form_keeps.bind fun _ => effMask_keeps.bind fun _ => keeps_ite keeps_pure <| getJ_keeps.bind fun _ => writeAll_keeps

theorem jputBody_keeps : Keeps jputBody :=
  form_keeps.bind fun _ => readyRun_keeps.bind fun _ => effMask_keeps.bind fun _ => Keeps.bind (keeps_forM fun _ => needUniform_keeps) fun _ =>
    keeps_ite keeps_pure <| readU_keeps.bind fun _ => readU_keeps.bind fun _ => readU_keeps.bind fun _ => readU_keeps.bind fun _ => upd_keeps

theorem trapBody_keeps : Keeps trapBody :=
  form_keeps.bind fun _ => effMask_keeps.bind fun _ => keeps_ite keeps_pure trapWith_keeps

theorem thretBody_keeps : Keeps thretBody := by
  unfold thretBody
  refine form_keeps.bind fun _ => keeps_get fun _ _ => ?_
  split
  · exact illegal_keeps
  · exact keeps_ite keeps_throw <| upd_keeps.bind fun _ => jump_keeps

theorem fcallBody_keeps {lit : DWord} : Keeps (fcallBody lit) := by
  unfold fcallBody
  refine form_keeps.bind fun _ => checkDepth_keeps.bind fun _ => keeps_get fun _ _ => ?_
  extract_lets +onlyGivenNames st ret blk ra target rec' entry
  split
  · exact upd_keeps.bind fun _ => Keeps.bind (updS_keeps (fun _ h => sound_of_mem (bump_mem ..) h)) fun _ => jump_keeps
  · refine keeps_when keeps_throw fun _ => Keeps.bind (keeps_forM fun _ => needPages_keeps) fun _ => Keeps.bind (updS_keeps (fun _ h =>
      sound_foldl _ (fun _ _ hu => saveLanes_sound hu) _ h)) fun _ => Keeps.bind (updS_keeps (fun _ h => ?_)) fun _ => upd_keeps.bind fun _ =>
      jump_keeps
    extract_lets +onlyGivenNames t
    have ht : Sound t := sound_of_mem (bump_mem ..) h
    exact sound_of_mem rfl ht

theorem enterTask_keeps {kind : TaskKind} {lit : DWord} : Keeps (enterTask kind lit) := by
  unfold enterTask
  refine deferredFault_keeps.bind fun _ => form_keeps.bind fun _ => readyA_keeps.bind fun _ => readyB_keeps.bind fun _ =>
    needUniform_keeps.bind fun _ => needUniformB_keeps.bind fun _ => effMask_keeps.bind fun _ => keeps_ite keeps_pure <| readU_keeps.bind fun _ =>
    uniformB_keeps.bind fun _ => awaitOrder_keeps.bind fun _ => keeps_get fun _ _ => ?_
  extract_lets +onlyGivenNames d bands
  split
  · exact trapWith_keeps
  · extract_lets +onlyGivenNames c
    split
    · exact keeps_throw
    · refine keeps_when upd_keeps fun _ => keeps_get fun _ _ => Keeps.bind (updS_keeps (fun _ h => ?_)) fun _ => writeV_keeps
      extract_lets +onlyGivenNames t1
      have ht1 : Sound t1 := sound_of_mem (setCluster_mem ..) h
      exact sound_of_mem rfl ht1

theorem mmaBody_keeps {lit : DWord} : Keeps (mmaBody lit) :=
  checkFeature_keeps.bind fun _ => enterTask_keeps

theorem openTask_keeps {p : Task → Bool} : Keeps (openTask p) :=
  keeps_get fun _ _ => keeps_pure

theorem wswapBody_keeps : Keeps wswapBody := by
  unfold wswapBody
  refine deferredFault_keeps.bind fun _ => effMask_keeps.bind fun _ => keeps_ite keeps_pure <| openTask_keeps.bind fun _ =>
    keeps_when keeps_throw fun _ => keeps_get fun _ _ => ?_
  split
  · exact trapWith_keeps
  · exact upd_keeps

theorem ashapeBody_keeps : Keeps ashapeBody :=
  deferredFault_keeps.bind fun _ => form_keeps.bind fun _ => readyB_keeps.bind fun _ => needUniformB_keeps.bind fun _ => effMask_keeps.bind fun _ =>
    keeps_ite keeps_pure <| uniformB_keeps.bind fun _ => keeps_when trapM_keeps fun _ => openTask_keeps.bind fun _ =>
    keeps_when keeps_throw fun _ => keeps_get fun _ _ => keeps_ite writeV_keeps <| keeps_ite writeV_keeps <| Keeps.bind (updAll_keeps (fun _ h =>
    sound_of_mem (reshape_mem ..) h)) fun _ => writeV_keeps

theorem twaitBody_keeps : Keeps twaitBody :=
  form_keeps.bind fun _ => keeps_get fun _ _ => keeps_when deferredFault_keeps fun _ => readyA_keeps.bind fun _ => needUniform_keeps.bind fun _ =>
    effMask_keeps.bind fun _ => keeps_ite keeps_pure <| readU_keeps.bind fun _ => keeps_get fun _ _ => keeps_when keeps_throw fun _ =>
    keeps_when deferredFault_keeps fun _ => keeps_ite keeps_pure keeps_throw

theorem tqryBody_keeps : Keeps tqryBody := by
  unfold tqryBody
  refine deferredFault_keeps.bind fun _ => form_keeps.bind fun _ => ?_
  extract_lets +onlyGivenNames jp
  have hjp : ∀ r, Keeps (jp r) := by
    refine fun _ => effMask_keeps.bind fun _ => keeps_ite keeps_pure ?_
    extract_lets +onlyGivenNames jp
    have hjp : ∀ r, Keeps (jp r) := fun _ => keeps_get fun _ _ => writeV_keeps
    exact keeps_ite (keeps_pure.bind hjp) <| readU_keeps.bind hjp
  exact keeps_ite (hjp ()) <| readyA_keeps.bind fun _ => needUniform_keeps.bind hjp

theorem yieldBody_keeps : Keeps yieldBody :=
  effMask_keeps.bind fun _ => keeps_ite keeps_pure <| keeps_get fun _ _ => keeps_ite (updAll_keeps (fun _ h => preempt_sound h)) keeps_pure

theorem sleepBody_keeps : Keeps sleepBody :=
  readyB_keeps.bind fun _ => needUniformB_keeps.bind fun _ => effMask_keeps.bind fun _ => keeps_ite upd_keeps <| uniformB_keeps.bind fun _ =>
    keeps_get fun _ _ => keeps_ite upd_keeps <| upd_keeps.bind fun _ => keeps_throw

theorem cropenBody_keeps : Keeps cropenBody :=
  form_keeps.bind fun _ => effMask_keeps.bind fun _ => keeps_ite keeps_pure <| keeps_get fun _ _ => keeps_when illegal_keeps fun _ =>
    getB_keeps.bind fun _ => keeps_when trapM_keeps fun _ => keeps_when keeps_throw fun _ => Keeps.bind (updS_keeps (fun _ h =>
    sound_of_mem rfl h)) fun _ => upd_keeps

theorem crcloseBody_keeps : Keeps crcloseBody := by
  unfold crcloseBody
  refine effMask_keeps.bind fun _ => keeps_ite keeps_pure <| keeps_get fun _ _ => ?_
  split
  · refine keeps_ite upd_keeps ?_
    split
    · exact keeps_ite upd_keeps illegal_keeps
    · exact illegal_keeps
  · exact keeps_ite upd_keeps illegal_keeps
  · exact illegal_keeps

theorem pairBody_keeps {value : Job → DWord} : Keeps (pairBody value) :=
  form_keeps.bind fun _ => effMask_keeps.bind fun _ => keeps_ite keeps_pure <| keeps_get fun _ _ => writeAll_keeps

theorem mapvBody_keeps : Keeps mapvBody :=
  form_keeps.bind fun _ => pairBody_keeps

theorem featBody_keeps : Keeps featBody :=
  form_keeps.bind fun _ => pairBody_keeps

theorem mapackBody_keeps : Keeps mapackBody :=
  form_keeps.bind fun _ => readyRun_keeps.bind fun _ => needUniform_keeps.bind fun _ => needUniform_keeps.bind fun _ => effMask_keeps.bind fun _ =>
    keeps_ite keeps_pure <| readU_keeps.bind fun _ => readU_keeps.bind fun _ => keeps_get fun _ _ => writeV_keeps.bind fun _ =>
    updS_keeps fun _ h => sound_of_mem (acknowledge_mem ..) h

theorem pmrdBody_keeps : Keeps pmrdBody := by
  unfold pmrdBody
  refine form_keeps.bind fun _ => effMask_keeps.bind fun _ => keeps_ite keeps_pure <| keeps_get fun _ _ => Keeps.bind (updS_keeps (fun _ h =>
    countTraffic_sound h)) fun _ => keeps_get fun _ _ => ?_
  split
  · exact keeps_pure
  · exact writeAll_keeps

theorem pmcfgBody_keeps : Keeps pmcfgBody := by
  unfold pmcfgBody
  refine form_keeps.bind fun _ => readyA_keeps.bind fun _ => needUniform_keeps.bind fun _ => effMask_keeps.bind fun _ => keeps_ite keeps_pure <|
    readU_keeps.bind fun _ => keeps_get fun _ _ => ?_
  split
  · exact keeps_pure
  · refine writeV_keeps.bind fun _ => keeps_ite (updS_keeps (fun _ h => ?_)) keeps_pure
    split
    · exact sound_of_mem rfl h
    · exact h

theorem progBody_keeps : Keeps progBody :=
  form_keeps.bind fun _ => effMask_keeps.bind fun _ => keeps_ite keeps_pure <| keeps_get fun _ _ => updAll_keeps (fun _ h =>
    traceOf_sound (count_sound (sound_of_mem (setCluster_mem ..) h)))

theorem nopBody_keeps : Keeps nopBody :=
  effMask_keeps.bind fun _ => keeps_pure

theorem issueAtoms_keeps {i : Issue} {es : List (WKind × Elem)} : Keeps (issueAtoms i es) := by
  unfold issueAtoms
  refine upd_keeps.bind fun _ => keeps_forM fun _ => launchAccess_keeps.bind fun _ => ?_
  split
  · exact updProd_keeps
  · exact keeps_pure

theorem atomBody_keeps {kind : X96 → AccKind} {n : Nat} : Keeps (atomBody kind n) :=
  form_keeps.bind fun _ => readyB_keeps.bind fun _ => readyRun_keeps.bind fun _ => effMask_keeps.bind fun _ => keeps_ite keeps_pure <|
    srcB_keeps.bind fun _ => getB_keeps.bind fun _ => checkAsks_keeps.bind fun _ => readRun_keeps.bind fun _ => Keeps.bind (keeps_forM fun _ =>
    prepLong_keeps) fun _ => freshIns_keeps.bind fun _ => startProducer_keeps.bind fun _ => issueAtoms_keeps

theorem redBody_keeps : Keeps redBody :=
  form_keeps.bind fun _ => readyB_keeps.bind fun _ => Keeps.bind (keeps_forM fun _ => ready_keeps) fun _ => effMask_keeps.bind fun _ =>
    keeps_ite keeps_pure <| srcB_keeps.bind fun _ => getB_keeps.bind fun _ => checkAsks_keeps.bind fun _ => readRun_keeps.bind fun _ =>
    freshIns_keeps.bind fun _ => issueAtoms_keeps

theorem fenceBody_keeps : Keeps fenceBody :=
  form_keeps.bind fun _ => effMask_keeps.bind fun _ => keeps_ite keeps_pure <| launchAccess_keeps.bind fun _ => keeps_pure

theorem publishBody_keeps : Keeps publishBody := by
  unfold publishBody
  refine form_keeps.bind fun _ => effMask_keeps.bind fun _ => keeps_ite keeps_pure <| getB_keeps.bind fun _ => checkAsks_keeps.bind fun _ =>
    keeps_get fun _ _ => ?_
  split
  · exact keeps_ite trapWith_keeps <| Keeps.bind (updS_keeps (fun _ h => sound_of_mem (bump_mem ..) h)) fun _ => launchAccess_keeps.bind fun _ =>
      keeps_pure
  · exact keeps_pure

theorem fpBody_keeps {three : Bool} {op : X96 → List FVal → FVal} : Keeps (fpBody three op) := by
  unfold fpBody
  refine form_keeps.bind fun _ => readyA_keeps.bind fun _ => readyB_keeps.bind fun _ => keeps_when readyC_keeps fun _ => effMask_keeps.bind fun _ =>
    keeps_ite keeps_pure <| srcA_keeps.bind fun _ => srcB_keeps.bind fun _ => ?_
  extract_lets +onlyGivenNames jp
  have hjp : ∀ r, Keeps (jp r) := fun _ => srState_keeps.bind fun _ => checkedWrite_keeps
  exact keeps_ite (srcC_keeps.bind fun _ => keeps_pure.bind hjp) <| keeps_pure.bind hjp

theorem fminmaxBody_keeps {isMax : Bool} : Keeps (fminmaxBody isMax) :=
  form_keeps.bind fun _ => readyA_keeps.bind fun _ => readyB_keeps.bind fun _ => effMask_keeps.bind fun _ => keeps_ite keeps_pure <|
    srcA_keeps.bind fun _ => srcB_keeps.bind fun _ => checkedWrite_keeps

theorem fcmpBody_keeps : Keeps fcmpBody := by
  unfold fcmpBody
  refine form_keeps.bind fun _ => readyA_keeps.bind fun _ => readyB_keeps.bind fun _ => effMask_keeps.bind fun _ => keeps_ite keeps_pure <|
    srcA_keeps.bind fun _ => srcB_keeps.bind fun _ => shadowCheck_keeps.bind fun _ => ?_
  split
  · exact kwrite_keeps
  · exact kwrite_keeps

theorem fnegBody_keeps : Keeps fnegBody :=
  form_keeps.bind fun _ => unaryBody_keeps

theorem fabsBody_keeps : Keeps fabsBody :=
  form_keeps.bind fun _ => unaryBody_keeps

theorem oldD_keeps : Keeps oldD :=
  form_keeps.bind fun _ => readV_keeps

theorem cvtBody_keeps : Keeps cvtBody := by
  unfold cvtBody
  refine form_keeps.bind fun _ => readyA_keeps.bind fun _ => keeps_when ready_keeps fun _ => effMask_keeps.bind fun _ => keeps_ite keeps_pure <|
    srcA_keeps.bind fun _ => ?_
  extract_lets +onlyGivenNames jp
  have hjp : ∀ r, Keeps (jp r) := fun _ => srState_keeps.bind fun _ => keeps_ite checkedWrite_keeps writeV_keeps
  exact keeps_ite (oldD_keeps.bind fun _ => keeps_pure.bind hjp) <| keeps_pure.bind hjp

theorem cvtdBody_keeps : Keeps cvtdBody :=
  form_keeps.bind fun _ => readyA_keeps.bind fun _ => readyB_keeps.bind fun _ => effMask_keeps.bind fun _ => keeps_ite keeps_pure <|
    srcA_keeps.bind fun _ => srcB_keeps.bind fun _ => srState_keeps.bind fun _ => keeps_ite checkedWrite_keeps writeV_keeps

theorem cvtqBody_keeps : Keeps cvtqBody := by
  unfold cvtqBody
  refine form_keeps.bind fun _ => readyA_keeps.bind fun _ => readyB_keeps.bind fun _ => ready_keeps.bind fun _ => effMask_keeps.bind fun _ =>
    keeps_ite keeps_pure <| srcA_keeps.bind fun _ => srcB_keeps.bind fun _ => oldD_keeps.bind fun _ => srState_keeps.bind fun _ => ?_
  extract_lets +onlyGivenNames e t1 jp
  have hjp : ∀ r, Keeps (jp r) := fun _ => keeps_ite amaxUpdate_keeps keeps_pure
  exact keeps_ite (checkedWrite_keeps.bind hjp) <| writeV_keeps.bind hjp

theorem amaxBody_keeps : Keeps amaxBody :=
  form_keeps.bind fun _ => readyA_keeps.bind fun _ => effMask_keeps.bind fun _ => keeps_ite keeps_pure <| srcA_keeps.bind fun _ => amaxUpdate_keeps

theorem amgetBody_keeps : Keeps amgetBody := by
  unfold amgetBody
  refine form_keeps.bind fun _ => effMask_keeps.bind fun _ => keeps_ite keeps_pure <| keeps_get fun _ _ => ?_
  split
  · exact keeps_pure
  · exact keeps_when writeAll_keeps fun _ => keeps_ite (updS_keeps (fun _ h => sound_of_mem rfl h)) keeps_pure

end Sys2Proof.Machine
end

section
/-!
PROOF. Instructions, events, moves and steps keep the canonical form (O59).
-/

namespace Sys2Proof.Machine

open Safety (Sound)

variable {s : State}

/-- An outcome whose next state, where it has one, has its memory in canonical form. -/
def NextSound (o : Host.Outcome State Fault Refusal) : Prop :=
  ∀ t, o = .next t → Sound t

theorem nextSound_next {t : State} (h : Sound t) : NextSound (.next t) := by
  rintro _ ⟨⟩
  exact h

theorem nextSound_fault {f : Fault} : NextSound (.fault f) := by
  rintro _ ⟨⟩

theorem runM_sound {f : Form} {act : M Unit} (hact : Keeps act) (h : Sound s) : NextSound (runM f act s) := by
  unfold runM
  split
  · exact nextSound_fault
  · split
    · exact nextSound_fault
    · split
      · exact nextSound_next h
      · exact nextSound_next (settle_sound (hact.sound _ ⟨h, h⟩) h)

theorem run_sound {f : Form} {body : M Unit} (hbody : Keeps body) (h : Sound s) : NextSound (run f body s) :=
  runM_sound (prelude_keeps.bind fun _ => hbody) h

theorem execUdf_sound {w : Word} (h : Sound s) : NextSound (execUdf w s) :=
  runM_sound trapM_keeps h

theorem execNonInstruction_sound {w : Word} (h : Sound s) : NextSound (execNonInstruction w s) :=
  runM_sound trapM_keeps h

theorem execContainmentUnwind_sound {strand : Nat} (h : Sound s) : NextSound (execContainmentUnwind strand s) := by
  refine nextSound_next ?_
  split
  · exact h
  · split
    · exact sound_ite (deliver_sound h) h
    · exact h

theorem execLevelRise_sound {launch team : Nat} (h : Sound s) : NextSound (execLevelRise launch team s) := by
  refine nextSound_next ?_
  split
  · exact sound_ite (sound_of_mem rfl h) h
  · split
    · exact sound_ite (sound_of_mem rfl h) h
    · exact h

theorem execPreemptTimeout_sound {strand : Nat} (h : Sound s) : NextSound (execPreemptTimeout strand s) := by
  refine nextSound_next ?_
  split
  · exact h
  · split
    · extract_lets +onlyGivenNames preempting
      exact sound_ite (groupFault_sound h) h
    · exact h

theorem execSleepWake_sound {strand : Nat} (h : Sound s) : NextSound (execSleepWake strand s) := by
  refine nextSound_next ?_
  split
  · exact h
  · split
    · exact sound_ite (sound_of_mem rfl h) h
    · exact h

theorem execOperatingPointChange_sound {island : Nat} (h : Sound s) : NextSound (execOperatingPointChange island s) :=
  nextSound_next (sound_ite (sound_of_mem rfl h) h)

theorem execPhaserPoll_sound {strand : Nat} (h : Sound s) : NextSound (execPhaserPoll strand s) := by
  refine nextSound_next ?_
  split
  · exact sound_of_mem rfl h
  · exact h

theorem execEqheadWrite_sound {func ctx : Nat} {value : BitVec 32} (h : Sound s) : NextSound (execEqheadWrite func ctx value s) := by
  refine nextSound_next ?_
  split
  · exact sound_of_mem rfl h
  · exact h

theorem execBandPowerUp_sound {cluster band : Nat} (h : Sound s) : NextSound (execBandPowerUp cluster band s) :=
  nextSound_next (sound_of_mem (setCluster_mem ..) h)

theorem execChargeGrant_sound {cluster : Nat} (h : Sound s) : NextSound (execChargeGrant cluster s) := by
  refine nextSound_next ?_
  split
  · exact sound_ite (sound_of_mem (grant_mem ..) h) h
  · exact h

theorem execMapAcknowledge_sound {func ctx : Nat} {n : DWord} (h : Sound s) : NextSound (execMapAcknowledge func ctx n s) := by
  refine nextSound_next ?_
  split
  · exact sound_of_mem (acknowledge_mem ..) h
  · exact h

theorem execGraceExpiry_sound {ctx : Nat} (h : Sound s) : NextSound (execGraceExpiry ctx s) := by
  refine nextSound_next ?_
  split
  · exact h
  · split
    · exact sound_ite (suspend_sound h) h
    · exact h

theorem execCounterClaim_sound {func ctx n : Nat} (h : Sound s) : NextSound (execCounterClaim func ctx n s) := by
  refine nextSound_next ?_
  split
  · exact sound_ite (sound_of_mem rfl h) h
  · exact h

theorem execCounterRelease_sound {func ctx n : Nat} (h : Sound s) : NextSound (execCounterRelease func ctx n s) := by
  refine nextSound_next ?_
  split
  · exact sound_of_mem rfl h
  · exact h

theorem execKernelUnload_sound {ctx base : Nat} (h : Sound s) : NextSound (execKernelUnload ctx base s) := by
  refine nextSound_next ?_
  split
  · exact sound_of_mem rfl h
  · exact h

theorem execAttestationReport_sound {func : Nat} {nonce : List Byte} (h : Sound s) : NextSound (execAttestationReport func nonce s) := by
  refine nextSound_next ?_
  split
  · exact sound_of_mem rfl h
  · exact h

theorem execDeviceReset_sound (h : Sound s) : NextSound (execDeviceReset s) :=
  nextSound_next (filter_wf _ h)

theorem execHostLinkInit_sound {link : Nat} {hot : Bool} (h : Sound s) : NextSound (execHostLinkInit link hot s) := by
  refine nextSound_next ?_
  split
  · exact sound_ite (sound_of_mem rfl h) (sound_ite (sound_of_mem rfl h) h)
  · exact h

theorem execPeerEnable_sound {func port : Nat} (h : Sound s) : NextSound (execPeerEnable func port s) := by
  refine nextSound_next ?_
  split
  · exact sound_ite (sound_of_mem rfl h) h
  · exact h

theorem execPeerDisable_sound {func port : Nat} (h : Sound s) : NextSound (execPeerDisable func port s) := by
  refine nextSound_next ?_
  split
  · exact sound_ite (publishLinks_sound h) h
  · exact h

theorem execLinkTrainTimeout_sound {link : Nat} (h : Sound s) : NextSound (execLinkTrainTimeout link s) := by
  refine nextSound_next ?_
  split
  · exact sound_ite (publishLinks_sound h) h
  · exact h

theorem execClassWeightSet_sound {func cluster cls weight : Nat} (h : Sound s) : NextSound (execClassWeightSet func cluster cls weight s) := by
  refine nextSound_next ?_
  split
  · extract_lets +onlyGivenNames c
    exact sound_of_mem (setCluster_mem ..) h
  · exact h

/-- Every instruction and every event keeps memory in its canonical form. -/
theorem exec_sound (i : Instr) (h : Sound s) : NextSound (exec i s) :=
  match i with
  | .iadd _ | .iaddX96 _ | .isub _ | .isubX96 _ | .imul _ | .imulX96 _ | .imulh _ | .imulhX96 _ | .imin _ | .iminX96 _ | .imax _ | .imaxX96 _
  | .bfe _ | .bfeX96 _ => run_sound binaryX_keeps h
  | .imad _ => run_sound imadBody_keeps h
  | .and _ | .andX96 _ | .or _ | .orX96 _ | .xor _ | .xorX96 _ | .andn _ | .andnX96 _ | .shl _ | .shlX96 _ | .shr _ | .shrX96 _ | .sar _
  | .sarX96 _ | .lane _ | .laneX96 _ => run_sound binaryBody_keeps h
  | .ineg _ | .inegX96 _ | .not _ | .notX96 _ | .popc _ | .popcX96 _ | .clz _ | .clzX96 _ | .brev _ | .brevX96 _ | .mov _ | .movX96 _ | .frcp _
  | .frcpX96 _ | .frsq _ | .frsqX96 _ | .fsqrt _ | .fsqrtX96 _ | .fexp2 _ | .fexp2X96 _ | .flog2 _ | .flog2X96 _ | .fsin _ | .fsinX96 _ | .fcos _
  | .fcosX96 _ | .ftanh _ | .ftanhX96 _ | .fclass _ | .fclassX96 _ => run_sound unaryBody_keeps h
  | .iabs _ | .iabsX96 _ => run_sound unaryX_keeps h
  | .bfi _ => run_sound ternaryBody_keeps h
  | .icmp _ | .icmpX96 _ => run_sound icmpBody_keeps h
  | .isel _ | .iselX96 _ => run_sound iselBody_keeps h
  | .badd _ | .baddX96 _ => run_sound baddBody_keeps h
  | .bmov _ | .bmovX96 _ => run_sound bmovBody_keeps h
  | .bget _ | .bgetX96 _ => run_sound bgetBody_keeps h
  | .blit _ => run_sound blitBody_keeps h
  | .movi _ => run_sound moviBody_keeps h
  | .shape _ | .shapeX96 _ => run_sound shapeBody_keeps h
  | .shapea _ | .shapeaX96 _ => run_sound shapeaBody_keeps h
  | .shapef _ | .shapefX96 _ => run_sound shapefBody_keeps h
  | .sqz _ | .sqzX96 _ => run_sound sqzBody_keeps h
  | .bcast _ | .bcastX96 _ => run_sound bcastBody_keeps h
  | .shfl _ | .shflX96 _ => run_sound shflBody_keeps h
  | .vote _ | .voteX96 _ => run_sound voteBody_keeps h
  | .lred _ | .lredX96 _ => run_sound lredBody_keeps h
  | .gid _ | .gidX96 _ => run_sound gidBody_keeps h
  | .kand _ | .kandX96 _ | .kor _ | .korX96 _ | .kxor _ | .kxorX96 _ | .kandn _ | .kandnX96 _ => run_sound kopBody_keeps h
  | .knot _ | .knotX96 _ | .kmov _ | .kmovX96 _ => run_sound kop1Body_keeps h
  | .kset _ | .ksetX96 _ => run_sound ksetBody_keeps h
  | .kpop _ | .kpopX96 _ => run_sound kpopBody_keeps h
  | .kget _ | .kgetX96 _ => run_sound kgetBody_keeps h
  | .fadd _ | .faddX96 _ | .fsub _ | .fsubX96 _ | .fmul _ | .fmulX96 _ | .ffma _ | .ffmaX96 _ => run_sound fpBody_keeps h
  | .fmin _ | .fminX96 _ | .fmax _ | .fmaxX96 _ => run_sound fminmaxBody_keeps h
  | .fcmp _ | .fcmpX96 _ => run_sound fcmpBody_keeps h
  | .fneg _ | .fnegX96 _ => run_sound fnegBody_keeps h
  | .fabs _ | .fabsX96 _ => run_sound fabsBody_keeps h
  | .cvt _ | .cvtX96 _ => run_sound cvtBody_keeps h
  | .cvtq _ => run_sound cvtqBody_keeps h
  | .cvtd _ | .cvtdX96 _ => run_sound cvtdBody_keeps h
  | .amax _ | .amaxX96 _ => run_sound amaxBody_keeps h
  | .amget _ | .amgetX96 _ => run_sound amgetBody_keeps h
  | .jmp _ => run_sound jmpBody_keeps h
  | .call _ => run_sound callBody_keeps h
  | .br _ => run_sound brBody_keeps h
  | .bru _ => run_sound bruBody_keeps h
  | .join _ | .joinX96 _ => run_sound joinBody_keeps h
  | .yieldp | .yieldpX96 => run_sound yieldpBody_keeps h
  | .ret _ | .retX96 _ => run_sound retBody_keeps h
  | .jmpi _ | .jmpiX96 _ => run_sound jmpiBody_keeps h
  | .calli _ | .calliX96 _ => run_sound calliBody_keeps h
  | .fcall _ => run_sound fcallBody_keeps h
  | .exit _ | .exitX96 _ => run_sound exitBody_keeps h
  | .jget _ | .jgetX96 _ => run_sound jgetBody_keeps h
  | .jput _ => run_sound jputBody_keeps h
  | .trap _ | .trapX96 _ => run_sound trapBody_keeps h
  | .thret _ | .thretX96 _ => run_sound thretBody_keeps h
  | .ld _ | .ldX96 _ => run_sound ldBody_keeps h
  | .st _ | .stX96 _ => run_sound stBody_keeps h
  | .lds _ | .ldsX96 _ => run_sound ldsBody_keeps h
  | .sts _ | .stsX96 _ => run_sound stsBody_keeps h
  | .ldp _ | .ldpX96 _ => run_sound ldpBody_keeps h
  | .stp _ | .stpX96 _ => run_sound stpBody_keeps h
  | .ldf _ | .ldfX96 _ | .ldfk _ | .ldfkX96 _ => run_sound ldfBody_keeps h
  | .stf _ | .stfX96 _ => run_sound stfBody_keeps h
  | .feset _ | .fesetX96 _ => run_sound fesetBody_keeps h
  | .ldt _ | .ldtX96 _ => run_sound ldtBody_keeps h
  | .stct _ => run_sound stctBody_keeps h
  | .stz _ | .stzX96 _ => run_sound stzBody_keeps h
  | .ldz _ | .ldzX96 _ => run_sound ldzBody_keeps h
  | .pref _ | .prefX96 _ => run_sound prefBody_keeps h
  | .cwb _ | .cwbX96 _ => run_sound cwbBody_keeps h
  | .atom _ | .acas _ => run_sound atomBody_keeps h
  | .red _ | .redX96 _ => run_sound redBody_keeps h
  | .fence _ | .fenceX96 _ => run_sound fenceBody_keeps h
  | .xfence _ => run_sound xfenceBody_keeps h
  | .publish _ | .publishX96 _ => run_sound publishBody_keeps h
  | .chunk _ | .chunkX96 _ => run_sound chunkBody_keeps h
  | .launch _ | .launchX96 _ => run_sound launchBody_keeps h
  | .bar _ | .barX96 _ => run_sound barBody_keeps h
  | .phreg _ => run_sound phregBody_keeps h
  | .phdrop _ => run_sound phdropBody_keeps h
  | .phsig _ => run_sound phsigBody_keeps h
  | .phwait _ => run_sound phwaitBody_keeps h
  | .phsw _ => run_sound phswBody_keeps h
  | .phq _ => run_sound phqBody_keeps h
  | .rdef _ => run_sound rdefBody_keeps h
  | .racq _ => run_sound racqBody_keeps h
  | .rpub _ => run_sound rpubBody_keeps h
  | .rget _ => run_sound rgetBody_keeps h
  | .rrel _ => run_sound rrelBody_keeps h
  | .cpy _ => run_sound cpyBody_keeps h
  | .cpyw _ => run_sound cpywBody_keeps h
  | .wld _ | .wldX96 _ | .mdrain _ => run_sound enterTask_keeps h
  | .wswap _ => run_sound wswapBody_keeps h
  | .mma _ => run_sound mmaBody_keeps h
  | .ashape _ => run_sound ashapeBody_keeps h
  | .twait _ => run_sound twaitBody_keeps h
  | .tqry _ => run_sound tqryBody_keeps h
  | .yield _ | .yieldX96 _ => run_sound yieldBody_keeps h
  | .sleep _ => run_sound sleepBody_keeps h
  | .cropen _ => run_sound cropenBody_keeps h
  | .crclose _ => run_sound crcloseBody_keeps h
  | .mapv _ => run_sound mapvBody_keeps h
  | .mapack _ => run_sound mapackBody_keeps h
  | .feat _ => run_sound featBody_keeps h
  | .clk _ => run_sound pairBody_keeps h
  | .pmrd _ => run_sound pmrdBody_keeps h
  | .pmcfg _ => run_sound pmcfgBody_keeps h
  | .prog _ => run_sound progBody_keeps h
  | .udf _ => execUdf_sound h
  | .nonInstruction _ => execNonInstruction_sound h
  | .nop _ | .nopX96 _ => run_sound nopBody_keeps h
  | .producerComplete _ => nextSound_next (sound_of_mem (completeProducer_mem ..) h)
  | .trapDelivery _ => nextSound_next (sound_ite h (deliver_sound h))
  | .mapTrapDelivery _ => nextSound_next (mapTrap_sound h)
  | .containmentUnwind _ => execContainmentUnwind_sound h
  | .strandExited _ => nextSound_next (strandExit_sound h)
  | .forkResolution _ => nextSound_next (resolve_sound h)
  | .teamPlace _ _ _ => nextSound_next (teamPlace_sound h)
  | .levelRise _ _ => execLevelRise_sound h
  | .priorityPreempt _ _ _ => nextSound_next (priorityPreempt_sound h)
  | .preemptTimeout _ => execPreemptTimeout_sound h
  | .groupSave _ => nextSound_next (groupSave_sound h)
  | .sleepWake _ => execSleepWake_sound h
  | .operatingPointChange _ => execOperatingPointChange_sound h
  | .phaserPoll _ => execPhaserPoll_sound h
  | .accessPerformed _ | .releaseWritePerformed _ | .publishIncrement _ => nextSound_next (performIf_sound h)
  | .firstTouch _ _ => nextSound_next (firstTouch_sound h)
  | .hostApertureWrite _ _ _ _ => nextSound_next (apertureWrite_sound h)
  | .hostApertureRead _ _ _ _ => nextSound_next (apertureRead_sound h)
  | .peerDmaTransfer _ _ _ _ _ => nextSound_next (peerDma_sound h)
  | .queueDoorbell _ _ _ _ | .queueCtrlEnable _ _ _ | .queueCtrlDisable _ _ _ | .queueCtrlResume _ _ _ | .queueCtrlReset _ _ _
  | .queueCtrlDevsub _ _ _ _ | .registerWrite _ _ _ _ _ => nextSound_next (sound_of_mem (hostQueue_mem ..) h)
  | .eqheadWrite _ _ _ => execEqheadWrite_sound h
  | .queueFetch _ _ => nextSound_next (queueFetch_sound h)
  | .launchEntry _ _ => nextSound_next (launchEntry_sound h)
  | .waitEntry _ _ => nextSound_next (waitEntry_sound h)
  | .waitSatisfied _ _ => nextSound_next (waitSatisfied_sound h)
  | .signalEntry _ _ => nextSound_next (signalEntry_sound h)
  | .signalWrite _ _ => nextSound_next (signalWrite_sound h)
  | .windowUpdateEntry _ _ => nextSound_next (windowUpdateEntry_sound h)
  | .remapEntry _ _ => nextSound_next (remapEntry_sound h)
  | .unplaceEntry _ _ => nextSound_next (unplaceEntry_sound h)
  | .frameEntry _ _ => nextSound_next (frameEntry_sound h)
  | .mappingDrainComplete _ => nextSound_next (mappingDrain_sound h)
  | .copyComplete _ => nextSound_next (copyStep_sound h)
  | .taskIssue _ _ => nextSound_next (taskIssue_sound h)
  | .taskRetire _ _ => nextSound_next (taskRetire_sound h)
  | .bandPowerUp _ _ => execBandPowerUp_sound h
  | .chargeGrant _ => execChargeGrant_sound h
  | .chargeRefill _ => nextSound_next (sound_of_mem (chargeRefill_mem ..) h)
  | .thermalThrottle _ _ => nextSound_next (sound_of_mem (thermalThrottle_mem ..) h)
  | .thermalRelease _ _ => nextSound_next (sound_of_mem (thermalRelease_mem ..) h)
  | .thermalCritical _ _ => nextSound_next (thermalCritical_sound h)
  | .contextCreate _ _ _ => nextSound_next (sound_of_mem (contextCreate_mem ..) h)
  | .contextEnable _ _ => nextSound_next (contextEnable_sound h)
  | .contextSuspend _ _ => nextSound_next (contextSuspend_sound h)
  | .contextResume _ _ => nextSound_next (contextResume_sound h)
  | .contextDestroy _ _ => nextSound_next (settleDestroy_sound (contextDestroy_sound h))
  | .mapAcknowledge _ _ _ => execMapAcknowledge_sound h
  | .sliceExpiry => nextSound_next (settleWorld_sound (sliceExpiry_sound h))
  | .graceExpiry _ => execGraceExpiry_sound h
  | .counterClaim _ _ _ => execCounterClaim_sound h
  | .counterRelease _ _ _ => execCounterRelease_sound h
  | .traceEnable _ _ _ _ => nextSound_next (traceEnable_sound h)
  | .kernelLoad _ _ => nextSound_next (kernelLoad_sound h)
  | .kernelUnload _ _ => execKernelUnload_sound h
  | .errorDetected _ => nextSound_next (errorDetected_sound h)
  | .selfTestComplete _ _ => nextSound_next (selfTestComplete_sound h)
  | .replayCheck _ _ _ _ => nextSound_next (replayCheck_sound h)
  | .shadowSet _ _ => nextSound_next (sound_ite h (sound_ite (sound_of_mem rfl h) (publish_sound h)))
  | .attestationReport f _ => execAttestationReport_sound (func := f) h
  | .deviceReset => execDeviceReset_sound h
  | .bringupStageComplete _ _ _ => nextSound_next (bringupStage_sound h)
  | .bringupSelfTestComplete _ => nextSound_next (bringupSelfTest_sound h)
  | .hostLinkInit _ _ => execHostLinkInit_sound h
  | .peerEnable _ _ => execPeerEnable_sound h
  | .peerDisable _ _ => execPeerDisable_sound h
  | .linkTrained _ _ _ => nextSound_next (linkTrained_sound h)
  | .linkTrainTimeout _ => execLinkTrainTimeout_sound h
  | .linkRetrain _ => nextSound_next (linkRetrain_sound h)
  | .chargeTargetSet _ _ _ => nextSound_next (sound_ite (sound_of_mem (setCluster_mem ..) h) h)
  | .classWeightSet _ _ _ _ => execClassWeightSet_sound h
  | .thermalThresholdSet _ _ _ | .fabricCounterOwnerSet _ _ _ => nextSound_next (sound_ite (sound_of_mem rfl h) h)
  | .fabricCounterRead _ _ => nextSound_next (sound_of_mem (fabricRead_mem ..) h)
  | .pageTableRead _ _ => nextSound_next (sound_ite h (sound_ite (sound_of_mem rfl h) (sound_of_mem rfl h)))
  | .lullTrial _ _ _ _ => nextSound_next (sound_of_mem (lullTrial_mem ..) h)
  | .lullStepExpiry => nextSound_next (sound_of_mem (lullStep_mem ..) h)
  | .traceStop _ _ => nextSound_next (traceStop_sound h)

/-- The next state of an outcome, or the state before where it has none. -/
def nextOr (o : Host.Outcome State Fault Refusal) (s : State) : State :=
  match o with
  | .next t => t
  | _ => s

theorem NextSound.nextOr {o : Host.Outcome State Fault Refusal} (ho : NextSound o) (h : Sound s) : Sound (nextOr o s) := by
  unfold Machine.nextOr
  split
  · next t => exact ho t rfl
  · exact h

theorem barRead_sound {func off n : Nat} (h : Sound s) : Sound (s.barRead func off n) :=
  arrive_sound (fun _ hu => sound_of_mem (barReadNow_mem ..) hu) h

theorem barWrite_sound {func off : Nat} {bytes : List Byte} (h : Sound s) : Sound (s.barWrite func off bytes) :=
  arrive_sound (fun _ hu => sound_of_mem (barWriteNow_mem ..) hu) h

theorem serve_sound (t : Transfer) (h : Sound s) : Sound (s.serve t).1 := by
  unfold State.serve
  split
  · exact serveAccess_sound rfl h
  · exact serveAccess_sound rfl h
  · exact sound_of_mem (barWriteNow_mem ..) h
  · exact sound_of_mem (barReadNow_mem ..) h
  · next i _ =>
      dsimp only
      split
      · next u e => exact exec_sound i h u e
      · exact h

theorem settledAll_sound (h : Sound s) : Sound s.settledAll :=
  settled_sound (sound_ite h (drainHeld_sound (fun t _ hu => serve_sound t hu) h))

theorem nextSound_settleOut {o : Host.Outcome State Fault Refusal} (ho : NextSound o) : NextSound (settleOut o) := by
  cases o with
  | next t => exact nextSound_next (settledAll_sound (ho t rfl))
  | fault _ => exact ho
  | refused _ => exact ho

theorem issueMove_sound {id : Nat} (h : Sound s) : NextSound (s.issueMove id) := by
  unfold State.issueMove
  split
  · next t i e => exact nextSound_settleOut (exec_sound i (nextInstr_sound e h))
  · next t e => exact nextSound_next (settledAll_sound (nextInstr_sound e h))

theorem eventMove_sound {i : Instr} (h : Sound s) : NextSound (s.eventMove i) := by
  unfold State.eventMove
  split
  · exact nextSound_next h
  · split
    · dsimp only
      split
      · exact nextSound_next h
      · split
        · exact nextSound_next (sound_of_mem (hold_mem ..) h)
        · exact nextSound_settleOut (exec_sound i h)
    · exact nextSound_settleOut (exec_sound i h)

/-- Every move of the agenda keeps memory in its canonical form. -/
theorem move_sound (m : Move) (h : Sound s) : NextSound (s.move m) :=
  match m with
  | .issue _ => issueMove_sound h
  | .event _ => eventMove_sound h
  | .elapse _ => nextSound_next (settledAll_sound (elapse_sound h))
  | .evict _ _ => nextSound_next (settledAll_sound (l1Flush_sound _ _ h))
  | .giveUp _ => nextSound_next (settledAll_sound (sliceEvict_sound _ h))
  | .hostRing _ _ _ => nextSound_next (settledAll_sound (sound_of_mem (hostRing_mem ..) h))
  | .barRead _ _ _ => nextSound_next (settledAll_sound (barRead_sound h))
  | .barWrite _ _ _ => nextSound_next (settledAll_sound (barWrite_sound h))
  | .bar2Read _ _ _ _ => nextSound_next (settledAll_sound (bar2Read_sound h))
  | .bar2Write _ _ _ _ => nextSound_next (settledAll_sound (bar2Write_sound h))
  | .sriov _ => nextSound_next (settledAll_sound (sound_of_mem (sriov_mem ..) h))
  | .hostStore _ _ => nextSound_next (settledAll_sound (hostStore_sound h))
  | .mapWrite => nextSound_next (settledAll_sound (sound_of_mem (mapWriteStep_mem ..) h))
  | .corrected _ => nextSound_next (settledAll_sound (sound_of_mem (linkCorrected_mem ..) h))

/-- Each function of the list keeps memory in its canonical form. -/
def AllSound (fs : List (State → State)) : Prop :=
  ∀ f ∈ fs, ∀ t, Sound t → Sound (f t)

theorem AllSound.append {fs gs : List (State → State)} (hf : AllSound fs) (hg : AllSound gs) : AllSound (fs ++ gs) :=
  List.forall_mem_append.2 ⟨hf, hg⟩

theorem allSound_map {α : Type} {l : List α} {g : α → State → State} (hg : ∀ a t, Sound t → Sound (g a t)) : AllSound (l.map g) :=
  List.forall_mem_map.2 fun a _ => hg a

theorem allSound_flatMap {α : Type} {l : List α} {g : α → List (State → State)} (hg : ∀ a, AllSound (g a)) : AllSound (l.flatMap g) := by
  intro f hf
  obtain ⟨a, -, hfa⟩ := List.mem_flatMap.1 hf
  exact hg a f hfa

theorem allSound_nil : AllSound [] := by
  rintro f ⟨⟩

theorem AllSound.cons {f : State → State} {fs : List (State → State)} (hfs : AllSound fs) (hf : ∀ t, Sound t → Sound (f t)) : AllSound (f :: fs) :=
  List.forall_mem_cons.2 ⟨hf, hfs⟩

theorem firstOf_sound {t : State} {fs : List (State → State)} (hfs : AllSound fs) (e : s.firstOf fs = some t) (h : Sound s) : Sound t := by
  obtain ⟨f, hf, e⟩ := List.exists_of_findSome?_eq_some e
  dsimp only at e
  split at e
  · cases e
  · cases e
    exact hfs f hf s h

theorem attempts_sound : AllSound s.attempts := by
  unfold State.attempts
  repeat' apply AllSound.append
  · exact allSound_map fun _ _ h => performIf_sound h
  · exact allSound_map fun _ _ h => sound_of_mem (completeProducer_mem ..) h
  · exact allSound_map fun _ _ h => sound_ite h (deliver_sound h)
  · exact allSound_map fun _ _ h => strandExit_sound h
  · exact allSound_map fun _ _ h => resolve_sound h
  · exact allSound_map fun _ _ h => copyStep_sound h
  · exact allSound_flatMap fun _ => allSound_flatMap fun _ =>
      (allSound_nil.cons fun _ h => taskIssue_sound h).cons fun _ h => taskRetire_sound h
  · exact allSound_map fun _ _ h => (execChargeGrant_sound h).nextOr h
  · exact allSound_flatMap fun _ => allSound_flatMap fun _ => allSound_nil
      |>.cons (fun _ h => queueFetch_sound h)
      |>.cons (fun _ h => frameEntry_sound h)
      |>.cons (fun _ h => unplaceEntry_sound h)
      |>.cons (fun _ h => remapEntry_sound h)
      |>.cons (fun _ h => windowUpdateEntry_sound h)
      |>.cons (fun _ h => signalWrite_sound h)
      |>.cons (fun _ h => signalEntry_sound h)
      |>.cons (fun _ h => waitSatisfied_sound h)
      |>.cons (fun _ h => waitEntry_sound h)
      |>.cons (fun _ h => launchEntry_sound h)
  · exact allSound_map fun _ _ h => mappingDrain_sound h
  · exact allSound_nil.cons fun _ h => sound_of_mem (mapWriteStep_mem ..) h
  · exact allSound_nil.cons fun _ h => leaseAll_sound h
  · refine allSound_map fun _ t h => ?_
    split
    · exact teamPlace_sound h
    · exact h
  · exact allSound_map fun _ _ h => groupSave_sound h

theorem timed_sound : AllSound s.timed := by
  unfold State.timed
  repeat' apply AllSound.append
  · exact allSound_map fun _ _ h => sound_ite (sound_of_mem (chargeRefill_mem ..) h) h
  · exact allSound_flatMap fun _ => allSound_map fun _ _ h => (execBandPowerUp_sound h).nextOr h
  · exact allSound_map fun _ _ h => (execSleepWake_sound h).nextOr h
  · exact allSound_map fun _ _ h => sound_of_mem rfl h
  · exact allSound_map fun _ _ h => (execPreemptTimeout_sound h).nextOr h
  · exact allSound_map fun _ _ h => (execLevelRise_sound h).nextOr h
  · exact allSound_flatMap fun _ => allSound_map fun _ _ h => priorityPreempt_sound h
  · exact (allSound_nil.cons fun _ h => sound_of_mem (lullStep_mem ..) h).cons fun _ h => sliceExpiry_sound h
  · exact allSound_map fun _ _ h => (execGraceExpiry_sound h).nextOr h
  · exact allSound_map fun _ _ h => (execLinkTrainTimeout_sound h).nextOr h
  · exact allSound_map fun _ _ h => (execOperatingPointChange_sound h).nextOr h

theorem defaultMove_sound (h : Sound s) : NextSound s.defaultMove := by
  unfold State.defaultMove
  split
  · next t e => exact nextSound_next (settledAll_sound (firstOf_sound attempts_sound e h))
  · split
    · next t e => exact nextSound_next (settledAll_sound (firstOf_sound timed_sound e h))
    · split
      · next o e =>
          obtain ⟨id, -, e⟩ := List.exists_of_findSome?_eq_some e
          have hid : NextSound (s.issueMove id) := issueMove_sound h
          split at e
          · next t ht =>
              split at e
              · cases e
                exact nextSound_next (settledAll_sound (elapse_sound (hid t ht)))
              · cases e
          · cases e
            exact hid
      · exact nextSound_next (settledAll_sound (elapse_sound h))

theorem step_sound (h : Sound s) : NextSound (step s) := by
  unfold step
  split
  · next m rest _ => exact move_sound m (sound_of_mem rfl h)
  · exact defaultMove_sound h

/-- Settles O59: every write to memory goes through an operation that keeps the canonical form, and everything else a step does leaves memory as it
was. -/
theorem memoryStaysCanonical : Obligations.MemoryStaysCanonical := by
  unfold Obligations.MemoryStaysCanonical
  exact fun _ t h e => step_sound h t e

end Sys2Proof.Machine
end

section
/-!
PROOF. The commands of observation (R200, R436, R472, R481): page-table entries as the host reads them, fabric counters and Lull trials (O36).
-/

namespace Sys2Proof.Machine

variable {s : State}

/-- The count of PROG points of a trial is the sum of the functions it counts. -/
theorem progCount_eq_sum (progs : List (Nat × Nat)) (func : Nat) :
    progCount progs func = ((progs.filter fun p => func = 0 || p.1 = func).map Prod.snd).sum := by
  rw [progCount, List.sum_eq_foldl, List.foldl_map]

theorem bits_eq (p : Pte) :
    p.bits = p.state % 4 + (if p.host then 4 else 0) + 16 * (p.leases % 2 ^ 16) + 2 ^ 24 * (p.frame % 2 ^ 36) := by
  unfold Pte.bits
  split <;> rfl

theorem fabricOwnerSet_observed {func n owner : Nat} {t : State} (h : s.hostServed = true)
    (ht : observeRule s (.fabricCounterOwnerSet func n owner) = some t) : exec (.fabricCounterOwnerSet func n owner) s = .next t := by
  simp only [observeRule] at ht
  split at ht
  · next hc =>
      cases ht
      obtain ⟨hf, ho⟩ := hc
      exact congrArg Host.Outcome.next (if_pos (by simp [hf, h, ho]))
  · cases ht

theorem fabricRead_observed {func n : Nat} {t : State} (h : s.hostServed = true)
    (ht : observeRule s (.fabricCounterRead func n) = some t) : exec (.fabricCounterRead func n) s = .next t := by
  cases ht
  exact congrArg Host.Outcome.next (if_neg (by simp [h]))

theorem pageTableRead_observed {func ia : Nat} {t : State} (h : s.hostServed = true)
    (ht : observeRule s (.pageTableRead func ia) = some t) : exec (.pageTableRead func ia) s = .next t := by
  cases ht
  refine congrArg Host.Outcome.next ((if_neg (by simp [h])).trans ?_)
  simp only [State.pteRead, bits_eq]
  rfl

theorem lullTrial_observed {func ms : Nat} {cls fs : List Nat} {t : State} (h : s.hostServed = true)
    (ht : observeRule s (.lullTrial func cls fs ms) = some t) : exec (.lullTrial func cls fs ms) s = .next t := by
  simp only [observeRule] at ht
  split at ht
  · next hc =>
      cases ht
      obtain ⟨hf, hl, hcl, hlen, hlen', hfs, hms, hms'⟩ := hc
      exact congrArg Host.Outcome.next (if_pos (by simpa [hf, h, hl, hlen, hlen', hms, hms'] using ⟨hcl, hfs⟩))
  · cases ht

theorem lullStep_eq {l : Lull} (hl : s.dev.lull = some l) (hover : l.since + 1000000 * l.ms ≤ s.now) : s.lullStep = lullNext s l := by
  simp only [State.lullStep, hl, if_neg (Nat.not_lt.2 hover), lullNext, progCount_eq_sum]
  rfl

/-- Settles O36: each command that observeRule answers is exec of that command with its conditions met, and a step that is over is lullNext. -/
theorem observation : Obligations.Observation := by
  unfold Obligations.Observation
  refine ⟨fun s i t h ht => ?_, fun s l hl hover => congrArg Host.Outcome.next (lullStep_eq hl hover)⟩
  unfold observeRule at ht
  split at ht
  · exact fabricOwnerSet_observed h ht
  · exact fabricRead_observed h ht
  · exact pageTableRead_observed h ht
  · exact lullTrial_observed h ht
  · cases ht

end Sys2Proof.Machine
end

section
/-!
PROOF. Pages (R201-R203, R206): mapping changes that have drained (O41), and first touches (O42).
-/

namespace Sys2Proof.Machine

variable {s : State}

theorem l1FlushRange_empty (h : s.l1 = []) (lo hi : Nat) : s.l1FlushRange lo hi = s := by
  simp [State.l1FlushRange, h]

theorem flushRange_empty (hl1 : s.l1 = []) (hzero : s.zeroLines = []) (lo hi : Nat) : s.flushRange lo hi = s := by
  have hlines : (s.zeroLines.filter fun l => !(lineOf lo ≤ l && l ≤ lineOf hi)) = s.zeroLines := by simp [hzero]
  unfold State.flushRange
  rw [l1FlushRange_empty hl1]
  dsimp only
  rw [hlines]

theorem leaseOwed_none {t : Team} (h : t.owed = []) : s.leaseOwed t = s := by
  unfold State.leaseOwed
  split <;> simp [h]

theorem foldl_still {α β : Type} {f : β → α → β} {b : β} {l : List α} (h : ∀ a ∈ l, f b a = b) : l.foldl f b = b :=
  match l with
  | [] => rfl
  | a :: l => by
    rw [List.foldl_cons, h a (by simp)]
    exact foldl_still fun x hx => h x (by simp [hx])

theorem leaseAll_noWaits (h : NoWaits s) : s.leaseAll = s := by
  obtain ⟨hlaunches, hteams⟩ := h
  have hnone : (s.launches.filter fun l => !l.waiting.isEmpty) = [] := by
    simpa using hlaunches
  unfold State.leaseAll
  rw [hnone]
  exact foldl_still fun t ht => leaseOwed_none (hteams t ht)

theorem leaseNamed_named {c : Ctx} (hc : s.ctx? c.id = some c) (h : LeasesNamed s c) : s.leaseNamed c.id = s := by
  unfold State.leaseNamed
  rw [hc]
  refine foldl_still fun page hpage => ?_
  obtain ⟨hmem, hmaps⟩ := List.mem_filter.1 hpage
  have hnone : (s.launches.filter fun l => l.ctx == c.id && !l.pages.contains page) = [] := by
    simpa using fun l hl hctx => h page hmem hmaps l hl hctx
  rw [hnone]
  rfl

theorem inPage_iff {page a : Nat} : (65536 * page ≤ a ∧ a < 65536 * page + 65536) ↔ pageOf a = page := by
  unfold pageOf
  omega

theorem cells_outside (m : Memory) (page : Nat) :
    (m.filter fun c => !(65536 * page ≤ c.1 && c.1 < 65536 * page + 65536)) = m.filter fun c => pageOf c.1 != page :=
  List.filter_congr fun c _ => by
    rw [Bool.eq_iff_iff]
    simp only [Bool.not_eq_true', Bool.and_eq_false_iff, decide_eq_false_iff_not, bne_iff_ne, ne_eq, ← inPage_iff]
    omega

theorem sectors_outside (xs : List Nat) (page : Nat) :
    (xs.filter fun x => !(2048 * page ≤ x && x < 2048 * page + 2048)) = xs.filter fun x => x / 2048 != page :=
  List.filter_congr fun x _ => by
    rw [Bool.eq_iff_iff]
    simp only [Bool.not_eq_true', Bool.and_eq_false_iff, decide_eq_false_iff_not, bne_iff_ne, ne_eq]
    omega

section
variable {ch : MapChange} {c : Ctx}

/-- The change leaves the list of those under way, and its entry completes. -/
def drained (s : State) (ch : MapChange) (u : State) : State :=
  ({ u with changes := s.changes.filter fun x => x.id != ch.id }).complete ch.ctx ch.q ch.index none 0 0 0

/-- Where nothing waits for a lease, the drained change is installed and its entry completes. -/
theorem complete_noWaits {u : State} (h : NoWaits u) (changes : List MapChange) (ctx q index : Nat) :
    (({ u with changes := changes } : State).leaseAll).complete ctx q index none 0 0 0 =
      ({ u with changes := changes } : State).complete ctx q index none 0 0 0 :=
  congrArg (fun v : State => v.complete ctx q index none 0 0 0) (leaseAll_noWaits h)

theorem mappingDrain_window {n : Nat} {w : Window} (hch : s.changes.find? (fun x => x.id == ch.id) = some ch) (hwaits : s.changeWaits ch = false)
    (hl1 : s.l1 = []) (hnone : NoWaits s) (hc : s.ctx? ch.ctx = some c) (hchange : ch.change = .window n w)
    (hnamed : LeasesNamed s { c with windows := vset c.windows n w }) :
    s.mappingDrain ch.id = drained s ch (s.setCtx { c with windows := vset c.windows n w }) := by
  have hid : c.id = ch.ctx := by simpa using List.find?_some (p := fun x : Ctx => x.id == ch.ctx) hc
  have hc' : (s.setCtx { c with windows := vset c.windows n w }).ctx? c.id = some { c with windows := vset c.windows n w } :=
    ctx_setCtx s { c with windows := vset c.windows n w } (by rw [hid, hc]; rfl)
  have hlease := leaseNamed_named (s := s.setCtx { c with windows := vset c.windows n w }) hc' hnamed
  unfold State.mappingDrain
  rw [hch]
  dsimp only
  rw [hwaits, hchange, hc]
  dsimp only
  rw [l1FlushRange_empty hl1, ite_self, hlease]
  exact complete_noWaits (u := s.setCtx _) hnone _ _ _ _

theorem mappingDrain_remap {page frame : Nat} {host : Bool} {p : Pte} (hch : s.changes.find? (fun x => x.id == ch.id) = some ch)
    (hwaits : s.changeWaits ch = false) (hl1 : s.l1 = []) (hzero : s.zeroLines = []) (hnone : NoWaits s)
    (hchange : ch.change = .remap page frame host) (hp : s.pte? page = some p) :
    s.mappingDrain ch.id = drained s ch
      (({ s with frames := s.frames.filter fun f => !(f.die == homeOf (65536 * page) && f.frame == frame && f.host == host) }).setPte
        { p with frame := frame, host := host, state := 1 }) := by
  unfold State.mappingDrain
  rw [hch]
  dsimp only
  rw [hwaits, hchange]
  dsimp only
  rw [flushRange_empty hl1 hzero]
  have hp' : ∀ frames : List Frame, ({ s with frames := frames } : State).pte? page = some p := fun _ => hp
  rw [hp']
  exact complete_noWaits (u := State.setPte { s with frames := _ } _) hnone _ _ _ _

theorem mappingDrain_unplace {page : Nat} {p : Pte} (hch : s.changes.find? (fun x => x.id == ch.id) = some ch)
    (hwaits : s.changeWaits ch = false) (hl1 : s.l1 = []) (hzero : s.zeroLines = []) (hnone : NoWaits s)
    (hchange : ch.change = .unplace page) (hp : s.pte? page = some p) :
    s.mappingDrain ch.id = drained s ch { pageCleared s page with
      pages := s.pages.filter fun x => x.page != page
      frames := s.frames ++ [{ die := homeOf (65536 * page), host := p.host, frame := p.frame }] } := by
  unfold State.mappingDrain
  rw [hch]
  dsimp only
  rw [hwaits, hchange]
  dsimp only
  rw [flushRange_empty hl1 hzero, hp]
  dsimp only
  rw [cells_outside, sectors_outside]
  exact complete_noWaits (u := { pageCleared s page with
      pages := s.pages.filter fun x => x.page != page
      frames := s.frames ++ [{ die := homeOf (65536 * page), host := p.host, frame := p.frame }] }) hnone _ _ _ _

end

/-- Settles O41: the lines and the leases that a drained change would touch are none, so it is installed as it stands. -/
theorem mappingChangesTakeEffect : Obligations.MappingChangesTakeEffect := by
  unfold Obligations.MappingChangesTakeEffect
  refine fun s ch c hch hc hwaits hl1 hzero hnone =>
    ⟨fun n w hchange hnamed => ?_, fun page frame host p hchange hp => ?_, fun page p hchange hp => ?_⟩
  · exact congrArg Host.Outcome.next (mappingDrain_window hch hwaits hl1 hnone hc hchange hnamed)
  · exact congrArg Host.Outcome.next (mappingDrain_remap hch hwaits hl1 hzero hnone hchange hp)
  · exact congrArg Host.Outcome.next (mappingDrain_unplace hch hwaits hl1 hzero hnone hchange hp)

/-! ### The first touch of a page (R202) -/

theorem get_absent {m : Memory} {a : Nat} (h : ∀ c ∈ m, c.1 ≠ a) : m.get a = 0 := by
  induction m with
  | nil => rfl
  | cons c m ih =>
    rw [Memory.get, if_neg (h c (by simp)), ih fun x hx => h x (by simp [hx]), ite_self]

/-- Dropping bytes leaves those at an address whose byte it keeps. -/
theorem get_filter_from {m : Memory} {lo a : Nat} {p : Host.Cell → Bool} (w : Memory.wfFrom lo m = true)
    (hp : ∀ c : Host.Cell, c.1 = a → p c = true) : Memory.get (m.filter p) a = m.get a := by
  induction m generalizing lo with
  | nil => rfl
  | cons c m ih =>
    obtain ⟨-, -, hm⟩ := (wfFrom_cons lo c m).1 w
    by_cases hc : p c = true
    · rw [List.filter_cons_of_pos hc, Memory.get, Memory.get, ih hm]
    · have hne : c.1 ≠ a := fun e => hc (hp c e)
      rw [List.filter_cons_of_neg hc, Memory.get, if_neg hne]
      split
      · next hlt => exact get_below (filter_wfFrom p hm) (by omega)
      · exact ih hm

theorem place_mem (page : Nat) (f : Frame) : (s.place page f).mem = s.mem.filter fun c => pageOf c.1 != page :=
  cells_outside s.mem page

theorem place_poison (page : Nat) (f : Frame) : (s.place page f).poison = s.poison.filter fun x => x / 2048 != page :=
  sectors_outside s.poison page

/-- A page that is placed is filled with zeros. -/
theorem place_zeros {page a : Nat} (f : Frame) (h : pageOf a = page) : (s.place page f).mem.get a = 0 := by
  rw [place_mem]
  refine get_absent fun c hc e => ?_
  have hout := (List.mem_filter.1 hc).2
  simp [e, h] at hout

theorem place_keeps {page a : Nat} (f : Frame) (w : s.mem.wf = true) (h : pageOf a ≠ page) : (s.place page f).mem.get a = s.mem.get a := by
  rw [place_mem]
  exact get_filter_from w fun c e => by simp [e, h]

theorem place_unpoisoned {page a : Nat} (f : Frame) (h : pageOf a = page) : (s.place page f).poison.contains (sectorOf a) = false := by
  rw [place_poison]
  have hsec : sectorOf a / 2048 = page := by
    unfold sectorOf pageOf at *
    omega
  simp [hsec]

theorem firstTouch_places {ia frame : Nat} {f : Frame} (hhome : homeOf ia < 4) (hpte : s.pte? (pageOf ia) = none) (hnone : NoWaits s)
    (hf : s.frames.find? (fun x => x.die == homeOf ia && x.frame == frame && s.frameFits (pageOf ia) x) = some f) :
    s.firstTouch ia frame = s.place (pageOf ia) f := by
  unfold State.firstTouch
  dsimp only
  rw [if_neg (by simp [hpte, hhome]), hf]
  exact leaseAll_noWaits (s := s.place (pageOf ia) f) hnone

/-- Settles O42: with no lease to take, a first touch is the placing of the page in the frame found. -/
theorem firstTouchPlaces : Obligations.FirstTouchPlaces := by
  unfold Obligations.FirstTouchPlaces
  intro s ia frame f hhome hpte hnone hf
  refine ⟨s.place (pageOf ia) f, congrArg Host.Outcome.next (firstTouch_places hhome hpte hnone hf), ?_, rfl, fun a ha => ?_, fun a w ha => ?_⟩
  · simp [State.place, State.pte?, State.setPte]
  · exact ⟨place_zeros f ha, place_unpoisoned f ha⟩
  · exact place_keeps f w ha

end Sys2Proof.Machine
end

section
/-!
PROOF. Accesses of the host and of peers (R195, R267, R268, R484, R487, R488, R491): bytes filled, plain memory, and transfers that arrive (O45).
-/

namespace Sys2Proof.Machine

variable {s : State}

/-! ### Memory filled -/

theorem wfFrom_lower {m : Memory} {lo : Nat} (w : Memory.wfFrom lo m = true) : ∀ c ∈ m, lo ≤ c.1 := by
  induction m generalizing lo with
  | nil => simp
  | cons c m ih =>
    obtain ⟨hlo, -, hm⟩ := (wfFrom_cons lo c m).1 w
    intro x hx
    rcases List.mem_cons.1 hx with rfl | hx
    · exact hlo
    · have := ih hm x hx
      omega

/-- Cells that all lie above an address do not change what it reads. -/
theorem get_append_left {m n : Memory} {a : Nat} (hn : ∀ c ∈ n, a < c.1) : Memory.get (m ++ n) a = m.get a := by
  induction m with
  | nil => exact get_absent fun c hc => by have := hn c hc; omega
  | cons c m ih => rw [List.cons_append, Memory.get, Memory.get, ih]

/-- Nor do cells that all lie below it. -/
theorem get_append_right {m n : Memory} {a : Nat} (hm : ∀ c ∈ m, c.1 < a) : Memory.get (m ++ n) a = n.get a := by
  induction m with
  | nil => rfl
  | cons c m ih =>
    have hc := hm c (by simp)
    rw [List.cons_append, Memory.get, if_neg (by omega), if_neg (by omega), ih fun x hx => hm x (by simp [hx])]

/-- The cells of a list of bytes from an address. -/
def cellsOf (bs : List Byte) (lo k : Nat) : Memory :=
  (bs.zipIdx k).filterMap fun p => if p.1 = 0 then none else some (lo + p.2, p.1)

theorem cellsOf_cons (b : Byte) (bs : List Byte) (lo k : Nat) :
    cellsOf (b :: bs) lo k = if b = 0 then cellsOf bs lo (k + 1) else (lo + k, b) :: cellsOf bs lo (k + 1) := by
  unfold cellsOf
  rw [List.zipIdx_cons, List.filterMap_cons]
  split
  · next h => simp_all
  · next h => simp_all

theorem get_cellsOf (bs : List Byte) (lo k x : Nat) (h : lo + k ≤ x) : (cellsOf bs lo k).get x = bs.getD (x - lo - k) 0 := by
  induction bs generalizing k with
  | nil => rfl
  | cons b bs ih =>
    have hrest : (cellsOf bs lo (k + 1)).get x = if x = lo + k then 0 else bs.getD (x - lo - (k + 1)) 0 := by
      split
      · exact get_below (cells_wfFrom bs lo (k + 1)).1 (by omega)
      · exact ih (k + 1) (by omega)
    have hcons : Memory.get (cellsOf (b :: bs) lo k) x = if x = lo + k then b else (cellsOf bs lo (k + 1)).get x := by
      rw [cellsOf_cons]
      by_cases hb : b = 0
      · rw [if_pos hb, hrest, hb]
        split <;> rfl
      · rw [if_neg hb, Memory.get, if_neg (by omega)]
        simp only [eq_comm]
    rw [hcons, hrest]
    by_cases hx : x = lo + k
    · simp [hx]
    · rw [if_neg hx, if_neg hx, show x - lo - k = x - lo - (k + 1) + 1 by omega, List.getD_cons_succ]

theorem get_fill {m : Memory} (lo x : Nat) (bs : List Byte) (w : m.wf = true) :
    (m.fill lo bs).get x = if lo ≤ x ∧ x < lo + bs.length then bs.getD (x - lo) 0 else m.get x := by
  have hcells : ∀ c ∈ cellsOf bs lo 0, lo ≤ c.1 ∧ c.1 < lo + bs.length := fun c hc =>
    ⟨wfFrom_lower (cells_wfFrom bs lo 0).1 c hc, (cells_wfFrom bs lo 0).2 c hc⟩
  have habove : ∀ c ∈ m.filter fun c => lo + bs.length ≤ c.1, lo + bs.length ≤ c.1 := fun c hc => by simpa using (List.mem_filter.1 hc).2
  have hfill : m.fill lo bs = (m.filter fun c => c.1 < lo) ++ (cellsOf bs lo 0 ++ m.filter fun c => lo + bs.length ≤ c.1) :=
    List.append_assoc ..
  rw [hfill]
  by_cases hlo : x < lo
  · have hrest : ∀ c ∈ cellsOf bs lo 0 ++ m.filter fun c => lo + bs.length ≤ c.1, x < c.1 := by
      intro c hc
      rcases List.mem_append.1 hc with hc | hc
      · have := hcells c hc
        omega
      · have := habove c hc
        omega
    rw [get_append_left hrest, get_filter_from w fun c e => by simpa [e] using hlo, if_neg (by omega)]
  · rw [get_append_right fun c hc => by have : c.1 < lo := by simpa using (List.mem_filter.1 hc).2
                                        omega]
    by_cases hhi : x < lo + bs.length
    · rw [get_append_left fun c hc => by have := habove c hc; omega, get_cellsOf _ _ _ _ (by omega), if_pos (by omega), Nat.sub_zero]
    · rw [get_append_right fun c hc => by have := hcells c hc; omega, get_filter_from w fun c e => by simp [e]; omega, if_neg (by omega)]

theorem filter_split {m : Memory} {k : Nat} (lo : Nat) (w : Memory.wfFrom k m = true) :
    ((m.filter fun c => c.1 < lo) ++ m.filter fun c => lo ≤ c.1) = m := by
  induction m generalizing k with
  | nil => rfl
  | cons c m ih =>
    obtain ⟨-, -, hm⟩ := (wfFrom_cons k c m).1 w
    by_cases hc : c.1 < lo
    · rw [List.filter_cons_of_pos (by simpa using hc), List.filter_cons_of_neg (by simpa using hc), List.cons_append, ih hm]
    · have hall : ∀ x ∈ c :: m, lo ≤ x.1 := fun x hx => by
        have := wfFrom_lower ((wfFrom_cons c.1 c m).2 ⟨Nat.le_refl _, ((wfFrom_cons k c m).1 w).2⟩) x hx
        omega
      have hnone : ((c :: m).filter fun x => x.1 < lo) = [] := List.filter_eq_nil_iff.2 fun x hx => by simpa using hall x hx
      rw [hnone, List.nil_append, List.filter_eq_self.2 fun x hx => by simpa using hall x hx]

theorem fill_nil {m : Memory} (lo : Nat) (w : m.wf = true) : m.fill lo [] = m :=
  (congrArg (· ++ _) (List.append_nil _)).trans (filter_split lo w)

/-! ### What the host reads and writes where nothing stands in the way (R267) -/

theorem lose_noConts (h : ∀ st ∈ s.strands, st.cont = none) (src : ReadCopy) (hits : Sector → Bool) (who : Nat) : s.lose src hits who = s := by
  have hnone : (s.strands.any fun st => st.cont.isSome) = false := by simpa using h
  unfold State.lose
  rw [hnone]
  rfl

theorem clearTags_unpoisoned (h : s.poison = []) (ia n : Nat) : s.clearTags ia n = s := by
  simp [State.clearTags, h]

theorem lose_clearTags_still (hpoison : s.poison = []) (hconts : ∀ st ∈ s.strands, st.cont = none) (ia n : Nat) (src : ReadCopy)
    (hits : Sector → Bool)
    (who : Nat) : (s.clearTags ia n).lose src hits who = s := by
  rw [clearTags_unpoisoned hpoison]
  exact lose_noConts hconts src hits who

theorem dropOthers_empty (h : s.l1 = []) (core line : Nat) : s.dropOthers core line = s := by
  simp [State.dropOthers, h]

theorem homeByte_plain {ia : Nat} {sys : Bool} (hhome : homeOf ia < 4) (hmap : s.inMapPage ia = false) : s.homeByte sys ia = s.mem.get ia := by
  unfold State.homeByte
  rw [hmap, if_neg Bool.false_ne_true, if_neg (by omega)]

theorem homePut_plain {ia : Nat} {sys : Bool} {b : Byte} (hhome : homeOf ia < 4) (hmap : s.inMapPage ia = false) (hreach : s.reachable ia = true) :
    s.homePut sys ia b = { s with mem := s.mem.put ia b } := by
  have hne : homeOf ia ≠ 4 := by omega
  unfold State.homePut
  rw [if_neg (by simp [hmap, hreach]), if_neg (by simp [hne])]

/-- Bytes put one by one in plain memory. -/
theorem homePuts_plain {sys : Bool} {bytes : List Byte} {ia : Nat} (h : PlainBytes s ia bytes.length) :
    (List.range bytes.length).foldl (fun t i => t.homePut sys (ia + i) (bytes.getD i 0)) s = { s with mem := s.mem.putList ia bytes } := by
  induction bytes generalizing s ia with
  | nil => rfl
  | cons b bytes ih =>
    obtain ⟨hhome, hmap, hreach⟩ := h 0 (by simp)
    have hput : s.homePut sys (ia + 0) b = { s with mem := s.mem.put ia b } := homePut_plain hhome hmap hreach
    have hrest : PlainBytes { s with mem := s.mem.put ia b } (ia + 1) bytes.length := fun i hi => by
      have := h (i + 1) (by simpa using hi)
      rwa [show ia + (i + 1) = ia + 1 + i by omega] at this
    rw [List.length_cons, List.range_succ_eq_map, List.foldl_cons, List.foldl_map, List.getD_cons_zero, hput]
    refine (List.foldl_ext _ _ _ fun t i _ => ?_).trans (ih hrest)
    rw [List.getD_cons_succ, show ia + Nat.succ i = ia + 1 + i by omega]

/-- A sector that holds a byte of plain, unpoisoned memory is not poisoned as the host reads it. -/
theorem homePoison_plain {ia sec : Nat} (hpoison : s.poison = []) (hsec : ia / 32 = sec) (hhome : homeOf ia < 4) (hreach : s.reachable ia = true) :
    s.homePoison (32 * sec) = false := by
  have hsame : homeOf (32 * sec) = homeOf ia := by
    unfold homeOf at *
    omega
  have hreach' : s.reachable (32 * sec) = true := by
    simpa [State.reachable, sliceDie, hsame, hhome, Nat.not_le.2 hhome] using hreach
  simp [State.homePoison, hpoison, hreach']

theorem hostRead_plain {ia n : Nat} (hpoison : s.poison = []) (hn : 0 < n) (h : PlainBytes s ia n) : s.hostRead ia n = .data (s.mem.getList ia n) :=
     by
  have hclean : ((List.range ((ia + n - 1) / 32 - ia / 32 + 1)).any fun i => s.homePoison (32 * (ia / 32 + i))) = false := by
    simp only [List.any_eq_false, List.mem_range, Bool.not_eq_true]
    intro i hi
    obtain ⟨k, hk, hsec⟩ : ∃ k, k < n ∧ (ia + k) / 32 = ia / 32 + i := by
      by_cases h0 : i = 0
      · exact ⟨0, hn, by simp [h0]⟩
      · exact ⟨32 * (ia / 32 + i) - ia, by omega, by omega⟩
    obtain ⟨hhome, -, hreach⟩ := h k hk
    exact homePoison_plain hpoison hsec hhome hreach
  have hbytes : ((List.range n).map fun i => s.homeByte true (ia + i)) = s.mem.getList ia n :=
    List.map_congr_left fun i hi => by
      obtain ⟨hhome, hmap, -⟩ := h i (List.mem_range.1 hi)
      exact homeByte_plain hhome hmap
  unfold State.hostRead
  rw [if_pos (show homeOf ia < 4 from (h 0 hn).1), hclean, if_neg Bool.false_ne_true, hbytes]

theorem hostPut_eq (hpoison : s.poison = []) (hconts : ∀ st ∈ s.strands, st.cont = none) (ia : Nat) (bytes : List Byte) :
    s.hostPut ia bytes = { s with mem := s.mem.fill ia bytes } := by
  exact lose_clearTags_still (s := { s with mem := s.mem.fill ia bytes }) hpoison hconts _ _ _ _ _

theorem homeWrite_plain {core who ia : Nat} {sys : Bool} {bytes : List Byte} (hl1 : s.l1 = []) (hzero : s.zeroLines = []) (hpoison : s.poison = [])
    (hconts : ∀ st ∈ s.strands, st.cont = none) (hhome : homeOf ia < 4) (h : PlainBytes s ia bytes.length) :
    s.homeWrite core who sys ia bytes = { s with mem := s.mem.putList ia bytes } := by
  have hcount : s.countLost ia = s := by simp [State.countLost, hhome]
  have hdrop : ∀ lines : List Nat, lines.foldl (fun t l => t.dropOthers core l) s = s := fun lines =>
    foldl_still fun l _ => dropOthers_empty hl1 core l
  have hne : homeOf ia ≠ 4 := by omega
  unfold State.homeWrite State.homeStore
  rw [hcount]
  dsimp only
  rw [hdrop, if_neg hne, homePuts_plain h]
  dsimp only
  rw [if_pos (by rw [hzero]; rfl)]
  exact lose_clearTags_still (s := { s with mem := s.mem.putList ia bytes }) hpoison hconts _ _ _ _ _

theorem hostWrite_plain {ia : Nat} {bytes : List Byte} (hwf : s.mem.wf = true) (hl1 : s.l1 = []) (hzero : s.zeroLines = []) (hpoison : s.poison = [])
    (hconts : ∀ st ∈ s.strands, st.cont = none) (h : PlainBytes s ia bytes.length) :
    s.hostWrite ia bytes = { s with mem := s.mem.putList ia bytes } := by
  unfold State.hostWrite
  split
  · next hhome => exact homeWrite_plain hl1 hzero hpoison hconts hhome h
  · next hhome =>
      cases bytes with
      | nil => rw [hostPut_eq hpoison hconts, fill_nil ia hwf, Memory.putList]
      | cons b bytes => exact absurd (h 0 (by simp)).1 hhome

theorem hostWrite_home4 {ia : Nat} {bytes : List Byte} (hwf : s.mem.wf = true) (hpoison : s.poison = []) (hconts : ∀ st ∈ s.strands, st.cont = none)
    (hhome : homeOf ia = 4) : ∃ m : Memory, s.hostWrite ia bytes = { s with mem := m } ∧
      ∀ x, m.get x = if ia ≤ x ∧ x < ia + bytes.length then bytes.getD (x - ia) 0 else s.mem.get x := by
  refine ⟨s.mem.fill ia bytes, ?_, fun x => get_fill ia x bytes hwf⟩
  unfold State.hostWrite
  rw [if_neg (by omega), hostPut_eq hpoison hconts]

/-! ### Transfers that arrive (R484, R487, R488, R491) -/

section
variable {t : Transfer}

theorem heldBefore_iff : s.heldBefore t = true ↔ ∃ x ∈ s.dev.held, x.link = t.link ∧ x.func = t.func := by
  simp [State.heldBefore]

theorem linkTakes_of_serves (hlink : t.link ≠ 2) (h : LinkServes s t.link) : s.linkTakes t.link false = true := by
  obtain ⟨l, hl, hstate⟩ := h
  have hserves : l.serves = true := by simpa [Link.serves] using hstate
  simp [State.linkTakes, hlink, hl, hserves]

theorem linkTakes_of_trains (hlink : t.link ≠ 2) (h : LinkTrains s t.link) : s.linkTakes t.link false = false := by
  obtain ⟨l, hl, hstate, -⟩ := h
  simp [State.linkTakes, hlink, hl, Link.serves, hstate]

theorem linkHolds_of_trains (hlink : t.link ≠ 2) (h : LinkTrains s t.link) : s.linkHolds t.link = true := by
  obtain ⟨l, hl, hstate, hwhy⟩ := h
  simpa [State.linkHolds, hlink, hl, hstate] using hwhy

theorem arrive_held {serve : State → State × Bool} (hon : s.funcOn t.func = true) (hlink : t.link ≠ 2)
    (h : (∃ x ∈ s.dev.held, x.link = t.link ∧ x.func = t.func) ∨ LinkTrains s t.link) : s.arrive t serve = s.hold t := by
  unfold State.arrive
  rw [hon, Bool.not_true, if_neg Bool.false_ne_true]
  rcases h with hbefore | htrains
  · rw [if_pos (heldBefore_iff.2 hbefore)]
  · rw [linkTakes_of_trains hlink htrains, if_neg Bool.false_ne_true, if_pos (linkHolds_of_trains hlink htrains), ite_self]

theorem arrive_served {serve : State → State × Bool} {u : State} {ok : Bool} (hon : s.funcOn t.func = true) (hlink : t.link ≠ 2)
    (hserves : LinkServes s t.link) (hfirst : ∀ x ∈ s.dev.held, x.link = t.link → x.func ≠ t.func) (h : serve s = (u, ok)) :
    s.arrive t serve = if ok then u else u.hold t := by
  have hbefore : ¬s.heldBefore t = true := fun hb => by
    obtain ⟨x, hx, hxl, hxf⟩ := heldBefore_iff.1 hb
    exact hfirst x hx hxl hxf
  unfold State.arrive
  rw [hon, Bool.not_true, if_neg Bool.false_ne_true, if_neg hbefore, if_pos (linkTakes_of_serves hlink hserves), h]
  cases ok <;> rfl

theorem arrive_off {serve : State → State × Bool} (h : s.dev.vfs < t.func) : s.arrive t serve = s := by
  have hoff : s.funcOn t.func = false := by simpa [State.funcOn] using h
  unfold State.arrive
  rw [hoff]
  rfl

section
variable {p : Ctx → Bool} {write : Bool} {ia n : Nat} {bytes : List Byte} {c : Ctx} {w : Window} {u : State}

theorem serveAccess_ready (hrun : s.dev.state = .running) (hp : (fun c : Ctx => 10 ≤ t.link || c.func == t.func) = p)
    (hvis : s.visible p ia n = some (c, w)) (hready : s.readyBytes c w ia n = (u, true)) :
    s.serveAccess t write ia n bytes = (if write then u.hostWrite ia bytes else u.reply (u.hostRead ia n), true) := by
  subst hp
  simp [State.serveAccess, hrun, hvis, hready]

theorem serveAccess_unready (hrun : s.dev.state = .running) (hp : (fun c : Ctx => 10 ≤ t.link || c.func == t.func) = p)
    (hvis : s.visible p ia n = some (c, w)) (hready : s.readyBytes c w ia n = (u, false)) :
    s.serveAccess t write ia n bytes = (u, false) := by
  subst hp
  simp [State.serveAccess, hrun, hvis, hready]

theorem serveAccess_unseen (hrun : s.dev.state = .running) (hp : (fun c : Ctx => 10 ≤ t.link || c.func == t.func) = p)
    (hvis : s.visible p ia n = none) : s.serveAccess t write ia n bytes =
      (if 10 ≤ t.link then s.reply (.dmaError (t.link - 10)) else if write then s else s.reply .refused, true) := by
  subst hp
  simp [State.serveAccess, hrun, hvis]

end

/-- An access that arrives over a host link or at a peer port. -/
theorem arrives_access {p : Ctx → Bool} {write : Bool} {ia n : Nat} {bytes : List Byte} {refused : State} (hrun : s.dev.state = .running)
    (hon : s.funcOn t.func = true) (hlink : t.link ≠ 2) (hp : (fun c : Ctx => 10 ≤ t.link || c.func == t.func) = p)
    (hrefused : (if 10 ≤ t.link then s.reply (.dmaError (t.link - 10)) else if write then s else s.reply .refused) = refused) :
    Arrives s t p write ia n bytes refused (.next (s.arrive t fun s => s.serveAccess t write ia n bytes)) where
  served := fun hserves hfirst c w u hvis hready => congrArg Host.Outcome.next (arrive_served hon hlink hserves hfirst (ok := true)
    (serveAccess_ready hrun hp hvis hready))
  waits := fun hserves hfirst c w u hvis hready => congrArg Host.Outcome.next (arrive_served hon hlink hserves hfirst (ok := false)
    (serveAccess_unready hrun hp hvis hready))
  refuses := fun hserves hfirst hvis => congrArg Host.Outcome.next (arrive_served hon hlink hserves hfirst (ok := true)
    ((serveAccess_unseen hrun hp hvis).trans (congrArg (·, true) (by simpa using hrefused))))
  held := fun h => congrArg Host.Outcome.next (arrive_held hon hlink h)

end

theorem exec_hostApertureWrite {func link ia : Nat} {bytes : List Byte} (hlink : link < 2) :
    exec (.hostApertureWrite func link ia bytes) s = .next (s.arrive { link := link, func := func, op := .write ia bytes } fun s =>
      s.serveAccess { link := link, func := func, op := .write ia bytes } true ia bytes.length bytes) :=
  congrArg Host.Outcome.next (if_neg (by omega))

theorem exec_hostApertureRead {func link ia n : Nat} (hlink : link < 2) :
    exec (.hostApertureRead func link ia n) s = .next (s.arrive { link := link, func := func, op := .read ia n } fun s =>
      s.serveAccess { link := link, func := func, op := .read ia n } false ia n []) :=
  congrArg Host.Outcome.next (if_neg (by omega))

theorem exec_peerDmaTransfer {port ia n : Nat} {write : Bool} {bytes : List Byte} (hport : port < 16) :
    exec (.peerDmaTransfer port write ia n bytes) s =
      .next (s.arrive { link := 10 + port, func := 0, op := if write then .write ia bytes else .read ia n } fun s =>
        s.serveAccess { link := 10 + port, func := 0, op := if write then .write ia bytes else .read ia n } write ia
          (if write then bytes.length else n) bytes) :=
  congrArg Host.Outcome.next (if_neg (by omega))

theorem hostAccess_arrives {func link ia n : Nat} {bytes : List Byte} (hrun : s.dev.state = .running) (hlink : link < 2) (hon : func ≤ s.dev.vfs) :
    Arrives s { link := link, func := func, op := .write ia bytes } (fun c => c.func == func) true ia bytes.length bytes s
        (exec (.hostApertureWrite func link ia bytes) s) ∧
      Arrives s { link := link, func := func, op := .read ia n } (fun c => c.func == func) false ia n [] (s.reply .refused)
        (exec (.hostApertureRead func link ia n) s) := by
  have hnpeer : ¬10 ≤ link := by omega
  have hp : (fun c : Ctx => (10 ≤ link : Bool) || c.func == func) = fun c => c.func == func := by simp [hnpeer]
  have hlink' : link ≠ 2 := by omega
  have hon' : s.funcOn func = true := by simpa [State.funcOn] using hon
  rw [exec_hostApertureWrite hlink, exec_hostApertureRead hlink]
  exact ⟨arrives_access hrun hon' hlink' hp (if_neg hnpeer), arrives_access hrun hon' hlink' hp (if_neg hnpeer)⟩

theorem peerAccess_arrives {port ia n : Nat} {bytes : List Byte} (hrun : s.dev.state = .running) (hport : port < 16) :
    Arrives s { link := 10 + port, func := 0, op := .write ia bytes } (fun _ => true) true ia bytes.length bytes (s.reply (.dmaError port))
        (exec (.peerDmaTransfer port true ia n bytes) s) ∧
      Arrives s { link := 10 + port, func := 0, op := .read ia n } (fun _ => true) false ia n bytes (s.reply (.dmaError port))
        (exec (.peerDmaTransfer port false ia n bytes) s) := by
  have hpeer : 10 ≤ 10 + port := by omega
  have hp : (fun c : Ctx => (10 ≤ 10 + port : Bool) || c.func == 0) = fun _ => true := by simp
  have hrefused : (10 + port) - 10 = port := by omega
  have hon : s.funcOn 0 = true := by simp [State.funcOn]
  have hlink : 10 + port ≠ 2 := by omega
  have herror : ∀ other : State, (if 10 ≤ 10 + port then s.reply (.dmaError (10 + port - 10)) else other) = s.reply (.dmaError port) :=
    fun _ => by rw [if_pos hpeer, hrefused]
  rw [exec_peerDmaTransfer hport, exec_peerDmaTransfer hport]
  exact ⟨arrives_access hrun hon hlink hp (herror _), arrives_access hrun hon hlink hp (herror _)⟩

/-- Settles O45: an arrival is held, turned away or served by what State.arrive tests in turn, and where memory is plain an access of the host is an
access to memory itself. -/
theorem hostAndPeerAccess : Obligations.HostAndPeerAccess := by
  unfold Obligations.HostAndPeerAccess
  refine ⟨fun s func link ia n bytes hrun hlink => ⟨hostAccess_arrives hrun hlink, fun hoff => ?_⟩, fun s port ia n bytes => peerAccess_arrives,
    fun s ia n bytes hwf hpoison hzero hconts => ⟨hostRead_plain hpoison, fun hl1 => hostWrite_plain hwf hl1 hzero hpoison hconts,
      hostWrite_home4 hwf hpoison hconts⟩⟩
  rw [exec_hostApertureWrite hlink, exec_hostApertureRead hlink]
  exact ⟨congrArg Host.Outcome.next (arrive_off hoff), congrArg Host.Outcome.next (arrive_off hoff)⟩

end Sys2Proof.Machine
end
section
/-!
PROOF. The moves of the agenda (R244, R473, R477, R484, R487): an event, a command of the host, a step of time, and an L1 line given up (O58).
-/

namespace Sys2Proof.Machine

variable {s : State}

/-- With an agenda a step makes its first move. -/
theorem step_move {m : Move} {rest : List Move} (h : s.agenda = m :: rest) : step s = ({ s with agenda := rest } : State).move m := by
  rw [step, h]

/-! ### Events and commands of the host (R484, R487) -/

section
variable {i : Instr} {func : Nat} (hi : encode i = [])
include hi

theorem eventMove_event (hc : hostCommand? i = none) : s.eventMove i = settleOut (exec i s) := by
  simp [State.eventMove, hi, hc]

/-- A command of a function that is not enabled is not there; of the others, one that must wait is held, and the rest take effect. -/
theorem eventMove_command (hc : hostCommand? i = some func) :
    s.eventMove i =
      if s.dev.vfs < func then .next s
      else if s.linkHolds 2 = true ∨ ∃ t ∈ s.dev.held, t.link = 2 ∧ t.func = func then
        .next (s.hold { link := 2, func := func, op := .command i })
      else settleOut (exec i s) := by
  have hheld := heldBefore_iff (s := s) (t := { link := 2, func := func, op := .command i })
  simp [State.eventMove, hi, hc, State.funcOn, ← hheld]

end

/-! ### Time passes (R467, R473, R477) -/

/-- A cluster is found as it was put back, and every other as before. -/
theorem cluster_setCluster (x : Cluster) (n : Nat) : (s.setCluster x).cluster n = if n = x.n then x else s.cluster n := by
  unfold State.setCluster State.cluster
  split
  · next h =>
    by_cases hn : n = x.n
    · subst hn
      have hs : (s.clusters.find? fun y => y.n == x.n).isSome := by simpa [List.find?_isSome] using h
      simp only [find_map_same s.clusters (·.n) x hs, if_true, Option.getD_some]
    · simp only [find_map_ne s.clusters (·.n) x n hn, hn, if_false]
  · next h =>
    have hnone : ∀ y ∈ s.clusters, (y.n == x.n) = false := by simpa using h
    by_cases hn : n = x.n
    · subst hn
      have : s.clusters.find? (fun y => y.n == x.n) = none := by simpa using hnone
      simp [List.find?_append, this]
    · have hx : (x.n == n) = false := by simpa using Ne.symm hn
      simp [List.find?_append, hn, hx]

theorem cluster_n (n : Nat) : (s.cluster n).n = n := by
  unfold State.cluster
  cases h : s.clusters.find? fun x => x.n == n with
  | none => rfl
  | some c => simpa using List.find?_some h

/-- Thousandths of the cycles that a cluster has counted (R477). -/
def State.milliCycles (s : State) (cl : Nat) : Nat := 1000 * (s.cluster cl).cycles + (s.cluster cl).cycleFrac

/-- What `n` ns add to the cycle counter of a cluster, in thousandths of a cycle. -/
def State.delivered (s : State) (n cl : Nat) : Nat := if s.dev.map.liveCl.getLsbD cl then n * s.pointOf (13 * cl + 8) else 0

theorem delivered_congr {t : State} (h : t.dev = s.dev) (n cl : Nat) : t.delivered n cl = s.delivered n cl := by
  unfold State.delivered State.pointOf State.heat
  rw [h]

@[simp] theorem tick_dev (s : State) (n c : Nat) : (s.tick n c).dev = s.dev := by
  unfold State.tick
  split <;> simp

@[simp] theorem tick_agenda (s : State) (n c : Nat) : (s.tick n c).agenda = s.agenda := by
  unfold State.tick
  split <;> simp

@[simp] theorem tick_now (s : State) (n c : Nat) : (s.tick n c).now = s.now := by
  unfold State.tick
  split <;> simp

@[simp] theorem tick_ctxs (s : State) (n c : Nat) : (s.tick n c).ctxs = s.ctxs := by
  unfold State.tick
  split <;> simp

/-- A tick counts on for its own cluster alone. -/
theorem milliCycles_tick (n c cl : Nat) : (s.tick n c).milliCycles cl = s.milliCycles cl + if cl = c then s.delivered n cl else 0 := by
  unfold State.tick State.milliCycles State.delivered
  by_cases hlive : s.dev.map.liveCl.getLsbD c = true
  · rw [if_pos hlive, cluster_setCluster]
    by_cases hcl : cl = c
    · subst hcl
      simp only [cluster_n, if_true, hlive]
      omega
    · rw [if_neg (by rw [cluster_n]; exact hcl), if_neg hcl, Nat.add_zero]
  · rw [if_neg hlive]
    split
    · next hcl => rw [hcl, if_neg hlive, Nat.add_zero]
    · rfl

/-- The ticks of the first `k` clusters. -/
theorem milliCycles_ticks (n cl k : Nat) :
    ((List.range k).foldl (fun t c => t.tick n c) s).milliCycles cl = s.milliCycles cl + if cl < k then s.delivered n cl else 0 := by
  induction k with
  | zero => rfl
  | succ k ih =>
    have hdev : ((List.range k).foldl (fun t c => t.tick n c) s).dev = s.dev := foldl_keeps State.dev (fun t c => tick_dev t n c) _ _
    rw [List.range_succ, List.foldl_append, List.foldl_cons, List.foldl_nil, milliCycles_tick, ih, delivered_congr hdev]
    split_ifs <;> omega

/-- What a refill leaves of a cluster's counter. -/
theorem refill_cycles (c : Cluster) (rt us : Nat) :
    (c.refill rt us).cycles = c.cycles ∧ (c.refill rt us).cycleFrac = c.cycleFrac ∧ (c.refill rt us).n = c.n := by
  unfold Cluster.refill
  dsimp only
  exact ⟨foldl_keeps Cluster.cycles (by intros; rfl) _ _, foldl_keeps Cluster.cycleFrac (by intros; rfl) _ _,
    foldl_keeps Cluster.n (by intros; rfl) _ _⟩

/-- A refill of a bucket leaves every cycle counter, the agenda and the time. -/
theorem chargeRefill_keeps (c : Nat) :
    (∀ cl, (s.chargeRefill c).milliCycles cl = s.milliCycles cl) ∧ (s.chargeRefill c).agenda = s.agenda ∧ (s.chargeRefill c).now = s.now := by
  unfold State.chargeRefill
  dsimp only
  split
  · exact ⟨fun _ => rfl, rfl, rfl⟩
  · refine ⟨fun cl => ?_, setCluster_agenda _ _, setCluster_now _ _⟩
    obtain ⟨hcycles, hfrac, hn⟩ := refill_cycles (s.cluster c) (s.rt c) (s.now / 1000 - (s.cluster c).refilled / 1000)
    unfold State.milliCycles
    rw [cluster_setCluster]
    split
    · next hcl =>
      rw [hn, cluster_n] at hcl
      rw [hcl, hcycles, hfrac]
    · rfl

/-- Events that no counter of any context counts leave the state. -/
theorem countFree_none {evs : List Nat} (h : ∀ c ∈ s.ctxs, ∀ ev ∈ evs, c.counts ev = false) (ctx : Nat) : s.countFree ctx evs = s := by
  refine foldl_still fun ev hev => ?_
  cases hc : s.ctx? ctx with
  | none => rfl
  | some c => simp [h c (List.mem_of_find?_eq_some hc) ev hev]

/-- The events that are a matter of timing (R473, log 16). -/
def timedEvents : List Nat := [2, 3, 6, 7, 8, 9]

/-- Where nothing counts an event that is a matter of timing, the contexts count none as time passes. -/
theorem countTimed_none (h : ∀ c ∈ s.ctxs, ∀ ev ∈ timedEvents, c.counts ev = false) (ids : List Nat) :
    ids.foldl (fun (t : State) c => (t.countCycles c).countTraffic c) s = s := by
  refine foldl_still fun ctx _ => ?_
  have hcycles : s.countCycles ctx = s := countFree_none (fun c hc ev hev => h c hc ev (by
    simp only [List.mem_append] at hev
    rcases hev with (hev | hev) | hev <;> split at hev <;> simp_all [timedEvents])) ctx
  rw [hcycles]
  exact countFree_none (fun c hc ev hev => h c hc ev (by simp [timedEvents] at hev ⊢; tauto)) ctx

/-- The state after the ticks of every cluster. -/
def State.ticked (s : State) (n : Nat) : State := (List.range 48).foldl (fun t c => t.tick n c) s.noteAbove

/-- What neither a tick nor the note of teams above changes. -/
theorem ticked_keeps {α : Type} (p : State → α) {n : Nat} (hp : ∀ (t : State) c, p (t.tick n c) = p t) (h0 : p s.noteAbove = p s) :
    p (s.ticked n) = p s :=
  (foldl_keeps p hp _ _).trans h0

/-- Where nothing counts an event that is a matter of timing, time brings the ticks and the refills. -/
theorem elapse_eq (n : Nat) (h : ∀ c ∈ s.ctxs, ∀ ev ∈ timedEvents, c.counts ev = false) :
    s.elapse n = (List.range 48).foldl State.chargeRefill { s.ticked n with now := (s.ticked n).now + n } := by
  have hctxs : (s.ticked n).ctxs = s.ctxs := ticked_keeps State.ctxs (fun t c => tick_ctxs t n c) rfl
  have hcount := countTimed_none (s := s.ticked n) (by rw [hctxs]; exact h) ((s.ticked n).ctxs.map (·.id))
  unfold State.elapse
  dsimp only
  rw [← State.ticked, hcount]

/-- A step of time: the time, the cycle counters, and what stays. -/
theorem elapse_spec (n : Nat) (h : ∀ c ∈ s.ctxs, ∀ ev ∈ timedEvents, c.counts ev = false) :
    (s.elapse n).now = s.now + n ∧ (s.elapse n).mem = s.mem ∧ (s.elapse n).agenda = s.agenda ∧
      ∀ cl, cl < 48 → (s.elapse n).milliCycles cl = s.milliCycles cl + s.delivered n cl := by
  rw [elapse_eq n h]
  refine ⟨?_, ?_, ?_, fun cl hcl => ?_⟩
  · rw [foldl_keeps State.now fun t c => (chargeRefill_keeps c).2.2]
    exact congrArg (· + n) (ticked_keeps State.now (fun t c => tick_now t n c) rfl)
  · rw [foldl_keeps State.mem chargeRefill_mem]
    exact ticked_keeps State.mem (fun t c => tick_mem t n c) rfl
  · rw [foldl_keeps State.agenda fun t c => (chargeRefill_keeps c).2.1]
    exact ticked_keeps State.agenda (fun t c => tick_agenda t n c) rfl
  · rw [foldl_keeps (State.milliCycles · cl) fun t c => (chargeRefill_keeps c).1 cl]
    exact (milliCycles_ticks n cl 48).trans (by rw [if_pos hcl]; rfl)

/-! ### An L1 line given up (R244) -/

@[simp] theorem lose_l1 (src : ReadCopy) (hits : Sector → Bool) (who : Nat) : (s.lose src hits who).l1 = s.l1 := by
  unfold State.lose
  split <;> rfl

@[simp] theorem lose_agenda (src : ReadCopy) (hits : Sector → Bool) (who : Nat) : (s.lose src hits who).agenda = s.agenda := by
  unfold State.lose
  split <;> rfl

theorem l1Clean_clean {core line : Nat} {l : L1Line} (hl : s.l1? core line = some l) (hd : l.dirty = 0) : s.l1Clean core line = s := by
  simp [State.l1Clean, hl, hd]

/-- A line that is there, dropped. -/
theorem l1Drop_some {core line : Nat} {l : L1Line} (hl : s.l1? core line = some l) :
    s.l1Drop core line = (s.l1Remove core line).lose (.l1 core) (Sector.inLine line) 0 := by
  rw [State.l1Drop, hl]

/-- Of the L1s, a line removed is gone, and every other is as before. -/
theorem l1?_l1Remove (core line core' line' : Nat) :
    (s.l1Remove core line).l1? core' line' = if (core', line') = (core, line) then none else s.l1? core' line' := by
  unfold State.l1? State.l1Remove
  rw [List.find?_filter]
  split
  · next h =>
    obtain ⟨rfl, rfl⟩ := Prod.mk.inj h
    exact List.find?_eq_none.2 fun l _ => by simp; tauto
  · next h =>
    congr 1
    funext l
    by_cases hl : l.core = core' ∧ l.line = line'
    · obtain ⟨rfl, rfl⟩ := hl
      simpa [Classical.or_iff_not_imp_left] using h
    · have : (l.core == core' && l.line == line') = false := by simpa using hl
      simp [this]

/-- A clean line given up: it is gone, and memory, the agenda and every other line are as before. -/
theorem l1Flush_clean {core line : Nat} {l : L1Line} (hl : s.l1? core line = some l) (hd : l.dirty = 0) :
    (s.l1Flush core line).agenda = s.agenda ∧ (s.l1Flush core line).mem = s.mem ∧
      ∀ core' line', (s.l1Flush core line).l1? core' line' = if (core', line') = (core, line) then none else s.l1? core' line' := by
  have hflush : s.l1Flush core line = (s.l1Remove core line).lose (.l1 core) (Sector.inLine line) 0 := by
    rw [State.l1Flush, l1Clean_clean hl hd, l1Drop_some hl]
  rw [hflush]
  refine ⟨lose_agenda _ _ _, lose_mem _ _ _ _, fun core' line' => ?_⟩
  rw [← l1?_l1Remove, State.l1?, lose_l1, State.l1?]

/-- Settles O58: a step makes the move at the head of the agenda, and each of these moves is as its lemma says. -/
theorem stepsOfTheAgenda : Obligations.StepsOfTheAgenda := by
  unfold Obligations.StepsOfTheAgenda
  refine ⟨?_, fun s rest n ha hcounts => ?_, fun s rest core line l ha hl hd => ?_⟩
  · intro s rest i ha hi u
    refine ⟨fun hc => (step_move ha).trans (eventMove_event hi hc), fun func hc => ?_⟩
    have hmove : step s = _ := (step_move ha).trans (eventMove_command (s := u) hi hc)
    rw [hmove]
    refine ⟨fun hoff => if_pos hoff, fun hon hwaits => ?_, fun hon hwaits => ?_⟩
    · rw [if_neg (Nat.not_lt.2 hon)]
      exact if_pos hwaits
    · rw [if_neg (Nat.not_lt.2 hon)]
      exact if_neg hwaits
  · obtain ⟨hnow, hmem, hagenda, hcycles⟩ := elapse_spec (s := { s with agenda := rest }) n hcounts
    exact ⟨_, step_move ha, hnow, hmem, hagenda, hcycles⟩
  · obtain ⟨hagenda, hmem, hlines⟩ := l1Flush_clean (s := { s with agenda := rest }) hl hd
    exact ⟨_, step_move ha, hagenda, (hlines core line).trans (if_pos rfl), hmem, fun core' line' hne => (hlines core' line').trans (if_neg hne)⟩

end Sys2Proof.Machine
end
section
/-!
PROOF. Memory and area instructions (O29, O30, refuted): no hypothesis says that the number which the next new object gets is not in use, and a producer
or a copy that already has it is taken for the new one.
-/

namespace Sys2Proof.Machine

/-! ### The bench about to issue -/

/-- The bench with its strand about to issue, and a burst held by every quadrant. The next new object gets number 16. -/
def issueState : State :=
  { State.reset.bench false [] with
    cur := 3, cores := [{ n := 0, replay := vtab 4 fun _ => [], burst := vtab 4 fun _ => 64, burstFrom := vtab 4 fun _ => 0 }] }

/-- The group of the bench's strand. -/
def issueGroup : Group := { startGroup 2 1 0 0 0 5 4096 0x30000 with mapSeen := 1 }

/-- The environment of the bench's strand. -/
def issueEnv : Env :=
  { group := 2, team := 1, launch := 6, ctx := 1, hdr := benchHeader, base := benchBase, level := 5, conf := false, feed := false }

/-- The bench with producers and copies of other strands. -/
def besides (prods : List Producer) (copies : List Copy) : State := { issueState with prods := prods, copies := copies }

section
variable (prods : List Producer) (copies : List Copy)

theorem ctx_besides : (besides prods copies).ctx? issueEnv.ctx = some benchCtx := rfl

theorem group_besides : (besides prods copies).group? issueEnv.group = some issueGroup := rfl

theorem noCounters_besides {c : Ctx} (h : (besides prods copies).ctx? 1 = some c) :
    c.trace.on = false ∧ ∀ n, 11 ≤ n → n < 16 → (vget c.select n 0).extractLsb' 0 16 ≠ 1 := by
  obtain rfl : benchCtx = c := Option.some.inj ((ctx_besides prods copies).symm.trans h)
  refine ⟨rfl, fun n hlo hhi => ?_⟩
  rw [show vget benchCtx.select n 0 = 0 from vget_vtab 16 n _ 0 hhi]
  decide

/-- Whatever producers and copies there are besides, a legal instruction of the base features that names plain registers issues in calm. -/
theorem calm_besides {f : Form} (hlegal : (f.enc.legal f.x && f.litOk) = true) (hunit : f.foreign false = false) (hneeds : f.needs = 0)
    (hplain : ∀ n ∈ f.vregs, (benchStrand.reg n).plain = true) : Calm (besides prods copies) benchStrand issueEnv f where
  cur := rfl
  env := rfl
  ready := rfl
  live := by decide
  legal := hlegal
  unit := hunit
  declared := by rw [hneeds]; simp
  present := by rw [hneeds]; simp
  noCont := rfl
  noForks := rfl
  oneLane := nofun
  burst _ := (by decide +kernel : 0 < issueState.burstLeft 0 0)
  noShadow := rfl
  noDetector := ⟨by decide, rfl⟩
  noCounters _ h := noCounters_besides prods copies h
  plain := hplain
  room := by decide +kernel

end

/-! ### A load beside a producer that has the number of its own -/

/-- LD of v8 from b2 and v9. -/
def namesakeLoad : W0 := { wa := true, a := 2, b := 9, d := 8 }

/-- A producer of the tile strand with the number that the load's producer gets: the load itself is number 16. -/
def namesakeProducer : Producer := { id := 17, strand := 4, mask := 1, uniform := true, dests := [(0, Lanes.const 0)], waiting := [] }

/-- In the model the access of the load, number 18, is waited for by every producer numbered 17. -/
theorem exec_namesakeLoad :
    (match exec (.ld namesakeLoad) (besides [namesakeProducer] []) with
      | .next t => t.prods.head?.map (·.waiting)
      | _ => none) = some [18] := by
  decide +kernel

/-- By the statement, producers that were there stay as they were. -/
theorem Plan.Done.prods {p : Plan} {s t : State} {st : Strand} {e : Env} (h : p.Done s st e t) : ∃ ps, t.prods = s.prods ++ ps := by
  obtain ⟨st', new, ps, honly, -⟩ := h.out
  exact ⟨ps, by rw [honly.same]; rfl⟩

/-- Refutes O29, in LD: a producer of another strand has the number that the machine gives the load's producer. The load's access is added to what that
producer waits for, and by the statement it waits for what it waited for before. No hypothesis keeps the numbers apart. -/
theorem not_memoryInstructionsIssue : ¬ Obligations.MemoryInstructionsIssue := by
  unfold Obligations.MemoryInstructionsIssue
  intro issues
  have hcalm : Calm (besides [namesakeProducer] []) benchStrand issueEnv (Form.b32 Enc.ld' namesakeLoad) :=
    calm_besides _ _ (by decide) (by decide) (by decide) (by decide)
  obtain ⟨t, hexec, hdone⟩ := issues _ _ _ _ _ (.ld namesakeLoad) _ (ctx_besides _ _) (group_besides _ _) rfl (by decide +kernel) hcalm
  obtain ⟨ps, hprods⟩ := hdone.prods
  have hwaits : t.prods.head?.map (·.waiting) = some [18] := by simpa only [hexec] using exec_namesakeLoad
  rw [hprods] at hwaits
  exact absurd (Option.some.inj hwaits : namesakeProducer.waiting = [18]) (by decide)

/-! ### A copy of no bytes beside a copy that has its number -/

/-- CPY by b0 to b3, which are 0: no rows. -/
def namesakeCpy : X96 := { w0 := { d := 8, wa := true } }

/-- A copy of the tile strand with the number that the CPY's copy gets, which still waits for charge. -/
def namesakeCopy : Copy :=
  { id := 16, strand := 4, ctx := 1, group := 2, src := 0, dst := 0x100, rows := 1, rowLen := 4, sstr := 0, dstr := 0, ctl := 0
    windows := benchCtx.windows, srcGroup := 2, dstGroup := 2, bursts := 1 }

/-- In the model the step that completes copy 16 finds the older one, which cannot complete, and the copy of no bytes stays. -/
theorem exec_namesakeCpy :
    (match exec (.cpy namesakeCpy) (besides [] [namesakeCopy]) with
      | .next t => t.copies.map (·.bursts)
      | _ => []) = [1, 0] := by
  decide +kernel

/-- What a plan leaves of the copies is what its base state has. -/
theorem Plan.Done.copies {p : Plan} {s t : State} {st : Strand} {e : Env} (h : p.Done s st e t) : t.copies = p.base.copies := by
  obtain ⟨st', new, ps, honly, -⟩ := h.out
  rw [honly.same]
  rfl

/-- Refutes O30, in CPY: a copy of another strand has the number that the machine gives a copy of no bytes. The new copy stays in the queue, and by the
statement it completes at once. No hypothesis keeps the numbers apart. -/
theorem not_areaInstructions : ¬ Obligations.AreaInstructions := by
  unfold Obligations.AreaInstructions
  intro issues
  have hcalm : Calm (besides [] [namesakeCopy]) benchStrand issueEnv (Form.x96 Enc.cpy' namesakeCpy) :=
    calm_besides _ _ (by decide) (by decide) (by decide) (by decide)
  obtain ⟨t, hexec, hdone⟩ := issues _ _ _ _ _ (.cpy namesakeCpy) _ (ctx_besides _ _) (group_besides _ _) rfl (by decide +kernel) hcalm
  have hstays : t.copies.map (·.bursts) = [1, 0] := by simpa only [hexec] using exec_namesakeCpy
  rw [hdone.copies] at hstays
  have hbase : (planCpy (besides [] [namesakeCopy]) benchStrand issueEnv benchCtx issueGroup (Form.x96 Enc.cpy' namesakeCpy)).base.copies =
      [namesakeCopy] := by
    decide +kernel
  rw [hbase] at hstays
  exact absurd hstays (by decide)

end Sys2Proof.Machine
end
section
/-!
PROOF. Bytes of wide values and the numbers they make (R6), for the lines of the L1s and for what a load delivers.
-/

namespace Sys2Proof.Machine

/-! ### Bytes of wide values -/

theorem byteAt_getLsbD {w : Nat} (x : BitVec w) (j k : Nat) : (byteAt x j).getLsbD k = (decide (k < 8) && x.getLsbD (8 * j + k)) := by
  rw [byteAt, BitVec.getLsbD_extractLsb']

/-- A number below 2^8 moved to byte `i`, bit by bit. -/
theorem getLsbD_ofNat_byte (w n i k : Nat) :
    (BitVec.ofNat w (n * 2 ^ (8 * i))).getLsbD k = (decide (k < w) && (decide (8 * i ≤ k) && n.testBit (k - 8 * i))) := by
  rw [BitVec.getLsbD_ofNat, Nat.testBit_mul_two_pow]

/-- A byte read after a byte was replaced. -/
theorem byteAt_putByte {w : Nat} (x : BitVec w) {i : Nat} (j : Nat) (b : Byte) (hi : 8 * (i + 1) ≤ w) :
    byteAt (putByte x i b) j = if j = i then b else byteAt x j := by
  have hmask (k : Nat) : (255 : Nat).testBit k = decide (k < 8) := Nat.testBit_two_pow_sub_one 8 k
  refine BitVec.eq_of_getLsbD_eq fun k hk => ?_
  rw [byteAt_getLsbD, putByte, BitVec.getLsbD_or, BitVec.getLsbD_and, BitVec.getLsbD_not, getLsbD_ofNat_byte, getLsbD_ofNat_byte, hmask]
  split
  · next h =>
    subst h
    simp [hk, show 8 * j + k < w by omega, BitVec.testBit_toNat]
  · next h =>
    have hout : 8 * i ≤ 8 * j + k → ¬ 8 * j + k - 8 * i < 8 := by omega
    have hbit : 8 * i ≤ 8 * j + k → b.toNat.testBit (8 * j + k - 8 * i) = false := fun hle =>
      Nat.testBit_lt_two_pow (b.isLt.trans_le (Nat.pow_le_pow_right (by decide) (by omega)))
    rw [byteAt_getLsbD]
    by_cases hle : 8 * i ≤ 8 * j + k
    · simpa [hk, hout hle, hbit hle, hle] using fun h => BitVec.lt_of_getLsbD h
    · simpa [hk, hle] using fun h => BitVec.lt_of_getLsbD h

/-- A run of bytes put one by one from byte `base` on, and one read. -/
theorem byteAt_putBytes {w : Nat} (x : BitVec w) (f : Nat → Byte) (base n j : Nat) (hn : 8 * (base + n) ≤ w) :
    byteAt ((List.range n).foldl (fun d i => putByte d (base + i) (f i)) x) j =
      if base ≤ j ∧ j < base + n then f (j - base) else byteAt x j := by
  induction n with
  | zero => simp
  | succ n ih =>
    rw [List.range_succ, List.foldl_append, List.foldl_cons, List.foldl_nil, byteAt_putByte _ _ _ (by omega), ih (by omega)]
    by_cases hj : j = base + n
    · subst hj; simp
    · rw [if_neg hj]
      exact if_congr (by omega) rfl rfl

/-- A run of bits set one by one. -/
theorem getLsbD_setBits {w : Nat} (x : BitVec w) (base n k : Nat) (hk : k < w) :
    ((List.range n).foldl (fun d i => setBit d (base + i)) x).getLsbD k = (x.getLsbD k || decide (base ≤ k ∧ k < base + n)) := by
  induction n with
  | zero => simp
  | succ n ih =>
    rw [List.range_succ, List.foldl_append, List.foldl_cons, List.foldl_nil, setBit_getLsbD, ih, Bool.or_assoc]
    congr 1
    rw [decide_eq_true hk, Bool.true_and, ← Bool.decide_or, decide_eq_decide]
    omega

/-! ### Values of bytes -/

theorem byte_natLE (bs : List Byte) (i : Nat) : BitVec.ofNat 8 (natLE bs / 256 ^ i) = bs.getD i 0 := by
  induction bs generalizing i with
  | nil => simp [natLE]
  | cons b bs ih =>
    cases i with
    | zero =>
      refine BitVec.eq_of_toNat_eq ?_
      have := b.isLt
      simp [natLE]
      omega
    | succ i =>
      rw [List.getD_cons_succ, ← ih, natLE, Nat.pow_succ', ← Nat.div_div_eq_div_mul]
      congr 2
      have := b.isLt
      omega

/-- An element that took no byte from a store buffer has the value of the bytes it read. -/
theorem overlay_natLE {e : Elem} {bs : List Byte} (h2 : e.data2 = 0) (hlen : bs.length = e.width) : e.overlay (natLE bs) = natLE bs := by
  unfold Elem.overlay
  congr 1
  refine List.ext_getElem (by simp [hlen]) fun i hi _ => ?_
  have hbs : i < bs.length := by simpa [hlen] using hi
  simp [h2, byte_natLE, hbs]

end Sys2Proof.Machine
end
section
/-!
PROOF. What stands between a core and memory, and what the L1 does of an access where it is nothing or lines of the core's own (R244, R249).
-/

namespace Sys2Proof.Machine

variable {s : State} {core : Nat}

/-! ### Memory with the L1 of one core before it -/

/-- Of the L1s only a core's own holds lines, which are not poisoned, and nothing else stands between the core and memory. -/
structure Own (s : State) (core : Nat) : Prop where
  l1 : ∀ l ∈ s.l1, l.core = core ∧ l.poison = 0
  zero : s.zeroLines = []
  poison : s.poison = []
  conts : ∀ st ∈ s.strands, st.cont = none

theorem Bare.own (h : Bare s) (core : Nat) : Own s core := ⟨by simp [h.l1], h.zero, h.poison, h.conts⟩

theorem Own.mem (h : Own s core) (m : Memory) : Own { s with mem := m } core := ⟨h.l1, h.zero, h.poison, h.conts⟩

theorem Own.dropOthers (h : Own s core) (line : Nat) : s.dropOthers core line = s := by
  have hnone : (s.l1.filter fun l => l.line == line && l.reg && l.core != core) = [] :=
    List.filter_eq_nil_iff.2 fun l hl => by simp [(h.l1 l hl).1]
  simp [State.dropOthers, hnone]

theorem Own.clearCovered (h : Own s core) (who : Nat) (rs : List (Nat × Nat)) : s.clearCovered who rs = s := by
  have hclean : (s.l1.all fun l => l.poison == 0) = true := List.all_eq_true.2 fun l hl => by simp [(h.l1 l hl).2]
  rw [State.clearCovered, h.poison, hclean]
  rfl

theorem Own.clearWhole (h : Own s core) (a : Access) : s.clearWhole a = s := by
  unfold State.clearWhole
  dsimp only
  split
  · rfl
  · exact h.clearCovered _ _

/-- What a write at home comes to once its bytes are put. -/
theorem Own.homeStore_put (h : Own s core) {who ia : Nat} {sys : Bool} {bytes : List Byte} {m : Memory} (hsys : homeOf ia = 4 → sys = true ∧ s.h4 = [])
    (hput : (List.range bytes.length).foldl (fun t i => t.homePut sys (ia + i) (bytes.getD i 0)) s = { s with mem := m }) :
    s.homeStore core who sys ia bytes = { s with mem := m } := by
  have hdrop : ∀ lines : List Nat, lines.foldl (fun t l => t.dropOthers core l) s = s := fun lines => foldl_still fun l _ => h.dropOthers l
  have hslice : ∀ lines : List Nat, (if homeOf ia = 4 then lines.foldl (if sys then State.h4Sys else State.sliceRoom) s else s) = s := fun lines => by
    split
    · next h4 =>
      obtain ⟨rfl, hnil⟩ := hsys h4
      exact foldl_still fun l _ => by
        cases s
        simp_all [State.h4Sys, State.h4Clean, State.h4Drop]
    · rfl
  unfold State.homeStore
  dsimp only
  rw [hdrop, hslice, hput]
  dsimp only
  rw [if_pos (by rw [h.zero]; rfl)]
  exact lose_clearTags_still (s := { s with mem := m }) h.poison h.conts _ _ _ _ _

theorem Own.homeStore (h : Own s core) {who ia : Nat} {sys : Bool} {bytes : List Byte} (hhome : homeOf ia < 4) (hplain : PlainBytes s ia bytes.length) :
    s.homeStore core who sys ia bytes = { s with mem := s.mem.putList ia bytes } :=
  h.homeStore_put (fun h4 => by omega) (homePuts_plain hplain)

theorem countLost_home {ia : Nat} (hhome : homeOf ia < 4) : s.countLost ia = s := by
  simp [State.countLost, hhome]

theorem Own.homeWrite (h : Own s core) {who ia : Nat} {sys : Bool} {bytes : List Byte} (hhome : homeOf ia < 4) (hplain : PlainBytes s ia bytes.length) :
    s.homeWrite core who sys ia bytes = { s with mem := s.mem.putList ia bytes } := by
  rw [State.homeWrite, countLost_home hhome, h.homeStore hhome hplain]

/-! ### Plain memory -/

/-- With one byte of a line every other is plain. -/
theorem plain_line {x y : Nat} (hline : y / 128 = x / 128) (h : homeOf x < 4 ∧ s.inMapPage x = false ∧ s.reachable x = true) :
    homeOf y < 4 ∧ s.inMapPage y = false ∧ s.reachable y = true := by
  have hhome : homeOf y = homeOf x := by unfold homeOf; omega
  have hpage : pageOf y = pageOf x := by unfold pageOf; omega
  unfold State.inMapPage State.reachable sliceDie at *
  rw [hhome, hpage]
  rw [if_neg (by omega)] at h ⊢
  exact h

/-- A range of plain bytes makes its first line plain. -/
theorem PlainBytes.line {ia n : Nat} (h : PlainBytes s ia n) (hn : 0 < n) : PlainBytes s (128 * (ia / 128)) 128 := fun i hi =>
  plain_line (x := ia + 0) (by omega) (h 0 hn)

theorem PlainBytes.byte {ia n x : Nat} (h : PlainBytes s ia n) (hlo : ia ≤ x) (hhi : x < ia + n) :
    homeOf x < 4 ∧ s.inMapPage x = false ∧ s.reachable x = true := by
  have := h (x - ia) (by omega)
  rwa [Nat.add_sub_cancel' hlo] at this

theorem PlainBytes.home {ia n : Nat} (h : PlainBytes s ia n) (hn : 0 < n) : homeOf ia < 4 := (h 0 hn).1

theorem PlainBytes.homePoison {ia n : Nat} (h : PlainBytes s ia n) (hn : 0 < n) (hpoison : s.poison = []) : s.homePoison ia = false := by
  simp [State.homePoison, hpoison, show s.reachable ia = true from (h 0 hn).2.2]

/-- Plain bytes read at home are those of memory. -/
theorem PlainBytes.homeBytes {ia n : Nat} (h : PlainBytes s ia n) (sys : Bool) : (List.range n).map (fun i => s.homeByte sys (ia + i)) = s.mem.getList ia n :=
  List.map_congr_left fun i hi => by
    obtain ⟨hhome, hmap, -⟩ := h i (List.mem_range.1 hi)
    exact homeByte_plain hhome hmap

/-! ### What the L1 does of an access, with no line there -/

namespace Bare

variable (h : Bare s)
include h

theorem mem (m : Memory) : Bare { s with mem := m } := ⟨h.l1, h.zero, h.poison, h.conts⟩

theorem l1? (core line : Nat) : s.l1? core line = none := by simp [State.l1?, h.l1]

theorem l1Flush (core line : Nat) : s.l1Flush core line = s := by simp [State.l1Flush, State.l1Clean, State.l1Drop, h.l1?]

theorem l1Drop (core line : Nat) : s.l1Drop core line = s := by simp [State.l1Drop, h.l1?]

theorem l1Release (core : Nat) (scope : Scope) : s.l1Release core scope = s := by simp [State.l1Release, h.l1]

theorem l1Acquire (core : Nat) (scope : Scope) : s.l1Acquire core scope = s := by simp [State.l1Acquire, h.l1]

theorem l1Room (core line : Nat) : s.l1Room core line = s := by simp [State.l1Room, h.l1, l1Lines]

theorem l1Put (l : L1Line) : s.l1Put l = { s with l1 := [l] } := by simp [State.l1Put, State.l1Remove, h.l1]

theorem lose (src : ReadCopy) (hits : Sector → Bool) (who : Nat) : s.lose src hits who = s := lose_noConts h.conts src hits who

theorem clearWhole (a : Access) : s.clearWhole a = s := (h.own 0).clearWhole a

theorem homeWrite {who ia : Nat} {sys : Bool} {bytes : List Byte} (hhome : homeOf ia < 4) (hplain : PlainBytes s ia bytes.length) (core : Nat) :
    s.homeWrite core who sys ia bytes = { s with mem := s.mem.putList ia bytes } := (h.own core).homeWrite hhome hplain

/-- A store that is to go past its group, or to store order, goes to memory. -/
theorem storeElem {who ia : Nat} {wk : WKind} {scope : Scope} {bytes : List Byte} (hwide : wk = .so ∨ scope ≠ .group) (hhome : homeOf ia < 4)
    (hplain : PlainBytes s ia bytes.length) (core : Nat) :
    s.storeElem core who wk scope ia bytes = { s with mem := s.mem.putList ia bytes } := by
  unfold State.storeElem
  dsimp only
  split
  · rw [h.l1Flush, h.homeWrite hhome hplain]
  · next hso =>
    have hscope : (scope == .group) = false := by simpa using hwide.resolve_left (by simpa using hso)
    rw [hscope, if_neg Bool.false_ne_true, h.l1?]
    exact h.homeWrite hhome hplain core

theorem atomPrepare {wk : WKind} {scope : Scope} {ia : Nat} (hhome : homeOf ia < 4) (core : Nat) : s.atomPrepare core wk scope ia = s := by
  have h4 : (decide (homeOf ia = 4) && scope == .system) = false := by simp; omega
  unfold State.atomPrepare
  dsimp only
  rw [h4, if_neg Bool.false_ne_true, h.l1?]

theorem atomWrite {who ia : Nat} {scope : Scope} {bytes : List Byte} (hhome : homeOf ia < 4) (hplain : PlainBytes s ia bytes.length) (core : Nat) :
    s.atomWrite core who scope ia bytes = { s with mem := s.mem.putList ia bytes } := by
  rw [State.atomWrite, h.l1?]
  exact h.homeWrite hhome hplain core

end Bare

/-! ### Accesses that act on memory itself (R249, R257, R262) -/

/-- An access taken out of the flight. -/
def State.landed (s : State) (a : Access) : State := { s with flight := s.flight.filter fun b => b.id != a.id }

theorem Bare.landed (h : Bare s) (a : Access) : Bare (s.landed a) := ⟨h.l1, h.zero, h.poison, h.conts⟩

theorem trackFor_committed {a : Access} (hspec : a.spec = false) (secs : List Sector) (copy : ReadCopy) : s.trackFor a secs copy = s := by
  rw [State.trackFor, hspec]
  rfl

/-- A step of a release or an acquire that leaves the state may be left out. -/
theorem ite_still {c : Bool} {t : State} (h : t = s) : (if c = true then t else s) = s := by
  rw [h, ite_self]

/-- A slice that holds no line has room. -/
theorem sliceRoom_empty (hzero : s.zeroLines = []) (h4 : s.h4 = []) (line : Nat) : s.sliceRoom line = s := by
  have hroom : s.zeroLines.length + s.h4.length < sliceLines := by
    rw [hzero, h4]
    decide
  unfold State.sliceRoom
  dsimp only
  rw [if_pos hroom]

section
variable (h : Bare s) {a : Access} {e : Elem} (hwidth : 0 < e.width) (hplain : PlainBytes s e.addr e.width)
include h hwidth hplain

theorem performLoad_storeOrder (hspec : a.spec = false) (hso : a.wk = .so) (h2 : e.data2 = 0) :
    s.performLoad a e = s.deliverTo a [(e, memValue s e.addr e.width)] false := by
  have hhome := hplain.home hwidth
  have hne : homeOf e.addr ≠ 4 := by omega
  have hload : s.loadElem a.core a.wk a.scope e.addr e.width = (s, { value := memValue s e.addr e.width, poison := false, copy := .home }) := by
    unfold State.loadElem
    dsimp only
    rw [h.l1Flush, ite_self, if_neg hne, hso, hplain.homeBytes, hplain.homePoison hwidth h.poison]
    rfl
  have hmiss : s.l1Misses a.core a.wk a.scope e.addr e.width = 0 := by rw [hso]; rfl
  unfold State.performLoad
  dsimp only
  rw [hload, hmiss]
  dsimp only
  rw [if_pos rfl, ite_still (h.l1Acquire _ _), trackFor_committed hspec, memValue, overlay_natLE h2 (getList_length _ _ _)]

/-- A read-modify-write step: the new value, if there is one, is written, and the old one delivered. -/
theorem performAtom_bare (f : Nat → Option Nat) :
    s.performAtom a e f =
      (match f (memValue s e.addr e.width) with
        | some v => ({ s with mem := s.mem.putList e.addr (bytesLE e.width v) } : State)
        | none => s).deliverTo a [(e, memValue s e.addr e.width)] false := by
  have hhome := hplain.home hwidth
  unfold State.performAtom
  dsimp only
  rw [ite_still (h.l1Release _ _), h.atomPrepare hhome, hplain.homeBytes, hplain.homePoison hwidth h.poison, ← memValue]
  cases f (memValue s e.addr e.width) with
  | none =>
    dsimp only
    rw [ite_still (h.l1Acquire _ _)]
  | some v =>
    dsimp only
    rw [h.atomWrite hhome (by rwa [bytesLE_length]), ite_still ((h.mem _).l1Acquire _ _)]

theorem performZero_bare (h4 : s.h4 = []) (who core : Nat) :
    s.performZero core who e.addr =
      { s with mem := s.mem.putList (128 * (e.addr / 128)) (List.replicate 128 0), zeroLines := [e.addr / 128] } := by
  have hline := hplain.line hwidth
  obtain ⟨-, hmap, hreach⟩ := hplain 0 hwidth
  rw [Nat.add_zero] at hmap hreach
  unfold State.performZero
  dsimp only
  rw [h.l1Drop, lineOf, h.homeWrite (hline.home (by decide)) (by rwa [List.length_replicate])]
  generalize s.mem.putList (128 * (e.addr / 128)) (List.replicate 128 0) = m
  have hthere : (({ s with mem := m } : State).reachable e.addr && !({ s with mem := m } : State).inMapPage e.addr) = true := by
    rw [show ({ s with mem := m } : State).reachable e.addr = true from hreach, show ({ s with mem := m } : State).inMapPage e.addr = false from hmap]
    rfl
  rw [if_pos hthere, sliceRoom_empty (s := { s with mem := m }) h.zero h4, h.zero]

end

end Sys2Proof.Machine
end
section
/-!
PROOF. The event that performs an access, and its effect where nothing stands between it and memory (R249, R256-R270).
-/

namespace Sys2Proof.Machine

variable {s t : State} {a : Access} {e : Elem}

/-! ### The event that performs an access (R249, R256, R269) -/

theorem performIf_found {p : Access → Bool} (hfind : s.flight.find? (fun b => b.id == a.id) = some a) (hp : p a = true)
    (hcan : s.canPerform a = true) : s.performIf a.id p = s.perform a := by
  simp [State.performIf, hfind, hp, hcan]

theorem exec_performs {i : Instr} (hi : performs a i) (hfind : s.flight.find? (fun b => b.id == a.id) = some a) (hcan : s.canPerform a = true) :
    exec i s = .next (s.perform a) := by
  unfold performs at hi
  split at hi
  · next hpub =>
    subst hi
    exact congrArg Host.Outcome.next (performIf_found (p := Access.isPublish) hfind hpub hcan)
  · next hpub =>
    split at hi
    · next hheld =>
      subst hi
      exact congrArg Host.Outcome.next (performIf_found (p := Access.isHeldRelease) hfind hheld hcan)
    · next hheld =>
      subst hi
      exact congrArg Host.Outcome.next
        (performIf_found (p := fun a => !a.isHeldRelease && !a.isPublish) hfind (by simp [hheld, hpub]) hcan)

/-! ### What each kind of access is (R249) -/

section
variable (he : a.elems = [e])
include he

theorem perform_load (hk : a.kind = .load) : s.perform a = (s.landed a).performLoad a e := by
  simp only [State.perform, hk, he, ← State.landed.eq_def, List.foldl_cons, List.foldl_nil]

theorem perform_store (hk : a.kind = .store) :
    s.perform a = ((if a.releases then (s.landed a).l1Release a.core a.scope else s.landed a).storeElem a.core a.strand a.wk a.scope e.addr
      (bytesLE e.width e.data)).clearWhole a := by
  simp only [State.perform, hk, he, ← State.landed.eq_def, List.foldl_cons, List.foldl_nil]

theorem perform_atom {fn : Nat} {ty : Ty} (hk : a.kind = .atom fn ty) :
    s.perform a = (s.landed a).performAtom a e fun old => some (atomOp fn ty old e.data) := by
  simp only [State.perform, hk, he, ← State.landed.eq_def, List.foldl_cons, List.foldl_nil]

theorem perform_cas (hk : a.kind = .cas) :
    s.perform a = (s.landed a).performAtom a e fun old => if old = e.data then some e.data2 else none := by
  simp only [State.perform, hk, he, ← State.landed.eq_def, List.foldl_cons, List.foldl_nil]

theorem perform_prefL2 (hk : a.kind = .prefL2) : s.perform a = (s.landed a).h4Take (lineOf e.addr) := by
  simp only [State.perform, hk, he, ← State.landed.eq_def, List.foldl_cons, List.foldl_nil]

theorem perform_prefZero (hk : a.kind = .prefZero) : s.perform a = (s.landed a).performZero a.core a.strand e.addr := by
  simp only [State.perform, hk, he, ← State.landed.eq_def, List.foldl_cons, List.foldl_nil]

theorem perform_cwb {n : Nat} (hk : a.kind = .cwb n) : s.perform a = (s.landed a).performCwb a.core n a.scope e.addr := by
  simp only [State.perform, hk, he, ← State.landed.eq_def, List.foldl_cons, List.foldl_nil]

end

/-- What a fence does of a state it has left the flight of. -/
def State.fenced (s : State) (a : Access) (n : Nat) : State :=
  let s := if n != 1 then s.l1Release a.core a.scope else s
  if n != 2 then s.l1Acquire a.core a.scope else s

theorem perform_fence {n : Nat} (hk : a.kind = .fence n) : s.perform a = (s.landed a).fenced a n := by
  simp only [State.perform, hk, ← State.landed.eq_def]
  rfl

theorem perform_order (hk : a.kind = .order) : s.perform a = s.landed a := by
  simp only [State.perform, hk, ← State.landed.eq_def]

/-- What an XFENCE does of a state it has left the flight of, before it is acknowledged. -/
def State.xfenced (s : State) (a : Access) (src dst : Nat) : State :=
  let sc := if a.scope == .group then .cluster else a.scope
  let s := if src % 2 = 1 then s.l1Release a.core sc else s
  if dst % 2 = 1 then s.l1Acquire a.core sc else s

theorem perform_xfence {src dst : Nat} (hk : a.kind = .xfence src dst) : s.perform a = ((s.landed a).xfenced a src dst).deliverTo a [] false := by
  simp only [State.perform, hk, ← State.landed.eq_def]
  rfl

/-! ### With nothing between the access and memory (R249, R257, R262, R265) -/

theorem h4Take_home {ia : Nat} (hhome : homeOf ia < 4) : s.h4Take (lineOf ia) = s := by
  have hne : homeOf (128 * lineOf ia) ≠ 4 := by
    unfold homeOf lineOf at *
    omega
  simp [State.h4Take, hne]

theorem Bare.fenced (h : Bare s) (a : Access) (n : Nat) : s.fenced a n = s := by
  unfold State.fenced
  dsimp only
  rw [ite_still (h.l1Release _ _), ite_still (h.l1Acquire _ _)]

theorem Bare.xfenced (h : Bare s) (a : Access) (src dst : Nat) : s.xfenced a src dst = s := by
  unfold State.xfenced
  dsimp only
  rw [h.l1Release, ite_self, h.l1Acquire, ite_self]

/-- An access performed where nothing stands between it and memory. -/
theorem perform_bare (h : Bare s) (hspec : a.spec = false)
    (hplain : ∀ e ∈ a.elems, 0 < e.width ∧ PlainBytes s e.addr e.width ∧ e.addr % 128 + e.width ≤ 128)
    (hrule : performRule (s.landed a) a = some t) : s.perform a = t := by
  have hu : Bare (s.landed a) := h.landed a
  have helem {e : Elem} (he : a.elems = [e]) : 0 < e.width ∧ PlainBytes (s.landed a) e.addr e.width := by
    obtain ⟨hwidth, hbytes, -⟩ := hplain e (by simp [he])
    exact ⟨hwidth, hbytes⟩
  unfold performRule at hrule
  split at hrule
  · next e hk he =>
    obtain ⟨hwidth, hbytes⟩ := helem he
    split at hrule
    · next hcond =>
      obtain ⟨hso, h2⟩ := hcond
      rw [perform_load he hk, performLoad_storeOrder hu hwidth hbytes hspec hso h2]
      exact Option.some.inj hrule
    · cases hrule
  · next e hk he =>
    obtain ⟨hwidth, hbytes⟩ := helem he
    split at hrule
    · next hwide =>
      rw [perform_store he hk, ite_still (hu.l1Release _ _), hu.storeElem hwide (hbytes.home hwidth) (by rwa [bytesLE_length]), (hu.mem _).clearWhole]
      exact Option.some.inj hrule
    · cases hrule
  · next fn ty e hk he =>
    obtain ⟨hwidth, hbytes⟩ := helem he
    rw [perform_atom he hk, performAtom_bare hu hwidth hbytes]
    exact Option.some.inj hrule
  · next e hk he =>
    obtain ⟨hwidth, hbytes⟩ := helem he
    rw [perform_cas he hk, performAtom_bare hu hwidth hbytes, ← Option.some.inj hrule]
    by_cases hold : memValue (s.landed a) e.addr e.width = e.data
    · rw [if_pos hold, if_pos hold]
    · rw [if_neg hold, if_neg hold]
  · next n hk _ =>
    rw [perform_fence hk, hu.fenced]
    exact Option.some.inj hrule
  · next hk _ =>
    rw [perform_order hk]
    exact Option.some.inj hrule
  · next src dst hk _ =>
    rw [perform_xfence hk, hu.xfenced]
    exact Option.some.inj hrule
  · next e hk he =>
    obtain ⟨hwidth, hbytes⟩ := helem he
    rw [perform_prefL2 he hk, h4Take_home (hbytes.home hwidth)]
    exact Option.some.inj hrule
  · next e hk he =>
    obtain ⟨hwidth, hbytes⟩ := helem he
    split at hrule
    · next h4 =>
      rw [perform_prefZero he hk, performZero_bare hu hwidth hbytes h4]
      exact Option.some.inj hrule
    · cases hrule
  · cases hrule

end Sys2Proof.Machine
end
section
/-!
PROOF. A load that fills a line of an empty L1 (R244, R249, R253).
-/

namespace Sys2Proof.Machine

variable {s : State} {l : L1Line}

/-! ### A load through an empty L1 (R244, R253) -/

/-- A line with one sector filled from its home. -/
def State.fillSector (s : State) (sys : Bool) (l : L1Line) (k : Nat) : L1Line :=
  if l.valid.getLsbD k then l
  else
    let data := (List.range 32).foldl (fun d i =>
      let j := 32 * k + i
      if l.dirty.getLsbD j then d else putByte d j (s.homeByte sys (128 * l.line + j))) l.data
    { l with valid := setBit l.valid k, data := data
             poison := if s.homePoison (128 * l.line + 32 * k) then setBit l.poison k else l.poison }

theorem l1Fill_eq (s : State) (l : L1Line) (sys : Bool) (secs : List Nat) : s.l1Fill l sys secs = secs.foldl (s.fillSector sys) l := rfl

/-- A line, clean and not poisoned, whose valid sectors hold what memory holds. -/
structure L1Line.Mirrors (l : L1Line) (s : State) : Prop where
  dirty : l.dirty = 0
  poison : l.poison = 0
  bytes : ∀ j, j < 128 → l.valid.getLsbD (j / 32) = true → byteAt l.data j = s.mem.get (128 * l.line + j)

/-- What filling sectors of a line keeps of it: its place and its recorded scope, and the sectors that are there. -/
structure L1Line.Extends (l x : L1Line) : Prop where
  core : l.core = x.core
  line : l.line = x.line
  rs : l.rs = x.rs
  valid : ∀ k, x.valid.getLsbD k = true → l.valid.getLsbD k = true

theorem L1Line.Extends.refl (l : L1Line) : l.Extends l := ⟨rfl, rfl, rfl, fun _ h => h⟩

theorem L1Line.Extends.trans {x y : L1Line} (h : l.Extends x) (h' : x.Extends y) : l.Extends y :=
  ⟨h.core.trans h'.core, h.line.trans h'.line, h.rs.trans h'.rs, fun k hk => h.valid k (h'.valid k hk)⟩

theorem fillSector_extends (sys : Bool) (l : L1Line) {k : Nat} (hk : k < 4) :
    (s.fillSector sys l k).Extends l ∧ (s.fillSector sys l k).valid.getLsbD k = true := by
  unfold State.fillSector
  split
  · next hvalid => exact ⟨.refl l, hvalid⟩
  · exact ⟨⟨rfl, rfl, rfl, fun j hj => by simp [setBit_getLsbD, hj]⟩, by simp [setBit_getLsbD, hk]⟩

section
variable (hpoison : s.poison = []) (hplain : PlainBytes s (128 * l.line) 128)
include hpoison hplain

theorem fillSector_mirrors (h : l.Mirrors s) (sys : Bool) {k : Nat} (hk : k < 4) : (s.fillSector sys l k).Mirrors s := by
  have hclean : s.homePoison (128 * l.line + 32 * k) = false := by
    have hreach := (hplain (32 * k) (by omega)).2.2
    simp [State.homePoison, hpoison, hreach]
  have hdata : ((List.range 32).foldl (fun d i =>
      if l.dirty.getLsbD (32 * k + i) then d else putByte d (32 * k + i) (s.homeByte sys (128 * l.line + (32 * k + i)))) l.data) =
      (List.range 32).foldl (fun d i => putByte d (32 * k + i) (s.mem.get (128 * l.line + (32 * k + i)))) l.data :=
    List.foldl_ext _ _ _ fun d i hi => by
      have := List.mem_range.1 hi
      obtain ⟨hhome, hmap, -⟩ := hplain (32 * k + i) (by omega)
      rw [h.dirty, homeByte_plain hhome hmap, if_neg (by simp)]
  unfold State.fillSector
  split
  · exact h
  · refine ⟨h.dirty, ?_, fun j hj hvalid => ?_⟩
    · dsimp only
      rw [hclean]
      exact h.poison
    · dsimp only at hvalid ⊢
      rw [hdata, byteAt_putBytes _ _ _ _ _ (by omega)]
      split
      · next hin => rw [Nat.add_sub_cancel' hin.1]
      · next hout =>
        have hother : k ≠ j / 32 := by omega
        exact h.bytes j hj (by simpa [setBit_getLsbD, hother] using hvalid)

end

/-- Sectors filled one after the other. -/
theorem l1Fill_mirrors (hpoison : s.poison = []) (sys : Bool) {secs : List Nat} (hsecs : ∀ k ∈ secs, k < 4) (hplain : PlainBytes s (128 * l.line) 128)
    (h : l.Mirrors s) :
    (s.l1Fill l sys secs).Mirrors s ∧ (s.l1Fill l sys secs).Extends l ∧ ∀ k ∈ secs, (s.l1Fill l sys secs).valid.getLsbD k = true := by
  rw [l1Fill_eq]
  induction secs generalizing l with
  | nil => exact ⟨h, .refl l, by simp⟩
  | cons k secs ih =>
    have hk : k < 4 := hsecs k (by simp)
    obtain ⟨hext, hvalid⟩ := fillSector_extends (s := s) sys l hk
    obtain ⟨hmirrors, hext', hrest⟩ := ih (l := s.fillSector sys l k) (fun x hx => hsecs x (by simp [hx])) (by rwa [hext.line])
      (fillSector_mirrors hpoison hplain h sys hk)
    refine ⟨hmirrors, hext'.trans hext, fun x hx => ?_⟩
    rcases List.mem_cons.1 hx with rfl | hx
    · exact hext'.valid _ hvalid
    · exact hrest x hx

theorem mem_sectorsOf {ia n i : Nat} (hi : i < n) (hline : ia % 128 + i < 128) : (ia % 128 + i) / 32 ∈ sectorsOf ia n := by
  refine List.mem_filter.2 ⟨List.mem_range.2 (by omega), Bool.and_eq_true_iff.2 ⟨decide_eq_true ?_, decide_eq_true ?_⟩⟩
  all_goals
    unfold lineOf
    omega

/-- A range of a line that is valid all through reads as memory does. -/
theorem read_mirrors {ia n : Nat} (h : l.Mirrors s) (hline : l.line = lineOf ia) (hin : ia % 128 + n ≤ 128)
    (hvalid : ∀ k ∈ sectorsOf ia n, l.valid.getLsbD k = true) : l.read ia n = (memValue s ia n, false) := by
  have hbytes : ((List.range n).map fun i => byteAt l.data (ia % 128 + i)) = s.mem.getList ia n :=
    List.map_congr_left fun i hi => by
      have hi := List.mem_range.1 hi
      rw [h.bytes _ (by omega) (hvalid _ (mem_sectorsOf hi (by omega))), hline, lineOf, show 128 * (ia / 128) + (ia % 128 + i) = ia + i by omega]
  have hclean : ((sectorsOf ia n).any fun k => l.poison.getLsbD k) = false := by simp [h.poison]
  rw [L1Line.read, hbytes, hclean, memValue]

/-- A load at a scope, not store order, with no line in the L1s: it leaves the line there, filled at its scope. -/
theorem loadElem_bare (h : Bare s) (core : Nat) {wk : WKind} (hwk : wk ≠ .so) (scope : Scope) {ia n : Nat} (hn : 0 < n) (hplain : PlainBytes s ia n)
    (hin : ia % 128 + n ≤ 128) :
    ∃ l : L1Line, l.rs = scope.code ∧
      s.loadElem core wk scope ia n = ({ s with l1 := [l] }, { value := memValue s ia n, poison := false, copy := .l1 core }) := by
  have hne : homeOf ia ≠ 4 := by have := hplain.home hn; omega
  have hso : (wk == .so) = false := by simpa using hwk
  let new : L1Line := { core := core, line := lineOf ia, valid := 0, dirty := 0, rs := scope.code, reg := 1 ≤ scope.code, data := 0 }
  obtain ⟨hmirrors, hext, hvalid⟩ := l1Fill_mirrors (l := new) h.poison (scope == .system) (secs := sectorsOf ia n)
    (fun k hk => List.mem_range.1 (List.mem_filter.1 hk).1) (hplain.line hn) ⟨rfl, rfl, fun j _ hj => by simp [new] at hj⟩
  refine ⟨s.l1Fill new (scope == .system) (sectorsOf ia n), hext.rs, ?_⟩
  unfold State.loadElem
  dsimp only
  rw [h.l1Flush, ite_self, if_neg hne, hso, if_neg Bool.false_ne_true, h.l1Room, h.l1?, Option.getD_none, read_mirrors hmirrors hext.line hin hvalid]
  exact congrArg (·, _) (h.l1Put _)

/-- An event that no counter of a context counts leaves the state. -/
theorem count_uncounted {ctx ev : Nat} (h : ∀ c, s.ctx? ctx = some c → c.counts ev = false) (k : Nat) : s.count ctx ev k = s := by
  unfold State.count
  cases hc : s.ctx? ctx with
  | none => rfl
  | some c =>
    have hnone := h c hc
    simp only [Ctx.counts, List.any_eq_false, List.mem_range] at hnone
    exact foldl_still fun i hi => if_neg fun hcond => hnone i (List.mem_range.1 hi) (by simpa [and_comm] using hcond)

/-- Where the L1 of a core holds one line, an acquire as narrow as the line's scope leaves it. -/
theorem l1Acquire_narrow {core : Nat} {scope : Scope} (hl : s.l1 = [l]) (hrs : scope.code ≤ l.rs) : s.l1Acquire core scope = s := by
  have hkeep : (s.l1.filter fun l => l.core == core && l.rs < scope.code) = [] :=
    List.filter_eq_nil_iff.2 fun x hx => by
      obtain rfl : x = l := by simpa [hl] using hx
      simpa using fun _ => hrs
  simp [State.l1Acquire, hkeep]

theorem performLoad_l1 (h : Bare s) {a : Access} {e : Elem} (hspec : a.spec = false) (hwk : a.wk ≠ .so) (h2 : e.data2 = 0) (hwidth : 0 < e.width)
    (hplain : PlainBytes s e.addr e.width) (hin : e.addr % 128 + e.width ≤ 128) (hcount : ∀ c, s.ctx? a.ctx = some c → c.counts 5 = false) :
    ∃ l : L1Line, s.performLoad a e = ({ s with l1 := [l] } : State).deliverTo a [(e, memValue s e.addr e.width)] false := by
  obtain ⟨l, hrs, hload⟩ := loadElem_bare h a.core hwk a.scope hwidth hplain hin
  refine ⟨l, ?_⟩
  unfold State.performLoad
  dsimp only
  rw [hload]
  dsimp only
  rw [count_uncounted (s := { s with l1 := [l] }) hcount, ite_self, ite_still (l1Acquire_narrow rfl hrs.ge), trackFor_committed hspec, memValue,
    overlay_natLE h2 (getList_length _ _ _)]

/-- A load delivers the value of memory, which it leaves. -/
theorem perform_load_bare (h : Bare s) {a : Access} {e : Elem} (hk : a.kind = .load) (he : a.elems = [e]) (hspec : a.spec = false) (h2 : e.data2 = 0)
    (hwidth : 0 < e.width) (hplain : PlainBytes s e.addr e.width) (hin : e.addr % 128 + e.width ≤ 128)
    (hcount : ∀ c, s.ctx? a.ctx = some c → c.counts 5 = false) :
    (s.perform a).prods = ((s.landed a).deliverTo a [(e, memValue s e.addr e.width)] false).prods ∧ (s.perform a).mem = s.mem := by
  have hu := h.landed a
  rw [perform_load he hk]
  by_cases hwk : a.wk = .so
  · rw [performLoad_storeOrder hu hwidth hplain hspec hwk h2]
    exact ⟨rfl, deliverTo_mem _ _ _ _⟩
  · obtain ⟨l, hload⟩ := performLoad_l1 hu hspec hwk h2 hwidth hplain hin hcount
    rw [hload]
    refine ⟨?_, deliverTo_mem _ _ _ _⟩
    unfold State.deliverTo
    split <;> rfl

end Sys2Proof.Machine
end
section
/-!
PROOF. A store that stays in the L1 (R244), and accesses of scratchpads (R209, R223, R231).
-/

namespace Sys2Proof.Machine

variable {s : State} {a : Access}

/-! ### A store that stays in the L1 (R244) -/

/-- A line with bytes written, before sectors written whole are marked. -/
def L1Line.withBytes (l : L1Line) (ia : Nat) (bytes : List Byte) : L1Line :=
  (List.range bytes.length).foldl (fun l i =>
    let j := ia % 128 + i
    { l with data := putByte l.data j (bytes.getD i 0), dirty := setBit l.dirty j }) l

theorem withBytes_keeps {α : Type} (p : L1Line → α) (hp : ∀ (l : L1Line) (d : BitVec 1024) (m : BitVec 128), p { l with data := d, dirty := m } = p l)
    (l : L1Line) (ia : Nat) (bytes : List Byte) : p (l.withBytes ia bytes) = p l :=
  foldl_keeps p (fun _ _ => hp _ _ _) _ _

theorem withBytes_dirty (l : L1Line) (ia : Nat) (bytes : List Byte) :
    (l.withBytes ia bytes).dirty = (List.range bytes.length).foldl (fun d i => setBit d (ia % 128 + i)) l.dirty := by
  unfold L1Line.withBytes
  exact (List.foldl_hom L1Line.dirty fun _ _ => rfl).symm

theorem withBytes_data (l : L1Line) (ia : Nat) (bytes : List Byte) :
    (l.withBytes ia bytes).data = (List.range bytes.length).foldl (fun d i => putByte d (ia % 128 + i) (bytes.getD i 0)) l.data := by
  unfold L1Line.withBytes
  exact (List.foldl_hom L1Line.data fun _ _ => rfl).symm

/-- Marking sectors changes only which are valid and which are poisoned. -/
theorem write_keeps {α : Type} (p : L1Line → α) (hp : ∀ (l : L1Line) (v q : BitVec 4), p { l with valid := v, poison := q } = p l) (l : L1Line) (ia : Nat)
    (bytes : List Byte) : p (l.write ia bytes true) = p (l.withBytes ia bytes) :=
  foldl_keeps p (fun l k => by
    dsimp only
    split
    · exact hp _ _ _
    · rfl) _ _

theorem write_poison {l : L1Line} (h : l.poison = 0) (ia : Nat) (bytes : List Byte) : (l.write ia bytes true).poison = 0 := by
  have hbytes : (l.withBytes ia bytes).poison = 0 := (withBytes_keeps L1Line.poison (fun _ _ _ => rfl) l ia bytes).trans h
  refine List.foldlRecOn (motive := fun x : L1Line => x.poison = 0) _ _ hbytes fun x hx k _ => ?_
  dsimp only
  split
  · simp [hx]
  · exact hx

/-- The line of an L1 that held none, after a store at group scope. -/
def storedLine (a : Access) (e : Elem) : L1Line :=
  { ({ core := a.core, line := lineOf e.addr, valid := 0, dirty := 0, rs := 0, reg := false, data := 0 } : L1Line).write e.addr (bytesLE e.width e.data) true
    with rs := 0, reg := false }

theorem storedLine_place (a : Access) (e : Elem) :
    (storedLine a e).core = a.core ∧ (storedLine a e).line = e.addr / 128 ∧ (storedLine a e).rs = 0 ∧ (storedLine a e).poison = 0 :=
  ⟨(write_keeps L1Line.core (fun _ _ _ => rfl) _ _ _).trans (withBytes_keeps L1Line.core (fun _ _ _ => rfl) _ _ _),
    (write_keeps L1Line.line (fun _ _ _ => rfl) _ _ _).trans (withBytes_keeps L1Line.line (fun _ _ _ => rfl) _ _ _), rfl, write_poison rfl _ _⟩

theorem storedLine_dirty (a : Access) (e : Elem) {k : Nat} (hk : k < 128) :
    (storedLine a e).dirty.getLsbD k = decide (e.addr % 128 ≤ k ∧ k < e.addr % 128 + e.width) := by
  have hdirty : (storedLine a e).dirty = _ := (write_keeps L1Line.dirty (fun _ _ _ => rfl) _ _ _).trans (withBytes_dirty _ _ _)
  rw [hdirty, bytesLE_length, getLsbD_setBits _ _ _ _ hk]
  simp

theorem storedLine_data (a : Access) {e : Elem} (hin : e.addr % 128 + e.width ≤ 128) {k : Nat} (hk : k < e.width) :
    byteAt (storedLine a e).data (e.addr % 128 + k) = (bytesLE e.width e.data).getD k 0 := by
  have hdata : (storedLine a e).data = _ := (write_keeps L1Line.data (fun _ _ _ => rfl) _ _ _).trans (withBytes_data _ _ _)
  rw [hdata, bytesLE_length, byteAt_putBytes _ _ _ _ _ (by omega), if_pos (by omega), Nat.add_sub_cancel_left]

theorem perform_store_group (h : Bare s) {e : Elem} (hk : a.kind = .store) (he : a.elems = [e]) (hwk : a.wk ≠ .so) (hscope : a.scope = .group) :
    s.perform a = { s.landed a with l1 := [storedLine a e] } := by
  have hu := h.landed a
  have hso : (a.wk == .so) = false := by simpa using hwk
  have hgroup : (a.scope == .group) = true := by simpa using hscope
  have hstore : (s.landed a).storeElem a.core a.strand a.wk a.scope e.addr (bytesLE e.width e.data) = { s.landed a with l1 := [storedLine a e] } := by
    unfold State.storeElem
    dsimp only
    rw [hso, if_neg Bool.false_ne_true, hgroup, if_pos rfl, hu.l1Room, hu.l1?, Option.getD_none]
    exact (congrArg (State.lose · _ _ _) (hu.l1Put _)).trans (lose_noConts (s := { s.landed a with l1 := [storedLine a e] }) hu.conts _ _ _)
  have hown : Own { s.landed a with l1 := [storedLine a e] } a.core :=
    ⟨by simp [storedLine_place a e], hu.zero, hu.poison, hu.conts⟩
  rw [perform_store he hk, ite_still (hu.l1Release _ _), hstore, hown.clearWhole]

/-! ### Scratchpads (R209, R223, R231) -/

section
variable (h : Bare s) {g : Nat} {gr : Group} (hg : s.group? g = some gr)
include h hg

theorem perform_scrMark {full : Bool} (hk : a.kind = .scrMark g full) :
    s.perform a = (s.landed a).setGroup (gr.mark (a.elems.map fun e => e.addr / 4) full) := by
  have hu := h.landed a
  have hg' : (s.landed a).group? g = some gr := hg
  simp only [State.perform, hk, ← State.landed.eq_def]
  rw [ite_still (hu.l1Release _ _), hg']
  exact lose_noConts (s := (s.landed a).setGroup _) hu.conts _ _ _

theorem perform_scrStore (hk : a.kind = .scrStore g) (hpoison : gr.poison = []) :
    s.perform a = (s.landed a).setGroup { gr with
      scratch := a.elems.foldl (fun m e => Memory.putList m e.addr (bytesLE e.width e.data)) gr.scratch } := by
  have hu := h.landed a
  have hg' : (s.landed a).group? g = some gr := hg
  have hstored : gr.store a.elems =
      { gr with scratch := a.elems.foldl (fun m e => Memory.putList m e.addr (bytesLE e.width e.data)) gr.scratch } := by
    unfold Group.store
    dsimp only
    rw [hpoison, List.filter_nil, ← hpoison]
  simp only [State.perform, hk, ← State.landed.eq_def]
  rw [ite_still (hu.l1Release _ _), State.scratchStore, hg', ← hstored]
  exact lose_noConts (s := (s.landed a).setGroup _) hu.conts _ _ _

theorem perform_scrLoad (hk : a.kind = .scrLoad g) (hspec : a.spec = false) (hpoison : gr.poison = []) (h2 : ∀ e ∈ a.elems, e.data2 = 0) :
    s.perform a = (s.landed a).deliverTo a (a.elems.map fun e => (e, natLE (Memory.getList gr.scratch e.addr e.width))) false := by
  have hu := h.landed a
  have hg' : (s.landed a).group? g = some gr := hg
  have hvalues : (a.elems.map fun e => (e, e.overlay (gr.load e.addr e.width))) =
      a.elems.map fun e => (e, natLE (Memory.getList gr.scratch e.addr e.width)) :=
    List.map_congr_left fun e he => by rw [Group.load, overlay_natLE (h2 e he) (getList_length _ _ _)]
  have hclean : ∀ t : State, (a.elems.any fun e => gr.poisoned e.addr e.width && t.landsIn a e) = false := fun t => by
    simp [Group.poisoned, hpoison]
  simp only [State.perform, hk, ← State.landed.eq_def, hg']
  rw [trackFor_committed hspec, ite_still (hu.l1Acquire _ _), hvalues, hclean]

end

end Sys2Proof.Machine
end
section
/-!
PROOF. A line of the L1 written back by a fence or a CWB (R235, R244, R265).
-/

namespace Sys2Proof.Machine

variable {s : State} {a : Access} {l : L1Line}

/-! ### A line written back (R235, R244, R265) -/

/-- Memory after the dirty bytes of a line were written to it. -/
def L1Line.backTo (l : L1Line) (m : Memory) (ks : List Nat) : Memory :=
  ks.foldl (fun m i => if l.dirty.getLsbD i then m.put (128 * l.line + i) (byteAt l.data i) else m) m

/-- Memory after a line was written back. -/
def L1Line.writtenTo (l : L1Line) (m : Memory) : Memory := l.backTo m (List.range 128)

theorem get_backTo {m : Memory} (w : m.wf = true) (n x : Nat) :
    (l.backTo m (List.range n)).wf = true ∧ (l.backTo m (List.range n)).get x =
      if (128 * l.line ≤ x ∧ x < 128 * l.line + n) ∧ l.dirty.getLsbD (x - 128 * l.line) = true then byteAt l.data (x - 128 * l.line) else m.get x := by
  induction n with
  | zero => exact ⟨w, (if_neg (by omega)).symm⟩
  | succ n ih =>
    obtain ⟨hwf, hget⟩ := ih
    have hstep : l.backTo m (List.range (n + 1)) = if l.dirty.getLsbD n then (l.backTo m (List.range n)).put (128 * l.line + n) (byteAt l.data n)
        else l.backTo m (List.range n) := by
      rw [L1Line.backTo, List.range_succ, List.foldl_append]
      rfl
    rw [hstep]
    split
    · next hdirty =>
      refine ⟨put_wf _ _ hwf, ?_⟩
      rw [get_put _ _ _ hwf, hget]
      by_cases hx : x = 128 * l.line + n
      · subst hx
        simp [hdirty]
      · rw [if_neg hx]
        exact if_congr (and_congr_left fun _ => by omega) rfl rfl
    · next hdirty =>
      refine ⟨hwf, hget.trans ?_⟩
      by_cases hx : x = 128 * l.line + n
      · subst hx
        simp [hdirty]
      · exact if_congr (and_congr_left fun _ => by omega) rfl rfl

theorem writtenTo_wf {m : Memory} (w : m.wf = true) : (l.writtenTo m).wf = true := (get_backTo w 128 0).1

theorem writtenTo_clean (hclean : l.dirty = 0) (m : Memory) : l.writtenTo m = m := foldl_still fun i _ => by simp [hclean]

/-- A state whose memory is that after the line was written back holds the line's dirty bytes. -/
theorem writtenBack_of_mem {t : State} (w : s.mem.wf = true) (ht : t.mem = l.writtenTo s.mem) : WrittenBack s t l := fun x => by
  rw [ht, L1Line.writtenTo, (get_backTo w 128 x).2]
  by_cases hin : 128 * l.line ≤ x ∧ x < 128 * l.line + 128
  · have hdiv : x / 128 = l.line := by omega
    have hmod : x - 128 * l.line = x % 128 := by omega
    simp only [hin, hdiv, hmod, true_and, and_self]
  · rw [if_neg (fun h => hin h.1), if_neg (fun h => hin (by omega))]

/-- A line with nothing left to write back. -/
def L1Line.cleaned (l : L1Line) : L1Line := { l with dirty := 0 }

theorem cleaned_clean (hclean : l.dirty = 0) : l.cleaned = l := by
  rw [L1Line.cleaned, ← hclean]

/-! ### A core whose L1 holds one line -/

namespace OneLine

variable (h : OneLine s a l)
include h

theorem landed : OneLine (s.landed a) a l := ⟨h.l1, h.core, h.clean, h.plain, h.narrow, h.zero, h.poison, h.conts, h.wf⟩

/-- The line stays, clean, over another memory. -/
theorem cleanedOver {m : Memory} (w : m.wf = true) : OneLine { s with l1 := [l.cleaned], mem := m } a l.cleaned :=
  ⟨rfl, h.core, h.clean, h.plain, h.narrow, h.zero, h.poison, h.conts, w⟩

theorem l1? : s.l1? a.core l.line = some l := by
  simp [State.l1?, h.l1, h.core]

theorem l1Drop : s.l1Drop a.core l.line = { s with l1 := [] } := by
  have hgone : s.l1Remove a.core l.line = { s with l1 := [] } := by simp [State.l1Remove, h.l1, h.core]
  rw [l1Drop_some h.l1?, hgone]
  exact lose_noConts (s := { s with l1 := [] }) h.conts _ _ _

/-- Bytes written back one by one, each as a write at home. -/
theorem homeStores (m : Memory) {ks : List Nat} (hks : ∀ i ∈ ks, i < 128) :
    ks.foldl (fun t i => if l.dirty.getLsbD i then t.homeStore a.core 0 false (128 * l.line + i) [byteAt l.data i] else t)
      { s with l1 := [l.cleaned], mem := m } = { s with l1 := [l.cleaned], mem := l.backTo m ks } := by
  induction ks generalizing m with
  | nil => rfl
  | cons k ks ih =>
    obtain ⟨hhome, hmap, hreach⟩ := h.plain k (hks k (by simp))
    have hown : Own { s with l1 := [l.cleaned], mem := m } a.core := ⟨by simp [L1Line.cleaned, h.core, h.clean], h.zero, h.poison, h.conts⟩
    have hbyte : PlainBytes { s with l1 := [l.cleaned], mem := m } (128 * l.line + k) [byteAt l.data k].length := fun i hi => by
      obtain rfl : i = 0 := by simpa using hi
      exact ⟨hhome, hmap, hreach⟩
    have hrest := ih (if l.dirty.getLsbD k then m.put (128 * l.line + k) (byteAt l.data k) else m) fun i hi => hks i (by simp [hi])
    rw [List.foldl_cons]
    refine Eq.trans (congrArg (fun t => List.foldl _ t ks) ?_) hrest
    split
    · exact hown.homeStore hhome hbyte
    · rfl

theorem l1Clean : s.l1Clean a.core l.line = { s with l1 := [l.cleaned], mem := l.writtenTo s.mem } := by
  by_cases hdirty : l.dirty = 0
  · rw [l1Clean_clean h.l1? hdirty, writtenTo_clean hdirty, cleaned_clean hdirty, ← h.l1]
  · have hput : s.l1Put l.cleaned = { s with l1 := [l.cleaned], mem := s.mem } := by
      simp [State.l1Put, State.l1Remove, h.l1, L1Line.cleaned]
    have hown : Own { s with l1 := [l.cleaned], mem := l.writtenTo s.mem } a.core := ⟨by simp [L1Line.cleaned, h.core, h.clean], h.zero, h.poison, h.conts⟩
    have hstores := h.homeStores s.mem (ks := List.range 128) fun i hi => List.mem_range.1 hi
    unfold State.l1Clean
    rw [h.l1?]
    dsimp only
    rw [if_neg (by simpa using hdirty), ← L1Line.cleaned, hput, countLost_home (h.plain.home (by decide)), hstores]
    exact hown.clearCovered _ _

theorem l1Flush : s.l1Flush a.core l.line = { s with l1 := [], mem := l.writtenTo s.mem } := by
  rw [State.l1Flush, h.l1Clean]
  exact (h.cleanedOver (writtenTo_wf h.wf)).l1Drop

/-- A release writes the line back, and keeps it. -/
theorem l1Release : s.l1Release a.core a.scope = { s with l1 := [l.cleaned], mem := l.writtenTo s.mem } := by
  rw [← h.l1Clean]
  by_cases hdirty : l.dirty = 0
  · simp [State.l1Release, h.l1, hdirty, l1Clean_clean h.l1? hdirty]
  · have hone : (s.l1.filter fun l => l.core == a.core && l.dirty != 0 && l.rs < a.scope.code) = [l] := by
      rw [h.l1]
      exact List.filter_eq_self.2 fun x hx => by
        obtain rfl := List.mem_singleton.1 hx
        simpa [h.core, h.narrow] using hdirty
    rw [State.l1Release, hone]
    rfl

/-- An acquire writes the line back, and drops it. -/
theorem l1Acquire : s.l1Acquire a.core a.scope = { s with l1 := [], mem := l.writtenTo s.mem } := by
  rw [← h.l1Flush]
  simp [State.l1Acquire, h.l1, h.core, h.narrow]

/-- A fence writes the line back, and keeps it only when it does not acquire. -/
theorem fenced {n : Nat} : s.fenced a n = { s with l1 := if n = 2 then [l.cleaned] else [], mem := l.writtenTo s.mem } := by
  have hrest : ({ s with l1 := [l.cleaned], mem := l.writtenTo s.mem } : State).l1Acquire a.core a.scope =
      { s with l1 := [], mem := l.cleaned.writtenTo (l.writtenTo s.mem) } := (h.cleanedOver (writtenTo_wf h.wf)).l1Acquire
  unfold State.fenced
  dsimp only
  by_cases h1 : n = 1
  · subst h1
    exact h.l1Acquire
  · by_cases h2 : n = 2
    · subst h2
      exact h.l1Release
    · simp only [bne_iff_ne, ne_eq, h1, h2, not_false_eq_true, if_true, if_false]
      rw [h.l1Release, hrest, writtenTo_clean rfl]

theorem performCwb {e : Elem} (hline : e.addr / 128 = l.line) {n : Nat} (hn : n < 3) :
    s.performCwb a.core n a.scope e.addr =
      { s with l1 := if n = 0 then [l.cleaned] else if n = 1 ∧ l.dirty ≠ 0 then [l] else []
               mem := if n = 1 then s.mem else l.writtenTo s.mem } := by
  have hscope : (a.scope == .group) = false := by
    have := h.narrow
    cases hs : a.scope <;> simp_all [Scope.code]
  have hhome : homeOf e.addr ≠ 4 := by
    have := (h.plain (e.addr % 128) (by omega)).1
    rw [← hline, show 128 * (e.addr / 128) + e.addr % 128 = e.addr by omega] at this
    omega
  unfold State.performCwb
  dsimp only
  rw [hscope, if_neg Bool.false_ne_true, lineOf, hline, h.l1?, if_neg (by simp [hhome])]
  match n, hn with
  | 0, _ => exact h.l1Clean
  | 1, _ =>
    by_cases hdirty : l.dirty = 0
    · simpa [hdirty] using h.l1Drop
    · have hsome : ¬ l.dirty = 0#128 := hdirty
      simp [hsome, ← h.l1]
  | 2, _ => exact h.l1Flush

end OneLine

end Sys2Proof.Machine
end
section
/-!
PROOF. PUBLISH (R269, R270), and every access that nothing holds back (O43).
-/

namespace Sys2Proof.Machine

variable {s : State} {a : Access}

/-! ### PUBLISH (R269, R270) -/

/-- Bytes put one by one at system scope, which serves home 4 from host memory (R267). -/
theorem homePuts_sys {bytes : List Byte} {ia : Nat} (h : ∀ i, i < bytes.length → s.reachable (ia + i) = true ∧ s.inMapPage (ia + i) = false) :
    (List.range bytes.length).foldl (fun t i => t.homePut true (ia + i) (bytes.getD i 0)) s = { s with mem := s.mem.putList ia bytes } := by
  induction bytes generalizing s ia with
  | nil => rfl
  | cons b bytes ih =>
    obtain ⟨hreach, hmap⟩ := h 0 (by simp)
    rw [Nat.add_zero] at hreach hmap
    have hput : s.homePut true (ia + 0) b = { s with mem := s.mem.put ia b } := by simp [State.homePut, hreach, hmap]
    have hrest : ∀ i, i < bytes.length → State.reachable { s with mem := s.mem.put ia b } (ia + 1 + i) = true ∧
        State.inMapPage { s with mem := s.mem.put ia b } (ia + 1 + i) = false := fun i hi => by
      have := h (i + 1) (by simpa using hi)
      rwa [show ia + (i + 1) = ia + 1 + i by omega] at this
    rw [List.length_cons, List.range_succ_eq_map, List.foldl_cons, List.foldl_map, List.getD_cons_zero, hput]
    refine (List.foldl_ext _ _ _ fun t i _ => ?_).trans (ih hrest)
    rw [List.getD_cons_succ, show ia + Nat.succ i = ia + 1 + i by omega]

theorem countLost_reachable {ia : Nat} (hreach : s.reachable ia = true) : s.countLost ia = s := by
  have hlink : homeOf ia < 4 ∨ s.hostLinkUp = true := by
    simp only [State.reachable, Bool.and_eq_true, Bool.or_eq_true, decide_eq_true_eq] at hreach
    exact hreach.2
  simp [State.countLost, hlink]

/-- With no home-4 line in the slices there is none to write back. -/
theorem publishLines_none (h4 : s.h4 = []) (c : Ctx) : s.publishLines c = s := by
  simp [State.publishLines, h4]

theorem perform_publish (h : Bare s) {ctx : Nat} {c : Ctx} (hk : a.kind = .publish ctx) (hc : s.ctx? ctx = some c) (h4 : s.h4 = [])
    (hthere : ∀ k, k < 8 → s.reachable (c.pubCtr + k) = true ∧ s.inMapPage (c.pubCtr + k) = false) :
    s.perform a = { s.landed a with mem := s.mem.putList c.pubCtr (bytesLE 8 (memValue s c.pubCtr 8 + 1)) } := by
  have hu := h.landed a
  have hc' : (s.landed a).ctx? ctx = some c := hc
  have hbytes : ((List.range 8).map fun i => (s.landed a).homeByte true (c.pubCtr + i)) = s.mem.getList c.pubCtr 8 :=
    List.map_congr_left fun i hi => by
      have hmap : (s.landed a).inMapPage (c.pubCtr + i) = false := (hthere i (List.mem_range.1 hi)).2
      unfold State.homeByte
      rw [hmap, if_neg Bool.false_ne_true, show (s.landed a).h4 = [] from h4, List.find?_nil]
      exact ite_self _
  have hlost : (s.landed a).countLost c.pubCtr = s.landed a := countLost_reachable (hthere 0 (by decide)).1
  simp only [State.perform, hk, ← State.landed.eq_def, hc']
  rw [hu.l1Release, publishLines_none (s := s.landed a) h4, hu.l1Flush, hbytes, ← memValue, State.homeWrite, hlost]
  exact (hu.own 1000).homeStore_put (fun _ => ⟨rfl, h4⟩) (homePuts_sys (by rwa [bytesLE_length]))

/-- Settles O43: the event performs the access, and what the access does is the lemma of its kind. -/
theorem accessesArePerformed : Obligations.AccessesArePerformed := by
  unfold Obligations.AccessesArePerformed
  intro s a i hi hfind hcan u
  have hexec : exec i s = .next (s.perform a) := exec_performs hi hfind hcan
  refine ⟨hexec, fun h hspec hplain t hrule => ?_, fun h hspec hk e he h2 hwidth hplain hin hcount => ?_,
    fun h hk hwk hscope e he _ _ hin => ?_, fun l n h hk hn => ?_, fun l n e h hk hn he hline => ?_, fun g gr full hk hg h => ?_,
    fun g gr hk hg h hspec hpoison h2 => ?_, fun g gr hk hg h hpoison => ?_, fun ctx c hk hc h h4 _ _ hthere => ?_⟩
  · rw [hexec, perform_bare h hspec hplain hrule]
  · exact ⟨_, hexec, perform_load_bare h hk he hspec h2 hwidth hplain hin hcount⟩
  · obtain ⟨hcore, hline, hrs, -⟩ := storedLine_place a e
    exact ⟨storedLine a e, hexec.trans (congrArg _ (perform_store_group h hk he hwk hscope)), hcore, hline, hrs,
      fun k hk => storedLine_dirty a e hk, fun k hk => storedLine_data a hin hk⟩
  · have hperform : s.perform a = _ := (perform_fence hk).trans h.landed.fenced
    have hmem : (s.perform a).mem = l.writtenTo (s.landed a).mem := by rw [hperform]
    exact ⟨_, hexec, congrArg State.l1 hperform, writtenBack_of_mem h.wf hmem⟩
  · have hperform : s.perform a = _ := (perform_cwb he hk).trans (h.landed.performCwb hline hn)
    have hmem : (s.perform a).mem = if n = 1 then s.mem else l.writtenTo s.mem := congrArg State.mem hperform
    refine ⟨_, hexec, congrArg State.l1 hperform, ?_⟩
    by_cases h1 : n = 1
    · rw [if_pos h1, hmem, if_pos h1]
    · rw [if_neg h1]
      exact writtenBack_of_mem h.wf (hmem.trans (if_neg h1))
  · rw [hexec, perform_scrMark h hg hk]
    rfl
  · rw [hexec, perform_scrLoad h hg hk hspec hpoison h2]
    rfl
  · rw [hexec, perform_scrStore h hg hk hpoison]
    rfl
  · rw [hexec, perform_publish h hk hc h4 hthere]
    rfl

end Sys2Proof.Machine
end

section
/-!
PROOF. Forkable calls (R271-R283): FCALL as a call with its training record (O15), and the start of a continuation at its return address (O16).
-/

namespace Sys2Proof.Machine

/-! ### Fetch blocks (R51) -/

theorem getLsbD_blockOf (pc : DWord) (i : Nat) : (blockOf pc).getLsbD i = (decide (6 ≤ i) && pc.getLsbD i) := by
  have hlow : (0x3F : DWord).getLsbD i = decide (i < 6) := by
    rw [show (0x3F : DWord) = BitVec.ofNat 64 (2 ^ 6 - 1) from rfl, BitVec.getLsbD_ofNat, Nat.testBit_two_pow_sub_one, ← Bool.decide_and]
    exact decide_eq_decide.mpr (by omega)
  rw [blockOf, BitVec.getLsbD_and, BitVec.getLsbD_not, hlow]
  by_cases hi : i < 64
  · rw [decide_eq_true hi, Bool.true_and, Bool.and_comm, ← decide_not]
    exact congrArg (· && pc.getLsbD i) (decide_eq_decide.mpr Nat.not_lt)
  · simp [BitVec.getLsbD_of_ge pc i (Nat.le_of_not_lt hi)]

/-- The model clears the low six bits of an address, and the statements take off its remainder by 64. -/
theorem blockOf_eq_blockStart (pc : DWord) : blockOf pc = blockStart pc := by
  have hshift : blockOf pc = (pc >>> 6) <<< 6 := by
    refine BitVec.eq_of_getLsbD_eq fun i hi => ?_
    rw [getLsbD_blockOf, BitVec.getLsbD_shiftLeft, BitVec.getLsbD_ushiftRight]
    by_cases h6 : i < 6
    · simp [h6, Nat.not_le.mpr h6]
    · simp [h6, hi, Nat.le_of_not_lt h6]
  have hlt := pc.isLt
  have hnat : ((pc >>> 6) <<< 6).toNat = pc.toNat - pc.toNat % 64 := by
    rw [BitVec.toNat_shiftLeft, BitVec.toNat_ushiftRight, Nat.shiftRight_eq_div_pow, Nat.shiftLeft_eq]
    omega
  apply BitVec.eq_of_toNat_eq
  rw [hshift, hnat, blockStart, BitVec.toNat_sub, BitVec.toNat_ofNat]
  omega

/-- Bits above the sixth are the same in an address and in its fetch block. -/
theorem extract_blockOf (pc : DWord) {k : Nat} (n : Nat) (hk : 6 ≤ k) : (blockOf pc).extractLsb' k n = pc.extractLsb' k n := by
  refine BitVec.eq_of_getLsbD_eq fun i _ => ?_
  rw [BitVec.getLsbD_extractLsb', BitVec.getLsbD_extractLsb', getLsbD_blockOf, decide_eq_true (Nat.le_add_right_of_le hk), Bool.true_and]

theorem returnAddr_eq (pc : DWord) : returnAddr pc = blockStart pc + 64 := by
  rw [returnAddr, blockOf_eq_blockStart]

theorem blockTarget_eq (pc : DWord) (n : Int) : blockTarget pc n = blockAway pc n := by
  rw [blockTarget, blockOf_eq_blockStart, Int.mul_comm, blockAway]

/-- The predictor entry and its tag are those of the address itself (R277). -/
theorem trainRule_eq (st : Strand) (f : Form) :
    trainRule st f = if st.tile then none
      else some { index := predIndex (blockOf st.pc), tag := predTag (blockOf st.pc), ret := BitVec.ofNat 5 f.b } := by
  simp only [trainRule, predIndex, predTag, extract_blockOf st.pc _ (show 6 ≤ 6 by decide), extract_blockOf st.pc _ (show 6 ≤ 14 by decide),
    extract_blockOf st.pc _ (show 6 ≤ 22 by decide)]

/-! ### An instruction that jumps -/

/-- Instructions outside majors 0x01 to 0x4F take no charge (R468). -/
theorem charged_free (s : State) (st : Strand) {op : Nat} (h : 0x4F < op) : s.charged st op = s := by
  simp [State.charged, h]

/-- An instruction that has set the pc settles onto the state that its body has left. -/
theorem settle_jumped {s t : State} {st : Strand} {j : Job} (hs : CoreOnly { t with freshId := j.s.freshId } j.s st.core)
    (hjumped : j.jumped = true) (hafter : j.after = none) (hl : j.st.live ≠ 0) (hc : j.st.core = st.core)
    (hcounts : ∀ c, t.ctx? j.e.ctx = some c → ∀ n, 11 ≤ n → n < 16 → (vget c.select n 0).extractLsb' 0 16 ≠ 1) :
    OnlyStrand t (settle s st (.ok () j)) j.st := by
  -- one that steps from just before the target comes to the same
  have hback : ({ j.st with pc := j.st.pc - BitVec.ofNat 64 j.f.size + BitVec.ofNat 64 j.f.size } : Strand) = j.st := by
    rw [BitVec.sub_add_cancel]
  have hstep := settle_coreOnly (s := s) (j := { j with st := { j.st with pc := j.st.pc - BitVec.ofNat 64 j.f.size }, jumped := false })
    hs rfl hafter hl hc hcounts
  simp only [settle, Bool.false_eq_true, if_false, hback] at hstep
  simpa only [settle, hjumped, if_true] using hstep

theorem ctx_id {s : State} {n : Nat} {c : Ctx} (h : s.ctx? n = some c) : c.id = n := by
  simpa using List.find?_some h

theorem ctx_bump_select {s : State} {ctx k n : Nat} {c : Ctx} (h : (s.bump ctx n k).ctx? ctx = some c) :
    ∃ c', s.ctx? ctx = some c' ∧ c.select = c'.select := by
  cases hc : s.ctx? ctx with
  | none => simp [State.bump, hc] at h
  | some c' =>
    have hid : (c'.bump n k).id = ctx := show c'.id = ctx from ctx_id hc
    have hnew := ctx_setCtx s (c'.bump n k) (by rw [hid, hc]; rfl)
    rw [State.bump, hc] at h
    rw [hid] at hnew
    obtain rfl := Option.some.inj (hnew.symm.trans h)
    exact ⟨c', rfl, rfl⟩

section Calls
variable {s : State} {st : Strand} {e : Env} {f : Form}

/-- An instruction whose body leaves a state and the strand at another pc. -/
theorem run_jumped (h : Quiet s st e f) {body : M Unit} {u : State} {st' : Strand}
    (hb : body (jobOf s st e f) = .ok () { jobOf s st e f with s := u, st := st', jumped := true }) (hl : st'.live ≠ 0) (hc : st'.core = st.core)
    (hcounts : ∀ c, u.ctx? e.ctx = some c → ∀ n, 11 ≤ n → n < 16 → (vget c.select n 0).extractLsb' 0 16 ≠ 1) :
    ∃ t, run f body s = .next t ∧ OnlyStrand u t st' :=
  ⟨_, (run_quiet h body).trans (by rw [hb]),
    settle_jumped (j := { jobOf s st e f with s := u, st := st', jumped := true }) (.refl _ _) rfl rfl hl hc hcounts⟩

/-- Counting an event of the context leaves the counters that count nothing idle. -/
theorem noCounters_bump (h : Quiet s st e f) {u : State} (hu : u.ctxs = s.ctxs) (n k : Nat) {c : Ctx} (hc : (u.bump e.ctx n k).ctx? e.ctx = some c) :
    ∀ i, 11 ≤ i → i < 16 → (vget c.select i 0).extractLsb' 0 16 ≠ 1 := by
  obtain ⟨c', hc', hsel⟩ := ctx_bump_select hc
  rw [State.ctx?, hu] at hc'
  rw [hsel]
  exact (h.noCounters c' hc').2

theorem checkDepth_ok {j : Job} (h : j.st.rets.length < 128) : checkDepth j = .ok () j := by
  simp only [checkDepth, m_bind, m_get, Nat.not_le.mpr h, if_false, m_pure]

/-! ### A call that does not fork (R272, R273) -/

theorem fcallBody_declined (hop : 0x4F < f.enc.op) (hdepth : st.rets.length < 128) (lit : DWord)
    (hfork : forkEntry? s st e (BitVec.ofNat 5 f.b) = none) :
    fcallBody lit (jobOf s st e f) = .ok () { jobOf s st e f with
      s := s.bump e.ctx 5 1, st := (st.called (trainRule st f) (some lit)).goes (blockAway st.pc f.x.imm.toInt), jumped := true } := by
  have hs : (jobOf s st e f).s = s := charged_free s st hop
  simp only [fcallBody, m_bind, m_form, checkDepth_ok (j := jobOf s st e f) hdepth, m_get, hs]
  rw [show forkEntry? s (jobOf s st e f).st (jobOf s st e f).e (BitVec.ofNat 5 (jobOf s st e f).f.b) = none from hfork]
  simp only [m_bind, m_upd, m_updS, hs, jump, m_modify, returnAddr_eq, blockTarget_eq]
  rw [Strand.called, trainRule_eq]
  rfl

/-! ### The pages of the continuation's slots (R103, R202) -/

/-- A slot of a save area whose page is in place is there at once. -/
theorem needPages_ready {j : Job} {ia : Nat} (pref : Bool) (hal : ia % 128 = 0) (hpage : j.s.pageReady (pageOf ia) = true)
    (hunit : j.s.unitHeld ia = false) (hlink : j.s.transferHeld (agentDie j.st.agentCore) true ia = false) :
    needPages ia 128 pref j = .ok () j := by
  -- an aligned slot lies in one page
  have hone : (ia + 128 - 1) / 65536 - ia / 65536 + 1 = 1 := by omega
  have htouch : j.s.touchRange j.e.conf pref ia 128 (agentDie j.st.agentCore) = (j.s, true, []) := by
    have hpage' : j.s.pageReady (ia / 65536 + 0) = true := hpage
    rw [State.touchRange, hone, List.range_one, List.foldl_cons, List.foldl_nil]
    simp only [touch_ready hpage', hpage', if_true, hunit, hlink, Bool.or_self, Bool.false_eq_true, if_false]
  simp only [needPages, m_bind, m_get, htouch, m_updS]

/-! ### What a fork leaves (R281-R283) -/

/-- The V-spilled registers of a strand. -/
def Strand.spilledRegs (c : Strand) : List Nat := (List.range 64).filter fun n => (c.reg n).shape == .spilled

theorem mem_spilledRegs {c : Strand} {n : Nat} : n ∈ c.spilledRegs ↔ n < 64 ∧ (c.reg n).shape = .spilled := by
  simp [Strand.spilledRegs]

/-- The state with the V-spilled registers of a strand written to its save area. -/
def State.saveSpilled (s : State) (c : Strand) : State := c.spilledRegs.foldl (fun s n => s.saveLanes c n) s

/-- The state with a continuation started: its slots are saved, and counter 4 of the context has advanced. -/
def State.withFork (s : State) (ctx : Nat) (c : Strand) : State :=
  { (s.saveSpilled c).bump ctx 4 1 with freshId := c.id + 1, strands := (s.saveSpilled c).strands ++ [c] }

/-- The continuation that an FCALL starts: at the return address, in the first free slot of the core and with the first fork save area of its owner
(R281, R282). -/
def State.forkCont (s : State) (st : Strand) (lit : DWord) (ret : BitVec 5) (p : PEntry) : Strand :=
  st.continuation s.freshId ((s.freeSlots st.core).headD 0) (st.forkSaves.headD 0) (returnAddr st.pc) lit ret p

/-- The owner of a fork in its callee: the call is open, and its first fork save area is taken. -/
def Strand.forked (st : Strand) (id : Nat) (train : Option TrainRec) (lit : DWord) (ret : BitVec 5) (p : PEntry) : Strand :=
  { st.pushRet { ra := returnAddr st.pc, cm := st.path, train := train, wset := some lit, fork := some id } with
    forkSaves := st.forkSaves.drop 1
    forks := st.forks ++ [{ cont := id, ret := ret
                            predV := ((List.range 4).filter fun i => ret.getLsbD i).map fun i => (i, (vget p.slots i {}).predictV)
                            predB := if ret.getLsbD 4 then some (vget p.slots 4 {}).predictB else none }] }

theorem forked_forks (st : Strand) (id : Nat) (train : Option TrainRec) (lit : DWord) (ret : BitVec 5) (p : PEntry) :
    (st.forked id train lit ret p).forks.map (·.cont) = st.forks.map (·.cont) ++ [id] :=
  List.map_append

theorem reg_forkCont (s : State) (st : Strand) (lit : DWord) (ret : BitVec 5) (p : PEntry) {n : Nat} (hn : n < 64) :
    (s.forkCont st lit ret p).reg n = if n < 4 ∧ ret.getLsbD n = true then { shape := (vget p.slots n {}).predictV } else st.reg n := by
  simp only [Strand.reg, State.forkCont, Strand.continuation, vget_vtab _ _ _ _ hn, Bool.and_eq_true, decide_eq_true_eq]

theorem predictV_ne_spilled (p : PSlot) : p.predictV ≠ .spilled := by
  simp only [PSlot.predictV]
  split <;> exact Shape.noConfusion

/-- A register that the continuation holds V-spilled is one of its owner's. -/
theorem spilled_of_forkCont {s : State} {st : Strand} {lit : DWord} {ret : BitVec 5} {p : PEntry} {n : Nat}
    (h : n ∈ (s.forkCont st lit ret p).spilledRegs) : n < 64 ∧ (st.reg n).shape = .spilled := by
  obtain ⟨hn, hs⟩ := mem_spilledRegs.mp h
  rw [reg_forkCont _ _ _ _ _ hn] at hs
  split at hs
  · exact absurd hs (predictV_ne_spilled _)
  · exact ⟨hn, hs⟩

/-- `u` is `s` but for bytes of memory in a range, and for poison tags. -/
structure SavedWithin (lo hi : Nat) (s u : State) : Prop where
  same : u = { s with mem := u.mem, poison := u.poison }
  sound : Safety.Sound u
  mem : ∀ a, ¬(lo ≤ a ∧ a < hi) → u.mem.get a = s.mem.get a

theorem SavedWithin.saveBytes {lo hi ia : Nat} {s u : State} {bytes : List Byte} (h : SavedWithin lo hi s u) (hlo : lo ≤ ia)
    (hhi : ia + bytes.length ≤ hi) : SavedWithin lo hi s (u.saveBytes ia bytes) := by
  refine ⟨?_, saveBytes_sound _ _ h.sound, fun a ha => ?_⟩
  · rw [State.saveBytes]
    split
    · rw [State.clearTags]
      split <;> rw [h.same]
    · exact h.same
  · rw [State.saveBytes]
    split
    · rw [clearTags_mem, get_fill _ _ _ h.sound, if_neg (by omega), h.mem a ha]
    · exact h.mem a ha

theorem slotBytesOf_length (l : Lanes) : (slotBytesOf l).length = 128 := by
  simp [slotBytesOf, List.length_flatMap, bytesLE_length]

/-- What is saved of a strand lies in its save area, whose vector area takes 8192 bytes (R106). -/
theorem saveSpilled_within {s : State} (c : Strand) (h : Safety.Sound s) : SavedWithin c.ssa (c.ssa + 8192) s (s.saveSpilled c) := by
  refine List.foldlRecOn (motive := SavedWithin c.ssa (c.ssa + 8192) s) _ _ ⟨rfl, h, fun _ _ => rfl⟩ fun u hu n hn => ?_
  obtain ⟨hlt, -⟩ := mem_spilledRegs.mp hn
  rw [State.saveLanes, laneBytes_eq]
  refine hu.saveBytes (by omega) ?_
  rw [slotBytesOf_length]
  omega

theorem saveSpilled_none {s : State} {c : Strand} (h : c.spilledRegs = []) : s.saveSpilled c = s := by
  rw [State.saveSpilled, h, List.foldl_nil]

theorem bump_same (s : State) (ctx n k : Nat) : s.bump ctx n k = { s with ctxs := (s.bump ctx n k).ctxs } := by
  unfold State.bump
  split <;> rfl

/-- A started continuation joins the strands, and accesses in flight and memory are those of the save. -/
theorem withFork_same {s : State} {c : Strand} (ctx : Nat) (h : Safety.Sound s) :
    s.withFork ctx c = { s with
      mem := (s.saveSpilled c).mem, poison := (s.saveSpilled c).poison, ctxs := (s.withFork ctx c).ctxs
      freshId := c.id + 1, strands := s.strands ++ [c] } := by
  rw [State.withFork, bump_same, (saveSpilled_within c h).same]

/-! ### A call that forks (R273, R281) -/

/-- The model looks through the v registers as a list. -/
theorem any_empty_of_full (h : ∀ n, n < 64 → (st.reg n).full = true) : (st.v.toArray.toList.any fun r => !r.full) = false := by
  refine List.any_eq_false.mpr fun r hr => ?_
  obtain ⟨n, hn, rfl⟩ := List.getElem_of_mem hr
  have hfull := h n (by simpa using hn)
  rw [Strand.reg, vget, List.getD_eq_getElem?_getD, List.getElem?_eq_getElem hn, Option.getD_some] at hfull
  rw [hfull]
  decide

theorem fcallBody_forks (hop : 0x4F < f.enc.op) (hdepth : st.rets.length < 128) (lit : DWord) {ret : BitVec 5} (hret : ret = BitVec.ofNat 5 f.b)
    {p : PEntry} (hfork : forkEntry? s st e ret = some p) (hfull : ∀ n, n < 64 → (st.reg n).full = true)
    (hpages : ∀ n ∈ (s.forkCont st lit ret p).spilledRegs,
      needPages (st.forkSaves.headD 0 + 128 * n) 128 false (jobOf s st e f) = .ok () (jobOf s st e f)) :
    fcallBody lit (jobOf s st e f) = .ok () { jobOf s st e f with
      s := s.withFork e.ctx (s.forkCont st lit ret p)
      st := (st.forked s.freshId (trainRule st f) lit ret p).goes (blockAway st.pc f.x.imm.toInt), jumped := true } := by
  subst hret
  have hs : (jobOf s st e f).s = s := charged_free s st hop
  simp only [fcallBody, m_bind, m_form, checkDepth_ok (j := jobOf s st e f) hdepth, m_get, hs]
  rw [show forkEntry? s (jobOf s st e f).st (jobOf s st e f).e (BitVec.ofNat 5 (jobOf s st e f).f.b) = some p from hfork]
  simp only [m_ite, show ((jobOf s st e f).st.v.toArray.toList.any fun r => !r.full) = false from any_empty_of_full hfull, Bool.false_eq_true,
    if_false]
  refine (bind_ok (forM_ok hpages)).trans ?_
  simp only [m_bind, m_updS, m_upd, hs]
  rw [trainRule_eq, ← blockTarget_eq]
  rfl

/-- What an FCALL that forks comes to. -/
theorem run_forks (h : Quiet s st e f) (hop : 0x4F < f.enc.op) (hdepth : st.rets.length < 128) (lit : DWord) {ret : BitVec 5}
    (hret : ret = BitVec.ofNat 5 f.b) {p : PEntry} (hfork : forkEntry? s st e ret = some p) (hfull : ∀ n, n < 64 → (st.reg n).full = true)
    (hslots : ∀ n, n < 64 → (st.reg n).shape = .spilled →
      let a := st.forkSaves.headD 0 + 128 * n
      a % 128 = 0 ∧ s.pageReady (pageOf a) = true ∧ s.unitHeld a = false ∧ s.transferHeld (agentDie st.agentCore) true a = false)
    (hsound : Safety.Sound s) :
    ∃ t, run f (fcallBody lit) s = .next t ∧ OnlyStrand (s.withFork e.ctx (s.forkCont st lit ret p)) t
      ((st.forked s.freshId (trainRule st f) lit ret p).goes (blockAway st.pc f.x.imm.toInt)) := by
  have hjob : (jobOf s st e f).s = s := charged_free s st hop
  have hpages : ∀ n ∈ (s.forkCont st lit ret p).spilledRegs,
      needPages (st.forkSaves.headD 0 + 128 * n) 128 false (jobOf s st e f) = .ok () (jobOf s st e f) := fun n hn => by
    obtain ⟨hn, hspilled⟩ := spilled_of_forkCont hn
    obtain ⟨hal, hpage, hunit, hlink⟩ := hslots n hn hspilled
    exact needPages_ready false hal (by rwa [hjob]) (by rwa [hjob]) (by rwa [hjob])
  have hctxs : (s.saveSpilled (s.forkCont st lit ret p)).ctxs = s.ctxs := by rw [(saveSpilled_within _ hsound).same]
  exact run_jumped h (fcallBody_forks hop hdepth lit hret hfork hfull hpages) h.live rfl fun _ hc => noCounters_bump h hctxs 4 1 hc

end Calls

/-- Settles O15: where no fork is made, FCALL pushes its return entry, counts and jumps. -/
theorem forkableCallDeclined : Obligations.ForkableCallDeclined := by
  unfold Obligations.ForkableCallDeclined
  intro o s st e c f hq hc hdepth hfork
  have hbump : s.bump e.ctx 5 1 = s.setCtx { c with counters := vset c.counters 5 (vget c.counters 5 0 + 1) } := by
    rw [State.bump, hc]
    rfl
  rw [← hbump]
  exact run_jumped hq (fcallBody_declined (show 0x4F < 0x59 by decide) hdepth o.lit hfork) hq.live rfl fun _ hc => noCounters_bump hq rfl 5 1 hc

/-- A strand is found as before among more strands, and a new one where there was none. -/
theorem strand_append {s t : State} {c : Strand} (h : t.strands = s.strands ++ [c]) (n : Nat) :
    t.strand? n = (s.strand? n).or (if c.id = n then some c else none) := by
  rw [State.strand?, h, List.find?_append, List.find?_singleton]
  simp only [beq_iff_eq]
  rfl

/-- After an instruction that has added a strand, its own strand and the new one are found. -/
theorem found_beside_new {s u t : State} {st st' c : Strand} (h : OnlyStrand u t st') (hu : u.strands = s.strands ++ [c])
    (hst : s.strand? st'.id = some st) (hnew : s.strand? c.id = none) : t.strand? st'.id = some st' ∧ t.strand? c.id = some c := by
  have ht : ∀ n, t.strand? n = (u.setStrand st').strand? n := fun n => by rw [h.same]; rfl
  have hne : c.id ≠ st'.id := fun heq => by rw [heq, hst] at hnew; cases hnew
  refine ⟨?_, ?_⟩
  · rw [ht, strand_setStrand _ _ (by rw [strand_append hu, hst]; rfl)]
  · rw [ht, strand_setStrand_ne _ _ _ hne, strand_append hu, hnew, if_pos rfl]
    rfl

/-- Settles O16: the owner is at the target, the continuation has joined the strands, and of memory only its slots have been written. -/
theorem forkableCallTaken : Obligations.ForkableCallTaken := by
  unfold Obligations.ForkableCallTaken
  intro o s st e p f ret hq hdepth hfork hfull hfresh hsound hslots
  obtain ⟨t, hrun, honly⟩ := run_forks hq (show 0x4F < 0x59 by decide) hdepth o.lit rfl hfork hfull hslots hsound
  have hsame := withFork_same (c := s.forkCont st o.lit ret p) e.ctx hsound
  have hcur : s.strand? st.id = some st := strand_id hq.cur ▸ hq.cur
  obtain ⟨howner, hcont⟩ := found_beside_new honly (s := s) (by rw [hsame]) hcur hfresh
  have hmem : t.mem = (s.saveSpilled (s.forkCont st o.lit ret p)).mem := by rw [honly.same, setStrand_mem, hsame]
  have hflight : t.flight = s.flight := by rw [honly.same, setStrand_flight, hsame]
  refine ⟨t, _, _, hrun, howner, hcont, rfl, rfl, rfl, rfl, ?forks, returnAddr_eq st.pc, rfl, rfl, rfl, rfl,
    fun n hn => reg_forkCont s st o.lit ret p hn, fun hnone => ?unsaved, fun a ha => ?outside, hflight⟩
  case forks => exact (forked_forks st s.freshId (trainRule st f) o.lit ret p).trans (by rw [hq.noForks]; rfl)
  case unsaved =>
    rw [hmem, saveSpilled_none]
    exact List.eq_nil_iff_forall_not_mem.mpr fun n hn =>
      let ⟨hlt, hspilled⟩ := spilled_of_forkCont hn
      hnone n hlt hspilled
  case outside =>
    rw [hmem]
    exact (saveSpilled_within _ hsound).mem a ha

end Sys2Proof.Machine
end

section
/-!
PROOF. The places of kernels: the lowest free place of a range (R296), and the placement table, which holds the whole runs of each die (R309).
-/

namespace Sys2Proof.Machine

/-! ### Placement in a range (R296) -/

/-- The least multiple of `align` from `a` on, as `firstFit` computes it. -/
def alignUp (align a : Nat) : Nat := (a + align - 1) / align * align

theorem alignUp_mod (align a : Nat) : alignUp align a % align = 0 := Nat.mul_mod_left _ _

theorem le_alignUp {align : Nat} (h : 0 < align) (a : Nat) : a ≤ alignUp align a := by
  have hdiv := Nat.div_add_mod' (a + align - 1) align
  have hmod := Nat.mod_lt (a + align - 1) h
  unfold alignUp
  omega

theorem alignUp_le {align a x : Nat} (hx : x % align = 0) (hle : a ≤ x) : alignUp align a ≤ x := by
  obtain rfl | h := Nat.eq_zero_or_pos align
  · simp [alignUp]
  · obtain ⟨m, rfl⟩ := Nat.dvd_of_mod_eq_zero hx
    rw [alignUp, Nat.mul_comm align m]
    refine Nat.mul_le_mul_right _ (Nat.le_of_lt_succ ((Nat.div_lt_iff_lt_mul h).mpr ?_))
    rw [Nat.succ_mul, Nat.mul_comm]
    omega

/-- Where an area may begin: at the bottom of the range, or just above an area in use. -/
def startsIn (pool : Nat × Nat) (align : Nat) (used : List (Nat × Nat)) : List Nat :=
  alignUp align pool.1 :: used.map fun u => alignUp align (u.1 + u.2)

theorem areasMeet_false {a b : Nat × Nat} : areasMeet a b = false ↔ a.1 + a.2 ≤ b.1 ∨ b.1 + b.2 ≤ a.1 := by
  simp only [areasMeet, Bool.and_eq_false_iff, decide_eq_false_iff_not, Nat.not_lt, or_comm]

/-- An area lies in a range, clear of those in use. -/
def Fits (pool : Nat × Nat) (size : Nat) (used : List (Nat × Nat)) (a : Nat) : Prop :=
  pool.1 ≤ a ∧ a + size ≤ pool.1 + pool.2 ∧ ∀ u ∈ used, a + size ≤ u.1 ∨ u.1 + u.2 ≤ a

theorem fits_iff (pool : Nat × Nat) (size : Nat) (used : List (Nat × Nat)) (a : Nat) :
    (decide (pool.1 ≤ a) && decide (a + size ≤ pool.1 + pool.2) && !(used.any (areasMeet (a, size)))) = true ↔ Fits pool size used a := by
  simp only [Fits, Bool.and_eq_true, decide_eq_true_eq, Bool.not_eq_true', List.any_eq_false, Bool.not_eq_true, areasMeet_false, and_assoc]

/-- `firstFit` answers the least start at which the area fits. -/
theorem firstFit_some {pool : Nat × Nat} {align size a : Nat} {used : List (Nat × Nat)} (h : firstFit pool align size used = some a) :
    (a ∈ startsIn pool align used ∧ Fits pool size used a) ∧ ∀ x ∈ startsIn pool align used, Fits pool size used x → a ≤ x := by
  have hmin : ((startsIn pool align used).filter fun a =>
      decide (pool.1 ≤ a) && decide (a + size ≤ pool.1 + pool.2) && !(used.any (areasMeet (a, size)))).min? = some a := by
    rw [← h]
    unfold firstFit
    extract_lets up starts good
    change good.min? = _
    clear_value good
    cases good with
    | nil => rfl
    | cons a as => rw [List.min?_cons']
  obtain ⟨hmem, hleast⟩ := List.min?_eq_some_iff.mp hmin
  refine ⟨(List.mem_filter.mp hmem).imp_right (fits_iff ..).mp, fun x hx hfit => hleast x (List.mem_filter.mpr ⟨hx, (fits_iff ..).mpr hfit⟩)⟩

theorem startsIn_aligned {pool : Nat × Nat} {align a : Nat} {used : List (Nat × Nat)} (h : a ∈ startsIn pool align used) : a % align = 0 := by
  rcases List.mem_cons.mp h with rfl | h
  · exact alignUp_mod _ _
  · obtain ⟨u, -, rfl⟩ := List.mem_map.mp h
    exact alignUp_mod _ _

/-- Below a place where an area fits lies a start where it fits too: the greatest one, for an area in use between the two would have a
greater start above it. -/
theorem exists_start_fits {pool : Nat × Nat} {align size x : Nat} {used : List (Nat × Nat)} (hpos : 0 < align) (hx : x % align = 0)
    (hfit : Fits pool size used x) : ∃ m ∈ startsIn pool align used, m ≤ x ∧ Fits pool size used m := by
  obtain ⟨hlo, hhi, hclear⟩ := hfit
  have hbottom : alignUp align pool.1 ∈ (startsIn pool align used).filter (· ≤ x) :=
    List.mem_filter.mpr ⟨List.mem_cons_self, decide_eq_true (alignUp_le hx hlo)⟩
  obtain ⟨m, hm⟩ := Option.isSome_iff_exists.mp (List.isSome_max?_of_mem hbottom)
  obtain ⟨hmem, hgreatest⟩ := List.max?_eq_some_iff.mp hm
  obtain ⟨hstart, hmx⟩ := List.mem_filter.mp hmem
  have hmx : m ≤ x := of_decide_eq_true hmx
  refine ⟨m, hstart, hmx, (le_alignUp hpos _).trans (hgreatest _ hbottom), by omega, fun u hu => ?_⟩
  rcases hclear u hu with habove | hbelow
  · exact .inl (by omega)
  · exact .inr <| (le_alignUp hpos _).trans <| hgreatest _ <|
      List.mem_filter.mpr ⟨List.mem_cons_of_mem _ (List.mem_map.mpr ⟨u, hu, rfl⟩), decide_eq_true (alignUp_le hx hbelow)⟩

/-- `firstFit` answers the lowest aligned place of the range that is free. -/
theorem firstFit_lowest {pool : Nat × Nat} {align size a : Nat} {used : List (Nat × Nat)} (hpos : 0 < align)
    (h : firstFit pool align size used = some a) :
    a % align = 0 ∧ Fits pool size used a ∧ ∀ x, x % align = 0 → x < a → ¬Fits pool size used x := by
  obtain ⟨⟨hstart, hfit⟩, hleast⟩ := firstFit_some h
  refine ⟨startsIn_aligned hstart, hfit, fun x hx hlt hfits => ?_⟩
  obtain ⟨m, hm, hmx, hmfit⟩ := exists_start_fits hpos hx hfits
  exact absurd (hleast m hm hmfit) (by omega)

theorem placeAll_single {range : Nat × Nat} {align n base : Nat} {used : List (Nat × Nat)} (h : placeAll range align used [n] = some [base])
    (hn : 0 < n) : firstFit range align n used = some base := by
  rw [placeAll, max_eq_left hn] at h
  split at h
  · cases h
  · next hfirst =>
    rw [placeAll, Option.map_some, Option.some.injEq, List.cons.injEq] at h
    rw [hfirst, h.1]

theorem placeAll_lowest {range : Nat × Nat} {used : List (Nat × Nat)} {n base : Nat} (h : placeAll range 4096 used [n] = some [base]) (hn : 0 < n) :
    base % 4096 = 0 ∧ range.1 ≤ base ∧ base + n ≤ range.1 + range.2 ∧ (∀ a ∈ used, base + n ≤ a.1 ∨ a.1 + a.2 ≤ base) ∧
      ∀ x, x % 4096 = 0 → range.1 ≤ x → x < base → ∃ a ∈ used, x < a.1 + a.2 ∧ a.1 < x + n := by
  obtain ⟨hmod, ⟨hlo, hhi, hclear⟩, hlowest⟩ := firstFit_lowest (by decide) (placeAll_single h hn)
  refine ⟨hmod, hlo, hhi, hclear, fun x hx hxlo hlt => ?_⟩
  by_contra hnone
  push Not at hnone
  refine hlowest x hx hlt ⟨hxlo, by omega, fun u hu => ?_⟩
  by_cases hux : x < u.1 + u.2
  · exact .inl (hnone u hu hux)
  · exact .inr (by omega)

theorem placeAll_length {range : Nat × Nat} {align : Nat} {ns : List Nat} : ∀ {used : List (Nat × Nat)} {bases : List Nat},
    placeAll range align used ns = some bases → bases.length = ns.length := by
  induction ns with
  | nil => rintro used bases ⟨⟩; rfl
  | cons n ns ih =>
    intro used bases h
    rw [placeAll] at h
    split at h
    · cases h
    · obtain ⟨as, has, rfl⟩ := Option.map_eq_some_iff.mp h
      rw [List.length_cons, List.length_cons, ih has]

/-! ### Sorted lists and runs -/

/-- Of a rising list, what is less than one of the first elements is among the first itself. -/
theorem mem_take_of_lt {l : List Nat} (hl : l.Pairwise (· < ·)) {n x y : Nat} (hx : x ∈ l) (hy : y ∈ l.take n) (hlt : x < y) : x ∈ l.take n := by
  rw [← List.take_append_drop n l, List.pairwise_append] at hl
  rw [← List.take_append_drop n l, List.mem_append] at hx
  obtain ⟨-, -, hbelow⟩ := hl
  exact hx.resolve_right fun hdrop => absurd (hbelow y hy x hdrop) (by omega)

/-- Each run of `n` elements of a list of clusters, from a multiple of `n` on, lies on one die. -/
def DieRuns (n : Nat) (l : List Nat) : Prop :=
  ∀ j r cl cl', r < n → l[n * j]? = some cl → l[n * j + r]? = some cl' → cl' / 12 = cl / 12

theorem dieRuns_of_die {l : List Nat} {d : Nat} (n : Nat) (h : ∀ x ∈ l, x / 12 = d) : DieRuns n l := fun _ _ _ _ _ hcl hcl' =>
  (h _ (List.mem_of_getElem? hcl')).trans (h _ (List.mem_of_getElem? hcl)).symm

theorem DieRuns.append {n : Nat} {l₁ l₂ : List Nat} (h₁ : DieRuns n l₁) (hn : n ∣ l₁.length) (h₂ : DieRuns n l₂) : DieRuns n (l₁ ++ l₂) := by
  obtain ⟨k, hk⟩ := hn
  intro j r cl cl' hr hcl hcl'
  by_cases hj : j < k
  · have hend : n * j + n ≤ n * k := by rw [← Nat.mul_succ]; exact Nat.mul_le_mul_left n hj
    rw [List.getElem?_append_left (by omega)] at hcl hcl'
    exact h₁ j r cl cl' hr hcl hcl'
  · obtain ⟨i, rfl⟩ := Nat.exists_eq_add_of_le (Nat.le_of_not_lt hj)
    rw [Nat.mul_add, List.getElem?_append_right (by omega), hk] at hcl hcl'
    rw [Nat.add_sub_cancel_left] at hcl
    rw [Nat.add_assoc, Nat.add_sub_cancel_left] at hcl'
    exact h₂ i r cl cl' hr hcl hcl'

theorem DieRuns.take {n : Nat} {l : List Nat} (h : DieRuns n l) (k : Nat) : DieRuns n (l.take k) := by
  have hsome : ∀ {i x}, (l.take k)[i]? = some x → l[i]? = some x := fun {i x} hx => by
    rw [List.getElem?_take] at hx
    exact (ite_eq_iff.mp hx).elim And.right fun hnone => nomatch hnone.2
  exact fun j r cl cl' hr hcl hcl' => h j r cl cl' hr (hsome hcl) (hsome hcl')

theorem DieRuns.drop {n : Nat} {l : List Nat} (h : DieRuns n l) : DieRuns n (l.drop n) := fun j r cl cl' hr hcl hcl' => by
  rw [List.getElem?_drop] at hcl hcl'
  exact h (j + 1) r cl cl' hr (by rwa [Nat.mul_succ, Nat.add_comm]) (by rwa [Nat.mul_succ, Nat.add_comm (n * j), Nat.add_assoc])

theorem dieRuns_flatMap {n : Nat} {f : Nat → List Nat} (hdie : ∀ d, ∀ x ∈ f d, x / 12 = d) (hlen : ∀ d, n ∣ (f d).length) (ds : List Nat) :
    DieRuns n (ds.flatMap f) := by
  induction ds with
  | nil => exact dieRuns_of_die (d := 0) n (by simp)
  | cons d ds ih => exact (dieRuns_of_die n (hdie d)).append (hlen d) ih

/-- The elements of the first run, all on the die of the first of them. -/
theorem DieRuns.first {n : Nat} {l : List Nat} (h : DieRuns n l) : ∀ x ∈ l.take n, x / 12 = l.headD 0 / 12 := fun x hx => by
  obtain ⟨i, hi, rfl⟩ := List.mem_take_iff_getElem.mp hx
  obtain ⟨hin, hil⟩ := lt_min_iff.mp hi
  refine h 0 i _ _ hin ?_ (by rw [Nat.mul_zero, Nat.zero_add, List.getElem?_eq_getElem hil])
  rw [Nat.mul_zero, List.headD_eq_head?_getD, List.head?_eq_getElem?, List.getElem?_eq_getElem (by omega), Option.getD_some]

theorem countP_of_die {l : List Nat} {e : Nat} (h : ∀ x ∈ l, x / 12 = e) (d : Nat) : l.countP (· / 12 == d) = if e = d then l.length else 0 := by
  split
  · next heq => exact List.countP_eq_length.mpr fun x hx => beq_iff_eq.mpr ((h x hx).trans heq)
  · next hne => exact List.countP_eq_zero.mpr fun x hx hd => hne ((h x hx).symm.trans (eq_of_beq hd))

/-- Where a list is made of whole runs, each die has whole runs of it. -/
theorem DieRuns.dvd_countP {n : Nat} (d : Nat) : ∀ {k : Nat} {l : List Nat}, l.length = n * k → DieRuns n l → n ∣ l.countP (· / 12 == d)
  | 0, l, hlen, _ => by simp [List.eq_nil_of_length_eq_zero hlen]
  | k + 1, l, hlen, h => by
    have hfirst : n ∣ (l.take n).countP (· / 12 == d) := by
      rw [countP_of_die h.first d, List.length_take, hlen, min_eq_left (Nat.le_mul_of_pos_right n k.succ_pos)]
      split
      · exact dvd_rfl
      · exact dvd_zero n
    rw [← List.take_append_drop n l, List.countP_append]
    exact Nat.dvd_add hfirst (h.drop.dvd_countP d (k := k) (by rw [List.length_drop, hlen, Nat.mul_succ, Nat.add_sub_cancel]))

/-- The elements of a list counted by the die that they are on. -/
theorem length_eq_sum_dies {l : List Nat} (h : ∀ x ∈ l, x < 48) : l.length = ((List.range 4).map fun d => l.countP (· / 12 == d)).sum := by
  induction l with
  | nil => rfl
  | cons x l ih =>
    have hdie : ((List.range 4).map fun d => if x / 12 == d then 1 else 0).sum = 1 := by
      have hx := h x List.mem_cons_self
      obtain h0 | h1 | h2 | h3 : x / 12 = 0 ∨ x / 12 = 1 ∨ x / 12 = 2 ∨ x / 12 = 3 := by omega
      · rw [h0]; rfl
      · rw [h1]; rfl
      · rw [h2]; rfl
      · rw [h3]; rfl
    simp only [List.countP_cons, List.sum_map_add]
    rw [List.length_cons, ih fun y hy => h y (List.mem_cons_of_mem _ hy), hdie]

/-! ### The placement table (R309) -/

variable (s : State) (h : Header)

/-- The eligible clusters of a die, in ascending order. -/
def State.eligibleOn (d : Nat) : List Nat := ((List.range 12).map fun c => 12 * d + c).filter (s.eligible h)

/-- Those of them that whole runs use. -/
def State.runsOn (d : Nat) : List Nat := (s.eligibleOn h d).take ((s.eligibleOn h d).length / h.vspan * h.vspan)

/-- The clusters of the runs of every die, in ascending order. -/
def State.runs : List Nat := (List.range 4).flatMap (s.runsOn h)

theorem buildTable_eq : s.buildTable h = if h.vcl = 0 then some [] else if h.vcl ≤ (s.runs h).length then some ((s.runs h).take h.vcl) else none := rfl

theorem holdsFeatures_iff (have' need : DWord) : holdsFeatures have' need = (have' &&& need == need) := by
  rw [holdsFeatures, Bool.eq_iff_iff, beq_iff_eq, beq_iff_eq, BitVec.eq_of_getLsbD_eq_iff, BitVec.eq_of_getLsbD_eq_iff]
  refine forall₂_congr fun i hi => ?_
  rw [BitVec.getLsbD_and, BitVec.getLsbD_and, BitVec.getLsbD_not, decide_eq_true hi, Bool.true_and,
    show (0 : DWord).getLsbD i = false from BitVec.getLsbD_zero]
  cases have'.getLsbD i <;> cases need.getLsbD i <;> decide

theorem clusterFits_iff (cl : Nat) : s.clusterFits h cl = true ↔ coresFor s h cl := by
  rw [State.clusterFits, Bool.and_eq_true, decide_eq_true_eq, State.fitCores, List.filter_map, List.length_map]
  simp only [Function.comp_def, holdsFeatures_iff]
  rfl

theorem hasTile_iff : h.hasTile = true ↔ h.tileEntry ≠ 0xFFFFFFFF := bne_iff_ne

theorem eligible_iff (cl : Nat) :
    s.eligible h cl = true ↔ coresFor s h cl ∧ (h.tileEntry ≠ 0xFFFFFFFF → s.dev.map.liveMcc.getLsbD cl = true) := by
  rw [State.eligible, Bool.and_eq_true, clusterFits_iff, Bool.or_eq_true, Bool.not_eq_true', ← Bool.not_eq_true, hasTile_iff, ← imp_iff_not_or]

theorem mem_eligibleOn {s : State} {h : Header} {d x : Nat} : x ∈ s.eligibleOn h d ↔ x / 12 = d ∧ s.eligible h x = true := by
  rw [State.eligibleOn, List.mem_filter, List.mem_map]
  refine and_congr_left fun _ => ⟨?_, fun hd => ⟨x % 12, List.mem_range.mpr (Nat.mod_lt _ (by decide)), by omega⟩⟩
  rintro ⟨c, hc, rfl⟩
  have := List.mem_range.mp hc
  omega

theorem eligibleOn_sorted (d : Nat) : (s.eligibleOn h d).Pairwise (· < ·) :=
  (List.pairwise_map.mpr (List.pairwise_lt_range.imp fun hlt => Nat.add_lt_add_left hlt _)).filter _

theorem mem_runs {s : State} {h : Header} {x : Nat} : x ∈ s.runs h ↔ x < 48 ∧ x ∈ s.runsOn h (x / 12) := by
  have hdie : ∀ d, x ∈ s.runsOn h d → x / 12 = d := fun d hx => (mem_eligibleOn.mp (List.mem_of_mem_take hx)).1
  rw [State.runs, List.mem_flatMap]
  constructor
  · rintro ⟨d, hd, hx⟩
    have := List.mem_range.mp hd
    obtain rfl := hdie d hx
    exact ⟨by omega, hx⟩
  · rintro ⟨hlt, hx⟩
    exact ⟨x / 12, List.mem_range.mpr (by omega), hx⟩

theorem runs_sorted : (s.runs h).Pairwise (· < ·) := by
  refine List.pairwise_flatMap.mpr ⟨fun d _ => (eligibleOn_sorted s h d).sublist (List.take_sublist _ _),
    List.pairwise_lt_range.imp fun hlt x hx y hy => ?_⟩
  have hdx := (mem_eligibleOn.mp (List.mem_of_mem_take hx)).1
  have hdy := (mem_eligibleOn.mp (List.mem_of_mem_take hy)).1
  omega

theorem runsOn_length (d : Nat) : (s.runsOn h d).length = (s.eligibleOn h d).length / h.vspan * h.vspan := by
  rw [State.runsOn, List.length_take, min_eq_left (Nat.div_mul_le_self _ _)]

theorem runs_dieRuns : DieRuns h.vspan (s.runs h) :=
  dieRuns_flatMap (fun _ _ hx => (mem_eligibleOn.mp (List.mem_of_mem_take hx)).1) (fun d => Dvd.intro_left _ (runsOn_length s h d).symm) _

/-- Of the runs, those of the lower clusters of a die are taken before the higher. -/
theorem mem_runs_of_lt {s : State} {h : Header} {x y : Nat} (hx : s.eligible h x = true) (hy : y ∈ s.runs h) (hdie : x / 12 = y / 12) (hlt : x < y) :
    x ∈ s.runs h := by
  obtain ⟨hy48, hyrun⟩ := mem_runs.mp hy
  exact mem_runs.mpr ⟨by omega, hdie ▸ mem_take_of_lt (eligibleOn_sorted s h _) (mem_eligibleOn.mpr ⟨hdie, hx⟩) hyrun hlt⟩

/-- Fewer than VSPAN clusters of a die are in no run. -/
theorem leftover_lt {s : State} {h : Header} {d : Nat} {rest : List Nat} (hspan : 0 < h.vspan) (hnd : rest.Nodup)
    (hrest : ∀ x ∈ rest, s.eligible h x = true ∧ x / 12 = d ∧ x ∉ s.runsOn h d) : rest.length < h.vspan := by
  have hsub : rest ⊆ (s.eligibleOn h d).drop ((s.eligibleOn h d).length / h.vspan * h.vspan) := fun x hx => by
    obtain ⟨hel, hd, hno⟩ := hrest x hx
    have hmem := mem_eligibleOn.mpr ⟨hd, hel⟩
    rw [← List.take_append_drop ((s.eligibleOn h d).length / h.vspan * h.vspan) (s.eligibleOn h d), List.mem_append] at hmem
    exact hmem.resolve_left hno
  refine (hnd.subperm hsub).length_le.trans_lt ?_
  rw [List.length_drop, ← Nat.mod_eq_sub_div_mul]
  exact Nat.mod_lt _ hspan

/-- A table of the first clusters of the runs keeps the rules of placement. -/
theorem runs_take_rule {n : Nat} (hv : h.vcl = n) (hn : n ≠ 0) (hle : n ≤ (s.runs h).length) : TableRule s h ((s.runs h).take n) := by
  have hspan : 0 < h.vspan := by
    refine Nat.pos_of_ne_zero fun hzero => ?_
    have hnil : s.runs h = [] := by
      refine List.flatMap_eq_nil_iff.mpr fun d _ => List.eq_nil_of_length_eq_zero ?_
      rw [runsOn_length, hzero, Nat.mul_zero]
    rw [hnil] at hle
    exact hn (Nat.le_zero.mp hle)
  have hrun : ∀ {x}, x ∈ (s.runs h).take n → x ∈ s.runs h := List.mem_of_mem_take
  refine ⟨?length, fun cl hcl => ?eligible, (runs_sorted s h).sublist (List.take_sublist _ _), (runs_dieRuns s h).take n, ?lower, ?leftover⟩
  case length => rw [List.length_take, min_eq_left hle, hv]
  case eligible =>
    obtain ⟨hlt, hmem⟩ := mem_runs.mp (hrun hcl)
    exact ⟨hlt, (eligible_iff s h cl).mp (mem_eligibleOn.mp (List.mem_of_mem_take hmem)).2⟩
  case lower =>
    intro cl cl' hcl' hlt hdie hel
    exact mem_take_of_lt (runs_sorted s h) (mem_runs_of_lt ((eligible_iff s h cl).mpr hel.2) (hrun hcl') hdie hlt) hcl' hlt
  case leftover =>
    intro cl hcl rest hnd hrest
    refine leftover_lt (s := s) (d := rest.headD 0 / 12) hspan hnd fun x hx => ?_
    obtain ⟨⟨hx48, hel⟩, hlower, hno, hdie⟩ := hrest x hx
    refine ⟨(eligible_iff s h x).mpr hel, hdie, fun hx' => hno ?_⟩
    exact mem_take_of_lt (runs_sorted s h) (mem_runs.mpr ⟨hx48, hdie ▸ hx'⟩) hcl (by omega)

theorem buildTable_rule {s : State} {h : Header} {t : List Nat} (ht : s.buildTable h = some t) : TableRule s h t := by
  rw [buildTable_eq] at ht
  split at ht
  · next hzero =>
    obtain rfl := Option.some.inj ht
    exact ⟨hzero.symm, by simp, by simp, by simp, by simp, by simp⟩
  · next hne =>
    split at ht
    · next hle =>
      obtain rfl := Option.some.inj ht
      exact runs_take_rule s h rfl hne hle
    · cases ht

/-- A table that keeps the rules has no more clusters than the runs: of each die it names whole runs of different eligible clusters. -/
theorem tableRule_length_le {s : State} {h : Header} {t : List Nat} (ht : TableRule s h t) (hdvd : h.vspan ∣ h.vcl) : h.vcl ≤ (s.runs h).length := by
  obtain ⟨hlen, hel, hsorted, hruns, -, -⟩ := ht
  obtain ⟨k, hk⟩ := hdvd
  rw [← hlen, length_eq_sum_dies fun x hx => (hel x hx).1, State.runs, List.length_flatMap]
  refine List.sum_le_sum fun d _ => ?_
  have hcount : t.countP (· / 12 == d) ≤ (s.eligibleOn h d).length := by
    rw [List.countP_eq_length_filter]
    refine (List.Nodup.subperm (List.Nodup.filter _ (hsorted.imp ne_of_lt)) fun x hx => ?_).length_le
    obtain ⟨hx, hd⟩ := List.mem_filter.mp hx
    exact mem_eligibleOn.mpr ⟨eq_of_beq hd, (eligible_iff s h x).mpr (hel x hx).2⟩
  rw [runsOn_length, ← Nat.div_mul_cancel (DieRuns.dvd_countP d (hlen.trans hk) hruns)]
  exact Nat.mul_le_mul_right _ (Nat.div_le_div_right hcount)

theorem buildTable_none {s : State} {h : Header} (hnone : s.buildTable h = none) (hmod : h.vcl % h.vspan = 0) (t : List Nat) : ¬TableRule s h t := by
  intro ht
  have hle := tableRule_length_le ht (Nat.dvd_of_mod_eq_zero hmod)
  rw [buildTable_eq, if_pos hle] at hnone
  split at hnone <;> cases hnone

end Sys2Proof.Machine
end

section
/-!
PROOF. The checks of a kernel image (R298-R303, R307): each check of the loader comes out as the rule says, and the first that fails is named.
-/

namespace Sys2Proof.Machine

/-! ### Fields of an image -/

theorem getD_take_drop (b : List Byte) (off : Nat) {n i : Nat} (hi : i < n) : ((b.drop off).take n).getD i 0 = b.getD (off + i) 0 := by
  rw [List.getD_eq_getElem?_getD, List.getElem?_take_of_lt hi, List.getElem?_drop, ← List.getD_eq_getElem?_getD]

theorem entryNum_succ (b : List Byte) (off n : Nat) : entryNum b off (n + 1) = (b.getD off 0).toNat + 256 * entryNum b (off + 1) n := by
  by_cases hoff : off < b.length
  · rw [entryNum, List.drop_eq_getElem_cons hoff, List.take_succ_cons, natLE, List.getD_eq_getElem b 0 hoff]
    rfl
  · have hnil : ∀ off n, b.length ≤ off → entryNum b off n = 0 := fun off n h => by rw [entryNum, List.drop_eq_nil_of_le h, List.take_nil]; rfl
    rw [hnil off _ (by omega), hnil (off + 1) _ (by omega), List.getD_eq_default b 0 (by omega)]
    rfl

theorem entryNum_one (b : List Byte) (off : Nat) : entryNum b off 1 = (b.getD off 0).toNat := by
  rw [entryNum_succ, show entryNum b (off + 1) 0 = 0 from rfl, Nat.mul_zero, Nat.add_zero]

theorem entryNum_lt (b : List Byte) (n : Nat) : ∀ off, entryNum b off n < 256 ^ n := by
  induction n with
  | zero => exact fun _ => Nat.one_pos
  | succ n ih =>
    intro off
    have hbyte := (b.getD off 0).isLt
    have hrest := ih (off + 1)
    rw [entryNum_succ, Nat.pow_succ]
    omega

theorem entryNum_byte (b : List Byte) (off : Nat) {n i : Nat} (hi : i < n) : BitVec.ofNat 8 (entryNum b off n / 256 ^ i) = b.getD (off + i) 0 := by
  rw [entryNum, byte_natLE, getD_take_drop b off hi]

theorem entryZero_iff (b : List Byte) (off n : Nat) : entryZero b off n = true ↔ ∀ i, i < n → b.getD (off + i) 0 = 0 := by
  rw [entryZero, List.all_eq_true]
  constructor
  · intro hall i hi
    rw [← getD_take_drop b off hi]
    by_cases hin : i < ((b.drop off).take n).length
    · rw [List.getD_eq_getElem _ 0 hin]
      exact eq_of_beq (hall _ (List.getElem_mem hin))
    · exact List.getD_eq_default _ 0 (by omega)
  · intro hzero x hx
    obtain ⟨i, hi, rfl⟩ := List.mem_iff_getElem.mp hx
    have hin : i < n := (List.length_take (i := n) (l := b.drop off) ▸ hi).trans_le (min_le_left _ _)
    rw [← List.getD_eq_getElem _ 0 hi, getD_take_drop b off hin, hzero i hin]
    rfl

/-! ### The checks of an image, as the loader makes them and as R298-R309 ask for them (R307) -/

/-- A check of the loader bears the name of a check of the rules and comes out true just where that holds. -/
structure SameCheck (c : LoadCheck × Bool) (r : LoadCheck × Prop) : Prop where
  name : c.1 = r.1
  holds : c.2 = true ↔ r.2

theorem and_decide_iff {p q : Prop} [Decidable p] [Decidable q] : (decide p && decide q) = true ↔ p ∧ q := by
  rw [Bool.and_eq_true, decide_eq_true_iff, decide_eq_true_iff]

theorem roleOk_iff {strands least x : Nat} : roleOk strands least x = true ↔ if strands = 0 then x = 0 else least ≤ x ∧ x ≤ 64 := by
  rw [roleOk]
  split
  · exact decide_eq_true_iff
  · exact and_decide_iff

theorem offsetOk_iff {h : Header} {x : Nat} : offsetOk h false x = true ↔
    x % 64 = 0 ∧ 0x100 ≤ x ∧ x < (if h.sideCount = 0 then h.codeSize else h.sideOff) ∧ x ≠ 0xFFFFFFFF := by
  simp only [offsetOk, Bool.false_and, Bool.false_or, Bool.and_eq_true, bne_iff_ne, decide_eq_true_eq]
  tauto

theorem offsetOk_none_iff {h : Header} {x : Nat} : offsetOk h true x = true ↔ x = 0xFFFFFFFF ∨
    x % 64 = 0 ∧ 0x100 ≤ x ∧ x < (if h.sideCount = 0 then h.codeSize else h.sideOff) ∧ x ≠ 0xFFFFFFFF := by
  rw [← offsetOk_iff]
  simp only [offsetOk, Bool.true_and, Bool.false_and, Bool.false_or, Bool.or_eq_true, beq_iff_eq]

theorem codeSizeOk_iff {n len : Nat} : (decide (n % 64 = 0) && decide (n ≤ 0xFFFFFFC0) && decide (n = len) && decide (0x100 ≤ n)) = true ↔
    n % 64 = 0 ∧ n ≤ 0xFFFFFFC0 ∧ n = len ∧ 0x100 ≤ n := by
  simp only [Bool.and_eq_true, decide_eq_true_eq, and_assoc]

theorem sideOffAbsent_iff {count off : Nat} : (count != 0 || decide (off = 0)) = true ↔ (count = 0 → off = 0) := by
  rw [Bool.or_eq_true, bne_iff_ne, decide_eq_true_eq, imp_iff_not_or]

theorem sideOffOk_iff {count off : Nat} : (count == 0 || (decide (off % 64 = 0) && decide (0x100 ≤ off))) = true ↔
    count = 0 ∨ (off % 64 = 0 ∧ 0x100 ≤ off) := by
  rw [Bool.or_eq_true, beq_iff_eq, and_decide_iff]

theorem spanOk_iff {vcl span : Nat} :
    (if vcl = 0 then decide (span = 0) else decide (1 ≤ span) && decide (span ≤ 12) && decide (vcl % span = 0)) = true ↔
      if vcl = 0 then span = 0 else 1 ≤ span ∧ span ≤ 12 ∧ vcl % span = 0 := by
  split
  · exact decide_eq_true_iff
  · simp only [Bool.and_eq_true, decide_eq_true_eq, and_assoc]

theorem features_toNat (b : List Byte) : (Header.ofImage b).features.toNat = entryNum b 0x38 8 := Nat.mod_eq_of_lt (entryNum_lt b 8 0x38)

/-- The header fields in their order, each row the reason why its two sides agree (R298, R299). -/
theorem fieldChecks_rule (s : State) (b : List Byte) (stack : Option Nat) : List.Forall₂ SameCheck
    ([(LoadCheck.ident, entryNum b 0 4 == 0x314B4847), (LoadCheck.hver, entryNum b 4 2 == 1)] ++
      (fieldChecks b (Header.ofImage b)).map fun f => (LoadCheck.field f.1, f.2)) ((loadRule s b stack).take 25) :=
  .cons ⟨rfl, beq_iff_eq⟩ <| .cons ⟨rfl, beq_iff_eq⟩ <|
  .cons ⟨rfl, decide_eq_true_iff⟩ <| .cons ⟨rfl, and_decide_iff⟩ <| .cons ⟨rfl, decide_eq_true_iff⟩ <| .cons ⟨rfl, and_decide_iff⟩ <|
  .cons ⟨rfl, entryZero_iff b 0x0B 1⟩ <|
  .cons ⟨rfl, roleOk_iff⟩ <| .cons ⟨rfl, roleOk_iff⟩ <| .cons ⟨rfl, roleOk_iff⟩ <| .cons ⟨rfl, roleOk_iff⟩ <|
  .cons ⟨rfl, and_decide_iff⟩ <| .cons ⟨rfl, and_decide_iff⟩ <|
  .cons ⟨rfl, offsetOk_iff⟩ <| .cons ⟨rfl, offsetOk_none_iff⟩ <| .cons ⟨rfl, offsetOk_none_iff⟩ <| .cons ⟨rfl, offsetOk_none_iff⟩ <|
  .cons ⟨rfl, codeSizeOk_iff⟩ <| .cons ⟨rfl, sideOffAbsent_iff⟩ <|
  .cons ⟨rfl, decide_eq_true_iff⟩ <| .cons ⟨rfl, spanOk_iff⟩ <| .cons ⟨rfl, entryZero_iff b 0x36 2⟩ <|
  .cons ⟨rfl, features_toNat b ▸ decide_eq_true_iff⟩ <| .cons ⟨rfl, decide_eq_true_iff⟩ <| .cons ⟨rfl, entryZero_iff b 0x81 31⟩ .nil

/-- The parts of a ring entry, read from its word or from its bytes (R300). -/
theorem ringDecl_fields (b : List Byte) (q : Nat) :
    RingDecl.ofBits (entryNum b (0x40 + 4 * q) 4) =
      { off := entryNum b (0x42 + 4 * q) 2, lsz := entryNum b (0x41 + 4 * q) 1 % 32, cnt := entryNum b (0x40 + 4 * q) 1 % 128 } ∧
    bitsOf (entryNum b (0x40 + 4 * q) 4) 15 13 = entryNum b (0x41 + 4 * q) 1 / 32 ∧
    bitsOf (entryNum b (0x40 + 4 * q) 4) 7 7 = entryNum b (0x40 + 4 * q) 1 / 128 := by
  have hlow := (b.getD (0x40 + 4 * q) 0).isLt
  have hmid := (b.getD (0x41 + 4 * q) 0).isLt
  have hhigh := entryNum_lt b 2 (0x42 + 4 * q)
  rw [RingDecl.ofBits, entryNum_succ b _ 3, entryNum_succ b _ 2, entryNum_one, entryNum_one, show 0x40 + 4 * q + 1 = 0x41 + 4 * q by omega,
    show 0x41 + 4 * q + 1 = 0x42 + 4 * q by omega]
  simp only [bitsOf, RingDecl.mk.injEq, Nat.reducePow, Nat.reduceAdd, Nat.reduceSub] at *
  omega

theorem ringOk_iff {scratch : Nat} {b : List Byte} {q : Nat} : ringOk scratch (entryNum b (0x40 + 4 * q) 4) = true ↔
    let cnt := entryNum b (0x40 + 4 * q) 1 % 128
    let lsz := entryNum b (0x41 + 4 * q) 1 % 32
    let area := 128 * entryNum b (0x42 + 4 * q) 2
    entryNum b (0x41 + 4 * q) 1 < 32 ∧ entryNum b (0x40 + 4 * q) 1 < 128 ∧ if cnt = 0 then area = 0 ∧ lsz = 0
      else 7 ≤ lsz ∧ lsz ≤ 16 ∧ cnt ≤ 64 ∧ area % 2 ^ lsz = 0 ∧ area + cnt * 2 ^ lsz ≤ scratch := by
  obtain ⟨hdecl, hhigh, hlow⟩ := ringDecl_fields b q
  rw [ringOk, hdecl, hhigh, hlow]
  simp only [Bool.and_eq_true, decide_eq_true_eq, Nat.div_eq_zero_iff_lt (show 0 < 32 by decide), Nat.div_eq_zero_iff_lt (show 0 < 128 by decide), and_assoc]
  refine and_congr_right fun _ => and_congr_right fun _ => ?_
  split
  · rw [and_decide_iff, Nat.mul_eq_zero, or_iff_right (by decide)]
  · simp only [Bool.and_eq_true, decide_eq_true_eq, and_assoc]

theorem leaseOk_iff {b : List Byte} {i : Nat} : leaseOk b i = true ↔ if i < entryNum b 0x80 1
    then 1 ≤ entryNum b (0xA8 + 16 * i) 8 ∧ entryNum b (0xA8 + 16 * i) 8 ≤ 2 ^ 40 else ∀ k, k < 16 → b.getD (0xA0 + 16 * i + k) 0 = 0 := by
  rw [leaseOk]
  split
  · exact and_decide_iff
  · exact entryZero_iff ..

/-- A test of every two neighbours of a list. -/
theorem all_neighbours_iff {α : Type} {l : List α} {r : α × α → Bool} :
    (l.zip (l.drop 1)).all r = true ↔ ∀ i (hi : i + 1 < l.length), r (l[i], l[i + 1]) = true := by
  rw [List.all_eq_true, List.forall_mem_iff_forall_getElem]
  simp only [List.length_zip, List.length_drop, List.getElem_zip, List.getElem_drop, Nat.add_comm 1]
  exact ⟨fun h i hi => h i (by omega), fun h i hi => h i (by omega)⟩

theorem sideOrdered_iff {b : List Byte} : sideOrdered (sideTable b) = true ↔
    (∀ i, i < entryNum b 0x30 4 → entryNum b (entryNum b 0x2C 4 + 16 * i + 6) 1 % 2 = 0) ∧
      ∀ i, i + 1 < entryNum b 0x30 4 → entryNum b (entryNum b 0x2C 4 + 16 * i) 4 < entryNum b (entryNum b 0x2C 4 + 16 * (i + 1)) 4 := by
  rw [sideOrdered, Bool.and_eq_true, all_neighbours_iff]
  refine and_congr ?_ ?_
  · rw [sideTable, List.all_map, List.all_eq_true]
    refine forall_congr' fun i => ?_
    rw [List.mem_range, Function.comp_apply, Bool.not_eq_true', BitVec.getLsbD_ofNat, decide_eq_true (by decide), Bool.true_and, Nat.testBit_zero,
      decide_eq_false_iff_not, Nat.mod_two_not_eq_one]
  · simp only [sideTable, List.length_map, List.length_range, List.getElem_map, List.getElem_range, decide_eq_true_eq]

theorem apart_iff {l : List (Nat × Nat)} : apart l = true ↔ l.Pairwise fun a b => a.1 + a.2 ≤ b.1 ∨ b.1 + b.2 ≤ a.1 := by
  induction l with
  | nil => simp [apart]
  | cons a as ih => simp only [apart, Bool.and_eq_true, Bool.not_eq_true', List.any_eq_false, Bool.not_eq_true, areasMeet_false, ih, List.pairwise_cons]

theorem pairwise_range_iff {n : Nat} {R : Nat → Nat → Prop} : (List.range n).Pairwise R ↔ ∀ p q, p < q → q < n → R p q := by
  rw [List.pairwise_iff_getElem]
  simp only [List.length_range, List.getElem_range]
  exact ⟨fun h p q hpq hq => h p q (hpq.trans hq) hq hpq, fun h p q _ hq hpq => h p q hpq hq⟩

theorem ringOverlap_iff {b : List Byte} : apart (Header.ofImage b).ringAreas = true ↔
    ∀ p q, p < q → q < 16 → entryNum b (0x40 + 4 * p) 1 % 128 ≠ 0 → entryNum b (0x40 + 4 * q) 1 % 128 ≠ 0 →
      128 * entryNum b (0x42 + 4 * p) 2 + entryNum b (0x40 + 4 * p) 1 % 128 * 2 ^ (entryNum b (0x41 + 4 * p) 1 % 32) ≤ 128 * entryNum b (0x42 + 4 * q) 2 ∨
      128 * entryNum b (0x42 + 4 * q) 2 + entryNum b (0x40 + 4 * q) 1 % 128 * 2 ^ (entryNum b (0x41 + 4 * q) 1 % 32) ≤ 128 * entryNum b (0x42 + 4 * p) 2 := by
  rw [Header.ringAreas, apart_iff, List.pairwise_map, List.pairwise_filter, Header.ofImage, List.pairwise_map, pairwise_range_iff]
  simp only [(ringDecl_fields b _).1, bne_iff_ne]

/-- R307: the header fields, the ring entries, the lease descriptors, and what is checked of them together and against the map. -/
theorem loadChecks_rule (s : State) (b : List Byte) (stack : Option Nat) : List.Forall₂ SameCheck (s.loadChecks b stack) (loadRule s b stack) := by
  refine List.rel_append (List.rel_append (List.rel_append (fieldChecks_rule s b stack) ?rings) ?leases) ?rest
  case rings =>
    exact List.forall₂_map_left_iff.mpr (List.forall₂_map_right_iff.mpr (List.forall₂_same.mpr fun q _ => ⟨rfl, ringOk_iff⟩))
  case leases =>
    exact List.forall₂_map_left_iff.mpr (List.forall₂_map_right_iff.mpr (List.forall₂_same.mpr fun i _ => ⟨rfl, leaseOk_iff⟩))
  case rest =>
    refine .cons ⟨rfl, ?_⟩ <| .cons ⟨rfl, ?_⟩ <| .cons ⟨rfl, decide_eq_true_iff⟩ <| .cons ⟨rfl, sideOrdered_iff⟩ <|
      .cons ⟨rfl, ringOverlap_iff⟩ <| .cons ⟨rfl, decide_eq_true_iff⟩ <| .cons ⟨rfl, decide_eq_true_iff⟩ <| .cons ⟨rfl, ?_⟩ <|
      .cons ⟨rfl, ?_⟩ <| .cons ⟨rfl, ?_⟩ .nil
    · cases stack with
      | none => simp
      | some n => simp
    · exact sideOffOk_iff
    · rw [List.any_eq_true]
      exact exists_congr fun cl => and_congr List.mem_range (clusterFits_iff s _ cl)
    · rw [Bool.or_eq_true, Bool.not_eq_true', ← Bool.not_eq_true, hasTile_iff, ← imp_iff_not_or, List.any_eq_true]
      refine imp_congr_right fun htile => exists_congr fun cl => and_congr List.mem_range ?_
      rw [eligible_iff, imp_iff_right htile]
    · exact Option.isSome_iff_ne_none

/-! ### The first check that fails (R307) -/

theorem firstFailed_none {cs : List (LoadCheck × Bool)} {rs : List (LoadCheck × Prop)} (h : List.Forall₂ SameCheck cs rs) (hall : ∀ x ∈ rs, x.2) :
    firstFailed cs = none := by
  induction h with
  | nil => rfl
  | @cons c r cs rs hc _ ih =>
    obtain ⟨hr, hrs⟩ := List.forall_mem_cons.mp hall
    have hpass : c.2 = true := hc.holds.mpr hr
    rw [firstFailed, List.find?_cons_of_neg (by simp [hpass])]
    exact ih hrs

theorem firstFailed_some {before after : List (LoadCheck × Prop)} {check : LoadCheck} {p : Prop} (hbefore : ∀ x ∈ before, x.2) (hp : ¬p) :
    ∀ {cs : List (LoadCheck × Bool)}, List.Forall₂ SameCheck cs (before ++ (check, p) :: after) → firstFailed cs = some check := by
  induction before with
  | nil =>
    rintro _ (_ | ⟨hc, -⟩)
    have hfail : ¬_ := mt hc.holds.mp hp
    rw [firstFailed, List.find?_cons_of_pos (by simpa using hfail)]
    exact congrArg some hc.name
  | cons r before ih =>
    rintro _ (_ | ⟨hc, hcs⟩)
    obtain ⟨hr, hrs⟩ := List.forall_mem_cons.mp hbefore
    have hpass := hc.holds.mpr hr
    rw [firstFailed, List.find?_cons_of_neg (by simp [hpass])]
    exact ih hrs hcs

theorem objectRefused_none {s : State} {obj : CodeObject} (h : ∀ b ∈ obj.kernels, ∀ x ∈ loadRule s b obj.stack, x.2) : s.objectRefused obj = none := by
  refine List.findSome?_eq_none_iff.mpr fun p hp => ?_
  rw [firstFailed_none (loadChecks_rule s _ _) (h _ (List.fst_mem_of_mem_zipIdx hp))]
  rfl

theorem objectRefused_first {s : State} {obj : CodeObject} {k : Nat} {b : List Byte} {before after : List (LoadCheck × Prop)} {check : LoadCheck} {p : Prop}
    (hk : obj.kernels[k]? = some b) (hfirst : ∀ j a, j < k → obj.kernels[j]? = some a → ∀ x ∈ loadRule s a obj.stack, x.2)
    (hrule : loadRule s b obj.stack = before ++ (check, p) :: after) (hbefore : ∀ x ∈ before, x.2) (hp : ¬p) :
    s.objectRefused obj = some (k, check) := by
  obtain ⟨hlt, rfl⟩ := List.getElem?_eq_some_iff.mp hk
  have hget : obj.kernels.zipIdx[k]'(by rwa [List.length_zipIdx]) = (obj.kernels[k], k) := by rw [List.getElem_zipIdx, Nat.zero_add]
  refine List.findSome?_eq_some_iff.mpr ⟨obj.kernels.zipIdx.take k, (obj.kernels[k], k), obj.kernels.zipIdx.drop (k + 1), ?_, ?_, fun x hx => ?_⟩
  · rw [← hget, List.getElem_cons_drop, List.take_append_drop]
  · rw [firstFailed_some hbefore hp (hrule ▸ loadChecks_rule s _ _)]
    rfl
  · obtain ⟨j, hj, rfl⟩ := List.mem_take_iff_getElem.mp hx
    obtain ⟨hjk, hjlen⟩ := lt_min_iff.mp hj
    rw [List.getElem_zipIdx, firstFailed_none (loadChecks_rule s _ _) (hfirst j _ hjk (List.getElem?_eq_getElem _))]
    rfl

end Sys2Proof.Machine
end

section
/-!
PROOF. Code objects loaded and unloaded (R299, R302, R306, R308): what the loader writes into an image, and O52.
-/

namespace Sys2Proof.Machine

/-! ### Bytes replaced in an image (R308) -/

theorem patch_length {b bs : List Byte} {off : Nat} (h : off + bs.length ≤ b.length) : (patch b off bs).length = b.length := by
  simp only [patch, List.length_append, List.length_take, List.length_drop]
  omega

theorem patch_getElem? {b bs : List Byte} {off : Nat} (h : off + bs.length ≤ b.length) (i : Nat) :
    (patch b off bs)[i]? = if off ≤ i ∧ i < off + bs.length then bs[i - off]? else b[i]? := by
  have htake : (b.take off).length = off := List.length_take_of_le (by omega)
  rw [patch, List.append_assoc]
  by_cases hlo : i < off
  · rw [List.getElem?_append_left (by omega), List.getElem?_take_of_lt hlo, if_neg (by omega)]
  · rw [List.getElem?_append_right (by omega), htake]
    by_cases hhi : i < off + bs.length
    · rw [List.getElem?_append_left (by omega), if_pos (by omega)]
    · rw [List.getElem?_append_right (by omega), List.getElem?_drop, if_neg (by omega)]
      congr 1
      omega

theorem bytesLE_getElem? {n i : Nat} (v : Nat) (hi : i < n) : (bytesLE n v)[i]? = some (BitVec.ofNat 8 (v / 256 ^ i)) := by
  induction n generalizing i v with
  | zero => omega
  | succ n ih =>
    cases i with
    | zero => rw [Nat.pow_zero, Nat.div_one]; rfl
    | succ i => rw [bytesLE, List.getElem?_cons_succ, ih _ (by omega), Nat.pow_succ', Nat.div_div_eq_div_mul]

theorem patch_bytesLE_length {b : List Byte} {off n : Nat} (v : Nat) (h : off + n ≤ b.length) : (patch b off (bytesLE n v)).length = b.length :=
  patch_length (by rwa [bytesLE_length])

theorem patch_bytesLE_getElem? {b : List Byte} {off n : Nat} (v : Nat) (h : off + n ≤ b.length) (i : Nat) :
    (patch b off (bytesLE n v))[i]? = if off ≤ i ∧ i < off + n then some (BitVec.ofNat 8 (v / 256 ^ (i - off))) else b[i]? := by
  rw [patch_getElem? (by rwa [bytesLE_length]), bytesLE_length]
  exact ite_congr rfl (fun hi => bytesLE_getElem? v (by omega)) fun _ => rfl

/-- An image with a word put at the site of each of its relocation records. -/
def patches (value : Reloc → Nat) (rs : List Reloc) (b : List Byte) : List Byte :=
  rs.foldl (fun b r => patch b (relocSite r) (bytesLE 8 (value r))) b

theorem patches_length {value : Reloc → Nat} {rs : List Reloc} {b : List Byte} (h : ∀ r ∈ rs, relocSite r + 8 ≤ b.length) :
    (patches value rs b).length = b.length := by
  induction rs generalizing b with
  | nil => rfl
  | cons r rs ih =>
    obtain ⟨hr, hrs⟩ := List.forall_mem_cons.mp h
    have hlen := patch_bytesLE_length (value r) hr
    exact (ih (hlen.symm ▸ hrs)).trans hlen

theorem patches_outside {value : Reloc → Nat} {rs : List Reloc} {b : List Byte} {i : Nat} (h : ∀ r ∈ rs, relocSite r + 8 ≤ b.length)
    (hi : ∀ r ∈ rs, i < relocSite r ∨ relocSite r + 8 ≤ i) : (patches value rs b)[i]? = b[i]? := by
  induction rs generalizing b with
  | nil => rfl
  | cons r rs ih =>
    obtain ⟨hr, hrs⟩ := List.forall_mem_cons.mp h
    obtain ⟨hir, hirs⟩ := List.forall_mem_cons.mp hi
    refine (ih ((patch_bytesLE_length (value r) hr).symm ▸ hrs) hirs).trans ?_
    rw [patch_bytesLE_getElem? _ hr, if_neg (by omega)]

theorem patches_site {value : Reloc → Nat} {rs : List Reloc} {b : List Byte} (h : ∀ r ∈ rs, relocSite r + 8 ≤ b.length)
    (hapart : rs.Pairwise fun r x => relocSite r + 8 ≤ relocSite x ∨ relocSite x + 8 ≤ relocSite r) {r : Reloc} (hr : r ∈ rs) {i : Nat} (hi : i < 8) :
    (patches value rs b)[relocSite r + i]? = some (BitVec.ofNat 8 (value r / 256 ^ i)) := by
  induction rs generalizing b with
  | nil => cases hr
  | cons x rs ih =>
    obtain ⟨hx, hrs⟩ := List.forall_mem_cons.mp h
    obtain ⟨hxrs, hapart⟩ := List.pairwise_cons.mp hapart
    have hrs' : ∀ y ∈ rs, relocSite y + 8 ≤ (patch b (relocSite x) (bytesLE 8 (value x))).length := (patch_bytesLE_length (value x) hx).symm ▸ hrs
    rcases List.mem_cons.mp hr with rfl | hr
    · refine (patches_outside hrs' fun y hy => by have := hxrs y hy; omega).trans ?_
      rw [patch_bytesLE_getElem? _ hx, if_pos (by omega), Nat.add_sub_cancel_left]
    · exact ih hrs' hapart hr

/-! ### What the loader writes into a header (R299, R302) -/

/-- A byte of an image once the loader has written DEBUG, SPILLTRAP and STACK. -/
def stampedByte (obj : CodeObject) (b : List Byte) (i : Nat) : Byte :=
  if i = 6 then BitVec.ofNat 8 (entryNum b 6 1 / 4 * 4 + (if obj.debug then 1 else 0) + if obj.spillTrap then 2 else 0)
  else if 0x14 ≤ i ∧ i < 0x18 ∧ obj.stack.isSome then BitVec.ofNat 8 ((obj.stack.getD 0) / 256 ^ (i - 0x14)) else b.getD i 0

theorem stampedByte_kept {obj : CodeObject} {b : List Byte} {i : Nat} (h6 : i ≠ 6) (hstack : ¬(0x14 ≤ i ∧ i < 0x18 ∧ obj.stack.isSome)) :
    stampedByte obj b i = b.getD i 0 := by
  rw [stampedByte, if_neg h6, if_neg hstack]

/-- FLAGS as the loader writes them. -/
def stampedFlags (obj : CodeObject) (b : List Byte) : Nat := entryNum b 6 2 / 4 * 4 + (if obj.debug then 1 else 0) + if obj.spillTrap then 2 else 0

theorem stamp_none {obj : CodeObject} (h : obj.stack = none) (b : List Byte) : stamp obj b = patch b 6 (bytesLE 2 (stampedFlags obj b)) := by
  rw [stamp, h]
  rfl

theorem stamp_some {obj : CodeObject} {n : Nat} (h : obj.stack = some n) (b : List Byte) :
    stamp obj b = patch (patch b 6 (bytesLE 2 (stampedFlags obj b))) 0x14 (bytesLE 4 n) := by
  rw [stamp, h]
  rfl

/-- DEBUG and SPILLTRAP stand in the low byte of FLAGS, and the high byte stays. -/
theorem stampedFlags_byte (obj : CodeObject) (b : List Byte) {i : Nat} (hi : i < 2) :
    BitVec.ofNat 8 (stampedFlags obj b / 256 ^ i) = stampedByte obj b (6 + i) := by
  have hsplit : entryNum b 6 2 = entryNum b 6 1 + 256 * (b.getD 7 0).toNat := by rw [entryNum_succ, entryNum_one, entryNum_one]
  have hlow := entryNum_lt b 1 6
  have hset : (if obj.debug then 1 else 0) + (if obj.spillTrap then 2 else 0) ≤ 3 :=
    Nat.add_le_add (by split <;> decide : (if obj.debug then 1 else 0) ≤ 1) (by split <;> decide : (if obj.spillTrap then 2 else 0) ≤ 2)
  refine BitVec.eq_of_toNat_eq ?_
  obtain rfl | rfl : i = 0 ∨ i = 1 := by omega
  · rw [stampedFlags, hsplit, stampedByte, if_pos rfl, BitVec.toNat_ofNat, BitVec.toNat_ofNat]
    omega
  · have hhigh : stampedByte obj b (6 + 1) = b.getD 7 0 := stampedByte_kept (by decide) (by omega)
    rw [stampedFlags, hsplit, hhigh, BitVec.toNat_ofNat]
    omega

theorem stamp_length (obj : CodeObject) {b : List Byte} (hb : 0x18 ≤ b.length) : (stamp obj b).length = b.length := by
  have hflags := patch_bytesLE_length (off := 6) (n := 2) (stampedFlags obj b) (by omega : 6 + 2 ≤ b.length)
  cases hstack : obj.stack with
  | none => rw [stamp_none hstack, hflags]
  | some n => rw [stamp_some hstack, patch_bytesLE_length _ (hflags ▸ hb), hflags]

theorem flags_getElem? (obj : CodeObject) {b : List Byte} (hb : 0x18 ≤ b.length) {i : Nat} (hi : i < b.length)
    (hstack : ¬(0x14 ≤ i ∧ i < 0x18 ∧ obj.stack.isSome)) : (patch b 6 (bytesLE 2 (stampedFlags obj b)))[i]? = some (stampedByte obj b i) := by
  rw [patch_bytesLE_getElem? _ (by omega)]
  split
  · next hin => rw [stampedFlags_byte obj b (by omega), Nat.add_sub_cancel' hin.1]
  · next hout => rw [stampedByte_kept (by omega) hstack, List.getD_eq_getElem b 0 hi, List.getElem?_eq_getElem hi]

theorem stamp_getElem? (obj : CodeObject) {b : List Byte} (hb : 0x18 ≤ b.length) {i : Nat} (hi : i < b.length) :
    (stamp obj b)[i]? = some (stampedByte obj b i) := by
  cases hstack : obj.stack with
  | none => rw [stamp_none hstack, flags_getElem? obj hb hi (by simp [hstack])]
  | some n =>
    rw [stamp_some hstack, patch_bytesLE_getElem? _ (by rw [patch_bytesLE_length _ (by omega)]; omega)]
    split
    · next hin => rw [stampedByte, if_neg (by omega), if_pos ⟨hin.1, hin.2, by rw [hstack]; rfl⟩, hstack, Option.getD_some]
    · next hout => exact flags_getElem? obj hb hi fun h => hout ⟨h.1, h.2.1⟩

theorem stamp_unasked {obj : CodeObject} {b : List Byte} (hb : 0x18 ≤ b.length) (hdebug : obj.debug = false) (hspill : obj.spillTrap = false)
    (hstack : obj.stack = none) (hflags : entryNum b 6 2 % 4 = 0) : stamp obj b = b := by
  have hlow : entryNum b 6 1 / 4 * 4 = entryNum b 6 1 := by
    rw [entryNum_succ, ← entryNum_one] at hflags
    omega
  refine List.ext_getElem? fun i => ?_
  by_cases hi : i < b.length
  · rw [stamp_getElem? obj hb hi, List.getElem?_eq_getElem hi, ← List.getD_eq_getElem b 0 hi, stampedByte, hdebug, hspill, hstack, hlow]
    split
    · next h6 =>
      subst h6
      simp [entryNum_one]
    · rw [if_neg (by simp)]
  · rw [List.getElem?_eq_none (by rw [stamp_length obj hb]; omega), List.getElem?_eq_none (by omega)]

/-! ### Relocated values (R308) -/

theorem relocValue_own {obj : CodeObject} {known : List (List Byte × Nat)} {base off : Nat} {dataBases : List Nat} {r : Reloc}
    (hsym : obj.symbols[relocSymbol r]? = some (.own true 0 off)) :
    relocValue obj known [base] dataBases r = some ((base + off + entryNum r.bytes 16 8) % 2 ^ 64) := by
  rw [relocValue, hsym, Option.bind_some]
  refine congrArg some ?_
  change ((((base + off : Nat) : Int) + (BitVec.ofNat 64 (entryNum r.bytes 16 8)).toInt) % 2 ^ 64).toNat = _
  have haddend : (BitVec.ofNat 64 (entryNum r.bytes 16 8)).toNat = entryNum r.bytes 16 8 := Nat.mod_eq_of_lt (entryNum_lt r.bytes 8 16)
  rw [BitVec.toInt_eq_toNat_bmod, haddend, Int.add_emod, show ((2 : Int) ^ 64) = ((2 ^ 64 : Nat) : Int) by rfl, Int.bmod_emod, ← Int.add_emod]
  exact Int.toNat_natCast _

/-- The images of an object of one kernel whose records all lie in it. -/
theorem relocate_single {rs : List Reloc} (value : Reloc → Nat) (h : ∀ r ∈ rs, r.inKernel = true ∧ r.object = 0) (b : List Byte) :
    rs.foldl (fun bs r => relocate true bs r (value r)) [b] = [patches value rs b] := by
  induction rs generalizing b with
  | nil => rfl
  | cons r rs ih =>
    obtain ⟨⟨hkernel, hobject⟩, hrs⟩ := List.forall_mem_cons.mp h
    rw [List.foldl_cons, relocate, hkernel, hobject]
    exact ih hrs _

theorem written_eq {obj : CodeObject} {b img : List Byte} {base : Nat} (hb : 0x18 ≤ b.length) (h : Written obj b img base) (value : Reloc → Nat)
    (hvalue : ∀ r ∈ obj.relocs, value r = entryNum img (relocSite r) 8) : patches value obj.relocs (stamp obj b) = img := by
  have hlen := stamp_length obj hb
  have hsites : ∀ r ∈ obj.relocs, relocSite r + 8 ≤ (stamp obj b).length := fun r hr => by
    obtain ⟨-, -, -, -, hsite⟩ := h.own r hr
    rwa [hlen]
  refine List.ext_getElem? fun i => ?_
  by_cases hi : i < b.length
  · by_cases hsite : ∃ r ∈ obj.relocs, relocSite r ≤ i ∧ i < relocSite r + 8
    · obtain ⟨r, hr, hlo, hhi⟩ := hsite
      obtain ⟨j, rfl⟩ := Nat.exists_eq_add_of_le hlo
      have himg : relocSite r + j < img.length := h.len ▸ hi
      rw [patches_site hsites h.apart hr (by omega), hvalue r hr, entryNum_byte img _ (by omega), List.getD_eq_getElem img 0 himg,
        List.getElem?_eq_getElem himg]
    · push Not at hsite
      have hout : ∀ r ∈ obj.relocs, i < relocSite r ∨ relocSite r + 8 ≤ i := fun r hr => by
        have := hsite r hr
        omega
      rw [patches_outside hsites hout, stamp_getElem? obj hb hi]
      exact (h.rest i hi hout).symm
  · rw [List.getElem?_eq_none (by rw [patches_length hsites]; omega), List.getElem?_eq_none (by have := h.len; omega)]

/-! ### A kernel unloaded (R306) -/

/-- Once the kernel at a base is marked, dropping it keeps the kernels that stand elsewhere, and itself too while a launch uses it. -/
theorem dropKernel_marked (ks : List Kernel) (k : Kernel) :
    ((ks.map fun y => if y.ctx == k.ctx && y.base == k.base then { k with unloading := true } else y).filter fun y =>
        !(y.ctx == k.ctx && y.base == k.base && y.unloading && y.uses == 0)) =
      if k.uses = 0 then ks.filter fun x => !(x.ctx == k.ctx && x.base == k.base)
      else ks.map fun x => if x.ctx = k.ctx ∧ x.base = k.base then { k with unloading := true } else x := by
  induction ks with
  | nil => exact (ite_self _).symm
  | cons y ks ih =>
    rw [List.map_cons, List.filter_cons, ih]
    by_cases hy : y.ctx = k.ctx ∧ y.base = k.base
    · by_cases huse : k.uses = 0 <;> simp [hy, huse]
    · have hkey : (y.ctx == k.ctx && y.base == k.base) = false := by simpa using hy
      by_cases huse : k.uses = 0 <;> simp [hy, hkey, huse, -Bool.not_and]

theorem kernelUnload_found {s : State} {ctx base : Nat} {k : Kernel} (hk : s.kernel? ctx base = some k) :
    exec (.kernelUnload ctx base) s = .next { s with
      kernels := if k.uses = 0 then s.kernels.filter fun x => !(x.ctx == ctx && x.base == base)
        else s.kernels.map fun x => if x.ctx = ctx ∧ x.base = base then { k with unloading := true } else x } := by
  obtain ⟨rfl, rfl⟩ : k.ctx = ctx ∧ k.base = base := by simpa using List.find?_some hk
  rw [← dropKernel_marked]
  change execKernelUnload _ _ s = _
  rw [execKernelUnload, hk]
  rfl

/-! ### Code objects loaded (R306) -/

theorem kernelLoad_refused {s : State} {ctx : Nat} {obj : CodeObject} {c : Ctx} {k : Nat} {check : LoadCheck} (hctx : s.ctx? ctx = some c)
    (hrun : s.dev.state = .running) (hrefused : s.objectRefused obj = some (k, check)) : s.kernelLoad ctx obj = s.reply (.loadRefused k check) := by
  simp only [State.kernelLoad, hctx, hrun, hrefused, bne_self_eq_false, Bool.false_eq_true, if_false]

/-- The images of an object as they are written: stamped, with the relocations applied. -/
def loadedImages (obj : CodeObject) (value : Reloc → Nat) : List (List Byte) :=
  obj.relocs.foldl (fun bs r => relocate true bs r (value r)) (obj.kernels.map (stamp obj))

theorem loadedImages_length (obj : CodeObject) (value : Reloc → Nat) : (loadedImages obj value).length = obj.kernels.length := by
  refine List.foldlRecOn obj.relocs _ (motive := fun (bs : List (List Byte)) => bs.length = obj.kernels.length) (List.length_map ..)
    fun bs hbs r _ => ?_
  rw [relocate]
  split
  · rw [List.length_set, hbs]
  · exact hbs

/-- A load of kernels alone, whose checks pass and whose records can be applied: the images are written at the bases, and each is a kernel. -/
theorem kernelLoad_loaded {s u : State} {ctx : Nat} {obj : CodeObject} {c : Ctx} {bases : List Nat} (hctx : s.ctx? ctx = some c)
    (hrun : s.dev.state = .running) (hchecks : s.objectRefused obj = none) (hdatas : obj.datas = []) (hexports : obj.exports = [])
    (hplace : placeAll obj.codeRange 4096 (s.loadedAreas c) (obj.kernels.map List.length) = some bases)
    (hmapped : ∀ a ∈ bases.zip (obj.kernels.map List.length), rangeMapped c true a.1 a.2 = true) (hsome : obj.kernels ≠ [])
    {value : Reloc → Nat} {imgs : List (List Byte)} (himgs : loadedImages obj value = imgs)
    (hrelocs : ∀ r ∈ obj.relocs, relocOk obj r = true ∧ relocValue obj (s.exported c) bases [] r = some (value r))
    (hwrite : (bases.zip imgs).foldl (fun (x : State × Bool) a => let y := x.1.loadBytes c a.1 a.2; (y.1, x.2 && y.2)) (s, true) = (u, true)) :
    s.kernelLoad ctx obj = ({ u with kernels := u.kernels ++ (bases.zip imgs).map fun (a : Nat × List Byte) =>
      ({ ctx := ctx, base := a.1, hdr := Header.ofImage a.2, side := sideTable a.2, table := s.buildTable (Header.ofImage a.2) } : Kernel) }).reply
        (.loaded bases) := by
  subst himgs
  have hfind : (obj.relocs.zipIdx.find? fun p => !relocOk obj p.1 || (relocValue obj (s.exported c) bases [] p.1).isNone) = none := by
    refine List.find?_eq_none.mpr fun p hp => ?_
    obtain ⟨hok, hvalue⟩ := hrelocs p.1 (List.fst_mem_of_mem_zipIdx hp)
    simp [hok, hvalue]
  have himages : obj.relocs.foldl (fun bs r => relocate true bs r ((relocValue obj (s.exported c) bases [] r).getD 0)) (obj.kernels.map (stamp obj)) =
      loadedImages obj value := List.foldl_ext _ _ _ fun bs r hr => by rw [(hrelocs r hr).2, Option.getD_some]
  have hmapped' : ((bases.zip (obj.kernels.map List.length)).all fun a => rangeMapped c true a.1 a.2) = true := List.all_eq_true.mpr hmapped
  have hnew : (bases.zip (loadedImages obj value)).isEmpty = false := by
    rw [List.isEmpty_eq_false_iff, ← List.length_pos_iff, List.length_zip, placeAll_length hplace, List.length_map, loadedImages_length, min_self]
    exact List.length_pos_iff.mpr hsome
  simp only [State.kernelLoad, hctx, hrun, bne_self_eq_false, Bool.false_eq_true, if_false, hchecks, hplace, hdatas, hexports, placeAll, List.map_nil,
    List.zip_nil_left, hmapped', Bool.not_true, List.all_nil, hfind, himages, List.append_nil, hwrite, List.filterMap_nil, List.isEmpty_map, hnew]

/-- An image that passes its checks holds at least its header (R296, R298). -/
theorem length_of_checks {s : State} {b : List Byte} {stack : Option Nat} (h : ∀ x ∈ loadRule s b stack, x.2) : 0x100 ≤ b.length := by
  have hsize : entryNum b 0x28 4 % 64 = 0 ∧ entryNum b 0x28 4 ≤ 0xFFFFFFC0 ∧ entryNum b 0x28 4 = b.length ∧ 0x100 ≤ entryNum b 0x28 4 :=
    h (.field 0x28, _) (List.mem_of_getElem? (show (loadRule s b stack)[17]? = _ from rfl))
  obtain ⟨-, -, heq, hle⟩ := hsize
  exact heq ▸ hle

/-- Where the caller asks for nothing and there is no record, the images are those of the object. -/
theorem loadedImages_unasked {obj : CodeObject} (value : Reloc → Nat) (hrelocs : obj.relocs = []) (hdebug : obj.debug = false)
    (hspill : obj.spillTrap = false) (hstack : obj.stack = none) (hkernels : ∀ b ∈ obj.kernels, 0x18 ≤ b.length ∧ entryNum b 6 2 % 4 = 0) :
    loadedImages obj value = obj.kernels := by
  rw [loadedImages, hrelocs, List.foldl_nil]
  exact (List.map_congr_left fun b hb => stamp_unasked (hkernels b hb).1 hdebug hspill hstack (hkernels b hb).2).trans (List.map_id _)

/-- The one image of an object is the image as R299, R302 and R308 have it written. -/
theorem loadedImages_written {obj : CodeObject} {b img : List Byte} {base : Nat} (hkernels : obj.kernels = [b]) (hb : 0x18 ≤ b.length)
    (h : Written obj b img base) : loadedImages obj (fun r => entryNum img (relocSite r) 8) = [img] := by
  have hown : ∀ r ∈ obj.relocs, r.inKernel = true ∧ r.object = 0 := fun r hr => (h.own r hr).imp_right And.left
  rw [loadedImages, hkernels, List.map_singleton, relocate_single _ hown, written_eq hb h _ fun _ _ => rfl]

theorem written_relocs {obj : CodeObject} {b img : List Byte} {base : Nat} (hkernels : obj.kernels = [b]) (h : Written obj b img base)
    (known : List (List Byte × Nat)) : ∀ r ∈ obj.relocs, relocOk obj r = true ∧ relocValue obj known [base] [] r = some (entryNum img (relocSite r) 8) := by
  intro r hr
  obtain ⟨hkernel, hobject, hlen, hkind, hsite⟩ := h.own r hr
  obtain ⟨off, hsym, hvalue⟩ := h.sites r hr
  refine ⟨?_, (relocValue_own hsym).trans (congrArg some hvalue.symm)⟩
  rw [relocOk, hkernel, hobject, hkernels]
  simp [hlen, relocKind, relocSite, hkind, hsite]

/-- Settles O52: the checks of the loader are those of the rules one by one, a start is the lowest place that fits, and a table takes the whole runs of each
die. -/
theorem kernelsComeAndGo : Obligations.KernelsComeAndGo := by
  unfold Obligations.KernelsComeAndGo
  refine ⟨fun s ctx obj c hctx hrun => ⟨?refused, ?loaded⟩, fun _ _ _ _ => placeAll_lowest, fun _ _ => ⟨fun _ => buildTable_rule, buildTable_none⟩,
    fun _ _ _ _ => kernelUnload_found⟩
  case refused =>
    intro k b before check p after hk hearlier hrule hbefore hp
    exact congrArg Host.Outcome.next (kernelLoad_refused hctx hrun (objectRefused_first hk hearlier hrule hbefore hp))
  case loaded =>
    intro hpass hdatas hexports bases hplace hmapped hsome
    have hchecks := objectRefused_none hpass
    have hlen : ∀ b ∈ obj.kernels, 0x18 ≤ b.length := fun b hb => le_trans (by decide) (length_of_checks (hpass b hb))
    refine ⟨fun hrelocs hdebug hspill hstack hflags u hwrite => ?_, fun b img base hkernels hbases hwritten u hwrite => ?_⟩
    · have himages := loadedImages_unasked (fun _ => 0) hrelocs hdebug hspill hstack fun b hb => ⟨hlen b hb, hflags b hb⟩
      have hnone : ∀ r ∈ obj.relocs, relocOk obj r = true ∧ relocValue obj (s.exported c) bases [] r = some 0 := by simp [hrelocs]
      exact congrArg Host.Outcome.next (kernelLoad_loaded hctx hrun hchecks hdatas hexports hplace hmapped hsome himages hnone hwrite)
    · subst hbases
      have himages := loadedImages_written hkernels (hlen b (hkernels ▸ List.mem_singleton_self b)) hwritten
      have hfold : ([base].zip [img]).foldl (fun (x : State × Bool) a => let y := x.1.loadBytes c a.1 a.2; (y.1, x.2 && y.2)) (s, true) = (u, true) :=
        hwrite ▸ rfl
      exact congrArg Host.Outcome.next
        (kernelLoad_loaded hctx hrun hchecks hdatas hexports hplace hmapped hsome himages (written_relocs hkernels hwritten _) hfold)

end Sys2Proof.Machine
end
section
/-!
PROOF. YIELD (O25, refuted): no hypothesis keeps the numbers of strands apart, and the squash that a pre-emption begins with traces the first strand that
has a continuation's number, which may be one of a traced context.
-/

namespace Sys2Proof.Machine

/-! ### A fork beside a strand of a traced context that has its continuation's number -/

/-- The bench's context, with areas for one more team's saves and stacks. -/
def pooledCtx : Ctx := { benchCtx with savePool := (0x80000, 0x100000), stackPool := (0x180000, 0x10000) }

/-- A second context, whose trace is on and whose ring has room. -/
def tracedCtx : Ctx := { benchCtx with id := 2, slot := 1, trace := { on := true, ring := 0x48000, slots := 4 } }

/-- Strand 5, of a group of the second context. -/
def tracedStrand : Strand := { benchStrand with id := 5, group := 9, core := 1, ssa := 0x28000 }

/-- A strand of the bench's group that runs a callee, its continuation numbered 5. -/
def forkOwner : Strand :=
  { benchStrand with id := 7, idx := 1, slot := 1, ssa := 0x2C000, forks := [{ cont := 5, ret := 0, predV := [], predB := none }] }

/-- That continuation. -/
def namesakeCont : Strand :=
  { benchStrand with id := 5, idx := 1, slot := 2, cont := some { owner := 7, depth0 := 0, live0 := forkOwner.live, wset := 0, ret := 0 } }

/-- The bench about to issue, with a second team of its launch waiting, a fork in its group, and a launch of the second context on core 1. -/
def tracedState : State :=
  { issueState with
    strands := [benchStrand, benchTile, tracedStrand, forkOwner, namesakeCont]
    groups := [issueGroup, { startGroup 9 8 0 0 1 5 4096 0x38000 with mapSeen := 1 }]
    teams := issueState.teams ++
      [{ id := 8, launch := 7, index := 0, state := .running, cluster := 0, level := 5, since := 0, groups := [9], ssas := [0x28000] }]
    launches := (issueState.launches.map fun (l : Launch) => { l with gx := 2 }) ++
      issueState.launches.map fun (l : Launch) => { l with id := 7, ctx := 2 }
    kernels := issueState.kernels ++ issueState.kernels.map fun (k : Kernel) => { k with ctx := 2 }
    ctxs := [pooledCtx, tracedCtx] }

theorem noCounters_traced {c : Ctx} (h : tracedState.ctx? 1 = some c) :
    c.trace.on = false ∧ ∀ n, 11 ≤ n → n < 16 → (vget c.select n 0).extractLsb' 0 16 ≠ 1 := by
  obtain rfl : pooledCtx = c := Option.some.inj h
  refine ⟨rfl, fun n _ hhi => ?_⟩
  rw [show vget pooledCtx.select n 0 = 0 from vget_vtab 16 n _ 0 hhi]
  decide

/-- The trace of the second context does not concern the strand that issues, whose own context has none. -/
theorem quiet_traced : Quiet tracedState benchStrand issueEnv (Form.b32 Enc.yield' {}) where
  cur := rfl
  env := rfl
  ready := rfl
  live := by decide
  legal := by decide
  unit := by decide
  declared := by decide
  present := by decide
  noCont := rfl
  noForks := rfl
  oneLane := nofun
  burst _ := (by decide +kernel : 0 < tracedState.burstLeft 0 0)
  noShadow := rfl
  noDetector := ⟨by decide, rfl⟩
  noCounters _ h := noCounters_traced h

/-- The waiting team could take the place of the strand's own. -/
theorem yieldHelps_traced : (tracedState.setStrand benchStrand).yieldHelps 1 5 = true := by decide +kernel

theorem mem_traced : tracedState.mem.get 0x48000 = 0 := by decide +kernel

/-- In the model YIELD leaves a squash record, of kind 6 (R478), in the ring of the second context. -/
theorem exec_yield_traced :
    (match exec (.yield {}) tracedState with
      | .next t => some (t.mem.get 0x48000)
      | _ => none) = some 6 := by
  decide +kernel

/-- Refutes O25, in its clause that memory is unchanged: the pre-emption squashes continuation 5 of the team, and the trace record of the squash is that of
the first strand numbered 5, which is of another context, whose trace is on. No hypothesis keeps the numbers apart. -/
theorem not_yieldPreempts : ¬ Obligations.YieldPreempts := by
  unfold Obligations.YieldPreempts
  intro preempts
  obtain ⟨t, hexec, -, hmem⟩ := preempts (.yield {}) _ rfl tracedState benchStrand issueEnv _ quiet_traced (by decide) yieldHelps_traced rfl rfl
  have hrecord : some (t.mem.get 0x48000) = some 6 := by simpa only [hexec] using exec_yield_traced
  rw [hmem, mem_traced] at hrecord
  exact absurd hrecord (by decide)

end Sys2Proof.Machine
end

section
/-!
PROOF. Reset (O60), the PROG points (O28) and the system instructions that change no more than their strand (O24).
-/

namespace Sys2Proof.Machine

/-- Settles O60: the reset state lists nothing, and its links are given as down. -/
theorem resetLeaves : Obligations.ResetLeaves := by
  unfold Obligations.ResetLeaves
  refine ⟨rfl, rfl, rfl, fun l hl => ?_, rfl, rfl, rfl⟩
  obtain ⟨n, -, rfl⟩ := List.mem_map.mp (show l ∈ Device.resetLinks from hl)
  rfl

section System
variable {s : State} {st : Strand} {e : Env} {f : Form}

/-! ### PROG (R476) -/

/-- A body that changes the state around its strand, but not the strands. -/
theorem updAll_around {j : Job} {g : State → State} (hg : (g (j.s.setStrand j.st)).strands = (j.s.setStrand j.st).strands)
    (hst : (j.s.strand? j.st.id).isSome) : updAll g j = .ok () { j with s := g (j.s.setStrand j.st) } := by
  have hfound : (g (j.s.setStrand j.st)).strand? j.st.id = some j.st := by
    rw [State.strand?, hg]
    exact strand_setStrand _ _ hst
  simp only [updAll, m_modify, hfound, Option.getD_some]

/-- The strand that issues is found by its own number. -/
theorem quiet_found (h : Quiet s st e f) : s.strand? st.id = some st := by
  rw [strand_id h.cur]
  exact h.cur

/-- Two puts of one strand leave the second. -/
theorem OnlyStrand.of_setStrand {t u : State} {x y : Strand} (hid : x.id = y.id) (h : OnlyStrand (t.setStrand x) u y) : OnlyStrand t u y := by
  refine ⟨?_, h.others, h.core⟩
  rw [h.same, setStrand_setStrand _ _ _ hid]

theorem setStrand_setCluster (s : State) (x : Strand) (c : Cluster) : (s.setStrand x).setCluster c = (s.setCluster c).setStrand x := by
  cases hany : s.clusters.any fun y => y.n == c.n <;>
  · simp only [State.setCluster, setStrand_clusters, hany]
    rfl

theorem env_setCluster (s : State) (x : Strand) (c : Cluster) : (s.setCluster c).env? x = s.env? x := by
  simp only [State.env?, State.group?, State.team?, State.launch?, State.kernel?, State.ctx?, setCluster_groups, setCluster_teams,
    setCluster_launches, setCluster_kernels, setCluster_ctxs]

theorem progBody_counts (h : Quiet s st e f) (hop : 0x4F < f.enc.op) {c : Ctx} (hc : s.ctx? e.ctx = some c)
    (hsel : ∀ n, 11 ≤ n → n < 16 → (vget c.select n 0).extractLsb' 0 16 ≠ 4) (hm : st.mask f.pred ≠ 0) :
    progBody (jobOf s st e f) = .ok () { jobOf s st e f with
      s := (s.setCluster (withProg (s.cluster st.clusterNo) c.func)).setStrand st } := by
  have hs : (jobOf s st e f).s = s := charged_free s st hop
  generalize hu : (s.setCluster (withProg (s.cluster st.clusterNo) c.func)).setStrand st = u
  have huc : u.ctxs = s.ctxs := by rw [← hu, setStrand_ctxs, setCluster_ctxs]
  have hcount : u.count e.ctx 4 1 = u := by
    refine count_none u e.ctx 4 1 (by decide) fun c' hc' => ?_
    rw [State.ctx?, huc] at hc'
    obtain rfl := Option.some.inj (hc.symm.trans hc')
    exact hsel
  have henv : u.env? st = some e := by
    rw [← hu]
    exact (env_setCluster s st _).trans h.env
  have htrace : u.traceOf st 1 f.b st.pc.toNat = u := by
    refine traceOf_untraced henv (fun c' hc' => ?_) 1 f.b st.pc.toNat
    rw [State.ctx?, huc] at hc'
    exact (h.noCounters c' hc').1
  have hprog : ((s.setStrand st).setCluster (((s.setStrand st).cluster st.clusterNo).prog c.func)) = u := by
    rw [← hu, setStrand_setCluster]
    rfl
  simp only [progBody, m_bind, m_form, effMask_quiet h, m_ite, if_neg hm, m_get, hs]
  rw [show (jobOf s st e f).e = e from rfl, hc, updAll_around]
  · simp only [hs, show (jobOf s st e f).st = st from rfl, show (jobOf s st e f).f = f from rfl, hprog, hcount, htrace]
    rfl
  · simp only [hs, show (jobOf s st e f).st = st from rfl, show (jobOf s st e f).f = f from rfl, hprog, hcount, htrace]
    rw [← hu, ← setStrand_setCluster, setCluster_strands]
  · rw [hs]
    exact Option.isSome_of_mem (quiet_found h)

/-! ### CROPEN, CRCLOSE, SLEEP and YIELD (R343, R344, R460) -/

theorem cropenBody_opens (h : Quiet s st e f) (hop : 0x4F < f.enc.op) (hm : st.mask f.pred ≠ 0) (hh : st.handler = none)
    (ha : (vget st.b f.a 0).toNat % 64 = 0) (hd : st.rets.length < 128) :
    cropenBody (jobOf s st e f) = .ok () ((jobOf s st e f).put
      { st with rets := { ra := vget st.b f.a 0 + 1, cm := st.path, opened := s.freshId } :: st.rets } (s.freshId + 1)) := by
  have hfresh : (jobOf s st e f).s.freshId = s.freshId := congrArg State.freshId (charged_free s st hop)
  have hlow : ((vget st.b f.a 0).extractLsb' 0 6 != 0) = false := by
    rw [bne_eq_false_iff_eq]
    exact BitVec.eq_of_toNat_eq (by simpa [BitVec.extractLsb'_toNat] using ha)
  have hst : (jobOf s st e f).st = st := rfl
  have hb : getB (jobOf s st e f).f.a (jobOf s st e f) = .ok (vget st.b f.a 0) (jobOf s st e f) := getB_still (quiet_still h) _
  simp only [cropenBody, m_bind, m_form, effMask_quiet h, m_ite, if_neg hm, m_get, m_pure, hst, hh, Option.isSome_none,
    Bool.false_eq_true, if_false, hb, hlow, Nat.not_le.mpr hd, m_updS, m_upd, hfresh]
  rfl

theorem crcloseBody_unwound (h : Quiet s st e f) (hm : st.mask f.pred ≠ 0) {hd : Handler} (hh : st.handler = some hd) (hu : hd.unwind = true) :
    crcloseBody (jobOf s st e f) = .ok () ((jobOf s st e f).put { st with handler := none } (jobOf s st e f).s.freshId) := by
  have hst : (jobOf s st e f).st = st := rfl
  simp only [crcloseBody, m_bind, effMask_quiet h, m_ite, if_neg hm, m_get, hst, hh, hu, if_true, m_upd]
  rfl

theorem crcloseBody_innermost (h : Quiet s st e f) (hm : st.mask f.pred ≠ 0) (hh : ∀ hd, st.handler = some hd → hd.unwind = false)
    {top : RetEntry} {rest : List RetEntry} (hr : st.rets = top :: rest) (htop : top.isRegion = true)
    (hpath : st.path = top.cm &&& st.live) :
    crcloseBody (jobOf s st e f) = .ok () ((jobOf s st e f).put { st with rets := rest } (jobOf s st e f).s.freshId) := by
  have hok : ((top.isRegion && st.path == top.cm &&& st.live) = true) = True := by simp [htop, hpath]
  have hst : (jobOf s st e f).st = st := rfl
  have hres : upd (fun st => { st with rets := rest }) (jobOf s st e f) =
      .ok () ((jobOf s st e f).put { st with rets := rest } (jobOf s st e f).s.freshId) := rfl
  simp only [crcloseBody, m_bind, effMask_quiet h, m_ite, if_neg hm, m_get]
  generalize hj : jobOf s st e f = j at hst hres ⊢
  rw [hst, hr]
  cases hhd : st.handler with
  | none => simpa only [hhd, m_ite, hok, if_true] using hres
  | some hd => simpa only [hhd, m_ite, hh hd hhd, Bool.false_eq_true, if_false, hok, if_true] using hres

/-- SLEEP that has nothing to wait for, its source uniform. -/
theorem sleepBody_done (h : Calm s st e f) (hb : f.enc.b = .vs) (hu : (st.srcs f).ub = true) (hop : 0x4F < f.enc.op)
    (hdone : st.mask f.pred = 0 ∨ ((st.srcs f).b 0).toNat = 0 ∨ st.restored = true ∨
      (st.sleepFrom.getD ((s.cluster st.clusterNo).cycles, ((st.srcs f).b 0).toNat)).1 + ((st.srcs f).b 0).toNat ≤
        (s.cluster st.clusterNo).cycles) :
    sleepBody (jobOf s st e f) = .ok () ((jobOf s st e f).put { st with sleepFrom := none, restored := false } (jobOf s st e f).s.freshId) := by
  have hcl : (jobOf s st e f).s.cluster = s.cluster := congrArg State.cluster (charged_free s st hop)
  have hst : (jobOf s st e f).st = st := rfl
  have hreg : f.x.immb = false → st.uniform f.b = true := fun hi => by simpa [Strand.srcs, hi] using hu
  have hneed : needUniformB (jobOf s st e f) = .ok () (jobOf s st e f) := by
    cases hi : f.x.immb with
    | true => exact needUniformB_immediate hi
    | false =>
      exact (needUniformB_register hi).trans (needUniform_ok (quiet_still h.toQuiet) (hreg hi))
  simp only [sleepBody, m_bind, readyB_calm h hb, hneed, effMask_quiet h.toQuiet, m_ite]
  split
  · rfl
  · next hm =>
    have hgo : ((st.srcs f).b 0 = 0 || st.restored ||
        decide ((st.sleepFrom.getD ((s.cluster st.clusterNo).cycles, ((st.srcs f).b 0).toNat)).1 + ((st.srcs f).b 0).toNat ≤
          (s.cluster st.clusterNo).cycles)) = true := by
      have hzero : (st.srcs f).b 0 = 0 ↔ ((st.srcs f).b 0).toNat = 0 := BitVec.toNat_eq
      simpa only [Bool.or_eq_true, decide_eq_true_eq, or_assoc, hzero] using hdone.resolve_left hm
    simp only [uniformB_calm h hb hreg, m_get, hst, hcl, hgo, if_true, m_upd]
    rfl

theorem yieldBody_stays (h : Quiet s st e f) (hop : 0x4F < f.enc.op)
    (hstay : st.mask f.pred = 0 ∨ (s.setStrand st).yieldHelps e.team e.level = false) :
    yieldBody (jobOf s st e f) = .ok () (jobOf s st e f) := by
  have hs : (jobOf s st e f).s = s := charged_free s st hop
  simp only [yieldBody, m_bind, effMask_quiet h, m_ite]
  split
  · rfl
  · next hm =>
    simp only [m_get, hs]
    rw [show (jobOf s st e f).st = st from rfl, show (jobOf s st e f).e = e from rfl, hstay.resolve_left hm]
    rfl

/-- YIELD in either form, where the table has it. -/
theorem run_yield {g : Form} {x : Strand} (hop : 0x4F < g.enc.op) (hy : strandRule.yields s st e g = some (f, x)) (h : Quiet s st e f) :
    ∃ t, run g yieldBody s = .next t ∧ OnlyStrand s t x := by
  obtain ⟨hc, heq⟩ := Option.ite_none_right_eq_some.mp hy
  cases heq
  exact run_past h (yieldBody_stays h hop hc)

end System

/-- Settles O24: each instruction by the branch of its body that the table names. -/
theorem strandSystemInstructions : Obligations.StrandSystemInstructions := by
  unfold Obligations.StrandSystemInstructions
  intro s st e i f st' hi h
  have hq := h.toQuiet
  cases i with
  | cropen o =>
    simp only [strandRule] at hi
    split_ifs at hi with hm hok
    · cases hi
      exact run_past hq (by simp only [cropenBody, m_bind, m_form, effMask_quiet hq, m_ite, if_pos hm, m_pure])
    · cases hi
      obtain ⟨hh, ha, hd⟩ := hok
      exact run_done hq _ _ (cropenBody_opens hq (show 0x4F < 0x7D by decide) hm hh ha hd) h.live rfl
  | crclose o =>
    simp only [strandRule] at hi
    split_ifs at hi with hm hun
    · cases hi
      exact run_past hq (by simp only [crcloseBody, m_bind, effMask_quiet hq, m_ite, if_pos hm, m_pure])
    · cases hi
      cases hh : st.handler with
      | none => simp [hh] at hun
      | some hd => exact run_done hq _ _ (crcloseBody_unwound hq hm hh (by simpa [hh] using hun)) h.live rfl
    · cases hr : st.rets with
      | nil => simp [hr] at hi
      | cons top rest =>
        simp only [hr] at hi
        obtain ⟨⟨htop, hpath⟩, heq⟩ := Option.ite_none_right_eq_some.mp hi
        cases heq
        refine run_done hq _ _ (crcloseBody_innermost hq hm (fun hd hh => ?_) hr htop hpath) h.live rfl
        simpa [hh] using hun
  | sleep o =>
    simp only [strandRule] at hi
    split_ifs at hi with hub hdone
    cases hi
    exact run_done hq _ _ (sleepBody_done h rfl (by simpa using hub) (show 0x4F < 0x7D by decide) hdone) h.live rfl
  | yield o => exact run_yield (show 0x4F < 0x7D by decide) hi hq
  | yieldX96 o => exact run_yield (show 0x4F < 0x7D by decide) hi hq
  | _ => cases hi

/-- Settles O28: the body replaces the cluster, and neither the counters nor the trace of the context take note of it. -/
theorem progPoints : Obligations.ProgPoints := by
  unfold Obligations.ProgPoints
  intro o s st e c f h hc hsel
  by_cases hm : st.mask f.pred = 0
  · rw [if_pos hm]
    exact run_past h (by simp only [progBody, m_bind, m_form, effMask_quiet h, m_ite, if_pos hm, m_pure])
  · rw [if_neg hm]
    refine ⟨_, (run_quiet h progBody).trans (by rw [progBody_counts h (show 0x4F < 0x7D by decide) hc hsel hm]), ?_⟩
    refine OnlyStrand.of_setStrand (x := st) rfl
      (settle_coreOnly (t := (s.setCluster (withProg (s.cluster st.clusterNo) c.func)).setStrand st) (.refl _ _) rfl rfl h.live rfl ?_)
    intro c' hc'
    refine (h.noCounters c' ?_).2
    rwa [State.ctx?, setStrand_ctxs, setCluster_ctxs] at hc'

end Sys2Proof.Machine
end

section
/-!
PROOF. An instruction whose feature is missing (O20).
-/

namespace Sys2Proof.Machine

/-- What is missing of the features that an instruction needs: what the kernel does not declare, else what the unit does not have (R448). -/
def lacking (s : State) (st : Strand) (e : Env) (need : Nat) : DWord :=
  if BitVec.ofNat 64 need &&& ~~~e.hdr.features ≠ 0 then BitVec.ofNat 64 need &&& ~~~e.hdr.features
  else BitVec.ofNat 64 need &&& ~~~(s.unitFeatures st)

theorem lacking_zero (s : State) (st : Strand) (e : Env) : lacking s st e 0 = 0 := by
  simp [lacking]

theorem checkFeature_lacking {j : Job} {need : Nat} (hc : j.st.cont = none) (h : lacking j.s j.st j.e need ≠ 0) :
    checkFeature need j = .error (.trap
      { cause := 0x0B, addr := j.st.pc, lanes := j.st.trapLanes j.f, detail := (lacking j.s j.st j.e need).lo, va := 0 }) j := by
  simp only [lacking] at h ⊢
  simp only [checkFeature, m_bind, m_get, m_ite, trapM_noCont hc]
  split_ifs at h ⊢ <;> simp_all

theorem checkFeature_zero (j : Job) : checkFeature 0 j = .ok () j := by
  simp [checkFeature]

theorem prelude_lacking {j : Job} (hc : j.st.cont = none) (hl : (j.f.enc.legal j.f.x && j.f.litOk) = true)
    (hu : j.f.foreign j.st.tile = false) (h : lacking j.s j.st j.e j.f.needs ≠ 0) :
    prelude j = .error (.trap
      { cause := 0x0B, addr := j.st.pc, lanes := j.st.trapLanes j.f, detail := (lacking j.s j.st j.e j.f.needs).lo, va := 0 }) j := by
  simp only [prelude, m_bind, m_get, m_ite, hl, hu, Bool.not_true, Bool.or_self, Bool.false_eq_true, if_false,
    checkFeature_lacking hc h]

/-- What stands before the body of an instruction of the tile group that needs no feature by its form. -/
theorem prelude_tile {j : Job} (hc : j.st.cont = none) (hl : (j.f.enc.legal j.f.x && j.f.litOk) = true)
    (hu : j.f.foreign j.st.tile = false) (hop : j.f.enc.op = 0x7C) (hn : j.f.needs = 0) : prelude j = .ok () j := by
  have hgroup : (j.st.tile || decide (j.f.enc.op = 0) || decide (0x4F < j.f.enc.op)) = true := by simp [hop]
  simp only [prelude, m_bind, m_get, m_ite, hl, hu, hn, Bool.not_true, Bool.or_self, Bool.false_eq_true, if_false, m_pure, checkFeature_zero,
    hc, Option.isSome_none, Bool.false_and, chargeCycle, hgroup, if_true]

/-- Both checks of an MMA are one: its form alone needs no feature. -/
theorem mma_needs {o : XL} (h : (Form.xl Enc.mma' o (mmaOk o.lit)).enc.legal (Form.xl Enc.mma' o (mmaOk o.lit)).x = true) :
    (Form.xl Enc.mma' o (mmaOk o.lit)).needs = 0 := by
  have hfn : (Form.xl Enc.mma' o (mmaOk o.lit)).x.func = 2 := by
    have hok : Enc.mma'.funcOk (Form.xl Enc.mma' o (mmaOk o.lit)).x.func = true := by
      simp only [Enc.legal, Bool.and_eq_true] at h
      tauto
    exact beq_iff_eq.mp hok
  simp [Form.needs, hfn, show (Form.xl Enc.mma' o (mmaOk o.lit)).enc.op = 0x7C from rfl]

/-- The activation format of an MMA is that of the four bits of its literal (R417). -/
theorem mmaBody_eq (o : XL) : mmaBody o.lit = (checkFeature (activationNeeds (.mma o)) >>= fun _ => enterTask .mma o.lit) := by
  have hlt : bitsOf o.lit.toNat 26 23 < 16 := Nat.mod_lt _ (by decide)
  have heq : o.lit.toNat / 2 ^ 23 % 16 = bitsOf o.lit.toNat 26 23 := rfl
  simp only [mmaBody, TaskDesc.of, activationNeeds, heq]
  generalize bitsOf o.lit.toNat 26 23 = n at hlt
  interval_cases n <;> rfl

theorem activationNeeds_other {i : Instr} (h : ∀ o, i ≠ .mma o) : activationNeeds i = 0 := by
  unfold activationNeeds
  split
  · exact absurd rfl (h _)
  · rfl

/-- An evaluation, of a strand that may take a trap, that stops with FEATURE before it changes anything. -/
theorem run_lacking {s : State} {st : Strand} {e : Env} (ht : TakesTraps s st e) {f : Form} {act : M Unit} {detail : Word}
    (hact : ∀ j : Job, j.s = s → j.st = st → j.e = e → j.f = f →
      act j = .error (.trap { cause := 0x0B, addr := st.pc, lanes := st.trapLanes f, detail := detail, va := 0 }) j) :
    runM f act s = .next (s.setStrand (st.trapped e 0x0B detail (st.trapLanes f))) := by
  have hready : ({ st with state := SState.ready } : Strand) = st := by rw [← ht.ready]
  have hissue : st.mayIssue = true := by simpa [Strand.mayIssue, ht.ready] using ht.live
  simp only [runM, ht.cur, ht.env, hissue, Bool.not_true, Bool.false_eq_true, if_false, hready]
  rw [hact _ rfl rfl rfl rfl]
  simp only [settle, readBy_noCont ht.noCont]
  exact congrArg _ (raise_takesTraps ht _ (show 0x0B ≠ 0x20 by decide) (show 0x0B ≠ 0x21 by decide) (show 0x0B ≠ 0x22 by decide))

/-- Settles O20: the features that a form needs are asked for before every body, and those of an activation format at the head of MMA's. -/
theorem missingFeatureTraps : Obligations.MissingFeatureTraps := by
  unfold Obligations.MissingFeatureTraps
  intro i f hi s st e ht hl hu
  show lacking s st e (f.needs ||| activationNeeds i) ≠ 0 →
    exec i s = .next (s.setStrand (st.trapped e 0x0B (lacking s st e (f.needs ||| activationNeeds i)).lo (st.trapLanes f)))
  intro hlack
  by_cases hmma : ∃ o, i = .mma o
  · obtain ⟨o, rfl⟩ := hmma
    cases hi
    rw [mma_needs (Bool.and_eq_true_iff.mp hl).1, Nat.zero_or] at hlack ⊢
    refine run_lacking ht fun j hs hst he hf => ?_
    subst hs hst he
    have hpre : prelude j = .ok () j :=
      prelude_tile ht.noCont (by rw [hf]; exact hl) (by rw [hf]; exact hu) (by rw [hf]; rfl)
        (by rw [hf]; exact mma_needs (Bool.and_eq_true_iff.mp hl).1)
    simp only [m_bind, hpre, mmaBody_eq, checkFeature_lacking ht.noCont hlack, hf]
  · rw [activationNeeds_other fun o ho => hmma ⟨o, ho⟩, Nat.or_zero] at hlack ⊢
    obtain ⟨body, hbody⟩ := exec_eq_run hi
    rw [hbody, run]
    refine run_lacking ht fun j hs hst he hf => ?_
    subst hs hst he hf
    rw [m_bind, prelude_lacking ht.noCont hl hu hlack]

end Sys2Proof.Machine
end

section
/-!
PROOF. MAPACK and PMCFG (O26, O27, refuted): no hypothesis says that only one context has the number of the strand's, and one that an instruction
leaves as it is differs from a namesake of it.
-/

namespace Sys2Proof.Machine

/-! ### The bench with two contexts of one number -/

/-- The context of the bench, with counter 11 claimed by the host. -/
def claimedCtx : Ctx := { benchCtx with claimed := [11] }

/-- A context of the same number, which has acknowledged version 5. -/
def namesakeCtx : Ctx := { benchCtx with ack := 5 }

/-- The bench with the namesake of its context besides. -/
def twoContexts : State := { besides [] [] with ctxs := [claimedCtx, namesakeCtx] }

theorem ctx_twoContexts : twoContexts.ctx? issueEnv.ctx = some claimedCtx := rfl

theorem calm_twoContexts {f : Form} (hlegal : (f.enc.legal f.x && f.litOk) = true) (hunit : f.foreign false = false) (hneeds : f.needs = 0)
    (hplain : ∀ n ∈ f.vregs, (benchStrand.reg n).plain = true) : Calm twoContexts benchStrand issueEnv f :=
  { calm_besides [] [] hlegal hunit hneeds hplain with
    cur := rfl
    env := rfl
    present := by rw [hneeds]; simp
    burst := fun _ => (by decide +kernel : 0 < issueState.burstLeft 0 0)
    noCounters := fun c h => by
      obtain rfl : claimedCtx = c := Option.some.inj (ctx_twoContexts.symm.trans h)
      exact noCounters_besides [] [] (c := benchCtx) (ctx_besides [] []) }

/-- What the two contexts have acknowledged. -/
def acksOf : Host.Outcome State Fault Refusal → List DWord
  | .next t => t.ctxs.map (·.ack)
  | _ => []

/-- By the statements, the strand's context is put back in place of both, whose second has then acknowledged what the first has. -/
theorem acks_namesake {i : Instr} {t : State} {st' : Strand} (hexec : exec i twoContexts = .next t)
    (h : OnlyStrand (twoContexts.setCtx claimedCtx) t st') : acksOf (exec i twoContexts) = [1, 1] := by
  rw [hexec, h.same]
  rfl

/-! ### MAPACK of a version that is acknowledged -/

/-- MAPACK of v9 and v10, the version 0, with its status to v8. -/
def namesakeMapack : X96 := { w0 := { d := 8, a := 9 }, func := 5 }

/-- Refutes O26, in MAPACK of a version already acknowledged: it leaves every context as it was, and by the statement the strand's context stands for
every context of its number. No hypothesis keeps the numbers apart. -/
theorem not_mapAcknowledge : ¬ Obligations.MapAcknowledge := by
  unfold Obligations.MapAcknowledge
  intro acknowledges
  obtain ⟨t, st', hexec, honly, -⟩ := acknowledges namesakeMapack twoContexts benchStrand issueEnv claimedCtx
    (calm_twoContexts (by decide) (by decide) (by decide) (by decide)) ctx_twoContexts (by decide +kernel) (by decide +kernel)
  rw [if_neg (by decide +kernel), show (ackRule twoContexts claimedCtx _).2 = claimedCtx from rfl] at honly
  have hkept : acksOf (exec (.mapack namesakeMapack) twoContexts) = [1, 5] := by decide +kernel
  rw [acks_namesake hexec honly] at hkept
  exact absurd hkept (by decide)

/-! ### PMCFG of a counter that the host has claimed -/

/-- PMCFG of counter 11 by v9, with its status to v8. -/
def namesakePmcfg : X96 := { w0 := { d := 8, a := 9, b := 11 }, func := 9 }

/-- Refutes O27, in PMCFG of a claimed counter: it leaves every context as it was, and by the statement the strand's context stands for every context of
its number. No hypothesis keeps the numbers apart. -/
theorem not_counterSelection : ¬ Obligations.CounterSelection := by
  unfold Obligations.CounterSelection
  intro selects
  obtain ⟨t, st', hexec, honly, -⟩ := selects namesakePmcfg twoContexts benchStrand issueEnv claimedCtx
    (calm_twoContexts (by decide) (by decide) (by decide) (by decide)) ctx_twoContexts (by decide +kernel)
    (noCounters_besides [] [] (c := benchCtx) (ctx_besides [] [])).2
  rw [if_neg (by decide +kernel), show (selectRule claimedCtx _ _).2 = claimedCtx from rfl] at honly
  have hkept : acksOf (exec (.pmcfg namesakePmcfg) twoContexts) = [1, 5] := by decide +kernel
  rw [acks_namesake hexec honly] at hkept
  exact absurd hkept (by decide)

end Sys2Proof.Machine
end

section
/-!
PROOF. Barriers, phasers and rings (O31, refuted): no hypothesis says that the number which RGET's producer gets is not in use, and a producer that
already has it is taken for the new one.
-/

namespace Sys2Proof.Machine

/-- A ring of one slot, which has been published. -/
def filledRing : Ring := { defd := true, ccls := 1, pcls := 1, pidx := 1, filled := 1, cnt := 1, off := 1, lsz := 7 }

/-- The group of the bench with ring 0 filled. -/
def ringGroup : Group := issueGroup.setRing 0 filledRing

/-- A producer of the tile strand with the number that RGET's producer gets. -/
def rgetNamesake : Producer := { namesakeProducer with id := 16 }

/-- The bench with a slot to get, beside that producer. -/
def ringState : State := { besides [rgetNamesake] [] with groups := [ringGroup] }

/-- RGET of ring 0 to v8. -/
def namesakeRget : X96 := { w0 := { d := 8, wa := true }, func := 3 }

theorem calm_ringState : Calm ringState benchStrand issueEnv (Form.x96 Enc.rget' namesakeRget) :=
  { calm_besides [] [] (by decide) (by decide) (by decide) (by decide) with
    cur := rfl
    env := rfl
    present := by decide +kernel
    burst := fun _ => (by decide +kernel : 0 < issueState.burstLeft 0 0)
    noCounters := fun _ h => noCounters_besides [] [] h }

/-- In the model the fence of RGET, number 17, is what every producer numbered 16 waits for. -/
theorem exec_namesakeRget :
    (match exec (.rget namesakeRget) ringState with
      | .next t => t.prods.head?.map (·.waiting)
      | _ => none) = some [17] := by
  decide +kernel

/-- Refutes O31, in RGET: a producer of another strand has the number that the machine gives RGET's producer. It then waits for the fence of RGET, and by
the statement it waits for what it waited for before. No hypothesis keeps the numbers apart. -/
theorem not_syncInstructions : ¬ Obligations.SyncInstructions := by
  unfold Obligations.SyncInstructions
  intro issues
  obtain ⟨t, hexec, hdone⟩ := issues ringState benchStrand issueEnv benchCtx ringGroup (.rget namesakeRget) _ rfl rfl rfl (by decide +kernel)
    calm_ringState
  obtain ⟨ps, hprods⟩ := hdone.prods
  have hwaits : t.prods.head?.map (·.waiting) = some [17] := by simpa only [hexec] using exec_namesakeRget
  rw [hprods] at hwaits
  exact absurd (Option.some.inj hwaits : rgetNamesake.waiting = [17]) (by decide)

end Sys2Proof.Machine
end

section
/-!
PROOF. The states of the links (O35).
-/

namespace Sys2Proof.Machine

/-! ### A link put back -/

theorem setLink_eq (links : List Link) (k : Link) : setLink links k = links.map fun x => if x.n = k.n then k else x := by
  simp only [setLink, beq_iff_eq]

theorem putLink_eq (s : State) (k : Link) :
    s.putLink k = { s with dev := { s.dev with links := s.dev.links.map fun x => if x.n = k.n then k else x } } := by
  rw [State.putLink, setLink_eq]

section
variable {s : State} {l : Link}

/-! ### What each event of a link comes to (R482-R485, R491) -/

/-- The events that change a link without a version. -/
theorem linkRule_put {i : Instr} {n : Nat} {k : Link} (hn : linkNamed i = some n) (hl : s.dev.link? n = some l) (hk : linkRule s l i = some k) :
    exec i s = .next (s.putLink k) := by
  cases i with
  | hostLinkInit n hot =>
    cases hn
    show Host.Outcome.next _ = _
    simp only [linkRule] at hk
    simp only [hl, Bool.and_eq_true, decide_eq_true_eq, beq_iff_eq, and_assoc]
    split_ifs at hk ⊢ with hdown hhot
    · cases hk
      rfl
    · cases hk
      rfl
  | peerEnable func p =>
    cases hn
    show Host.Outcome.next _ = _
    obtain ⟨hon, heq⟩ := Option.ite_none_right_eq_some.mp hk
    cases heq
    simp only [hl, Bool.and_eq_true, decide_eq_true_eq, beq_iff_eq, and_assoc, if_pos hon]
  | linkRetrain n =>
    cases hn
    show Host.Outcome.next _ = _
    obtain ⟨⟨hup, hfew⟩, heq⟩ := Option.ite_none_right_eq_some.mp hk
    cases heq
    simp only [State.linkRetrain, hl, Bool.or_eq_true, beq_iff_eq, if_pos hup]
    exact congrArg _ (if_neg (Nat.not_le.mpr hfew))
  | _ => cases hk

/-- The nominal width and speed of a link. -/
theorem linkLimits_full (n : Nat) :
    (if n < 2 then (16, 128000) else if n < 10 then (128, 40000) else (8, 224000)) = (linkLimits n).1 := by
  unfold linkLimits
  split_ifs <;> rfl

/-- Its lowest usable ones. -/
theorem linkLimits_least (n : Nat) :
    (if n < 2 then (1, 2500) else if n < 10 then (32, 0) else (2, 112000)) = (linkLimits n).2 := by
  unfold linkLimits
  split_ifs <;> rfl

theorem pcieDefines_iff {width speed : Nat} : pcieDefines width speed = true ↔
    width ∈ [1, 2, 4, 8, 16] ∧ speed ∈ [2500, 5000, 8000, 16000, 32000, 64000, 128000] := by
  simp [pcieDefines]

/-- Training that ends, as its result says. -/
theorem linkTrained_publishes {n width speed : Nat} {k : Link} (hl : s.dev.link? n = some l)
    (hk : linkPublished s l (.linkTrained n width speed) = some k) :
    s.linkTrained n width speed = s.publishLinks (setLink s.dev.links k) := by
  simp only [linkPublished, linkLimits_full, linkLimits_least] at hk
  obtain ⟨⟨htr, hw, hs, hre, hdef⟩, hk⟩ := Option.ite_none_right_eq_some.mp hk
  have hgoes : (l.state != .training || (linkLimits n).1.1 < width || (linkLimits n).1.2 < speed ||
      (l.retraining && (l.width < width || l.speed < speed))) = false := by
    simpa [htr, Nat.not_lt.mpr hw, Nat.not_lt.mpr hs] using hre
  have hrate : (decide (n < 2) && (decide ((linkLimits n).2.1 ≤ width) && decide ((linkLimits n).2.2 ≤ speed)) && !pcieDefines width speed) =
      false := by
    refine Bool.eq_false_iff.mpr fun hbad => ?_
    simp only [Bool.and_eq_true, decide_eq_true_eq, Bool.not_eq_true'] at hbad
    obtain ⟨⟨hn, hwidth, hspeed⟩, hno⟩ := hbad
    exact Bool.false_ne_true (hno.symm.trans (pcieDefines_iff.mpr (hdef hn hwidth hspeed)))
  simp only [State.linkTrained, hl, hgoes, hrate, Bool.false_eq_true, if_false]
  congr 2
  simp only [Bool.and_eq_true, decide_eq_true_eq]
  split_ifs at hk ⊢ with hfull hleast <;>
  · cases hk
    rfl

/-- The events whose change is published. -/
theorem linkPublished_publishes {i : Instr} {n : Nat} {k : Link} (hn : linkNamed i = some n) (hl : s.dev.link? n = some l)
    (hk : linkPublished s l i = some k) : exec i s = .next (s.publishLinks (setLink s.dev.links k)) := by
  cases i with
  | peerDisable func p =>
    cases hn
    show Host.Outcome.next _ = _
    obtain ⟨hon, heq⟩ := Option.ite_none_right_eq_some.mp hk
    cases heq
    simp only [hl, Bool.and_eq_true, Bool.or_eq_true, decide_eq_true_eq, beq_iff_eq, and_assoc, if_pos hon]
    rfl
  | linkTrained n width speed =>
    cases hn
    exact congrArg _ (linkTrained_publishes hl hk)
  | linkTrainTimeout n =>
    cases hn
    show Host.Outcome.next _ = _
    obtain ⟨hlate, heq⟩ := Option.ite_none_right_eq_some.mp hk
    cases heq
    simp only [hl, Bool.and_eq_true, decide_eq_true_eq, beq_iff_eq, if_pos hlate]
    rfl
  | linkRetrain n =>
    cases hn
    show Host.Outcome.next _ = _
    obtain ⟨⟨hup, hmany⟩, heq⟩ := Option.ite_none_right_eq_some.mp hk
    cases heq
    simp only [State.linkRetrain, hl, Bool.or_eq_true, beq_iff_eq, if_pos hup]
    exact congrArg _ (if_pos hmany)
  | _ => cases hk

end

/-- Settles O35: each event by the branch of its meaning that the table names. -/
theorem linkStates : Obligations.LinkStates := by
  unfold Obligations.LinkStates
  refine fun s i n l hn hl => ⟨fun k hk => ?_, fun k hk => ?_⟩
  · rw [linkRule_put hn hl hk, putLink_eq]
  · rw [linkPublished_publishes hn hl hk, setLink_eq]

end Sys2Proof.Machine
end

section
/-!
PROOF. Charge, heat and power (O34).
-/

namespace Sys2Proof.Machine

/-! ### Charge (R467) -/

theorem stepRate_rateAfter (rate rt us : Nat) : stepRate (rateAfter rate rt us) rt = rateAfter rate rt (us + 1) := by
  simp only [stepRate, rateAfter, rmax]
  split_ifs <;> omega

theorem rateAfter_zero (rate rt : Nat) : rateAfter rate rt 0 = rate := by
  simp only [rateAfter]
  split_ifs <;> omega

/-- The microseconds that RATE takes to reach RT. -/
def rateSteps (rate rt : Nat) : Nat := ((rt - rate) + (rate - rt) + 1023) / 1024

theorem rateAfter_reached {rate rt us : Nat} (h : rateSteps rate rt ≤ us) : rateAfter rate rt us = rt := by
  simp only [rateSteps] at h
  simp only [rateAfter]
  split_ifs <;> omega

/-- One microsecond of a bucket. -/
def Cluster.refillStep (rt : Nat) (c : Cluster) : Cluster := { c with level := min 1048576 (c.level + c.rate), rate := stepRate c.rate rt }

/-- What some microseconds leave, where what passes 2^20 may be lost at the end. -/
theorem refill_steps (c : Cluster) (rt us : Nat) :
    ∃ level, (List.range us).foldl (fun (c : Cluster) _ => c.refillStep rt) c = { c with level := level, rate := rateAfter c.rate rt us } ∧
      ∀ more, min 1048576 (level + more) = min 1048576 (c.level + ((List.range us).map (rateAfter c.rate rt)).sum + more) := by
  induction us with
  | zero => exact ⟨c.level, by rw [rateAfter_zero]; rfl, fun _ => rfl⟩
  | succ us ih =>
    obtain ⟨level, hfold, hlevel⟩ := ih
    refine ⟨min 1048576 (level + rateAfter c.rate rt us), ?_, fun more => ?_⟩
    · rw [List.range_succ, List.foldl_append, hfold, ← stepRate_rateAfter]
      rfl
    · have h := hlevel (rateAfter c.rate rt us + more)
      rw [List.range_succ, List.map_append, List.sum_append, List.map_singleton, List.sum_singleton]
      omega

/-- What RATE adds once it has reached RT. -/
theorem sum_rateAfter (rate rt us : Nat) : ((List.range us).map (rateAfter rate rt)).sum =
    ((List.range (min us (rateSteps rate rt))).map (rateAfter rate rt)).sum +
      (us - rateSteps rate rt) * rateAfter rate rt (min us (rateSteps rate rt)) := by
  rcases Nat.le_total us (rateSteps rate rt) with hle | hge
  · rw [Nat.min_eq_left hle, Nat.sub_eq_zero_of_le hle, Nat.zero_mul, Nat.add_zero]
  · rw [Nat.min_eq_right hge, rateAfter_reached (Nat.le_refl _)]
    obtain ⟨more, rfl⟩ := Nat.exists_eq_add_of_le hge
    have hrest : ((List.range more).map (rateAfter rate rt ∘ (rateSteps rate rt + ·))) = (List.range more).map fun _ => rt :=
      List.map_congr_left fun k _ => rateAfter_reached (Nat.le_add_right _ k)
    rw [List.range_add, List.map_append, List.sum_append, Nat.add_sub_cancel_left, List.map_map, hrest]
    simp

/-- The refill of a bucket, microsecond by microsecond. -/
theorem refill_eq (c : Cluster) (rt us : Nat) : c.refill rt us =
    { c with level := min 1048576 (c.level + ((List.range us).map (rateAfter c.rate rt)).sum), rate := rateAfter c.rate rt us } := by
  obtain ⟨level, hfold, hlevel⟩ := refill_steps c rt (min us (rateSteps c.rate rt))
  have hrate : rateAfter c.rate rt (min us (rateSteps c.rate rt)) = rateAfter c.rate rt us := by
    rcases Nat.le_total us (rateSteps c.rate rt) with hle | hge
    · rw [Nat.min_eq_left hle]
    · rw [Nat.min_eq_right hge, rateAfter_reached (Nat.le_refl _), rateAfter_reached hge]
  have hrefill : c.refill rt us =
      (fun d : Cluster => { d with level := min 1048576 (d.level + (us - rateSteps c.rate rt) * d.rate) })
        ((List.range (min us (rateSteps c.rate rt))).foldl (fun (c : Cluster) _ => c.refillStep rt) c) := rfl
  rw [hrefill, hfold]
  dsimp only
  rw [hlevel, Nat.add_assoc, ← sum_rateAfter, hrate]

/-! ### What the taking of an island's teams leaves of the hub (R341) -/

/-- The hub, but for its count of link errors. -/
def State.hub (s : State) : Device := { s.dev with linkErrors := 0 }

/-- A fold of state changes that each leave the hub leaves it. -/
theorem foldl_hub {α : Type} {f : State → α → State} (hf : ∀ s a, (f s a).hub = s.hub) (l : List α) (s : State) : (l.foldl f s).hub = s.hub :=
  foldl_keeps State.hub hf l s

theorem countLost_hub (s : State) (ia : Nat) : (s.countLost ia).hub = s.hub := by
  unfold State.countLost
  split <;> rfl

theorem h4Clean_hub (s : State) (line : Nat) : (s.h4Clean line).hub = s.hub := by
  unfold State.h4Clean
  split
  · rfl
  · dsimp only
    split
    · rfl
    · exact countLost_hub _ _

theorem h4Sys_hub (s : State) (line : Nat) : (s.h4Sys line).hub = s.hub := h4Clean_hub s line

theorem sliceRoom_hub (s : State) (line : Nat) : (s.sliceRoom line).hub = s.hub := by
  simp only [State.sliceRoom]
  split
  · rfl
  · split
    · rfl
    · split
      · exact h4Clean_hub _ _
      · rfl

theorem lose_hub (s : State) (src : ReadCopy) (hits : Sector → Bool) (who : Nat) : (s.lose src hits who).hub = s.hub := by
  unfold State.lose
  split <;> rfl

theorem dropOthers_hub (s : State) (core line : Nat) : (s.dropOthers core line).hub = s.hub := by
  refine foldl_hub (fun t c => ?_) _ _
  unfold State.l1Drop
  split
  · rfl
  · exact lose_hub _ _ _ _

theorem homePut_hub (s : State) (sys : Bool) (ia : Nat) (b : Byte) : (s.homePut sys ia b).hub = s.hub := by
  unfold State.homePut
  split
  · rfl
  · split <;> rfl

theorem clearTags_hub (s : State) (ia n : Nat) : (s.clearTags ia n).hub = s.hub := by
  unfold State.clearTags
  split <;> rfl

theorem homeStore_hub (s : State) (core who : Nat) (sys : Bool) (ia : Nat) (bytes : List Byte) :
    (s.homeStore core who sys ia bytes).hub = s.hub := by
  have zero : ∀ (t : State) (p : Nat → Bool), (if t.zeroLines.isEmpty then t else { t with zeroLines := t.zeroLines.filter p }).hub = t.hub := by
    intro t p
    split <;> rfl
  have dropped := fun ls => foldl_hub (fun t l => dropOthers_hub t core l) ls s
  unfold State.homeStore
  rw [lose_hub, clearTags_hub, zero, foldl_hub fun t i => homePut_hub t _ _ _]
  split
  · cases sys
    · exact (foldl_hub sliceRoom_hub _ _).trans (dropped _)
    · exact (foldl_hub h4Sys_hub _ _).trans (dropped _)
  · exact dropped _

theorem traceWrite_hub (s : State) (c : Ctx) (item : List Byte) (count : Nat) : (s.traceWrite c item count).hub = s.hub := by
  unfold State.traceWrite
  split
  · rfl
  · exact (homeStore_hub _ _ _ _ _ _).trans (countLost_hub _ _)

theorem tracePost_hub (s : State) (ctx : Nat) (t : TraceItem) : (s.tracePost ctx t).hub = s.hub := by
  unfold State.tracePost
  split
  · rfl
  · dsimp only
    split
    · rfl
    · split
      · split
        · unfold State.traceSeal
          split
          · rfl
          · split
            · rfl
            · exact traceWrite_hub _ _ _ _
        · rfl
      · exact traceWrite_hub _ _ _ _

theorem traceOf_hub (s : State) (st : Strand) (kind tag addr : Nat) : (s.traceOf st kind tag addr).hub = s.hub := by
  unfold State.traceOf
  split
  · rfl
  · split
    · exact tracePost_hub _ _ _
    · rfl

theorem bump_hub (s : State) (ctx n k : Nat) : (s.bump ctx n k).hub = s.hub := by
  unfold State.bump
  split <;> rfl

theorem squash_hub (s : State) (cid code : Nat) : (s.squash cid code).hub = s.hub := by
  have dropped : ∀ t : State, (t.dropCont cid).hub = t.hub := fun _ => rfl
  unfold State.squash
  split
  · rfl
  · rw [dropped]
    split
    · rw [bump_hub, traceOf_hub]
    · rw [traceOf_hub]

/-- A team's pre-emption leaves the hub. -/
theorem preempt_hub (s : State) (team : Nat) : (s.preempt team).hub = s.hub := by
  unfold State.preempt
  split
  · rfl
  · split
    · rfl
    · exact foldl_hub (fun t id => squash_hub t id 6) _ _

/-! ### The events -/

theorem setHeat_eq (s : State) (h : Heat) : s.setHeat h = heatPut s h := rfl

theorem heat_eq (s : State) (n : Nat) : s.heat n = heatOf s n := rfl

section
variable {s t : State}

theorem chargeRefill_eq {cl : Nat} (h : powerRule s (.chargeRefill cl) = some t) : s.chargeRefill cl = t := by
  obtain ⟨⟨hcl, hdue⟩, heq⟩ := Option.ite_none_right_eq_some.mp h
  cases heq
  have hgo : (decide (48 ≤ cl) || decide (s.now < (s.cluster cl).refilled + 1000)) = false := by
    simp [Nat.not_le.mpr hcl, Nat.not_lt.mpr hdue]
  simp only [State.chargeRefill, hgo, Bool.false_eq_true, if_false, refill_eq]

theorem thermalThrottle_eq {n : Nat} {x : Int} (h : powerRule s (.thermalThrottle n x) = some t) : s.thermalThrottle n x = t := by
  simp only [powerRule] at h
  simp only [State.thermalThrottle, heat_eq]
  cases hth : (heatOf s n).th with
  | none => rw [hth] at h; cases h
  | some th =>
    rw [hth] at h
    obtain ⟨hon, heq⟩ := Option.ite_none_right_eq_some.mp h
    cases heq
    simp only [State.dwelt, Bool.and_eq_true, beq_iff_eq, decide_eq_true_eq, and_assoc, if_pos hon]
    rfl

theorem thermalRelease_eq {n : Nat} {x : Int} (h : powerRule s (.thermalRelease n x) = some t) : s.thermalRelease n x = t := by
  simp only [powerRule] at h
  simp only [State.thermalRelease, heat_eq, State.dwelt]
  cases hth : (heatOf s n).th with
  | none => rw [hth] at h; cases h
  | some th =>
    rw [hth] at h
    dsimp only at h ⊢
    split_ifs at h with hthr hcrit
    · obtain ⟨hst, hcool, hlate⟩ := hthr
      cases h
      simp only [hcool, hlate, hst, decide_true, Bool.and_self, if_true]
      rfl
    · obtain ⟨hst, hcool, hlate⟩ := hcrit
      cases h
      simp only [hcool, hlate, hst, decide_true, Bool.and_self, if_true]
      rfl

/-- The events of the table powerRule. -/
theorem powerRule_exec {i : Instr} (h : powerRule s i = some t) : exec i s = .next t := by
  cases i with
  | chargeTargetSet func cl rt =>
    obtain ⟨hon, heq⟩ := Option.ite_none_right_eq_some.mp h
    cases heq
    show Host.Outcome.next _ = _
    simp only [Bool.and_eq_true, decide_eq_true_eq, and_assoc]
    exact congrArg _ (if_pos hon)
  | classWeightSet func cl cls w =>
    obtain ⟨⟨hfunc, hserved, hcl⟩, heq⟩ := Option.ite_none_right_eq_some.mp h
    cases heq
    show Host.Outcome.next _ = _
    simp only [hfunc, hserved, hcl, decide_true, Bool.and_self, Bool.true_and, decide_eq_true_eq]
  | thermalThresholdSet func n th =>
    obtain ⟨hon, heq⟩ := Option.ite_none_right_eq_some.mp h
    cases heq
    show Host.Outcome.next _ = _
    simp only [Bool.and_eq_true, decide_eq_true_eq, and_assoc, if_pos hon]
    rfl
  | chargeRefill cl => exact congrArg _ (chargeRefill_eq h)
  | thermalThrottle n x => exact congrArg _ (thermalThrottle_eq h)
  | thermalRelease n x => exact congrArg _ (thermalRelease_eq h)
  | operatingPointChange n =>
    obtain ⟨hon, heq⟩ := Option.ite_none_right_eq_some.mp h
    cases heq
    show Host.Outcome.next _ = _
    simp only [heat_eq, Bool.and_eq_true, Bool.or_eq_true, bne_iff_ne, if_pos hon]
    rfl
  | bandPowerUp cl band =>
    cases h
    show Host.Outcome.next _ = _
    simp only [Bool.and_eq_true, beq_iff_eq, decide_eq_true_eq]
  | _ => cases h

end

/-- Settles O34: each event by the branch of its meaning that the table names, the refill microsecond by microsecond; the teams that a critical island
gives up leave the hub as it is. -/
theorem chargeAndHeat : Obligations.ChargeAndHeat := by
  unfold Obligations.ChargeAndHeat
  refine ⟨fun s i t h => powerRule_exec h, ?_⟩
  intro s n x th h hth hst hhot hlate
  have hgo : ((s.heat n).state == .throttled && decide (th + 50 ≤ x) && s.dwelt (s.heat n)) = true := by
    simp only [State.dwelt, heat_eq, Bool.and_eq_true, beq_iff_eq, decide_eq_true_eq]
    exact ⟨⟨hst, hhot⟩, decide_eq_true hlate⟩
  have hcrit : s.thermalCritical n x =
      ((heatPut s { h with state := .critical, since := s.now, want := s.lowerPoint n }).teamsOn n).foldl State.preempt
        (heatPut s { h with state := .critical, since := s.now, want := s.lowerPoint n }) := by
    simp only [State.thermalCritical, heat_eq] at hgo ⊢
    rw [hth]
    simp only [hgo, if_true]
    rfl
  refine ⟨_, congrArg Host.Outcome.next hcrit, ?_⟩
  generalize heatPut s _ = u
  have kept := congrArg Device.heats (foldl_hub preempt_hub (u.teamsOn n) u)
  exact kept

end Sys2Proof.Machine
end

section
/-!
PROOF. Errors, self-tests and replays (O53).
-/

namespace Sys2Proof.Machine

/-! ### What an error spoils (R457) -/

/-- What a list finds, where its elements are replaced and what is looked for is not. -/
theorem find_map_keeps {α : Type} (l : List α) (f : α → α) (p : α → Bool) (h : ∀ x, p (f x) = p x) :
    (l.map f).find? p = (l.find? p).map f := by
  rw [List.find?_map, show p ∘ f = p from funext h]

/-- What one step of a fold brings about and no step undoes holds at its end. -/
theorem foldl_gains {α β : Type} {P : β → Prop} {f : β → α → β} (hkeep : ∀ b x, P b → P (f b x)) {a : α} (hgain : ∀ b, P (f b a))
    {l : List α} (ha : a ∈ l) (b : β) : P (l.foldl f b) := by
  have hstays : ∀ (l : List α) (b : β), P b → P (l.foldl f b) := by
    intro l
    induction l with
    | nil => exact fun _ h => h
    | cons y l ih => exact fun b h => ih _ (hkeep b y h)
  induction l generalizing b with
  | nil => cases ha
  | cons y l ih =>
    rcases List.mem_cons.mp ha with rfl | h
    · exact hstays l _ (hgain b)
    · exact ih h _

/-- A list with an element put in front where it is not there yet. -/
def noted {α : Type} [DecidableEq α] (l : List α) (x : α) : List α := if l.contains x then l else x :: l

theorem contains_noted {α : Type} [DecidableEq α] (l : List α) (x : α) : (noted l x).contains x = true := by
  unfold noted
  split
  · next h => exact h
  · simp

theorem contains_noted_of {α : Type} [DecidableEq α] {l : List α} {y : α} (x : α) (h : l.contains y = true) : (noted l x).contains y = true := by
  unfold noted
  split
  · exact h
  · simpa using Or.inr (by simpa using h)

/-- The tags of some sectors are all that is added. -/
theorem poisonSectors_eq (s : State) (secs : List Nat) :
    s.poisonSectors secs = { s with poison := secs.foldl (fun p ia => noted p (sectorOf ia)) s.poison } := by
  induction secs generalizing s with
  | nil => rfl
  | cons ia secs ih =>
    have hstep : (if s.poison.contains (sectorOf ia) then s else { s with poison := sectorOf ia :: s.poison }) =
        { s with poison := noted s.poison (sectorOf ia) } := by
      unfold noted
      split <;> rfl
    rw [State.poisonSectors, List.foldl_cons, hstep]
    exact ih _

theorem poisonSectors_tags {secs : List Nat} {ia : Nat} (h : ia ∈ secs) (tags : List Nat) :
    (secs.foldl (fun p ia => noted p (sectorOf ia)) tags).contains (sectorOf ia) = true :=
  foldl_gains (P := fun p => p.contains (sectorOf ia) = true) (fun _ x h => contains_noted_of (sectorOf x) h) (fun p => contains_noted p _) h tags

/-- The line of an agent with the sectors marked that an error has spoilt. -/
def L1Line.spoilt (agent : Nat) (ias : List Nat) (l : L1Line) : L1Line :=
  if l.core == agent then { l with poison := (ias.filter fun ia => lineOf ia == l.line).foldl (fun p ia => setBit p (ia % 128 / 32)) l.poison } else l

theorem spoilt_place (agent : Nat) (ias : List Nat) (l : L1Line) : (l.spoilt agent ias).core = l.core ∧ (l.spoilt agent ias).line = l.line := by
  unfold L1Line.spoilt
  split <;> exact ⟨rfl, rfl⟩

theorem spoilt_sector {agent ia : Nat} {ias : List Nat} {l : L1Line} (hia : ia ∈ ias) (hcore : l.core = agent) (hline : l.line = lineOf ia) :
    (l.spoilt agent ias).poison.getLsbD (ia % 128 / 32) = true := by
  have hlt : ia % 128 / 32 < 4 := by omega
  rw [L1Line.spoilt, if_pos (by simpa using hcore)]
  refine foldl_gains (P := fun p : BitVec 4 => p.getLsbD (ia % 128 / 32) = true) (fun p x h => ?_) (fun p => ?_)
    (List.mem_filter.mpr ⟨hia, by simpa using hline.symm⟩) l.poison
  · rw [setBit_getLsbD, h, Bool.true_or]
  · simp [setBit_getLsbD, hlt]

theorem poisonL1_eq (s : State) (agent : Nat) (ias : List Nat) :
    s.poisonL1 agent ias = { s with poison := ias.foldl (fun p ia => noted p (sectorOf ia)) s.poison, l1 := s.l1.map (L1Line.spoilt agent ias) } := by
  unfold State.poisonL1
  rw [poisonSectors_eq]
  rfl

/-- The group with the sectors of its scratchpad marked that an error of a core has spoilt. -/
def Group.spoilt (core : Nat) (secs : List (Nat × Nat)) (g : Group) : Group :=
  if g.core == core && !g.away then
    { g with poison := (secs.filter fun x => x.1 == g.id && 32 * x.2 < g.scratchLen).foldl (fun p x => noted p x.2) g.poison }
  else g

theorem poisonScratch_eq (s : State) (core : Nat) (secs : List (Nat × Nat)) :
    s.poisonScratch core secs = { s with groups := s.groups.map (Group.spoilt core secs) } := rfl

theorem poisonScratch_nil (s : State) (core : Nat) : s.poisonScratch core [] = s := by
  have hkept : Group.spoilt core [] = id := by
    funext g
    unfold Group.spoilt
    split <;> rfl
  rw [poisonScratch_eq, hkept, List.map_id]

theorem group_spoilt_id (core : Nat) (secs : List (Nat × Nat)) (g : Group) : (g.spoilt core secs).id = g.id := by
  unfold Group.spoilt
  split <;> rfl

theorem group_spoilt_sector {core : Nat} {secs : List (Nat × Nat)} {g : Group} {x : Nat × Nat} (hx : x ∈ secs) (hid : g.id = x.1)
    (hcore : g.core = core) (haway : g.away = false) (hlen : 32 * x.2 < g.scratchLen) : (g.spoilt core secs).poison.contains x.2 = true := by
  rw [Group.spoilt, if_pos (by simp [hcore, haway])]
  exact foldl_gains (P := fun p : List Nat => p.contains x.2 = true) (f := fun p (y : Nat × Nat) => noted p y.2)
    (fun p y h => contains_noted_of y.2 h) (fun p => contains_noted p x.2) (List.mem_filter.mpr ⟨hx, by simp [hid, hlen]⟩) g.poison

/-- A register spoilt is all that changes of the strands. -/
theorem poisonRegister_same (s : State) (agent : Nat) (reg : Option (Nat × Nat)) :
    s.poisonRegister agent reg = { s with strands := (s.poisonRegister agent reg).strands } := by
  unfold State.poisonRegister
  split
  · rfl
  · split
    · split <;> rfl
    · rfl

theorem poisonRegister_reg {s : State} {agent id n : Nat} {st : Strand} (hn : n < 64) (hst : s.strand? id = some st) (hag : st.agentCore = agent) :
    ∃ st', (s.poisonRegister agent (some (id, n))).strand? id = some st' ∧ (st'.reg n).poison = true ∧ ∀ m, m ≠ n → st'.reg m = st.reg m := by
  have hid : (st.poisonReg n).id = id := show st.id = id from strand_id hst
  refine ⟨st.poisonReg n, ?_, ?_, fun m hm => reg_setReg_ne _ _ _ _ hm.symm⟩
  · have hput := strand_setStrand s (st.poisonReg n) (by rw [hid, hst]; rfl)
    rw [hid] at hput
    simpa only [State.poisonRegister, hst, hag, beq_self_eq_true, if_true] using hput
  · rw [Strand.poisonReg, reg_setReg_same _ _ _ hn]

/-- A register, sectors of scratchpads and sectors of an L1 spoilt, one after the other. -/
theorem spoils (s : State) (agent : Nat) (reg : Option (Nat × Nat)) (scratch : List (Nat × Nat)) (secs : List Nat) :
    Spoils s (((s.poisonRegister agent reg).poisonScratch agent scratch).poisonL1 agent secs) agent reg scratch secs := by
  rw [poisonL1_eq, poisonScratch_eq]
  have hsame := poisonRegister_same s agent reg
  refine ⟨by rw [hsame], fun ia hia => poisonSectors_tags hia _, fun ia hia l hl => ?_, fun x hx g hg hcore haway hlen => ?_, ?_⟩
  · have hplace : l.core = agent ∧ l.line = lineOf ia := by simpa using List.find?_some hl
    refine ⟨l.spoilt agent secs, ?_, spoilt_sector hia hplace.1 hplace.2⟩
    rw [State.l1?, hsame]
    have hfind := find_map_keeps s.l1 (L1Line.spoilt agent secs) (fun l => l.core == agent && l.line == lineOf ia) fun l => by
      rw [(spoilt_place agent secs l).1, (spoilt_place agent secs l).2]
    rw [State.l1?] at hl
    rw [hl] at hfind
    exact hfind
  · refine ⟨g.spoilt agent scratch, ?_, group_spoilt_sector hx (group_id hg) hcore haway hlen⟩
    rw [State.group?, hsame]
    have hfind := find_map_keeps s.groups (Group.spoilt agent scratch) (fun g => g.id == x.1) fun g => by rw [group_spoilt_id]
    rw [State.group?] at hg
    rw [hg] at hfind
    exact hfind
  · rintro id n st rfl hn hst hag
    exact poisonRegister_reg hn hst hag

/-! ### Self-tests (R462) -/

theorem unitQuiet_of {s : State} {u : UnitId} (hcore : ∀ n, u = .core n → ∀ g ∈ s.groups, g.core = n → g.ended = true ∨ g.away = true)
    (hmcc : ∀ n, u = .mcc n → ∀ x ∈ s.strands, x.tile = true → x.core = n → x.state = .exited)
    (hband : ∀ cl b, u = .band cl b → ∀ p ∈ (s.cluster cl).pbands, p.n ≠ b) : s.unitQuiet u = true := by
  cases u with
  | core n =>
    simp only [State.unitQuiet, Bool.not_eq_true', List.any_eq_false, Bool.and_eq_true, beq_iff_eq]
    rintro g hg ⟨⟨hn, he⟩, ha⟩
    rcases hcore n rfl g hg hn with h | h <;> simp [h] at he ha
  | mcc n =>
    simp only [State.unitQuiet, Bool.not_eq_true', List.any_eq_false, Bool.and_eq_true, beq_iff_eq, bne_iff_ne]
    rintro x hx ⟨⟨ht, hn⟩, hs⟩
    exact hs (hmcc n rfl x hx ht hn)
  | band cl b =>
    simp only [State.unitQuiet, Bool.not_eq_true', List.any_eq_false, beq_iff_eq]
    exact hband cl b rfl
  | _ => rfl

theorem selfTestComplete_eq {s : State} {u : UnitId} (pass : Bool) (ht : s.underTest u = true) (hq : s.unitQuiet u = true) :
    s.selfTestComplete u pass =
      (let recent := s.dev.transients.filter fun t => s.now < t.2 + 86400000000000
       let v := { s with dev := { s.dev with tests := s.dev.tests.filter fun t => t.unit != u, transients := if pass then (u, s.now) :: recent else recent } }
       if pass = true ∧ (recent.filter fun t => t.1 == u).length < 2 then v else v.retire u) := by
  simp only [State.selfTestComplete, ht, hq, Bool.not_true, Bool.or_self, Bool.false_eq_true, if_false, Bool.and_eq_true, decide_eq_true_eq]
  rfl

/-! ### Replays (R459) -/

/-- A group that has not ended faults for the strand that runs, or is kept in a save area, and its kept strands have exited. -/
theorem replayFault_eq {v : State} {r : Replay} {st : Strand} {g : Group} {tm : Team} (hg : v.group? r.group = some g) (he : g.ended = false)
    (hst : v.strand? r.strand = some st ∨
      v.strand? r.strand = none ∧ ∃ t, v.team? g.team = some t ∧ t.kept.find? (fun x => x.id == r.strand) = some st)
    (hw : (v.groupFault st 2 0x85 r.addr.toNat 0 r.addr.lo 0 0).team? g.team = some tm) :
    v.replayFault r = (v.groupFault st 2 0x85 r.addr.toNat 0 r.addr.lo 0 0).setTeam
      { tm with kept := tm.kept.map fun x => if x.group = g.id ∧ x.tile = false then { x with state := .exited } else x } := by
  have hkept : ∀ x : Strand, (x.group == g.id && !x.tile) = decide (x.group = g.id ∧ x.tile = false) := fun x => by
    simp [Bool.beq_eq_decide_eq]
  rcases hst with hst | ⟨hst, t, ht, hfind⟩
  · simp only [State.replayFault, hg, he, hst, Bool.false_eq_true, if_false, hw, hkept, decide_eq_true_eq]
  · simp only [State.replayFault, hg, he, hst, ht, Option.map_some, Option.getD_some, hfind, Bool.false_eq_true, if_false, hw, hkept,
      decide_eq_true_eq]

theorem any_region {st : Strand} {r : Replay} : (st.rets.any fun e => e.isRegion && r.region == some e.opened) = true ↔
    ∃ x ∈ st.rets, x.ra.getLsbD 0 = true ∧ r.region = some x.opened := by
  simp only [List.any_eq_true, Bool.and_eq_true, beq_iff_eq, RetEntry.isRegion]

/-- A replay that differs, of a strand that can unwind or else has to fault its group. -/
theorem replayCheck_differs {s : State} {core quadrant n : Nat} {r : Replay} (hr : (vget (s.core core).replay quadrant [])[n]? = some r)
    {v : State} (hv : v = (s.setCore { s.core core with
      replay := vset (s.core core).replay quadrant ((vget (s.core core).replay quadrant []).eraseIdx n) }).chargeUnit (.core core)) :
    s.replayCheck core quadrant n true = match v.strand? r.strand with
      | none => v.replayFault r
      | some st =>
        if st.state ≠ .exited ∧ ∃ x ∈ st.rets, x.ra.getLsbD 0 = true ∧ r.region = some x.opened then
          v.raise st { cause := 0x21, addr := r.addr, lanes := st.path, detail := 0x100 }
        else v.replayFault r := by
  simp only [State.replayCheck, hr, Bool.not_true, Bool.false_eq_true, if_false, ← hv]
  cases v.strand? r.strand with
  | none => rfl
  | some st => simp only [Bool.and_eq_true, bne_iff_ne, any_region]

/-! ### The obligation -/

/-- Settles O53: a shadow mismatch is noted at its strand; every other error is charged to its unit after what it spoils is poisoned; a test on whose
unit no work is left, and a replay, end as their results say. -/
theorem errorsAreContained : Obligations.ErrorsAreContained := by
  unfold Obligations.ErrorsAreContained
  refine ⟨fun s st lane bits hst => ?_, fun s n reg scratch secs => ⟨⟨_, rfl, spoils s n reg scratch secs⟩, ?_⟩,
    fun s cl b d n q secs => ⟨rfl, rfl, ?_, ?_⟩, fun s u pass ht hcore hmcc hband => ?_, fun s core quadrant n r hr => ?_⟩
  · refine congrArg Host.Outcome.next ?_
    simp only [State.errorDetected, hst]
  · have hmcc := spoils s (mccAgent n) reg [] secs
    rw [poisonScratch_nil] at hmcc
    exact ⟨_, rfl, hmcc⟩
  · exact ⟨_, rfl, fun ia hia => by rw [poisonSectors_eq]; exact poisonSectors_tags hia _, by rw [poisonSectors_eq]⟩
  · exact ⟨_, rfl, fun ia hia => by rw [poisonSectors_eq]; exact poisonSectors_tags hia _, by rw [poisonSectors_eq]⟩
  · have htest : s.underTest u = true := by
      obtain ⟨t, ht, hu⟩ := ht
      exact List.any_eq_true.mpr ⟨t, ht, by simpa using hu⟩
    exact congrArg Host.Outcome.next (selfTestComplete_eq pass htest (unitQuiet_of hcore hmcc hband))
  · intro u v inRegion
    have hdiff := replayCheck_differs hr (v := v) rfl
    refine ⟨congrArg Host.Outcome.next ?_, fun st hst hs hin => congrArg Host.Outcome.next ?_, ?_, ?_⟩
    · simp only [State.replayCheck, hr, Bool.not_false, if_true]
      rfl
    · rw [hdiff, hst]
      exact if_pos ⟨hs, hin⟩
    · intro st g tm hst hout hg he w htm
      refine congrArg Host.Outcome.next ?_
      rw [hdiff, hst]
      refine (if_neg fun h => ?_).trans (replayFault_eq hg he (.inl hst) htm)
      exact hout.elim h.1 fun hno => hno h.2
    · intro st g t tm hst hg he ht hfind w htm
      refine congrArg Host.Outcome.next ?_
      rw [hdiff, hst]
      exact replayFault_eq hg he (.inr ⟨hst, t, ht, hfind⟩) htm

end Sys2Proof.Machine
end

section
/-!
PROOF. Device reset, bring-up, the shadow switch and attestation (O54).
-/

namespace Sys2Proof.Machine

/-! ### Reset (R463) -/

/-- The memory that a device reset leaves: what the host holds. -/
theorem get_hostMemory {m : Memory} (w : m.wf = true) (a : Nat) :
    Memory.get (m.filter fun c => homeOf c.1 == 4) a = if homeOf a = 4 then m.get a else 0 := by
  split
  · next h => exact get_filter_from w fun c hc => by rw [hc, h]; rfl
  · next h =>
    refine get_absent fun c hc hca => h ?_
    have hout := (List.mem_filter.mp hc).2
    rw [hca] at hout
    exact beq_iff_eq.mp hout

/-! ### What the loss of units keeps of a map -/

/-- What every step of a fold over a list keeps, the fold keeps. -/
theorem foldl_keeps_of {α β γ : Type} (p : β → γ) {f : β → α → β} {l : List α} (hf : ∀ b, ∀ a ∈ l, p (f b a) = p b) (b : β) :
    p (l.foldl f b) = p b := by
  induction l generalizing b with
  | nil => rfl
  | cons a l ih => rw [List.foldl_cons, ih fun b x hx => hf b x (List.mem_cons_of_mem _ hx), hf b a List.mem_cons_self]

/-- The terms of service of a map: whether it is full, and its clocks (R464). -/
def SMap.terms (m : SMap) : Bool × Nat × Nat := (m.full, m.aclk, m.fclk)

/-- The terms of service, and the islands of the hub's pairs (R465): what no compute die has a part in. -/
def SMap.centre (m : SMap) : (Bool × Nat × Nat) × List Island := (m.terms, (List.range 16).map fun k => m.islands.getD (688 + k) {})

theorem dropIsland_centre (m : SMap) {n : Nat} (h : n < 688) : (m.dropIsland n).centre = m.centre := by
  refine congrArg (Prod.mk m.terms) (List.map_congr_left fun k _ => ?_)
  rw [SMap.dropIsland, List.getD_eq_getElem?_getD, List.getD_eq_getElem?_getD, List.getElem?_set_ne (by omega)]

theorem dropCluster_centre (m : SMap) {c : Nat} (h : c < 48) : (m.dropCluster c).centre = m.centre := by
  have hislands : ((List.range 13).foldl (fun (m : SMap) k => m.dropIsland (13 * c + k)) m).centre = m.centre :=
    foldl_keeps_of SMap.centre (fun m k hk => dropIsland_centre m (by have := List.mem_range.mp hk; omega)) m
  simpa only [SMap.dropCluster, SMap.centre, SMap.terms] using hislands

theorem dropDie_centre (m : SMap) {d : Nat} (h : d < 4) : (m.dropDie d).centre = m.centre := by
  have hclusters : ((List.range 12).foldl (fun (m : SMap) i => m.dropCluster (12 * d + i)) m).centre = m.centre :=
    foldl_keeps_of SMap.centre (fun m i hi => dropCluster_centre m (by have := List.mem_range.mp hi; omega)) m
  have hislands := foldl_keeps_of SMap.centre (f := fun (m : SMap) i => m.dropIsland (624 + 16 * d + i)) (l := List.range 16)
    (fun m i hi => dropIsland_centre m (by have := List.mem_range.mp hi; omega))
    ((List.range 12).foldl (fun (m : SMap) i => m.dropCluster (12 * d + i)) m)
  simpa only [SMap.dropDie, SMap.centre, SMap.terms] using hislands.trans hclusters

theorem dropLost_centre (m : SMap) (links : List Link) : (m.dropLost links).centre = m.centre := by
  refine foldl_keeps_of SMap.centre (fun m d hd => ?_) m
  split
  · exact dropDie_centre m (List.mem_range.mp hd)
  · rfl

theorem retire_terms (m : SMap) (u : UnitId) : (m.retire u).terms = m.terms := by
  cases u with
  | pchannel d q =>
    simp only [SMap.retire]
    split <;> rfl
  | island n =>
    simp only [SMap.retire]
    split
    · rfl
    · next hn =>
      split
      · rfl
      · split
        · exact congrArg Prod.fst (dropCluster_centre m (by omega : n / 13 < 48))
        · rfl
  | _ => rfl

/-- A pair of the hub's islands, by what stands in the centre. -/
theorem pairDead_of_centre {m x : SMap} (h : m.centre = x.centre) {k : Nat} (hk : k < 8) : m.pairDead k = x.pairDead k := by
  have hisland : ∀ i, i < 16 → m.islands.getD (688 + i) {} = x.islands.getD (688 + i) {} := by
    intro i hi
    have hlist := congrArg (fun c => c.2[i]?) h
    simpa [SMap.centre, List.getElem?_range hi] using hlist
  have h0 := hisland (2 * k) (by omega)
  have h1 := hisland (2 * k + 1) (by omega)
  rw [SMap.pairDead, SMap.pairDead, h0, show 689 + 2 * k = 688 + (2 * k + 1) by omega, h1]

/-! ### A version published where nothing runs (R441, R445) -/

/-- The hub, the contexts, the launches and the teams. -/
def State.offices (s : State) : Device × List Ctx × List Launch × List Team := (s.dev, s.ctxs, s.launches, s.teams)

theorem lose_offices (s : State) (src : ReadCopy) (hits : Sector → Bool) (who : Nat) : (s.lose src hits who).offices = s.offices := by
  unfold State.lose
  split <;> rfl

theorem dropOthers_offices (s : State) (core line : Nat) : (s.dropOthers core line).offices = s.offices := by
  refine foldl_keeps State.offices (fun t c => ?_) _ _
  unfold State.l1Drop
  split
  · rfl
  · exact lose_offices _ _ _ _

theorem writeMapPage_offices (s : State) : s.writeMapPage.offices = s.offices := by
  unfold State.writeMapPage
  rw [lose_offices, foldl_keeps State.offices fun t l => dropOthers_offices t 1000 l]
  split <;> rfl

/-- Where there is no work, a version does nothing to the hub. -/
theorem afterVersion_dev {s : State} (hc : s.ctxs = []) (hl : s.launches = []) (ht : s.teams = []) (dead : List Nat) :
    (s.afterVersion dead).dev = s.dev := by
  simp [State.afterVersion, hc, hl, ht]

/-- A version that differs, published by a hub that runs and where there is no work. -/
theorem publish_idle {s : State} {new : SMap} (links : List Link) (hrun : s.dev.state ≠ .halted)
    (hnew : new.terms ≠ s.dev.map.terms) (hc : s.ctxs = []) (hl : s.launches = []) (ht : s.teams = []) :
    (s.publish new links).dev.state = s.dev.state ∧
      (∃ bits, (s.publish new links).dev.map = { new with version := s.dev.map.version + 1, changed := bits }) ∧
      (s.publish new links).dev.links = links := by
  have hdiff : ({ new with version := s.dev.map.version, changed := s.dev.map.changed } == s.dev.map) = false :=
    by
    refine beq_eq_false_iff_ne.mpr fun h => hnew ?_
    rw [← h]
    rfl
  have hhalt : (s.dev.state == .halted) = false := beq_eq_false_iff_ne.mpr hrun
  simp only [State.publish, hhalt, hdiff, Bool.false_eq_true, if_false, Bool.false_and]
  have key : ∀ (t : State) (dead : List Nat), t.ctxs = [] → t.launches = [] → t.teams = [] → (t.writeMapPage.afterVersion dead).dev = t.dev := by
    intro t dead hc hl ht
    have hoff := writeMapPage_offices t
    simp only [State.offices, Prod.mk.injEq] at hoff
    obtain ⟨hdev, hctxs, hlaunches, hteams⟩ := hoff
    rw [afterVersion_dev (hctxs.trans hc) (hlaunches.trans hl) (hteams.trans ht), hdev]
  rw [key]
  exacts [⟨rfl, ⟨_, rfl⟩, rfl⟩, hc, hl, ht]

/-- Stacks that were there and are no longer: where there are none, nothing is lost. -/
theorem loseStacks_none (s : State) {old new : SMap} (h : ∀ n, old.liveStack.getLsbD n = true → new.liveStack.getLsbD n = true) :
    s.loseStacks old new = s := by
  have hnone : ((List.range 32).filter fun n => old.liveStack.getLsbD n && !new.liveStack.getLsbD n && new.liveDie.getLsbD (n / 8)) = [] := by
    refine List.filter_eq_nil_iff.mpr fun n _ hn => ?_
    simp only [Bool.and_eq_true, Bool.not_eq_true'] at hn
    obtain ⟨⟨hold, hno⟩, -⟩ := hn
    rw [h n hold] at hno
    cases hno
  rw [State.loseStacks, hnone, List.foldl_nil]

/-- A version that takes neither a stack nor a pair of the hub's islands away is published as it is (R462, R465). -/
theorem publishUnits_whole {s : State} {m : SMap} (links : List Link) (hrun : s.dev.state ≠ .halted)
    (hpairs : ∀ k, k < 8 → m.pairDead k = true → s.dev.map.version ≠ 0 ∧ s.dev.map.pairDead k = true)
    (hstacks : ∀ n, s.dev.map.liveStack.getLsbD n = true → m.liveStack.getLsbD n = true) :
    s.publishUnits m links = s.publish m links := by
  have hgone : ∀ k, k < 8 → (m.pairDead k && (s.dev.map.version == 0 || !s.dev.map.pairDead k)) = false := by
    intro k hk
    cases hd : m.pairDead k with
    | false => rfl
    | true =>
      obtain ⟨hv, ho⟩ := hpairs k hk hd
      rw [ho, beq_eq_false_iff_ne.mpr hv]
      rfl
  have hlinks : (links.map fun l => if l.n < 2 && (m.pairDead (l.n + 2) && (s.dev.map.version == 0 || !s.dev.map.pairDead (l.n + 2))) then
      { l with state := .failed, width := 0, speed := 0 : Link }.publish else l) = links := by
    refine (List.map_congr_left fun l _ => ?_).trans (List.map_id links)
    refine if_neg fun h => ?_
    obtain ⟨hn, hg⟩ := Bool.and_eq_true_iff.mp h
    rw [hgone (l.n + 2) (by have := of_decide_eq_true hn; omega)] at hg
    cases hg
  have hhalt : (s.dev.state == .halted) = false := beq_eq_false_iff_ne.mpr hrun
  simp only [State.publishUnits, hlinks, hhalt, Bool.false_eq_true, if_false, loseStacks_none s hstacks, List.any_cons, List.any_nil,
    hgone 0 (by decide), hgone 1 (by decide), hgone 4 (by decide), hgone 5 (by decide), hgone 6 (by decide), hgone 7 (by decide), Bool.or_self]

/-! ### Bring-up (R463, R464, R485) -/

/-- What a list of failed units leaves of the terms of service. -/
theorem retireAll_terms (us : List UnitId) (m : SMap) : (us.foldl SMap.retire m).terms = m.terms := foldl_keeps SMap.terms retire_terms us m

/-- The last stage: version 1 of reduced service, with the links that do not retrain as they are. -/
theorem publishFirst_eq {s : State} {t : TestOutcome} (hmap : s.dev.map = {}) (hc : s.ctxs = []) (hl : s.launches = []) (ht : s.teams = [])
    (hpairs : ∀ k, k < 8 → (t.failed.foldl SMap.retire SMap.first).pairDead k = false) :
    (s.publishFirst t).dev.state = .running ∧ (s.publishFirst t).dev.map.version = 1 ∧ (s.publishFirst t).dev.map.terms = (false, 525, 1600) ∧
      (s.publishFirst t).dev.links = s.dev.links.map fun l => if l.state == .training && l.retraining then l else l.publish := by
  unfold State.publishFirst
  dsimp only
  generalize hlinks : (s.dev.links.map fun l => if l.state == .training && l.retraining then l else l.publish) = links
  generalize hu : ({ s with dev := { s.dev with state := .running, tested := false } } : State) = u
  have hum : u.dev.map = {} := by rw [← hu]; exact hmap
  have hrun : u.dev.state = .running := by rw [← hu]
  generalize hm : ((t.failed.foldl SMap.retire SMap.first).dropLost links).withFeatures [] [] = m
  have hcentre : m.centre = (t.failed.foldl SMap.retire SMap.first).centre := by
    rw [← hm]
    exact dropLost_centre _ links
  have hterms : m.terms = (false, 525, 1600) := (congrArg Prod.fst hcentre).trans (retireAll_terms _ _)
  have hwhole : u.publishUnits m links = u.publish m links := by
    refine publishUnits_whole links (by rw [hrun]; decide) (fun k hk hd => ?_) fun n hn => ?_
    · rw [pairDead_of_centre hcentre hk, hpairs k hk] at hd
      cases hd
    · rw [hum] at hn
      simp at hn
  rw [hwhole]
  obtain ⟨hstate, ⟨bits, hnew⟩, hput⟩ := publish_idle (s := u) (new := m) links (by rw [hrun]; decide) (by rw [hterms, hum]; decide)
    (by rw [← hu]; exact hc) (by rw [← hu]; exact hl) (by rw [← hu]; exact ht)
  refine ⟨hstate.trans hrun, ?_, ?_, hput⟩
  · rw [hnew, hum]
    rfl
  · rw [hnew]
    exact hterms

/-- A link as the last stage leaves it. -/
theorem mem_firstLinks {links : List Link} {l : Link} (h : l ∈ links) :
    if l.state = .training ∧ l.retraining = true then l ∈ links.map fun l => if l.state == .training && l.retraining then l else l.publish
    else l.publish ∈ links.map fun l => if l.state == .training && l.retraining then l else l.publish := by
  have hmem := List.mem_map_of_mem (f := fun l : Link => if l.state == .training && l.retraining then l else l.publish) h
  simp only [Bool.and_eq_true, beq_iff_eq] at hmem ⊢
  split
  · next hre => simpa only [if_pos hre] using hmem
  · next hre => simpa only [if_neg hre] using hmem

section Stages
variable {s : State} {n : Nat} (hs : s.dev.state = .bringup n)
include hs

theorem bringupStage_fails (sig : Bool) (t : TestOutcome) :
    s.bringupStage false sig t = { s with dev := { s.dev with state := .failed n sig } } := by
  simp only [State.bringupStage, hs, Bool.not_false, Bool.true_or, if_true]

theorem bringupStage_next (t : TestOutcome) (h2 : n ≠ 2) (h5 : n ≠ 5)
    (h3 : n = 3 → ∀ l ∈ s.dev.links, 2 ≤ l.n → l.n < 10 → l.state ≠ .training) :
    s.bringupStage true false t = { s with dev := { s.dev with state := .bringup (n + 1) } } := by
  have htrained : (n = 3 && (s.dev.links.any fun l => 2 ≤ l.n && l.n < 10 && l.state == .training) : Bool) = false := by
    refine Bool.eq_false_iff.mpr fun h => ?_
    simp only [Bool.and_eq_true, decide_eq_true_eq, List.any_eq_true, beq_iff_eq] at h
    obtain ⟨hn, l, hl, ⟨hlo, hhi⟩, ht⟩ := h
    exact h3 hn l hl hlo hhi ht
  simp only [State.bringupStage, hs, Bool.not_true, Bool.or_self, Bool.false_eq_true, if_false, if_neg h2, htrained, if_neg h5]

end Stages

/-! ### Full service (R464) -/

/-- Bits set one after the other where a condition holds. -/
theorem getLsbD_foldl_setBit {w : Nat} (c : Nat → Bool) (g : Nat → Nat) (n : Nat) (x : BitVec w) {k : Nat} (hk : k < w) :
    ((List.range n).foldl (fun x i => if c i then setBit x (g i) else x) x).getLsbD k = true ↔
      x.getLsbD k = true ∨ ∃ i < n, c i = true ∧ g i = k := by
  induction n with
  | zero => simp
  | succ n ih =>
    rw [List.range_succ, List.foldl_append, List.foldl_cons, List.foldl_nil]
    have hlast : (∃ i < n + 1, c i = true ∧ g i = k) ↔ (∃ i < n, c i = true ∧ g i = k) ∨ c n = true ∧ g n = k := by
      constructor
      · rintro ⟨i, hi, h⟩
        rcases Nat.lt_succ_iff_lt_or_eq.mp hi with hlt | rfl
        · exact .inl ⟨i, hlt, h⟩
        · exact .inr h
      · rintro (⟨i, hi, h⟩ | h)
        · exact ⟨i, Nat.lt_succ_of_lt hi, h⟩
        · exact ⟨n, Nat.lt_succ_self n, h⟩
    rw [hlast, ← or_assoc, ← ih]
    cases hc : c n with
    | false => simp
    | true => simp only [if_true, setBit_getLsbD, hk, decide_true, Bool.true_and, Bool.or_eq_true, decide_eq_true_eq, true_and]

/-- The bands that come with full service: B2 and B3 of a live cluster, where their islands are live. -/
def fullBands (old : SMap) : BitVec 192 := (List.range 96).foldl (fun (x : BitVec 192) i =>
  if old.liveCl.getLsbD (i / 2) && (old.islands.getD (13 * (i / 2) + 9 + (2 + i % 2)) {}).live then setBit x (4 * (i / 2) + (2 + i % 2)) else x)
  old.bandLive

theorem getLsbD_fullBands (old : SMap) {cl b : Nat} (hcl : cl < 48) (hb : b = 2 ∨ b = 3) :
    (fullBands old).getLsbD (4 * cl + b) =
      (old.bandLive.getLsbD (4 * cl + b) || old.liveCl.getLsbD cl && (old.islands.getD (13 * cl + 9 + b) {}).live) := by
  have hk : 4 * cl + b < 192 := by omega
  rw [Bool.eq_iff_iff, Bool.or_eq_true, fullBands]
  refine (getLsbD_foldl_setBit (fun i => old.liveCl.getLsbD (i / 2) && (old.islands.getD (13 * (i / 2) + 9 + (2 + i % 2)) {}).live)
    (fun i => 4 * (i / 2) + (2 + i % 2)) 96 old.bandLive hk).trans (or_congr_right ?_)
  constructor
  · rintro ⟨i, -, hlive, hbit⟩
    obtain ⟨rfl, rfl⟩ : i / 2 = cl ∧ 2 + i % 2 = b := by omega
    exact hlive
  · intro hlive
    obtain ⟨h1, h2⟩ : (2 * cl + (b - 2)) / 2 = cl ∧ 2 + (2 * cl + (b - 2)) % 2 = b := by omega
    exact ⟨2 * cl + (b - 2), by omega, by rw [h1, h2]; exact hlive, by rw [h1, h2]⟩

/-- The islands of full service: those of the map, at its clock. -/
def fullIslands (old : SMap) : List Island := (List.range 704).map fun n => if (old.islands.getD n {}).live then islandAt 1050 n else {}

theorem fullIslands_live (old : SMap) {n : Nat} (h : n < 704) : ((fullIslands old).getD n {}).live = (old.islands.getD n {}).live := by
  rw [fullIslands, List.getD_eq_getElem?_getD, List.getElem?_map, List.getElem?_range h, Option.map_some, Option.getD_some]
  split
  · next hlive => rw [hlive]; rfl
  · next hdead => exact (Bool.eq_false_iff.mpr hdead).symm

/-- Full service, where no unit has failed. -/
theorem bringupSelfTest_whole {s : State} {t : TestOutcome} (hrun : s.dev.state = .running) (htest : s.dev.tested = false)
    (hv : s.dev.map.version ≠ 0) (hred : s.dev.map.full = false) (hfail : t.failed = []) (hc : s.ctxs = []) (hl : s.launches = [])
    (ht : s.teams = []) : ∃ bits mccFeat coreFeat, (s.bringupSelfTest t).dev.map =
      { s.dev.map with version := s.dev.map.version + 1, changed := bits, full := true, aclk := 1050, bandLive := fullBands s.dev.map
                       islands := fullIslands s.dev.map, mccFeat := mccFeat, coreFeat := coreFeat } := by
  generalize hu : ({ s with dev := { s.dev with tested := true, coreLacks := t.coreLacks, mccLacks := t.mccLacks } } : State) = u
  generalize hm : ({ s.dev.map with full := true, aclk := 1050, bandLive := fullBands s.dev.map, islands := fullIslands s.dev.map } : SMap).withFeatures
    t.coreLacks t.mccLacks = m
  have hself : s.bringupSelfTest t = u.publishUnits m u.dev.links := by
    rw [State.bringupSelfTest, hrun, htest, hfail, ← hu, ← hm]
    rfl
  have hum : u.dev.map = s.dev.map := by rw [← hu]
  have hurun : u.dev.state ≠ .halted := by rw [← hu, hrun]; decide
  have hwhole : u.publishUnits m u.dev.links = u.publish m u.dev.links := by
    refine publishUnits_whole _ hurun (fun k hk hd => ⟨by rwa [hum], ?_⟩) fun n hn => ?_
    · rw [hum]
      rw [← hm] at hd
      have h0 := fullIslands_live s.dev.map (by omega : 688 + 2 * k < 704)
      have h1 := fullIslands_live s.dev.map (by omega : 689 + 2 * k < 704)
      simpa only [SMap.pairDead, SMap.withFeatures, h0, h1] using hd
    · rw [hum] at hn
      rw [← hm]
      exact hn
  obtain ⟨-, ⟨bits, hnew⟩, -⟩ := publish_idle (s := u) (new := m) u.dev.links hurun
    (by rw [hum, ← hm]; exact fun h => Bool.false_ne_true (hred.symm.trans (congrArg Prod.fst h).symm)) (by rw [← hu]; exact hc)
    (by rw [← hu]; exact hl) (by rw [← hu]; exact ht)
  rw [hself, hwhole, hnew, hum, ← hm]
  exact ⟨bits, _, _, by simp only [SMap.withFeatures]; rfl⟩

/-! ### The obligation -/

/-- Settles O54: the reset keeps the host's bytes; every stage goes on to its next, and the last and the self-test publish a version while nothing runs;
the shadow switch and the report are as their meanings give them. -/
theorem devicesComeUp : Obligations.DevicesComeUp := by
  unfold Obligations.DevicesComeUp
  refine ⟨fun s => ⟨_, rfl, rfl, fun w a => get_hostMemory w a⟩, fun s n sig t hs => ⟨?_, ?_, ?_, ?_, ?_⟩, ?_, fun s func on hserved => ?_, ?_⟩
  · exact congrArg Host.Outcome.next (bringupStage_fails hs sig t)
  · rintro (rfl | rfl)
    · exact congrArg Host.Outcome.next (bringupStage_next hs t (by decide) (by decide) nofun)
    · exact congrArg Host.Outcome.next (bringupStage_next hs t (by decide) (by decide) nofun)
  · rintro rfl htrained
    exact congrArg Host.Outcome.next (bringupStage_next hs t (by decide) (by decide) fun _ => htrained)
  · rintro rfl
    refine congrArg Host.Outcome.next ?_
    simp only [State.bringupStage, hs, Bool.not_true, Bool.or_self, Bool.false_eq_true, if_false, if_true, Bool.and_eq_true, decide_eq_true_eq,
      beq_iff_eq, and_assoc]
  · rintro rfl hmap hc hl ht hpairs
    obtain ⟨hstate, hversion, hterms, hlinks⟩ := publishFirst_eq hmap hc hl ht hpairs
    have hstage : s.bringupStage true false t = s.publishFirst t := by
      simp [State.bringupStage, hs]
    simp only [SMap.terms, Prod.mk.injEq] at hterms
    obtain ⟨hfull, haclk, hfclk⟩ := hterms
    refine ⟨_, congrArg Host.Outcome.next hstage, hstate, hversion, hfull, haclk, hfclk, fun l hmem => ?_⟩
    rw [hlinks]
    exact mem_firstLinks hmem
  · intro s t hrun htest hv hred hfail hc hl ht
    obtain ⟨bits, mccFeat, coreFeat, hmap⟩ := bringupSelfTest_whole hrun htest hv hred hfail hc hl ht
    refine ⟨_, rfl, ?_, ?_, ?_, fun cl b hcl hb => ?_⟩
    · rw [hmap]
    · rw [hmap]
    · rw [hmap]
    · rw [hmap]
      exact getLsbD_fullBands s.dev.map hcl hb
  · refine congrArg Host.Outcome.next ?_
    rw [hserved]
    cases s.dev.map.full <;> rfl
  · intro s func nonce hserved hlen
    refine congrArg Host.Outcome.next ?_
    simp only [hserved, hlen, decide_true, Bool.and_self, if_true]
    rfl

end Sys2Proof.Machine
end

section
/-!
PROOF. The tile group (O32): what tasks, planes, bands and tickets come to.
-/

namespace Sys2Proof.Machine

/-! ### Plans that make no access -/

/-- A plan that makes no access is carried out when its base state stands but for the strand, and the registers are as planned. -/
theorem Plan.Done.of_regs {p : Plan} {s t : State} {st st' : Strand} {e : Env} (hmade : p.made = []) (hdests : p.dests = []) (hfills : p.fills = false)
    (hflight : p.base.flight = s.flight) (hprods : p.base.prods = s.prods) (honly : OnlyStrand p.base t st') (hregs : p.Regs st st') :
    p.Done s st e t := by
  refine ⟨st', [], [], ?_, hregs, by rw [hmade]; rfl, fun k m a hm => ?_, fun _ => rfl, fun hne => absurd hdests hne⟩
  · have hbase : { p.base with flight := s.flight ++ [], prods := s.prods ++ [], l1 := if p.fills then t.l1 else p.base.l1 } = p.base := by
      rw [List.append_nil, List.append_nil, ← hflight, ← hprods, hfills]
      rfl
    rw [hbase]
    exact honly
  · rw [hmade] at hm
    cases hm

/-- A state that is `b` with a strand put in place and another number next, and what settles onto it. -/
theorem OnlyStrand.rebase {u b t : State} {y : Strand} (h : OnlyStrand u t y) {k : Nat} (hset : u.setStrand y = { b.setStrand y with freshId := k }) :
    OnlyStrand b t y := by
  have hcores : u.core = b.core := by
    have hcore := congrArg State.core hset
    exact hcore
  refine ⟨?_, fun n hn => (h.others n hn).trans (congrFun hcores n), hcores ▸ h.core⟩
  rw [h.same, hset]

section
variable {s : State} {st : Strand} {e : Env} {p : Plan}

/-- A plan whose instruction only goes on. -/
theorem done_past (h : Calm s st e p.form) {body : M Unit} (hb : body (jobOf s st e p.form) = .ok () (jobOf s st e p.form)) (hmade : p.made = [])
    (hdests : p.dests = []) (hfills : p.fills = false) (hbase : p.base = s) (hafter : p.after = st) (hsr : st.srAfter p.form = st.sr)
    (hw : ∀ d ∈ p.writes, st.mask p.form.pred = 0 ∧ d.1 = p.form.d) (hd : p.writes ≠ [] → p.form.enc.d = .v) :
    ∃ t, run p.form body s = .next t ∧ p.Done s st e t := by
  obtain ⟨t, ht, honly⟩ := run_past h.toQuiet hb
  refine ⟨t, ht, .of_regs hmade hdests hfills (by rw [hbase]) (by rw [hbase]) (by rw [hbase]; exact honly) ?_⟩
  refine ⟨by rw [hafter, hsr]; rfl, fun _ _ _ => ⟨rfl, rfl⟩, fun n hn => absurd (hdests ▸ hn) List.not_mem_nil, fun d hmem => ?_⟩
  obtain ⟨hm, hreg⟩ := hw d hmem
  have hplain : ∀ x ∈ [d], (st.reg x.1).plain = true := by
    intro x hx
    obtain rfl := List.mem_singleton.mp hx
    rw [hreg]
    exact h.plain _ (vregs_d (hd (List.ne_nil_of_mem hmem)))
  exact (writes_none hm hsr hplain).wrote d List.mem_cons_self

/-- A plan whose instruction writes v[D], in a state and a strand that its body has changed. -/
theorem done_write (h : Calm s st e p.form) {body : M Unit} {u : State} {x : Strand} {w : Word} (hd : p.form.enc.d = .v)
    (hb : body (jobOf s st e p.form) =
      writeV p.form.d (.u w) (st.mask p.form.pred) { jobOf s st e p.form with s := u, st := x })
    (hx : x = { p.after with sr := st.srAfter p.form }) (hafter : p.after = { st with bands := p.after.bands }) (hmade : p.made = [])
    (hdests : p.dests = []) (hfills : p.fills = false) (hw : p.writes = [(p.form.d, fun _ => w)]) (hflight : p.base.flight = s.flight)
    (hprods : p.base.prods = s.prods) (hctxs : u.ctxs = s.ctxs)
    (hput : ∀ y : Strand, y.id = st.id → u.setStrand y = { p.base.setStrand y with freshId := u.freshId }) :
    ∃ t, run p.form body s = .next t ∧ p.Done s st e t := by
  have hx : x = { st with bands := p.after.bands, sr := st.srAfter p.form } := by rw [hx, hafter]
  have hstill : (({ jobOf s st e p.form with s := u, st := x } : Job)).Still := by
    subst hx
    obtain ⟨hc, hf, hdead, hdet, hsh, hone⟩ := quiet_still h.toQuiet
    exact ⟨hc, hf, hdead, hdet, hsh, hone⟩
  have hreg : x.reg = st.reg := by subst hx; rfl
  have hlane : x.lane = st.lane := by subst hx; rfl
  have hplain : (x.reg p.form.d).plain = true := by rw [hreg]; exact h.plain _ (vregs_d hd)
  have hroom : x.slabIds.length < e.floor x := by
    have hr := h.room
    have : x.slabIds.length < e.floor x ↔ st.slabIds.length < e.floor st := by subst hx; rfl
    rw [this]
    omega
  obtain ⟨r, o, k, hwrite, hpl, h0, -, hl⟩ := writeV_plain hstill p.form.d (.u w) (st.mask p.form.pred) (d_lt _) hplain hroom
  refine ⟨_, (run_quiet h.toQuiet body).trans (by rw [hb, hwrite]), ?_⟩
  have honly := settle_coreOnly (s := s) (t := u) (st := st)
    (j := ({ jobOf s st e p.form with s := u, st := x } : Job).put { x.setReg p.form.d r with order := o } k) (.refl _ _) rfl rfl
    (by subst hx; exact h.live) (by subst hx; rfl) (fun c hc => (h.noCounters c (by rw [State.ctx?, hctxs] at hc; exact hc)).2)
  refine .of_regs hmade hdests hfills hflight hprods (honly.rebase (hput _ (by subst hx; rfl))) ?_
  obtain ⟨hfull, hpoison, hheld, -⟩ := (plain_iff _).mp hpl
  have hwritten : ({ ({ x.setReg p.form.d r with order := o } : Strand) with pc := x.pc + BitVec.ofNat 64 p.form.size } : Strand).reg p.form.d = r :=
    reg_setReg_same x p.form.d r (d_lt _)
  refine ⟨?_, fun n _ hn => ?_, fun n hn => absurd (hdests ▸ hn) List.not_mem_nil, fun d hmem => ?_⟩
  · rw [hafter]
    subst hx
    rfl
  · have hne : p.form.d ≠ n := fun heq => hn (by rw [hw, heq]; exact List.mem_singleton_self n)
    have hkeep : (x.setReg p.form.d r).reg n = x.reg n := reg_setReg_ne x _ n r hne
    exact ⟨hkeep.trans (congrFun hreg n), (lane_congr hkeep rfl).trans (congrFun hlane n)⟩
  · rw [hw] at hmem
    obtain rfl := List.mem_singleton.mp hmem
    refine ⟨(congrArg VReg.full hwritten).trans hfull, (congrArg VReg.poison hwritten).trans hpoison, (congrArg VReg.held hwritten).trans hheld,
      fun hm => hwritten.trans ((h0 hm).trans (congrFun hreg _)), fun i hi hlive => ?_⟩
    rw [← hlane]
    exact hl i hi (by subst hx; exact hlive)

end

/-! ### What the bodies of the group have in common -/

section
variable {s : State} {st : Strand} {e : Env} {f : Form}

/-- No task of the strand has ended in a fault (R404). -/
theorem deferredFault_none (hop : 0x4F < f.enc.op) (hok : (tasksOf s st).any taskFaulted = false) :
    deferredFault (jobOf s st e f) = .ok () (jobOf s st e f) := by
  have hcl : (jobOf s st e f).s.cluster = s.cluster := congrArg State.cluster (charged_free s st hop)
  have hnone : (s.cluster st.core).tasks.find? (fun k => k.strand == st.id && taskFaulted k) = none := by
    refine List.find?_eq_none.mpr fun k hk hbad => ?_
    obtain ⟨hmine, hfault⟩ := Bool.and_eq_true_iff.mp hbad
    have hmem : k ∈ tasksOf s st := List.mem_filter.mpr ⟨hk, by simpa using hmine⟩
    rw [List.any_eq_false] at hok
    exact hok k hmem hfault
  simp only [deferredFault, m_bind, m_get, m_ite]
  rw [hcl, show (jobOf s st e f).st = st from rfl]
  split
  · generalize hfind : (s.cluster st.core).tasks.find? _ = r
    obtain rfl : r = none := hfind.symm.trans hnone
    rfl
  · rfl

/-- The strand has no access under way, and its ring step waits for none (R369). -/
theorem ringAwait_free {j : Job} (hc : j.st.cont = none) (hfree : (j.s.flight.all fun a => a.strand != j.st.id) = true) (release : Bool) :
    ringAwait release j = .ok () j := by
  have hnone : ∀ q : Access → Bool, (j.s.flight.any fun b => (b.strand == j.st.id || false) && q b) = false := by
    intro q
    refine List.any_eq_false.mpr fun b hb h => ?_
    have hother := List.all_eq_true.mp hfree b hb
    simp only [Bool.or_false, Bool.and_eq_true, beq_iff_eq] at h
    rw [h.1] at hother
    simp at hother
  simp only [ringAwait, awaitOrder, mustWait, m_bind, m_get, m_pure, hc, hnone]
  rfl

/-- B is uniform. -/
theorem needUniformB_ok (h : Calm s st e f) (hb : f.enc.b = .vs) (hu : (st.srcs f).ub = true) :
    needUniformB (jobOf s st e f) = .ok () (jobOf s st e f) ∧ uniformB (jobOf s st e f) = .ok ((st.srcs f).b 0) (jobOf s st e f) := by
  have hreg : f.x.immb = false → st.uniform f.b = true := fun hi => by simpa [Strand.srcs, hi] using hu
  refine ⟨?_, uniformB_calm h hb hreg⟩
  cases hi : f.x.immb with
  | true => exact needUniformB_immediate hi
  | false => exact (needUniformB_register hi).trans (needUniform_ok (quiet_still h.toQuiet) (hreg hi))

/-- The ring that serves a task fails no check (R403). -/
theorem ringBad_none {gi q n : Nat} {drain : Bool} (h : ringServes s e gi q n drain = true) : ringBad s e { gi := gi, q := q } drain n = none := by
  simp only [ringServes, Bool.and_eq_true, decide_eq_true_eq] at h
  obtain ⟨hteam, h⟩ := h
  have hsize : ¬ e.teamSize ≤ gi := Nat.not_le.mpr hteam
  simp only [ringBad, if_neg hsize]
  cases hg : s.teamGroup? e gi with
  | none => rw [hg] at h; cases h
  | some g =>
    rw [hg] at h
    simp only [Bool.and_eq_true, decide_eq_true_eq] at h
    obtain ⟨⟨hdef, hcls⟩, hfit⟩ := h
    simp only [hdef, hcls, Bool.not_true, Bool.false_eq_true, if_false, bne_self_eq_false, Nat.not_lt.mpr hfit]

theorem advanceSr_still (h : Quiet s st e f) : st.advanceSr = { st with sr := srAdvance st.sr } := by
  rw [Strand.advanceSr, noteWrite_still h.noCont h.noForks h.noDetector.2]

/-- The state that a task draws from: MDRAIN with RND 5 advances it (R73, R413). -/
def taskSr (st : Strand) (f : Form) (kind : TaskKind) : DWord := if kind = .mdrain then st.srAfter f else st.sr

theorem taskSr_eq (st : Strand) (f : Form) (kind : TaskKind) (hm : st.mask f.pred ≠ 0) :
    taskSr st f kind = if (kind = .mdrain && f.x.rnd = .sr : Bool) then srAdvance st.sr else st.sr := by
  simp only [taskSr, Strand.srAfter, Bool.and_eq_true, decide_eq_true_eq, ne_eq, hm, not_false_eq_true, and_true]
  by_cases hk : kind = .mdrain <;> simp [hk]

/-! ### WLD, MMA and MDRAIN (R399, R405) -/

/-- The task that the plan enters. -/
def plannedTask (s : State) (st : Strand) (f : Form) (kind : TaskKind) (lit : DWord) (entry : Nat) : Task :=
  { entry := entry, seq := s.freshId, ticket := (s.cluster st.core).taskCtr * 64 + entry, strand := st.id, kind := kind, x := f.x, lit := lit
    predA := (st.lane f.a 0).toNat, predB := ((st.srcs f).b 0).toNat, bands := st.bandSet, sr := taskSr st f kind, addr := st.pc }

/-- The state in which the task has been entered. -/
def State.entered (s : State) (st : Strand) (t : Task) : State :=
  s.setCluster { s.cluster st.core with taskCtr := nextSeq (s.cluster st.core).taskCtr, tasks := (s.cluster st.core).tasks ++ [t] }

theorem enterTask_enters (h : Calm s st e f) (hop : 0x4F < f.enc.op) (ha : f.enc.a = .vs) (hb : f.enc.b = .vs) {kind : TaskKind} {lit : DWord}
    {entry : Nat} (hfault : (tasksOf s st).any taskFaulted = false) (hua : st.uniform f.a = true) (hub : (st.srcs f).ub = true)
    (hm : st.mask f.pred ≠ 0) (hentry : (s.cluster st.core).freeEntry = some entry) (hfree : (s.flight.all fun a => a.strand != st.id) = true)
    (hring : ringBad s e (TaskDesc.of kind f.x lit).sel (TaskDesc.of kind f.x lit).drain (slotBytes kind f.x lit st.bandSet) = none) :
    enterTask kind lit (jobOf s st e f) = writeV f.d (.u (BitVec.ofNat 32 ((s.cluster st.core).taskCtr * 64 + entry))) (st.mask f.pred)
      { jobOf s st e f with
        s := { s.entered st (plannedTask s st f kind lit entry) with freshId := s.freshId + 1 }
        st := { st with sr := taskSr st f kind } } := by
  have hs : (jobOf s st e f).s = s := charged_free s st hop
  have hst : (jobOf s st e f).st = st := rfl
  have he : (jobOf s st e f).e = e := rfl
  have hf : (jobOf s st e f).f = f := rfl
  obtain ⟨hneedB, hreadB⟩ := needUniformB_ok h hb hub
  have hneedA : needUniform f.a (jobOf s st e f) = .ok () (jobOf s st e f) := needUniform_ok (quiet_still h.toQuiet) hua
  have hreadA : readU f.a (jobOf s st e f) = .ok (st.lane f.a 0) (jobOf s st e f) :=
    readU_uniform (quiet_still h.toQuiet) (h.plain _ (vregs_a ha)) hua
  have hawait : ringAwait false (jobOf s st e f) = .ok () (jobOf s st e f) :=
    ringAwait_free h.noCont (by rw [hs]; exact hfree) false
  simp only [enterTask, m_bind, deferredFault_none hop hfault, m_form, readyA_calm h ha, readyB_calm h hb, hf, hneedA, hneedB,
    effMask_quiet h.toQuiet, m_ite, if_neg hm, hreadA, hreadB, hawait, m_get, hs, hst, he, hring, hentry]
  have hsr := taskSr_eq st f kind hm
  split
  · next hadv =>
    rw [if_pos hadv] at hsr
    simp only [m_upd, m_updS, hs, hst, advanceSr_still h.toQuiet, plannedTask, hsr]
    rfl
  · next hkeep =>
    rw [if_neg hkeep] at hsr
    simp only [m_updS, hs, hst, plannedTask, hsr]
    rfl

theorem run_task (h : Calm s st e f) (hop : 0x4F < f.enc.op) (ha : f.enc.a = .vs) (hb : f.enc.b = .vs) (hd : f.enc.d = .v) {kind : TaskKind}
    {lit : DWord} {sel : Nat} {formats : DWord} (hsel : (TaskDesc.of kind f.x lit).sel = { gi := sel / 16 % 8, q := sel % 16 })
    (hdrain : (TaskDesc.of kind f.x lit).drain = decide (kind = .mdrain)) (hsr : kind ≠ .mdrain → st.srAfter f = st.sr)
    (hok : (planTask s st e f kind lit sel formats).ok = true) :
    ∃ t, run f (enterTask kind lit) s = .next t ∧ (planTask s st e f kind lit sel formats).Done s st e t := by
  simp only [planTask, Bool.and_eq_true, Bool.or_eq_true, Bool.not_eq_true', decide_eq_true_eq] at hok
  obtain ⟨⟨⟨⟨⟨hfault, hua⟩, hub⟩, -⟩, -⟩, hrest⟩ := hok
  by_cases hm : st.mask f.pred = 0
  · have hbody : enterTask kind lit (jobOf s st e f) = .ok () (jobOf s st e f) := by
      have hf : (jobOf s st e f).f = f := rfl
      obtain ⟨hneedB, -⟩ := needUniformB_ok h hb hub
      have hneedA : needUniform f.a (jobOf s st e f) = .ok () (jobOf s st e f) := needUniform_ok (quiet_still h.toQuiet) hua
      simp only [enterTask, m_bind, deferredFault_none hop hfault, m_form, readyA_calm h ha, readyB_calm h hb, hf, hneedA, hneedB,
        effMask_quiet h.toQuiet, m_ite, if_pos hm, m_pure]
    refine done_past (p := planTask s st e f kind lit sel formats) h hbody rfl rfl rfl (if_pos hm) rfl ?_ (fun d hmem => ⟨hm, ?_⟩) fun _ => hd
    · simp [Strand.srAfter, show (planTask s st e f kind lit sel formats).form = f from rfl, hm]
    · obtain rfl := List.mem_singleton.mp hmem
      rfl
  · obtain ⟨⟨hany, hfree⟩, hring⟩ := hrest.resolve_left hm
    obtain ⟨entry, hentry⟩ : ∃ entry, (s.cluster st.core).freeEntry = some entry := by
      refine Option.isSome_iff_exists.mp (List.find?_isSome.mpr ?_)
      obtain ⟨n, hn, hnot⟩ := List.any_eq_true.mp hany
      exact ⟨n, hn, hnot⟩
    have hbad : ringBad s e (TaskDesc.of kind f.x lit).sel (TaskDesc.of kind f.x lit).drain (slotBytes kind f.x lit st.bandSet) = none := by
      rw [hsel, hdrain]
      exact ringBad_none hring
    have hgetD : ((List.range 64).find? fun n => !((s.cluster st.core).tasks.any fun t => t.entry == n)).getD 0 = entry := by
      rw [show (List.range 64).find? (fun n => !((s.cluster st.core).tasks.any fun t => t.entry == n)) = some entry from hentry]
      rfl
    have hbase : (planTask s st e f kind lit sel formats).base = s.entered st (plannedTask s st f kind lit entry) := by
      simp only [planTask, hgetD]
      exact if_neg hm
    refine done_write (p := planTask s st e f kind lit sel formats) h hd
      (enterTask_enters h hop ha hb hfault hua hub hm hentry hfree hbad) ?_ rfl rfl rfl rfl ?_ ?_ ?_ ?_ ?_
    · by_cases hk : kind = .mdrain
      · rw [taskSr, if_pos hk]
        rfl
      · rw [taskSr, if_neg hk, ← hsr hk]
        rfl
    · simp only [planTask, hgetD]
    · rw [hbase, State.entered, setCluster_flight]
    · rw [hbase, State.entered, setCluster_prods]
    · exact setCluster_ctxs _ _
    · intro y _
      rw [hbase]
      rfl

/-! ### WSWAP (R409) -/

theorem openTask_jobOf (hop : 0x4F < f.enc.op) (p : Task → Bool) : openTask p (jobOf s st e f) =
    .ok ((s.cluster st.core).tasks.any fun t => t.strand == st.id && t.isOpen && p t) (jobOf s st e f) := by
  have hcl : (jobOf s st e f).s.cluster = s.cluster := congrArg State.cluster (charged_free s st hop)
  simp only [openTask, m_bind, m_get, m_pure, hcl]
  rfl

/-- Where no task of the strand is of a kind, none that is open is. -/
theorem openTask_none (hop : 0x4F < f.enc.op) {p q : Task → Bool} (hpq : ∀ t, p t = true → q t = true) (hnone : (tasksOf s st).any q = false) :
    openTask p (jobOf s st e f) = .ok false (jobOf s st e f) := by
  rw [openTask_jobOf hop]
  congr 1
  refine List.any_eq_false.mpr fun t ht hbad => ?_
  simp only [Bool.and_eq_true, beq_iff_eq] at hbad
  obtain ⟨⟨hmine, -⟩, hp⟩ := hbad
  exact List.any_eq_false.mp hnone t (List.mem_filter.mpr ⟨ht, by simpa using hmine⟩) (hpq t hp)

/-- The bands with active and shadow planes exchanged. -/
def Strand.swapped (st : Strand) : Strand :=
  { st with bands := st.bands.map fun b => { b with active := b.shadow, shadow := { b.active with valid := false } } }

theorem run_wswap (h : Calm s st e f) (he : f.enc = Enc.wswap') (hok : (planWswap s st f).ok = true) :
    ∃ t, run f wswapBody s = .next t ∧ (planWswap s st f).Done s st e t := by
  have hop : 0x4F < f.enc.op := by rw [he]; decide
  have hsr : st.srAfter f = st.sr := srAfter_keep h.toQuiet (by rw [he]; rfl)
  simp only [planWswap, Bool.and_eq_true, Bool.or_eq_true, Bool.not_eq_true', decide_eq_true_eq] at hok
  obtain ⟨hfault, hrest⟩ := hok
  by_cases hm : st.mask f.pred = 0
  · have hbody : wswapBody (jobOf s st e f) = .ok () (jobOf s st e f) := by
      simp only [wswapBody, m_bind, deferredFault_none hop hfault, effMask_quiet h.toQuiet, m_ite, if_pos hm, m_pure]
    exact done_past (p := planWswap s st f) h hbody rfl rfl rfl rfl (if_pos hm) hsr nofun fun hne => absurd rfl hne
  · obtain ⟨hkinds, hvalid⟩ := hrest.resolve_left hm
    have hbusy : openTask (fun t => t.kind == .wld || t.kind == .mma) (jobOf s st e f) = .ok false (jobOf s st e f) :=
      openTask_none hop (q := fun t => t.kind != .mdrain) (fun t ht => by cases hk : t.kind <;> simp_all) hkinds
    have hfind : st.bandSet.find? (fun l => st.bands.any fun b => b.logical == l && !b.shadow.valid) = none := by
      refine List.find?_eq_none.mpr fun l _ hbad => ?_
      obtain ⟨b, hb, hinv⟩ := List.any_eq_true.mp hbad
      have hgood := List.all_eq_true.mp hvalid b hb
      simp only [Bool.and_eq_true, Bool.not_eq_true'] at hinv hgood
      rw [hgood.1] at hinv
      exact absurd hinv.2 (by decide)
    have hst : (jobOf s st e f).st = st := rfl
    have hbody : wswapBody (jobOf s st e f) = .ok () ((jobOf s st e f).put st.swapped (jobOf s st e f).s.freshId) := by
      simp only [wswapBody, m_bind, deferredFault_none hop hfault, effMask_quiet h.toQuiet, m_ite, if_neg hm, hbusy, Bool.false_eq_true, if_false,
        m_get, hst, hfind, m_upd, m_pure]
      rfl
    obtain ⟨t, ht, honly⟩ := run_done h.toQuiet st.swapped _ hbody h.live rfl
    refine ⟨t, ht, .of_regs rfl rfl rfl rfl rfl honly ⟨?_, fun _ _ _ => ⟨rfl, rfl⟩, nofun, nofun⟩⟩
    rw [show (planWswap s st f).after = st.swapped from if_neg hm, show st.srAfter (planWswap s st f).form = st.sr from hsr]
    rfl

/-! ### TWAIT and TQRY (R416, R417) -/

theorem run_twait (h : Calm s st e f) (he : f.enc = Enc.twait') (hok : (planTwait s st f).ok = true) :
    ∃ t, run f twaitBody s = .next t ∧ (planTwait s st f).Done s st e t := by
  have hop : 0x4F < f.enc.op := by rw [he]; decide
  have ha : f.enc.a = .vs := by rw [he]; rfl
  have hsr : st.srAfter f = st.sr := srAfter_keep h.toQuiet (by rw [he]; rfl)
  have hcl : (jobOf s st e f).s.cluster = s.cluster := congrArg State.cluster (charged_free s st hop)
  have hf : (jobOf s st e f).f = f := rfl
  have hst : (jobOf s st e f).st = st := rfl
  have hwas : ((jobOf s st e f).was == .blocked .twait) = false := rfl
  simp only [planTwait, Bool.and_eq_true, Bool.or_eq_true, Bool.not_eq_true', decide_eq_true_eq] at hok
  obtain ⟨⟨hfault, hua⟩, hrest⟩ := hok
  have hneedA : needUniform f.a (jobOf s st e f) = .ok () (jobOf s st e f) := needUniform_ok (quiet_still h.toQuiet) hua
  refine done_past (p := planTwait s st f) h ?_ rfl rfl rfl rfl rfl hsr nofun fun hne => absurd rfl hne
  by_cases hm : st.mask f.pred = 0
  · simp only [twaitBody, m_bind, m_form, m_get, hwas, Bool.not_false, m_ite, if_true, deferredFault_none hop hfault, readyA_calm h ha, hf, hneedA,
      effMask_quiet h.toQuiet, show (planTwait s st f).form = f from rfl, if_pos hm, m_pure]
  · have hreadA : readU f.a (jobOf s st e f) = .ok (st.lane f.a 0) (jobOf s st e f) :=
      readU_uniform (quiet_still h.toQuiet) (h.plain _ (vregs_a ha)) hua
    have hgo : (s.cluster st.core).waitEnded st (st.lane f.a 0).toNat = true ∧
        ((s.cluster st.core).satisfied (st.lane f.a 0).toNat || decide (st.lane f.a 0 = 0)) = true := by
      have hr := hrest.resolve_left hm
      by_cases hz : st.lane f.a 0 = 0
      · rw [if_pos (show (st.srcs f).a 0 = 0 from hz)] at hr
        refine ⟨?_, by simp [hz]⟩
        rw [hz, Cluster.waitEnded, if_pos (show (0 : Word).toNat = 0 from rfl), Bool.not_eq_true']
        refine List.any_eq_false.mpr fun t ht hbad => ?_
        have hmem : t ∈ tasksOf s st := List.mem_filter.mpr ⟨ht, by simpa using (Bool.and_eq_true_iff.mp hbad).1⟩
        rw [List.isEmpty_iff.mp hr] at hmem
        cases hmem
      · rw [if_neg (show (st.srcs f).a 0 ≠ 0 from hz), Bool.not_eq_true'] at hr
        have hnz : (st.lane f.a 0).toNat ≠ 0 := fun h0 => hz (BitVec.eq_of_toNat_eq h0)
        have hsat : (s.cluster st.core).satisfied (st.lane f.a 0).toNat = true := by
          rw [Cluster.satisfied, Bool.not_eq_true']
          exact hr
        refine ⟨?_, by rw [hsat]; rfl⟩
        rw [Cluster.waitEnded, if_neg hnz, Bool.not_eq_true']
        exact List.any_eq_false.mpr fun t ht hbad => List.any_eq_false.mp hr t ht (Bool.and_eq_true_iff.mp hbad).1
    simp only [twaitBody, m_bind, m_form, m_get, hwas, Bool.not_false, m_ite, if_true, deferredFault_none hop hfault, readyA_calm h ha, hf, hneedA,
      effMask_quiet h.toQuiet, show (planTwait s st f).form = f from rfl, if_neg hm, hreadA, hcl, hst, hgo.1, hgo.2, Bool.not_true,
      Bool.false_eq_true, if_false, m_pure]

end

/-- A list loses no element for being in it before when it has no duplicates; none can gain length. -/
theorem length_eraseDups_le (l : List Nat) : l.eraseDups.length ≤ l.length := by
  induction hn : l.length using Nat.strong_induction_on generalizing l with
  | _ n ih =>
    cases l with
    | nil => exact Nat.zero_le _
    | cons a as =>
      have hfilter : (as.filter fun b => !b == a).length ≤ as.length := List.length_filter_le _ _
      have hrest := ih _ (by rw [← hn]; exact Nat.lt_succ_of_le hfilter) (as.filter fun b => !b == a) rfl
      rw [List.eraseDups_cons, List.length_cons, ← hn, List.length_cons]
      omega

theorem nodup_of_length_eraseDups {l : List Nat} (h : l.eraseDups.length = l.length) : l.Nodup := by
  induction l with
  | nil => exact List.nodup_nil
  | cons a as ih =>
    rw [List.eraseDups_cons, List.length_cons, List.length_cons, Nat.add_right_cancel_iff] at h
    have hle := length_eraseDups_le (as.filter fun b => !b == a)
    have hfilter : (as.filter fun b => !b == a).length = as.length := Nat.le_antisymm (List.length_filter_le _ _) (h ▸ hle)
    have hall := List.length_filter_eq_length_iff.mp hfilter
    rw [List.filter_eq_self.mpr hall] at h
    exact List.nodup_cons.mpr ⟨fun hmem => by simpa using hall a hmem, ih h⟩

/-- The bands that a predicate holds of, as bits: band by band, or logical band by logical band. -/
theorem bandBits_eq (p : Band → Bool) {bs : List Band} (hnodup : (bs.map Band.logical).Nodup) (hlt : ∀ b ∈ bs, b.logical < 4) :
    bs.foldl (fun (acc : Nat) b => if p b then acc + 2 ^ b.logical else acc) 0 =
      ((List.range 4).map fun l => if bs.any fun b => b.logical == l && p b then 2 ^ l else 0).sum := by
  have hfold : ∀ (bs : List Band) (acc : Nat), bs.foldl (fun (acc : Nat) b => if p b then acc + 2 ^ b.logical else acc) acc =
      acc + (bs.map fun b => if p b then 2 ^ b.logical else 0).sum := by
    intro bs
    induction bs with
    | nil => exact fun _ => rfl
    | cons b bs ih =>
      intro acc
      rw [List.foldl_cons, ih, List.map_cons, List.sum_cons]
      split <;> omega
  rw [hfold, Nat.zero_add]
  induction bs with
  | nil => rfl
  | cons b bs ih =>
    obtain ⟨hnot, hrest⟩ := List.nodup_cons.mp hnodup
    have hothers : (bs.any fun x => x.logical == b.logical && p x) = false := by
      refine List.any_eq_false.mpr fun x hx hbad => hnot ?_
      rw [← beq_iff_eq.mp (Bool.and_eq_true_iff.mp hbad).1]
      exact List.mem_map_of_mem hx
    have hb := hlt b List.mem_cons_self
    rw [List.map_cons, List.sum_cons, ih hrest fun x hx => hlt x (List.mem_cons_of_mem _ hx)]
    simp only [List.any_cons, List.range, List.range.loop, List.map_cons, List.map_nil, List.sum_cons, List.sum_nil]
    -- the new band's bit is its own alone
    have hcases : b.logical = 0 ∨ b.logical = 1 ∨ b.logical = 2 ∨ b.logical = 3 := by omega
    by_cases hp : p b = true
    · rcases hcases with hn | hn | hn | hn <;>
      · rw [hn] at hothers
        simp [hn, hp, hothers] <;> omega
    · simp [hp]

/-! ### TQRY (R417) -/

section
variable {s : State} {st : Strand} {e : Env} {f : Form}

theorem tableWord_eq (c : Cluster) (st : Strand) (hnodup : (st.bands.map Band.logical).Nodup) (hlt : ∀ b ∈ st.bands, b.logical < 4) :
    tableWord c st = BitVec.ofNat 32 (
      let set := fun (p : Band → Bool) => ((List.range 4).map fun l => if st.bands.any fun b => b.logical == l && p b then 2 ^ l else 0).sum
      set (fun _ => true) + 2 ^ 4 * set (fun b => b.active.valid) + 2 ^ 8 * set (fun b => b.shadow.valid) +
        2 ^ 16 * (c.tasks.filter fun t => t.strand = st.id).length + 2 ^ 24 * (64 - c.tasks.length)) := by
  have hone := bandBits_eq (fun _ => true) hnodup hlt
  simp only [tableWord, bandBits_eq _ hnodup hlt] at hone ⊢
  rw [hone]
  rfl

theorem ticketState_eq (s : State) (st : Strand) (n : Nat) : (s.cluster st.core).ticketState n = ticketCode s st n := by
  rw [Cluster.ticketState, ticketCode]
  cases (s.cluster st.core).tasks.find? fun t => t.ticket == n <;> rfl

theorem vregs_tqryA (ha : f.enc.a = .tqryA) (hx : f.x.x1 = false) : f.a ∈ f.vregs := by
  simp [Form.vregs, ha, hx, useVregs, Form.a]

/-- The tile group draws on no burst: its job starts in the state as it is. -/
theorem jobOf_put (hop : 0x4F < f.enc.op) : jobOf s st e f = { jobOf s st e f with s := s, st := st } :=
  congrArg (fun u => ({ jobOf s st e f with s := u } : Job)) (charged_free s st hop)

/-- TQRY writes its word, unless M is empty. -/
theorem tqryBody_writes (h : Calm s st e f) (hop : 0x4F < f.enc.op) (ha : f.enc.a = .tqryA) (hfault : (tasksOf s st).any taskFaulted = false)
    (hua : f.x.x1 = true ∨ st.uniform f.a = true) : tqryBody (jobOf s st e f) = if st.mask f.pred = 0 then .ok () (jobOf s st e f) else
      writeV f.d (.u (if f.x.x1 then tableWord (s.cluster st.core) st else BitVec.ofNat 32 (ticketCode s st (st.lane f.a 0).toNat)))
        (st.mask f.pred) (jobOf s st e f) := by
  have hcl : (jobOf s st e f).s.cluster = s.cluster := congrArg State.cluster (charged_free s st hop)
  have hst : (jobOf s st e f).st = st := rfl
  have hf : (jobOf s st e f).f = f := rfl
  cases hx : f.x.x1 with
  | true =>
    simp only [tqryBody, m_bind, deferredFault_none hop hfault, m_form, hf, hx, if_true, m_pure, effMask_quiet h.toQuiet, m_ite, m_get, hcl, hst]
  | false =>
    have hready : readyA (jobOf s st e f) = .ok () (jobOf s st e f) := by
      simp only [readyA, m_bind, m_form]
      exact ready_full _ _ ((plain_iff _).mp (h.plain _ (vregs_tqryA ha hx))).1
    have huni : (jobOf s st e f).st.uniform f.a = true := hua.resolve_left (by simp [hx])
    simp only [tqryBody, m_bind, deferredFault_none hop hfault, m_form, hf, hx, Bool.false_eq_true, if_false, hready,
      needUniform_ok (quiet_still h.toQuiet) huni, effMask_quiet h.toQuiet, m_ite, m_pure, m_get,
      readU_uniform (quiet_still h.toQuiet) (h.plain _ (vregs_tqryA ha hx)) huni, hcl, hst, ← ticketState_eq]

theorem run_tqry (h : Calm s st e f) (he : f.enc = Enc.tqry') (hok : (planTqry s st f).ok = true) :
    ∃ t, run f tqryBody s = .next t ∧ (planTqry s st f).Done s st e t := by
  have hop : 0x4F < f.enc.op := by rw [he]; decide
  have hd : f.enc.d = .v := by rw [he]; rfl
  have hsr : st.srAfter f = st.sr := srAfter_keep h.toQuiet (by rw [he]; rfl)
  simp only [planTqry, Bool.and_eq_true, Bool.or_eq_true, Bool.not_eq_true', decide_eq_true_eq] at hok
  obtain ⟨⟨⟨⟨hfault, hua⟩, -⟩, hdups⟩, hlt⟩ := hok
  have hnodup : (st.bands.map Band.logical).Nodup := nodup_of_length_eraseDups (by rw [hdups, List.length_map])
  have hlt : ∀ b ∈ st.bands, b.logical < 4 := fun b hb => by simpa using List.all_eq_true.mp hlt b hb
  have hbody := tqryBody_writes h hop (by rw [he]; rfl) hfault hua
  rw [tableWord_eq _ _ hnodup hlt, ← apply_ite (BitVec.ofNat 32)] at hbody
  by_cases hm : st.mask f.pred = 0
  · refine done_past (p := planTqry s st f) h (hbody.trans (if_pos hm)) rfl rfl rfl rfl rfl hsr (fun d hmem => ⟨hm, ?_⟩) fun _ => hd
    obtain rfl := List.mem_singleton.mp hmem
    rfl
  · refine done_write (p := planTqry s st f) h hd (u := s) (x := st) (hbody.trans ((if_neg hm).trans ?_))
      (by rw [show (planTqry s st f).form = f from rfl, hsr]; rfl) rfl rfl rfl rfl rfl rfl rfl rfl fun y _ => rfl
    exact congrArg (writeV f.d _ _) (jobOf_put hop)

end

/-! ### ASHAPE (R415) -/

section
variable {s : State} {st : Strand} {e : Env} {f : Form}

theorem setCluster_setCluster (s : State) (x y : Cluster) (h : x.n = y.n) : (s.setCluster x).setCluster y = s.setCluster y := by
  have hmap : ∀ l : List Cluster, (l.map fun z => if z.n == x.n then x else z).map (fun z => if z.n == y.n then y else z) =
      l.map fun z => if z.n == y.n then y else z := by
    intro l
    rw [List.map_map]
    refine List.map_congr_left fun z _ => ?_
    by_cases hz : z.n = y.n <;> simp [hz, h]
  by_cases hany : (s.clusters.any fun z => z.n == y.n) = true
  · have hx : (s.clusters.any fun z => z.n == x.n) = true := h ▸ hany
    have hagain : ((s.clusters.map fun z => if z.n == x.n then x else z).any fun z => z.n == y.n) = true := by
      obtain ⟨z, hz, hzn⟩ := List.any_eq_true.mp hany
      exact List.any_eq_true.mpr ⟨_, List.mem_map_of_mem hz, by rw [h, if_pos hzn, h]; exact beq_self_eq_true _⟩
    simp only [State.setCluster, hx, hany, hagain, if_true, hmap]
  · have hx : ¬ (s.clusters.any fun z => z.n == x.n) = true := h ▸ hany
    have hagain : ((s.clusters ++ [x]).any fun z => z.n == y.n) = true := by simp [h]
    have hmiss : (s.clusters.map fun z => if z.n == y.n then y else z) = s.clusters :=
      List.map_congr_left (g := id) (fun z hz => if_neg fun hzn => hany (List.any_eq_true.mpr ⟨z, hz, hzn⟩)) |>.trans (List.map_id _)
    have hput : s.setCluster x = { s with clusters := s.clusters ++ [x] } := if_neg hx
    have hput' : s.setCluster y = { s with clusters := s.clusters ++ [y] } := if_neg hany
    rw [hput, hput', State.setCluster, if_pos hagain]
    simp only [List.map_append, List.map_cons, List.map_nil, h, beq_self_eq_true, if_true, hmiss]

theorem liveBands_congr {s t : State} (h : t.dev = s.dev) (cl : Nat) : t.liveBands cl = s.liveBands cl := by
  simp only [State.liveBands, State.pointPending, State.heat, h]

/-- The bands of an MCC that are bound, as ASHAPE binds them. -/
def boundBands (s : State) (tile : Nat) (new : List (Nat × Nat)) : List PBand :=
  new.map fun p => { n := p.2, owner := tile, powered := false, since := s.now }

/-- A granted band as the strand holds it. -/
def heldBands (new : List (Nat × Nat)) : List Band := new.map fun p => { logical := p.1, physical := p.2 }

/-- The bands that are live and that no list of bound bands has. -/
def unboundBands (s : State) (cl : Nat) (bound : List PBand) : List Nat := (s.liveBands cl).filter fun b => !(bound.any fun p => p.n == b)

/-- A strand that is put in place, and then changed there. -/
theorem setStrand_mapped (u : State) (x : Strand) (g : Strand → Strand) (hid : (g x).id = x.id := by rfl) :
    { u.setStrand x with strands := (u.setStrand x).strands.map fun z => if z.id == x.id then g z else z } = u.setStrand (g x) := by
  simp only [State.setStrand, List.map_map, hid]
  congr 1
  refine List.map_congr_left fun z _ => ?_
  by_cases hz : z.id = x.id <;> simp [hz]

/-- One band granted. -/
theorem grantBand_put (s : State) (x : Strand) {c : Cluster} {cl : Nat} (hc : c.n = cl) (l : Nat) :
    ((s.setCluster c).setStrand x).grantBand cl x.id l { logical := l, physical := 0 } =
      let new := [(l, bindBand (unboundBands s cl c.pbands) l)]
      (s.setCluster { c with pbands := c.pbands ++ boundBands s x.id new }).setStrand { x with bands := x.bands ++ heldBands new } := by
  have hcluster : ((s.setCluster c).setStrand x).cluster cl = c := (cluster_setCluster c cl).trans (if_pos hc.symm)
  have hfree : ((s.setCluster c).setStrand x).freeBands cl = unboundBands s cl c.pbands := by
    rw [State.freeBands, hcluster, unboundBands, liveBands_congr (s := s) ((setStrand_dev _ x).trans (setCluster_dev s c))]
  simp only [State.grantBand, hfree, hcluster]
  rw [setStrand_setCluster, setCluster_setCluster (h := by exact rfl), setStrand_now, setCluster_now, ← bindBand]
  exact setStrand_mapped _ x fun z => { z with bands := z.bands ++ [{ logical := l, physical := bindBand (unboundBands s cl c.pbands) l }] }

theorem unboundBands_append (s : State) (cl : Nat) (bound : List PBand) (p : PBand) :
    unboundBands s cl (bound ++ [p]) = (unboundBands s cl bound).filter (· != p.n) := by
  simp only [unboundBands, List.filter_filter]
  refine List.filter_congr fun b _ => ?_
  rw [List.any_append, List.any_cons, List.any_nil, Bool.or_false, Bool.not_or, Bool.and_comm, bne, Bool.beq_comm]

/-- Bands granted in order: the cluster and the strand have them all. -/
theorem foldl_grantBand (s : State) (x : Strand) {c : Cluster} {cl : Nat} (hc : c.n = cl) (adds : List Nat) :
    adds.foldl (fun t l => t.grantBand cl x.id l { logical := l, physical := 0 }) ((s.setCluster c).setStrand x) =
      let new := grants (unboundBands s cl c.pbands) adds
      (s.setCluster { c with pbands := c.pbands ++ boundBands s x.id new }).setStrand { x with bands := x.bands ++ heldBands new } := by
  induction adds generalizing c x with
  | nil => simp [grants, boundBands, heldBands]
  | cons l ls ih =>
    have hrest := ih { x with bands := x.bands ++ heldBands [(l, bindBand (unboundBands s cl c.pbands) l)] }
      (c := { c with pbands := c.pbands ++ boundBands s x.id [(l, bindBand (unboundBands s cl c.pbands) l)] }) hc
    rw [List.foldl_cons, grantBand_put s x hc l]
    refine hrest.trans ?_
    simp only [boundBands, heldBands, List.map_cons, List.map_nil, unboundBands_append, grants, List.append_assoc, List.cons_append, List.nil_append]

/-- ASHAPE's change of the bands, of a strand that is put in place. -/
theorem reshape_setStrand (s : State) (x : Strand) (cl : Nat) (mask : List Nat) (hfound : (s.strand? x.id).isSome) :
    (s.setStrand x).reshape cl x.id mask =
      let kept := (s.cluster cl).pbands.filter fun p =>
        !(p.owner == x.id && (x.bands.filter fun b => !mask.contains b.logical).any fun b => b.physical == p.n)
      let new := grants (unboundBands s cl kept) (mask.filter fun l => !x.bandSet.contains l)
      (s.setCluster { s.cluster cl with pbands := kept ++ boundBands s x.id new }).setStrand
        { x with bands := (x.bands.filter fun b => mask.contains b.logical) ++ heldBands new } := by
  simp only [State.reshape, strand_setStrand s x hfound]
  rw [setStrand_setCluster, setStrand_setStrand (h := by exact rfl)]
  exact foldl_grantBand s { x with bands := x.bands.filter fun b => mask.contains b.logical }
    (c := { s.cluster cl with pbands := (s.cluster cl).pbands.filter fun p =>
      !(p.owner == x.id && (x.bands.filter fun b => !mask.contains b.logical).any fun b => b.physical == p.n) }) (cluster_n cl) _

theorem bandsOf_eq (w : Word) : bandsOf w.toNat = (List.range 4).filter fun l => w.getLsbD l := by
  refine List.filter_congr fun l _ => ?_
  rw [BitVec.getLsbD, Nat.testBit_eq_decide_div_mod_eq]

/-- The bands that a mask adds: those that it names and the strand does not have. -/
theorem adds_eq (x : Strand) {mask : List Nat} (hlt : ∀ l ∈ mask, l < 4) :
    (mask.filter fun l => !x.bandSet.contains l) = mask.filter fun l => !x.bands.any fun b => b.logical == l := by
  refine List.filter_congr fun l hl => congrArg not ?_
  rw [Bool.eq_iff_iff, List.contains_iff_mem, Strand.bandSet, List.mem_filter, List.mem_range]
  exact and_iff_right (hlt l hl)

/-- The mask that ASHAPE asks for. -/
def askedBands (st : Strand) (f : Form) : List Nat := (List.range 4).filter fun l => ((st.srcs f).b 0).getLsbD l

/-- The bands that ASHAPE adds. -/
def addedBands (st : Strand) (f : Form) : List Nat := (askedBands st f).filter fun l => !st.bands.any fun b => b.logical == l

/-- The status of an ASHAPE (R415). -/
def shapeStatus (s : State) (st : Strand) (f : Form) : Nat :=
  if ((List.range 4).filter fun b => s.dev.map.bandLive.getLsbD (4 * st.core + b)).length < (askedBands st f).length then 2
  else if (unboundBands s st.core (s.cluster st.core).pbands).length < (addedBands st f).length then 1 else 0

theorem askedBands_lt {l : Nat} (h : l ∈ askedBands st f) : l < 4 := List.mem_range.mp (List.mem_filter.mp h).1

/-- ASHAPE asks its sources, and then writes its status: where that is 0, once the bands are changed. -/
theorem ashapeBody_calm (h : Calm s st e f) (hop : 0x4F < f.enc.op) (hb : f.enc.b = .vs) (hok : (planAshape s st f).ok = true) :
    ashapeBody (jobOf s st e f) = if st.mask f.pred = 0 then .ok () (jobOf s st e f) else
      if shapeStatus s st f = 0 then
        writeV f.d (.u 0) (st.mask f.pred) { jobOf s st e f with
          s := (s.setStrand st).reshape st.core st.id (askedBands st f)
          st := (((s.setStrand st).reshape st.core st.id (askedBands st f)).strand? st.id).getD st }
      else writeV f.d (.u (BitVec.ofNat 32 (shapeStatus s st f))) (st.mask f.pred) (jobOf s st e f) := by
  have hs : (jobOf s st e f).s = s := charged_free s st hop
  have hst : (jobOf s st e f).st = st := rfl
  have hf : (jobOf s st e f).f = f := rfl
  simp only [planAshape, Bool.and_eq_true, Bool.or_eq_true, Bool.not_eq_true', decide_eq_true_eq] at hok
  obtain ⟨⟨hfault, hub⟩, hrest⟩ := hok
  obtain ⟨hneedB, hreadB⟩ := needUniformB_ok h hb hub
  by_cases hm : st.mask f.pred = 0
  · simp only [ashapeBody, m_bind, deferredFault_none hop hfault, m_form, readyB_calm h hb, hneedB, effMask_quiet h.toQuiet, m_ite, if_pos hm, m_pure]
  · obtain ⟨hsmall, hidle⟩ := hrest.resolve_left hm
    have hhigh : (((st.srcs f).b 0).extractLsb' 4 28 != 0) = false := by
      rw [bne_eq_false_iff_eq]
      refine BitVec.eq_of_toNat_eq ?_
      rw [BitVec.extractLsb'_toNat, Nat.shiftRight_eq_div_pow, Nat.div_eq_of_lt (by omega)]
      rfl
    have hbusy : openTask (fun _ => true) (jobOf s st e f) = .ok false (jobOf s st e f) :=
      openTask_none hop (q := fun _ => true) (fun _ _ => rfl) (by rw [List.isEmpty_iff.mp hidle]; rfl)
    simp only [ashapeBody, m_bind, deferredFault_none hop hfault, m_form, readyB_calm h hb, hneedB, effMask_quiet h.toQuiet, m_ite, if_neg hm, hreadB,
      hhigh, Bool.false_eq_true, if_false, m_pure, hbusy, m_get, hst, hf, bandsOf_eq, updAll, m_modify]
    rw [hs]
    have hadds : ((List.range 4).filter fun l => ((st.srcs f).b 0).getLsbD l).filter (fun l => !st.bandSet.contains l) = addedBands st f :=
      adds_eq st fun l hl => askedBands_lt hl
    rw [hadds]
    by_cases hfew : ((List.range 4).filter fun b => s.dev.map.bandLive.getLsbD (4 * st.core + b)).length < (askedBands st f).length
    · rw [show shapeStatus s st f = 2 from if_pos hfew, if_neg (show ¬ 2 = 0 by decide)]
      exact if_pos hfew
    · by_cases hfree : (unboundBands s st.core (s.cluster st.core).pbands).length < (addedBands st f).length
      · rw [show shapeStatus s st f = 1 from (if_neg hfew).trans (if_pos hfree), if_neg (show ¬ 1 = 0 by decide)]
        exact (if_neg hfew).trans (if_pos hfree)
      · rw [if_pos (show shapeStatus s st f = 0 from (if_neg hfew).trans (if_neg hfree))]
        exact (if_neg hfew).trans (if_neg hfree)

theorem run_ashape (h : Calm s st e f) (he : f.enc = Enc.ashape') (hok : (planAshape s st f).ok = true) :
    ∃ t, run f ashapeBody s = .next t ∧ (planAshape s st f).Done s st e t := by
  have hop : 0x4F < f.enc.op := by rw [he]; decide
  have hd : f.enc.d = .v := by rw [he]; rfl
  have hsr : st.srAfter f = st.sr := srAfter_keep h.toQuiet (by rw [he]; rfl)
  have hbody := ashapeBody_calm h hop (by rw [he]; rfl) hok
  by_cases hm : st.mask f.pred = 0
  · rw [if_pos hm] at hbody
    refine done_past (p := planAshape s st f) h hbody rfl rfl rfl ?_ ?_ hsr (fun d hmem => ⟨hm, ?_⟩) fun _ => hd
    · exact if_neg fun hgo => hgo.1 hm
    · exact if_neg fun hgo => hgo.1 hm
    · obtain rfl := List.mem_singleton.mp hmem
      rfl
  · rw [if_neg hm] at hbody
    by_cases hz : shapeStatus s st f = 0
    · rw [if_pos hz] at hbody
      have hgo : (st.srcs f).m ≠ 0 ∧ shapeStatus s st f = 0 := ⟨hm, hz⟩
      have hfound : (s.strand? st.id).isSome := by rw [quiet_found h.toQuiet]; rfl
      have hu := reshape_setStrand s st st.core (askedBands st f) hfound
      rw [adds_eq st fun l hl => askedBands_lt hl] at hu
      have hshaped : (s.setStrand st).reshape st.core st.id (askedBands st f) = (planAshape s st f).base.setStrand (planAshape s st f).after := by
        refine hu.trans (congrArg₂ State.setStrand ?_ ?_)
        · exact (if_pos hgo).symm
        · exact (if_pos hgo).symm
      have hafter : (planAshape s st f).after = { st with bands := (planAshape s st f).after.bands } := by
        rw [show (planAshape s st f).after = { st with bands := _ } from if_pos hgo]
      have hid : (planAshape s st f).after.id = st.id := by rw [hafter]
      have hbase : ∃ c, (planAshape s st f).base = s.setCluster c := ⟨_, if_pos hgo⟩
      obtain ⟨c, hbase⟩ := hbase
      have hput : (((planAshape s st f).base.setStrand (planAshape s st f).after).strand? st.id).getD st = (planAshape s st f).after := by
        rw [← hid, strand_setStrand _ _ (by rw [hid, hbase, State.strand?, setCluster_strands]; exact hfound)]
        rfl
      rw [hshaped, hput] at hbody
      have hwrites : (planAshape s st f).writes = [(f.d, fun _ => BitVec.ofNat 32 (shapeStatus s st f))] := rfl
      rw [hz] at hwrites
      refine done_write (p := planAshape s st f) h hd hbody ?_ hafter rfl rfl rfl hwrites ?_ ?_ ?_ fun y hy => ?_
      · rw [show (planAshape s st f).form = f from rfl, hsr, hafter]
      · rw [hbase, setCluster_flight]
      · rw [hbase, setCluster_prods]
      · rw [hbase, setStrand_ctxs, setCluster_ctxs]
      · rw [setStrand_setStrand _ _ _ (hid.trans hy.symm)]
        rfl
    · rw [if_neg hz] at hbody
      have hstay : ¬ ((st.srcs f).m ≠ 0 ∧ shapeStatus s st f = 0) := fun hgo => hz hgo.2
      have hbase : (planAshape s st f).base = s := if_neg hstay
      have hafter : (planAshape s st f).after = st := if_neg hstay
      refine done_write (p := planAshape s st f) h hd (hbody.trans (congrArg (writeV f.d _ _) (jobOf_put hop))) ?_ ?_ rfl rfl rfl rfl ?_ ?_ rfl ?_
      · rw [hafter, show (planAshape s st f).form = f from rfl, hsr]
      · rw [hafter]
      · rw [hbase]
      · rw [hbase]
      · rw [hbase]
        exact fun _ _ => rfl

end

/-- The two checks of an MMA pass where its plan's words are declared and present (R446, R448). -/
theorem run_mma {s : State} {st : Strand} {e : Env} {o : XL} {formats : DWord} (h : Calm s st e (Form.xl Enc.mma' o (mmaOk o.lit)))
    (hformats : BitVec.ofNat 64 (activationNeeds (.mma o)) = formats) (hdeclared : formats &&& ~~~e.hdr.features = 0)
    (hpresent : formats &&& ~~~(s.unitFeatures st) = 0) :
    run (Form.xl Enc.mma' o (mmaOk o.lit)) (mmaBody o.lit) s = run (Form.xl Enc.mma' o (mmaOk o.lit)) (enterTask .mma o.lit) s := by
  have hs : (jobOf s st e (Form.xl Enc.mma' o (mmaOk o.lit))).s = s := charged_free s st (show 0x4F < 0x7C by decide)
  have hcheck : checkFeature (activationNeeds (.mma o)) (jobOf s st e (Form.xl Enc.mma' o (mmaOk o.lit))) =
      .ok () (jobOf s st e (Form.xl Enc.mma' o (mmaOk o.lit))) := by
    have hd : (BitVec.ofNat 64 (activationNeeds (.mma o)) &&& ~~~(jobOf s st e (Form.xl Enc.mma' o (mmaOk o.lit))).e.hdr.features != 0) = false := by
      rw [hformats, bne_eq_false_iff_eq]
      exact hdeclared
    have hp : (BitVec.ofNat 64 (activationNeeds (.mma o)) &&& ~~~((jobOf s st e (Form.xl Enc.mma' o (mmaOk o.lit))).s.unitFeatures
        (jobOf s st e (Form.xl Enc.mma' o (mmaOk o.lit))).st) != 0) = false := by
      rw [hformats, bne_eq_false_iff_eq, hs]
      exact hpresent
    simp only [checkFeature, m_bind, m_get, m_ite, hd, hp, Bool.false_eq_true, if_false, m_pure]
  rw [run_quiet h.toQuiet, run_quiet h.toQuiet, mmaBody_eq, m_bind, hcheck]

theorem planTask_formats {s : State} {st : Strand} {e : Env} {f : Form} {kind : TaskKind} {lit : DWord} {sel : Nat} {formats : DWord}
    (hok : (planTask s st e f kind lit sel formats).ok = true) : formats &&& ~~~e.hdr.features = 0 ∧ formats &&& ~~~(s.unitFeatures st) = 0 := by
  simp only [planTask, Bool.and_eq_true, decide_eq_true_eq] at hok
  obtain ⟨⟨⟨-, hdeclared⟩, hpresent⟩, -⟩ := hok
  exact ⟨hdeclared, hpresent⟩

/-- The ring selector in the low bits of a control word (R406, R413). -/
theorem rselOf_low (n : Nat) : RSel.of (bitsOf n 6 0) = { gi := n % 128 / 16 % 8, q := n % 128 % 16 } := by
  rw [bitsOf, Nat.pow_zero, Nat.div_one]
  rfl

/-- Settles O32, instruction by instruction: the three kinds of task by the one entry, the others each by its body. -/
theorem tileInstructions : Obligations.TileInstructions := by
  unfold Obligations.TileInstructions
  intro s st e i p hp hok h
  cases i <;> simp only [tilePlan, Option.some.injEq, reduceCtorEq] at hp
  case wld o =>
    subst hp
    exact run_task h (show 0x4F < 0x7C by decide) rfl rfl rfl (rselOf_low _) rfl (fun _ => srAfter_keep h.toQuiet rfl) hok
  case wldX96 o =>
    subst hp
    exact run_task h (show 0x4F < 0x7C by decide) rfl rfl rfl (rselOf_low _) rfl (fun _ => srAfter_keep h.toQuiet rfl) hok
  case wswap o =>
    subst hp
    exact run_wswap h rfl hok
  case mma o =>
    subst hp
    obtain ⟨hdeclared, hpresent⟩ := planTask_formats hok
    obtain ⟨t, ht, hdone⟩ := run_task h (show 0x4F < 0x7C by decide) rfl rfl rfl rfl rfl (fun _ => srAfter_keep h.toQuiet rfl) hok
    refine ⟨t, (run_mma h ?_ hdeclared hpresent).trans ht, hdone⟩
    simp only [activationNeeds]
    split_ifs <;> rfl
  case mdrain o =>
    subst hp
    exact run_task h (show 0x4F < 0x7C by decide) rfl rfl rfl (rselOf_low _) rfl (fun hk => absurd rfl hk) hok
  case ashape o =>
    subst hp
    exact run_ashape h rfl hok
  case twait o =>
    subst hp
    exact run_twait h rfl hok
  case tqry o =>
    subst hp
    exact run_tqry h rfl hok

end Sys2Proof.Machine
end

section
/-!
PROOF. Contexts (O51, refuted): a context that is destroyed flushes the L1 lines that its windows reach, and a continuation of another context that has
read such a line loses what it read (R284, R433).
-/

namespace Sys2Proof.Machine

/-- A context whose window 0 maps the first page, and whose event queue has failed. -/
def leavingCtx : Ctx := { benchCtx with windows := vset benchCtx.windows 0 { valid := true }, fault := some 1 }

/-- A continuation of no team of that context, which has read a sector of line 0 from the L1 of core 3. -/
def readerStrand : Strand :=
  { benchStrand with id := 7, group := 9, cont := some { owner := 6, depth0 := 0, live0 := 0, wset := 0, ret := 0,
                                                         tracked := [{ sector := .global 0, copy := .l1 3 }] } }

/-- That context and that strand, with line 0 clean in the L1. -/
def leavingState : State :=
  { State.reset with
    ctxs := [leavingCtx], strands := [readerStrand]
    l1 := [{ core := 3, line := 0, valid := 15, dirty := 0, rs := 0, reg := false, data := 0 }] }

/-- Some strand has lost a sector that it tracks. -/
def lostSector (xs : List Strand) : Bool := xs.any fun x => match x.cont with | some c => c.tracked.any (·.lost) | none => false

/-- In the model the flush of the window takes the sector from the continuation. -/
theorem lostSector_destroyNow : lostSector (leavingState.destroyNow leavingCtx.id).strands = true := by
  decide +kernel

/-- Refutes O51, in what a destroyed context leaves: by the statement each strand that stays is as it was, and one that tracks a sector of a line which
the destruction flushes from its L1 is not. -/
theorem not_contextsAreManaged : ¬ Obligations.ContextsAreManaged := by
  unfold Obligations.ContextsAreManaged
  rintro ⟨-, -, -, -, -, -, destroys⟩
  have hstrands := (destroys leavingState leavingCtx (by decide +kernel)).strands
  have hlost := lostSector_destroyNow
  rw [hstrands] at hlost
  exact absurd hlost (by decide +kernel)

end Sys2Proof.Machine
end

section
/-!
PROOF. The engines (O50): the charge arbiter, the copies of rows of memory, and what a task does when it issues and when it retires.
-/

namespace Sys2Proof.Machine

/-! ### The charge arbiter (R469) -/

/-- The highest level of the requests is that of one that no other exceeds. -/
theorem foldl_level {l : List ChargeReq} {n acc : Nat} (hle : ∀ x ∈ l, x.level ≤ n) (hacc : acc ≤ n) (htop : acc = n ∨ ∃ x ∈ l, x.level = n) :
    l.foldl (fun (acc : Nat) r => max acc r.level) acc = n := by
  induction l generalizing acc with
  | nil => exact htop.resolve_right nofun
  | cons x l ih =>
    have hx := hle x List.mem_cons_self
    refine ih (fun y hy => hle y (List.mem_cons_of_mem _ hy)) (Nat.max_le.mpr ⟨hacc, hx⟩) ?_
    rcases htop with rfl | ⟨y, hy, hn⟩
    · exact .inl (Nat.max_eq_left hx)
    · rcases List.mem_cons.mp hy with rfl | hmem
      · exact .inl (hn ▸ Nat.max_eq_right (hn ▸ hacc))
      · exact .inr ⟨y, hmem, hn⟩

/-- The oldest request of the highest level is the one that the arbiter takes, and no other. -/
theorem nextRequest_eq {c : Cluster} {r : ChargeReq} {before after : List ChargeReq} (hr : c.requests = before ++ r :: after)
    (hbefore : ∀ x ∈ before, x.level < r.level) (hafter : ∀ x ∈ after, x.level ≤ r.level) :
    c.nextRequest = some r ∧ c.requests.erase r = before ++ after := by
  have htop : c.requests.foldl (fun (acc : Nat) r => max acc r.level) 0 = r.level := by
    refine foldl_level (fun x hx => ?_) (Nat.zero_le _) (.inr ⟨r, by simp [hr], rfl⟩)
    rw [hr, List.mem_append, List.mem_cons] at hx
    rcases hx with hx | rfl | hx
    · exact Nat.le_of_lt (hbefore x hx)
    · exact Nat.le_refl _
    · exact hafter x hx
  have hnone : before.find? (fun x => x.level == r.level) = none :=
    List.find?_eq_none.mpr fun x hx hlevel => Nat.ne_of_lt (hbefore x hx) (by simpa using hlevel)
  refine ⟨?_, ?_⟩
  · simp only [Cluster.nextRequest, htop]
    rw [hr, List.find?_append, hnone]
    simp
  · rw [hr, List.erase_append_right _ fun hmem => Nat.lt_irrefl _ (hbefore r hmem), List.erase_cons_head]

theorem exec_chargeGrant {s : State} {cl : Nat} {r : ChargeReq} {before after : List ChargeReq} (hr : (s.cluster cl).requests = before ++ r :: after)
    (hbefore : ∀ x ∈ before, x.level < r.level) (hafter : ∀ x ∈ after, x.level ≤ r.level)
    (hfits : r.cost ≤ (s.cluster cl).level ∨ (s.cluster cl).level = 2 ^ 20) : exec (.chargeGrant cl) s =
      .next ((s.setCluster { s.cluster cl with level := (s.cluster cl).level - r.cost, requests := before ++ after }).granted cl r) := by
  obtain ⟨hnext, herase⟩ := nextRequest_eq hr hbefore hafter
  have hcan : (s.cluster cl).canGrant r.cost = true := by simpa [Cluster.canGrant] using hfits
  show execChargeGrant cl s = _
  simp only [execChargeGrant, hnext, hcan, if_true, State.grant, herase]

/-! ### Words of bytes -/

theorem getList_add (m : Memory) (a n k : Nat) : m.getList a (n + k) = m.getList a n ++ m.getList (a + n) k := by
  simp only [Memory.getList, List.range_add, List.map_append, List.map_map]
  congr 1
  exact List.map_congr_left fun i _ => congrArg m.get (Nat.add_assoc a n i).symm

theorem putList_append (m : Memory) (a : Nat) (xs ys : List Byte) : m.putList a (xs ++ ys) = (m.putList a xs).putList (a + xs.length) ys := by
  induction xs generalizing m a with
  | nil => rfl
  | cons x xs ih =>
    rw [List.cons_append, Memory.putList, Memory.putList, ih, List.length_cons, Nat.add_assoc, Nat.add_comm 1]

theorem bytesLE_natLE (bs : List Byte) : bytesLE bs.length (natLE bs) = bs := by
  refine List.ext_getElem? fun i => ?_
  by_cases hi : i < bs.length
  · rw [bytesLE_getElem? _ hi, byte_natLE, List.getD_eq_getElem?_getD, List.getElem?_eq_getElem hi]
    rfl
  · rw [List.getElem?_eq_none (by rw [bytesLE_length]; omega), List.getElem?_eq_none (by omega)]

/-- Words put one by one. -/
theorem putList_words (m : Memory) (a n : Nat) (v : Nat → Nat) :
    (List.range n).foldl (fun (m : Memory) i => m.putList (a + 4 * i) (bytesLE 4 (v i))) m =
      m.putList a ((List.range n).flatMap fun i => bytesLE 4 (v i)) := by
  induction n with
  | zero => rfl
  | succ n ih =>
    have hlen : ((List.range n).flatMap fun i => bytesLE 4 (v i)).length = 4 * n := by
      simp [List.length_flatMap, bytesLE_length, Nat.mul_comm]
    rw [List.range_succ, List.foldl_append, ih, List.flatMap_append, putList_append, hlen]
    simp

/-- The words of a range of memory are its bytes. -/
theorem words_getList (m : Memory) (a n : Nat) :
    ((List.range n).flatMap fun i => bytesLE 4 (natLE (m.getList (a + 4 * i) 4))) = m.getList a (4 * n) := by
  have hword : ∀ b, bytesLE 4 (natLE (m.getList b 4)) = m.getList b 4 := fun b => by
    have := bytesLE_natLE (m.getList b 4)
    rwa [getList_length] at this
  induction n with
  | zero => rfl
  | succ n ih => rw [List.range_succ, List.flatMap_append, ih, Nat.mul_succ, getList_add]; simp [hword]

/-! ### The row of a copy (R381) -/

section
variable {s : State} {c : Ctx} {scope n : Nat}

/-- A context translates the bytes of a row, from `va` on, to those from `ia` on. -/
def Ctx.maps (c : Ctx) (va ia n : Nat) : Prop := ∀ i, i < n → (c.translate (va + i)).map (·.2.2) = some (ia + i)

theorem Ctx.maps.translate {va ia n i : Nat} (h : c.maps va ia n) (hi : i < n) : ∃ k w, c.translate (va + i) = some (k, w, ia + i) := by
  obtain ⟨⟨k, w, x⟩, hx, rfl⟩ := Option.map_eq_some_iff.mp (h i hi)
  exact ⟨k, w, hx⟩

theorem PlainBytes.part {ia n k m : Nat} (h : PlainBytes s ia n) (hle : k + m ≤ n) : PlainBytes s (ia + k) m := fun i hi => by
  rw [Nat.add_assoc]
  exact h (k + i) (by omega)

/-- A word of plain memory is read as it is, and reading it changes nothing. -/
theorem copyRead_plain (h : Bare s) {va ia : Nat} (hmaps : c.maps va ia 4) (hplain : PlainBytes s ia 4) (group : Nat) :
    s.copyRead c 0 scope group va = (s, natLE (s.mem.getList ia 4), false) := by
  obtain ⟨k, w, htr⟩ := hmaps.translate (i := 0) (by decide)
  have hserves : s.l1Serves 1001 .so (Scope.ofCode scope) ia = none := by simp [State.l1Serves]
  have hhome : homeOf ia ≠ 4 := Nat.ne_of_lt (hplain.home (by decide))
  rw [Nat.add_zero, Nat.add_zero] at htr
  simp only [State.copyRead, if_true, htr, State.loadElem, hserves, Option.isSome_none, Bool.false_eq_true, if_false, h.l1Flush, if_neg hhome,
    beq_self_eq_true, hplain.homeBytes, hplain.homePoison (by decide) h.poison]

/-- The words that a row of a copy reads. -/
def rowWords (s : State) (src n : Nat) : List (Nat × Bool) := (List.range n).map fun i => (natLE (s.mem.getList (src + 4 * i) 4), false)

theorem row_read (h : Bare s) {va src : Nat} (hmaps : c.maps va src (4 * n)) (hplain : PlainBytes s src (4 * n)) (group : Nat) :
    (List.range n).foldl (fun (acc : State × List (Nat × Bool)) i =>
      let r' := acc.1.copyRead c 0 scope group (va + 4 * i)
      (r'.1, acc.2 ++ [r'.2])) (s, []) = (s, rowWords s src n) := by
  induction n with
  | zero => rfl
  | succ n ih =>
    have hmaps' : c.maps (va + 4 * n) (src + 4 * n) 4 := fun i hi => by
      rw [Nat.add_assoc, Nat.add_assoc]
      exact hmaps (4 * n + i) (by omega)
    have hread := copyRead_plain (scope := scope) h hmaps' (hplain.part (by omega)) group
    rw [List.range_succ, List.foldl_append, ih (fun i hi => hmaps i (by omega)) (fun i hi => hplain i (by omega))]
    simp only [List.foldl_cons, List.foldl_nil, hread, rowWords, List.range_succ, List.map_append, List.map_cons, List.map_nil]

theorem zipIdx_rowWords (s : State) (src n : Nat) :
    (rowWords s src n).zipIdx = (List.range n).map fun i => ((natLE (s.mem.getList (src + 4 * i) 4), false), i) := by
  refine List.ext_getElem? fun i => ?_
  rw [List.getElem?_zipIdx]
  by_cases hi : i < n <;> simp [rowWords, hi]

/-- Words stored one by one into plain memory. -/
theorem row_stores (h : Bare s) {dst : Nat} (hplain : PlainBytes s dst (4 * n)) {v : Nat → Nat} {f : State → Nat → State}
    (hf : ∀ t i, i < n → f t i = t.storeElem 1001 0 .so (Scope.ofCode scope) (dst + 4 * i) (bytesLE 4 (v i))) :
    (List.range n).foldl f s = { s with mem := s.mem.putList dst ((List.range n).flatMap fun i => bytesLE 4 (v i)) } := by
  rw [← putList_words]
  induction n with
  | zero => rfl
  | succ n ih =>
    have hpart : PlainBytes s (dst + 4 * n) (bytesLE 4 (v n)).length := by
      rw [bytesLE_length]
      exact hplain.part (by omega)
    rw [List.range_succ, List.foldl_append, ih (fun i hi => hplain i (by omega)) (fun t i hi => hf t i (by omega)), List.foldl_append,
      List.foldl_cons, List.foldl_nil, hf _ n (by omega), List.foldl_cons, List.foldl_nil]
    generalize (List.range n).foldl _ s.mem = m
    exact (h.mem m).storeElem (s := { s with mem := m }) (.inl rfl) (hplain (4 * n) (by omega)).1 hpart 1001

/-- A row that goes to memory. -/
theorem copyWrite_memory (h : Bare s) {va src dst : Nat} (hmaps : c.maps va dst (4 * n)) (hplain : PlainBytes s dst (4 * n)) (group : Nat) :
    s.copyWrite c 0 scope group va (rowWords s src n) = { s with mem := s.mem.putList dst (s.mem.getList src (4 * n)) } := by
  have hclear : ∀ rs, State.clearCovered { s with mem := s.mem.putList dst (s.mem.getList src (4 * n)) } 1001 rs =
      { s with mem := s.mem.putList dst (s.mem.getList src (4 * n)) } := fun rs => ((h.mem _).own 1001).clearCovered 1001 rs
  simp only [State.copyWrite, if_true, zipIdx_rowWords, List.foldl_map, Bool.false_eq_true, if_false]
  rw [row_stores (scope := scope) (v := fun i => natLE (s.mem.getList (src + 4 * i) 4)) h hplain, words_getList]
  · refine (foldl_still fun i _ => ?_).trans ?_
    · split <;> rfl
    · split
      · exact hclear _
      · rfl
  · intro t i hi
    obtain ⟨k, w, htr⟩ := hmaps.translate (i := 4 * i) (by omega)
    rw [htr]

/-- Two puts of one group leave the second. -/
theorem setGroup_setGroup (s : State) (x y : Group) (h : x.id = y.id) : (s.setGroup x).setGroup y = s.setGroup y := by
  simp only [State.setGroup, List.map_map, h]
  congr 1
  refine List.map_congr_left fun z _ => ?_
  by_cases hz : z.id = y.id <;> simp [hz, h]

/-- A row that goes to a scratchpad without poison. -/
theorem copyWrite_scratch (h : Bare s) {g : Group} {group : Nat} (hg : s.group? group = some g) (hclean : g.poison = []) {space : Nat}
    (hspace : space ≠ 0) (dst src : Nat) : s.copyWrite c space scope group dst (rowWords s src n) =
      s.setGroup { g with scratch := Memory.putList g.scratch dst (s.mem.getList src (4 * n)) } := by
  have hid : g.id = group := by simpa using List.find?_some hg
  have hstore : ∀ es, g.store es =
      { g with scratch := es.foldl (fun m e => Memory.putList m e.addr (bytesLE e.width e.data)) g.scratch } := fun es => by
    rw [Group.store, hclean, List.filter_nil, ← hclean]
  have hlose : ∀ es u, State.loseScratch (s.setGroup u) group 0 es = s.setGroup u := fun es u => by
    exact lose_noConts (s := s.setGroup u) h.conts _ _ _
  have hfound : ∀ u : Group, u.id = group → (s.setGroup u).group? group = some u := fun u hu => by
    rw [← hu, group_setGroup _ _ (by rw [hu, hg]; rfl)]
  have hbad : (((List.range n).map fun i => ((natLE (s.mem.getList (src + 4 * i) 4), false), i)).filter fun (w : (Nat × Bool) × Nat) => w.1.2) = [] :=
    List.filter_eq_nil_iff.mpr fun w hw => by
      obtain ⟨i, -, rfl⟩ := List.mem_map.mp hw
      exact Bool.false_ne_true
  simp only [State.copyWrite, if_neg hspace, zipIdx_rowWords, State.scratchStore, hg, hstore, hlose, hbad, List.map_nil, List.foldl_nil, List.map_map,
    List.foldl_map, Function.comp]
  rw [putList_words, words_getList, hfound _ (by exact hid)]
  exact setGroup_setGroup _ _ _ rfl

/-- A copy of one row moves it. -/
theorem copyMove_row (h : Bare s) {k : Copy} (hc : s.ctx? k.ctx = some c) (hrows : k.rows = 1) (hlen : k.rowLen % 4 = 0) (hsrc : k.src < 2 ^ 64)
    (hdst : k.dst < 2 ^ 64) (hssp : k.ctl.toNat % 4 = 0) {src : Nat} (hplain : PlainBytes s src k.rowLen)
    (hmaps : ({ c with windows := k.windows } : Ctx).maps k.src src k.rowLen) : s.copyMove k =
      s.copyWrite { c with windows := k.windows } (k.ctl.toNat / 4 % 4) (CopyCtl.of k.ctl).scp k.dstGroup k.dst (rowWords s src (k.rowLen / 4)) := by
  have hva : ∀ start (stride : Int), start < 2 ^ 64 → rowVa start stride 0 = start := fun start stride hlt => by
    simp only [rowVa, rowAddr, Int.natCast_zero, Int.zero_mul, Int.add_zero]
    omega
  have hspace : (CopyCtl.of k.ctl).ssp = 0 := by
    rw [← hssp]
    simp [CopyCtl.of, bitsOf]
  have hwords : 4 * (k.rowLen / 4) = k.rowLen := by omega
  rw [← hwords] at hplain hmaps
  have hread := row_read (scope := (CopyCtl.of k.ctl).scp) h hmaps hplain k.srcGroup
  simp only [State.copyMove, hc, hrows, List.range_one, List.foldl_cons, List.foldl_nil, hva _ _ hsrc, hva _ _ hdst, hspace]
  rw [hread]
  rfl

end

/-! ### The steps of a copy (R375, R377, R382) -/

section
variable {s : State} {k : Copy}

theorem fenceClasses_copies (s : State) (e : Env) (bits : Nat) : (s.fenceClasses e bits).copies = s.copies := by
  unfold State.fenceClasses
  split
  · split <;> rfl
  · rfl

/-- The ring step of a copy leaves the copies. -/
theorem copyRing_copies (s : State) (k : Copy) : (s.copyRing k).copies = s.copies := by
  unfold State.copyRing
  split
  · rfl
  · cases (s.strand? k.strand).bind s.env? <;>
      simp only [apply_ite State.copies, setGroup_copies, State.copyFence, fenceClasses_copies, ite_self]

/-- No earlier access of a strand holds a class back. -/
theorem heldBack_none {n id cls : Nat} (h : ∀ a ∈ s.flight, a.strand = n → a.id < id → a.holdsClass cls = false) :
    (s.flight.any fun a => a.strand == n && a.id < id && a.holdsClass cls) = false := by
  refine List.any_eq_false.mpr fun a ha hbad => ?_
  simp only [Bool.and_eq_true, beq_iff_eq, decide_eq_true_eq] at hbad
  obtain ⟨⟨hstrand, hid⟩, hclass⟩ := hbad
  rw [h a ha hstrand hid] at hclass
  exact Bool.false_ne_true hclass

/-- A copy whose words have moved, and that no earlier copy holds back, completes. -/
theorem copyStep_completes {g : Group} (hk : s.copies.find? (fun x => x.id == k.id) = some k) (hbursts : k.bursts = 0) (hmoved : k.moved = true)
    (hheld : s.copyHeld k = false) (hg : (s.copyRing k).group? k.group = some g) :
    let u := { s.copyRing k with copies := (s.copyRing k).copies.filter fun x => x.id != k.id }
    s.copyStep k.id = ({ u with strands := u.strands.map fun (x : Strand) =>
      if x.id = k.strand then { x with copied := max x.copied (max (CopyCtl.of k.ctl).scp 1) } else x }).settleTeam g.team := by
  have hgroup : ∀ cs xs, State.group? { s.copyRing k with copies := cs, strands := xs } k.group = some g := fun _ _ => hg
  simp only [State.copyStep, hk, hmoved, hbursts, Bool.true_or, if_true, bne_self_eq_false, Bool.not_true, Bool.or_self, Bool.false_eq_true, if_false,
    hheld, hgroup, beq_iff_eq, copyRing_copies]

/-- A copy that nothing holds back asks for its pages, and moves its words once it has them. -/
theorem copyStep_moves (hk : s.copies.find? (fun x => x.id == k.id) = some k) (hbursts : k.bursts = 0) (hmoved : k.moved = false)
    (hfree : k.rows = 0 ∨ ∀ a ∈ s.flight, a.strand = k.strand → a.id < k.id → a.holdsClass 1 = false) :
    (∀ u, s.copyReady k = (u, true) →
      let v := { u.copyMove k with copies := (u.copyMove k).copies.map fun x => if x.id = k.id then { x with moved := true } else x }
      v.copyHeld k = true → s.copyStep k.id = v) ∧
    ∀ u, s.copyReady k = (u, false) → s.copyStep k.id = u := by
  have hfenced : (k.rows != 0 && s.flight.any fun a => a.strand == k.strand && a.id < k.id && a.holdsClass 1) = false := by
    rcases hfree with hrows | hfree
    · simp [hrows]
    · exact Bool.and_eq_false_iff.mpr (.inr (heldBack_none hfree))
  constructor
  · intro u hu v hheld
    simp only [State.copyStep, hk, hmoved, hbursts, hfenced, hu, Bool.or_self, bne_self_eq_false, Bool.false_eq_true, if_false, Bool.not_true,
      beq_iff_eq]
    exact if_pos hheld
  · intro u hu
    simp only [State.copyStep, hk, hmoved, hbursts, hfenced, hu, Bool.or_self, bne_self_eq_false, Bool.false_eq_true, if_false, Bool.not_false,
      Bool.or_true, if_true]

end

/-! ### Tasks that issue (R401, R403) -/

section
variable {s : State} {st : Strand} {e : Env} {cl : Nat} {t : Task}

theorem fenceClasses_still {e : Env} (h : e.debug = false) (s : State) (bits : Nat) : s.fenceClasses e bits = s := by
  simp [State.fenceClasses, h]

theorem touchClass_still {e : Env} (h : e.debug = false) (s : State) (st : Strand) (cls : Cls) (secs : List Sector) : s.touchClass st e cls secs = s := by
  simp [State.touchClass, h]

/-- A waiting task that nothing of R401 holds back. -/
structure MayIssue (s : State) (cl : Nat) (t : Task) (st : Strand) (e : Env) : Prop where
  task : (s.cluster cl).tasks.find? (fun x => x.entry == t.entry && x.state == .waiting) = some t
  strand : s.strand? t.strand = some st
  env : s.env? st = some e
  running : ∃ tm, s.team? e.team = some tm ∧ tm.state = .running
  debug : e.debug = false
  preds : (t.predA = 0 ∨ (s.cluster cl).satisfied t.predA = true) ∧ (t.predB = 0 ∨ (s.cluster cl).satisfied t.predB = true)
  order : ∀ b ∈ (s.cluster cl).tasks, t.follows b = false ∧ t.queues b = false
  fences : ∀ a ∈ s.flight, a.strand = t.strand → a.id < t.seq → a.holdsClass 2 = false
  powered : ∀ l ∈ t.bands, ∃ b ∈ st.bands, b.logical = l ∧ ∃ p ∈ (s.cluster cl).pbands, p.n = b.physical ∧ p.owner = st.id ∧ p.powered = true

/-- Such a task faults where its ring does not serve it, and else takes a slot and asks for charge. -/
theorem taskIssue_issues (h : MayIssue s cl t st e) {g : Group} (hg : s.teamGroup? e t.desc.sel.gi = some g)
    (hslot : (if t.desc.drain then (g.ring t.desc.sel.q).free else (g.ring t.desc.sel.q).filled) ≠ 0) :
    (∀ b, ringBad s e t.desc.sel t.desc.drain (slotBytes t.kind t.x t.lit t.bands) = some b →
      s.taskIssue cl t.entry = s.setTask cl (t.fault (b.trap t.desc.sel).1 (b.trap t.desc.sel).2)) ∧
    (ringBad s e t.desc.sel t.desc.drain (slotBytes t.kind t.x t.lit t.bands) = none →
      let k := if t.desc.drain then (g.ring t.desc.sel.q).acquire else (g.ring t.desc.sel.q).take
      s.taskIssue cl t.entry = ((s.setGroup (g.setRing t.desc.sel.q k.1)).setTask cl { t with state := .issued, slot := k.2 }).request cl
        { level := e.level, cls := (t.charge (s.cluster cl)).1, cost := (t.charge (s.cluster cl)).2, who := (2, t.seq, 0) }) := by
  obtain ⟨htask, hstrand, henv, ⟨tm, htm, hrun⟩, hdebug, ⟨hA, hB⟩, horder, hfences, hpowered⟩ := h
  have hfollows : (s.cluster cl).tasks.any t.follows = false := List.any_eq_false.mpr fun b hb => by simp [(horder b hb).1]
  have hqueues : (s.cluster cl).tasks.any t.queues = false := List.any_eq_false.mpr fun b hb => by simp [(horder b hb).2]
  have hfenced : (s.flight.any fun a => a.strand == t.strand && a.id < t.seq && a.holdsClass 2) = false := heldBack_none hfences
  have hpower : (t.bands.all fun l => st.bands.any fun b => b.logical == l &&
      (s.cluster cl).pbands.any fun p => p.n == b.physical && p.owner == st.id && p.powered) = true :=
    List.all_eq_true.mpr fun l hl => by
      obtain ⟨b, hb, hbl, p, hp, hn, howner, hon⟩ := hpowered l hl
      have hbound : ((s.cluster cl).pbands.any fun p => p.n == b.physical && p.owner == st.id && p.powered) = true :=
        List.any_eq_true.mpr ⟨p, hp, by simp [hn, howner, hon]⟩
      exact List.any_eq_true.mpr ⟨b, hb, by rw [hbound, hbl, beq_self_eq_true, Bool.and_self]⟩
  have hpredA : ((s.cluster cl).satisfied t.predA || t.predA = 0) = true := by simpa [or_comm] using hA
  have hpredB : ((s.cluster cl).satisfied t.predB || t.predB = 0) = true := by simpa [or_comm] using hB
  have hfence : ∀ u bits, State.fenceClasses u { e with group := g.id } bits = u := fun u bits => fenceClasses_still (by exact hdebug) u bits
  constructor
  · intro b hb
    simp only [State.taskIssue, htask, hstrand, henv, htm, hrun, hfollows, hqueues, hfenced, hpower, hpredA, hpredB, hg, if_neg hslot, hb,
      bne_self_eq_false, Bool.false_and, Bool.not_true, Bool.or_self, Bool.false_eq_true, if_false]
  · intro hnone
    simp only [State.taskIssue, htask, hstrand, henv, htm, hrun, hfollows, hqueues, hfenced, hpower, hpredA, hpredB, hg, if_neg hslot, hnone, hfence,
      bne_self_eq_false, Bool.false_and, Bool.not_true, Bool.or_self, Bool.false_eq_true, if_false]

end

/-! ### amax registers (R83) -/

theorem toF32_inf : toF32 (.inf false) = 0x7F800000 := by decide +kernel

/-- An update lane by lane has seen a NaN if any is one, and has the largest magnitude. -/
theorem foldl_amax (r : Amax) (xs : List FVal) :
    xs.foldl (fun (r : Amax) x =>
      match x with
      | .nan => { r with nanSeen := true }
      | x =>
        let mag : FVal := match x with | .inf _ => .inf false | .fin _ k e => .fin false k e | .nan => .nan
        if FVal.lt (f32 r.max) mag then { r with max := match mag with | .inf _ => 0x7F800000 | v => toF32 v } else r) r =
      { r with
        nanSeen := r.nanSeen || xs.any FVal.isNan
        max := xs.foldl (fun m x => if FVal.lt (f32 m) (magnitude x) then toF32 (magnitude x) else m) r.max } := by
  induction xs generalizing r with
  | nil => simp
  | cons x xs ih =>
    rw [List.foldl_cons, List.foldl_cons, List.any_cons, ih]
    cases x with
    | nan =>
      have hlt : FVal.lt (f32 r.max) (magnitude .nan) = false := by cases f32 r.max <;> rfl
      rw [hlt]
      simp [FVal.isNan]
    | inf b =>
      rw [show magnitude (.inf b) = .inf false from rfl, toF32_inf]
      dsimp only
      split <;> rfl
    | fin b k e =>
      rw [show magnitude (.fin b k e) = .fin false k e from rfl]
      dsimp only
      split <;> rfl

/-- An amax register is updated as the rule says. -/
theorem update_eq (r : Amax) (c : Nat) (xs : List FVal) : r.update c xs = amaxRule r c xs := by
  by_cases hxs : xs = []
  · subst hxs
    rfl
  · rw [Amax.update, amaxRule, if_neg hxs, if_neg (by simpa using hxs)]
    exact foldl_amax _ xs

/-! ### Tasks that retire (R402, R404, R408, R412, R414) -/

section
variable {s : State} {st : Strand} {cl : Nat} {t : Task} {g : Group}

/-- An issued task that has its charge, and whose ring no earlier task is to leave first. -/
structure Retires (s : State) (cl : Nat) (t : Task) (st : Strand) (g : Group) : Prop where
  task : (s.cluster cl).tasks.find? (fun x => x.entry == t.entry && x.state == .issued) = some t
  strand : s.strand? t.strand = some st
  env : ∃ e, s.env? st = some e ∧ s.teamGroup? e t.desc.sel.gi = some g ∧ e.debug = false
  charged : t.charged = true
  first : ∀ b ∈ (s.cluster cl).tasks, b.seq < t.seq → b.strand = t.strand → b.state = .issued → b.desc.sel ≠ t.desc.sel

/-- The first byte of the task's slot. -/
def Task.slotBase (t : Task) (g : Group) : Nat := (g.ring t.desc.sel.q).slotAddr t.slot

/-- The state in which a task of a strand has left the table. -/
def State.taskGone (u : State) (cl : Nat) (t : Task) (id : Nat) : State :=
  (u.setCluster { u.cluster cl with tasks := (u.cluster cl).tasks.filter fun x => x.seq != t.seq }).strandExit id

/-- The state in which a task has ended in a fault, its strand as the work left it. -/
def State.taskBad (s : State) (cl : Nat) (t : Task) (g : Group) (cause : Nat) (detail : Word) (x : Strand) : State :=
  ((s.setStrand x).setTask cl (t.fault cause detail)).taskRing g.id t

/-- The state in which an MDRAIN has written its slot. -/
def State.slotDrained (s : State) (t : Task) (g : Group) (st : Strand) : State :=
  s.scratchStore g.id st.id ((List.range (drainBytes t (drainValues t st)).length).map fun i =>
    { addr := t.slotBase g + i, width := 1, lane := 0, slot := 0, data := ((drainBytes t (drainValues t st)).getD i 0).toNat })

/-- The state in which it has updated its amax register as well. -/
def State.amaxDrained (u : State) (t : Task) (g : Group) (st : Strand) : State :=
  match u.group? g.id with
  | some h => if t.x.x2 then u.setGroup (withAmax h t.desc.midx (amaxRule (vget h.amax t.desc.midx {}) t.x.ty.code (drainValues t st))) else u
  | none => u

/-- What a task comes to when it retires: it has left the table with its work done, or has ended in a fault. -/
def retired (s : State) (cl : Nat) (t : Task) (st : Strand) (g : Group) : State :=
  let work : Work → State := fun
    | .done x => ((s.setStrand x).taskRing g.id t).taskGone cl t st.id
    | .bad cause detail x => s.taskBad cl t g cause detail x
  if t.poisoned g (t.slotBase g) then s.taskBad cl t g 0x20 (Config.taskPoisonDetail t.ticket) st
  else match t.kind with
    | .wld => work (wldWork g (t.slotBase g) t st)
    | .mma => work (mmaWork g (t.slotBase g) t st)
    | .mdrain => (((s.slotDrained t g st).amaxDrained t g st).taskRing g.id t).taskGone cl t st.id

theorem taskRetire_eq (h : Retires s cl t st g) : s.taskRetire cl t.entry = retired s cl t st g := by
  obtain ⟨htask, hstrand, ⟨e, henv, hg, hdebug⟩, hcharged, hfirst⟩ := h
  have hearlier : ((s.cluster cl).tasks.any fun b =>
      b.seq < t.seq && b.strand == t.strand && b.state == .issued && b.desc.sel == t.desc.sel) = false :=
    List.any_eq_false.mpr fun b hb hbad => by
      simp only [Bool.and_eq_true, beq_iff_eq, decide_eq_true_eq] at hbad
      obtain ⟨⟨⟨hseq, hsame⟩, hissued⟩, hsel⟩ := hbad
      exact hfirst b hb hseq hsame hissued hsel
  have hstill : ∀ secs bits,
      (s.touchClass { st with pc := t.addr } { e with group := g.id } .m secs).fenceClasses { e with group := g.id } bits = s :=
    fun secs bits => by rw [touchClass_still (by exact hdebug), fenceClasses_still (by exact hdebug)]
  simp only [State.taskRetire, htask, hstrand, henv, hg, hearlier, hcharged, hstill, update_eq, Bool.not_true, Bool.or_self, Bool.false_eq_true, if_false]
  rfl

/-- MMA does its work where every active plane that it reads is valid. -/
theorem mmaWork_done {base : Nat} (h : ∀ l ∈ t.bands, ∀ b ∈ st.bands, b.logical = l → b.active.valid = true) :
    mmaWork g base t st = .done { st with bands := st.bands.map fun b => if t.bands.contains b.logical then mmaBand g base t.desc b else b } := by
  have hnone : t.bands.find? (fun l => st.bands.any fun b => b.logical == l && !b.active.valid) = none :=
    List.find?_eq_none.mpr fun l hl hbad => by
      obtain ⟨b, hb, hinvalid⟩ := List.any_eq_true.mp hbad
      simp only [Bool.and_eq_true, beq_iff_eq, Bool.not_eq_true'] at hinvalid
      rw [h l hl b hb hinvalid.1] at hinvalid
      exact Bool.noConfusion hinvalid.2
  simp only [mmaWork, hnone]

theorem mmaWork_bad {base l : Nat} (h : t.bands.find? (fun l => st.bands.any fun b => b.logical == l && !b.active.valid) = some l) :
    mmaWork g base t st = .bad 0x11 (sparseDetail t.ticket l 4) st := by
  simp only [mmaWork, h]

theorem retired_poisoned (h : t.poisoned g (t.slotBase g) = true) :
    retired s cl t st g = s.taskBad cl t g 0x20 (Config.taskPoisonDetail t.ticket) st := if_pos h

/-- The work of a task that reads its slot. -/
def taskWork (g : Group) (t : Task) (st : Strand) : Option Work :=
  match t.kind with
  | .wld => some (wldWork g (t.slotBase g) t st)
  | .mma => some (mmaWork g (t.slotBase g) t st)
  | .mdrain => none

theorem retired_done (h : t.poisoned g (t.slotBase g) = false) {x : Strand} (hw : taskWork g t st = some (.done x)) :
    retired s cl t st g = ((s.setStrand x).taskRing g.id t).taskGone cl t st.id := by
  cases hk : t.kind <;> simp_all [taskWork, retired]

theorem retired_bad (h : t.poisoned g (t.slotBase g) = false) {cause : Nat} {detail : Word} {x : Strand}
    (hw : taskWork g t st = some (.bad cause detail x)) : retired s cl t st g = s.taskBad cl t g cause detail x := by
  cases hk : t.kind <;> simp_all [taskWork, retired]

theorem retired_mdrain (h : t.poisoned g (t.slotBase g) = false) (hk : t.kind = .mdrain) :
    retired s cl t st g = (((s.slotDrained t g st).amaxDrained t g st).taskRing g.id t).taskGone cl t st.id := by
  simp only [retired, h, hk, Bool.false_eq_true, if_false]

theorem amaxDrained_none {u : State} (h : t.x.x2 = false) : u.amaxDrained t g st = u := by
  rw [State.amaxDrained, h]
  split <;> rfl

theorem amaxDrained_some {u : State} {k : Group} (h : t.x.x2 = true) (hk : u.group? g.id = some k) : u.amaxDrained t g st =
    u.setGroup (withAmax k t.desc.midx (amaxRule (vget k.amax t.desc.midx {}) t.x.ty.code (drainValues t st))) := by
  simp only [State.amaxDrained, hk, h, if_true]

end

/-- Settles O50, engine by engine. -/
theorem enginesGoOn : Obligations.EnginesGoOn := by
  unfold Obligations.EnginesGoOn
  refine ⟨?_, ?_, ?_, ?_, ?_, ?_⟩
  · intro s cl r before after hr hbefore hafter hfits
    exact exec_chargeGrant hr hbefore hafter hfits
  · intro s k g hk hbursts hmoved hheld hg u
    exact congrArg Host.Outcome.next (copyStep_completes hk hbursts hmoved hheld hg)
  · intro s k hk hbursts hmoved hfree
    obtain ⟨hready, hnot⟩ := copyStep_moves hk hbursts hmoved hfree
    refine ⟨fun u hu => ?_, fun u hu => congrArg Host.Outcome.next (hnot u hu)⟩
    intro v hheld
    exact congrArg Host.Outcome.next (hready u hu hheld)
  · intro s k c src dst g hc hbare hrows hlen hsrc hdst hssp hplain ia hmaps
    have hwords : 4 * (k.rowLen / 4) = k.rowLen := by omega
    have hmove := copyMove_row hbare hc hrows hlen hsrc hdst hssp hplain hmaps
    constructor
    · intro hdsp hto hplainTo
      rw [← hwords] at hto hplainTo
      rw [hmove, hdsp, copyWrite_memory hbare hto hplainTo, hwords]
    · intro hdsp hg hclean
      rw [hmove, copyWrite_scratch hbare hg hclean hdsp, hwords]
  · intro s cl t st e tm g c htask hstrand henv htm hrun hdebug hA hB horder hfences hpowered d q hg hslot
    obtain ⟨hbad, hserves⟩ := taskIssue_issues ⟨htask, hstrand, henv, ⟨tm, htm, hrun⟩, hdebug, ⟨hA, hB⟩, horder, hfences, hpowered⟩ hg hslot
    exact ⟨fun b hb => congrArg Host.Outcome.next (hbad b hb), fun hnone => congrArg Host.Outcome.next (hserves hnone)⟩
  · intro s cl t st e g c htask hstrand henv hg hcharged hdebug hfirst base gone bad
    have hexec : exec (.taskRetire cl t.entry) s = .next (retired s cl t st g) :=
      congrArg Host.Outcome.next (taskRetire_eq ⟨htask, hstrand, ⟨e, henv, hg, hdebug⟩, hcharged, hfirst⟩)
    rw [hexec]
    refine ⟨fun hp => congrArg _ (retired_poisoned hp), fun hp => ⟨fun hk x hw => ?_, fun hk cause detail x hw => ?_, fun hk hvalid => ?_,
      fun hk l hl => ?_, fun hk => ?_⟩⟩
    · exact congrArg _ (retired_done hp (by rw [taskWork, hk]; exact congrArg some hw))
    · exact congrArg _ (retired_bad hp (by rw [taskWork, hk]; exact congrArg some hw))
    · exact congrArg _ (retired_done hp (by rw [taskWork, hk]; exact congrArg some (mmaWork_done hvalid)))
    · exact congrArg _ (retired_bad hp (by rw [taskWork, hk]; exact congrArg some (mmaWork_bad hl)))
    · intro vs bytes u
      rw [retired_mdrain hp hk]
      refine ⟨fun hx => ?_, fun k hx hfound => ?_⟩
      · rw [amaxDrained_none hx]
        rfl
      · rw [amaxDrained_some (u := s.slotDrained t g st) hx hfound]
        rfl

end Sys2Proof.Machine
end
